-- ==== Sys2Proof/Word.lean ====
section
/-! DEFINITION. The word types of the PZ8 and their plainest arithmetic. -/

namespace Sys2Proof

abbrev Byte := BitVec 8
abbrev W16 := BitVec 16
abbrev W32 := BitVec 32
abbrev W64 := BitVec 64
abbrev W128 := BitVec 128

/-- A sparse byte store in canonical form: addresses strictly rising, no entry equal to 0x00, which is
what an unlisted address reads as (R254; host memory: log 9). -/
abbrev Bytes := List (Nat × Byte)

/-- A value narrowed to 32 bits. -/
abbrev w32 (n : Nat) : W32 := BitVec.ofNat 32 n
abbrev w64 (n : Nat) : W64 := BitVec.ofNat 64 n
abbrev w128 (n : Nat) : W128 := BitVec.ofNat 128 n

end Sys2Proof
end

