-- ==== Sys2Proof/Syntax.lean ====
section
/-! DEFINITION. The commands of the PZ8: one constructor of Instr for each row of spec/opcode_table.json, with the
operands that the row's step needs from outside the module (log 8, log 11). -/

namespace Sys2Proof

/-- Who sends an order that the management controller may place as well as allotment 0 (R23, R332): an accepted command,
by its identity, or the management controller with the parameter bytes of the command (little-endian). -/
inductive Src where
  | cmd (id : Nat)
  | mgmt (params : Nat)
  deriving DecidableEq, Repr

/-- What host software stored in its own memory before it rang a doorbell, and the host ranges [first, end) whose
accesses now complete with an error (R261, R286). -/
structure HostStores where
  cells : List (Nat × Byte) := []
  bad : Option (List (Nat × Nat)) := none
  deriving DecidableEq, Repr

/-- A start-up cut short in a step (R433, R436): the step, and the units it had started and finished. -/
structure CutShort where
  step : Nat
  started : List Nat := []
  finished : List Nat := []
  /-- the record being written at the cut is left without its commit word -/
  torn : Bool := false
  deriving DecidableEq, Repr

/-- How the units of the module answer a run of start-up steps (R432, R433): for a journal unit index (R437), how many of
its ways (the normal way first, then the alternatives in order) fail; a rail that does not reach regulation; where the
start was cut short. -/
structure Trial where
  fails : List (Nat × Nat) := []
  railBad : Bool := false
  cut : Option CutShort := none
  deriving DecidableEq, Repr

/-- One exchange of a time measurement (R467): t1 local send, t2 peer receive, t3 peer send, t4 local receive. -/
structure Exchange where
  t1 : Nat
  t2 : Nat
  t3 : Nat
  t4 : Nat
  deriving DecidableEq, Repr

/-- What one peer answered to a measurement: its exchanges (none: it could not be reached) and whether it is in holdover. -/
structure PeerTiming where
  peer : Nat
  exchanges : List Exchange := []
  holdover : Bool := false
  deriving DecidableEq, Repr

/-- What the outside brings to the orders of one arbiter round: how start-up units answer, the unit words whose UNFENCE
test fails (R424), and what peers answer to a measurement (R467). -/
structure Outside where
  trial : Trial := {}
  testFails : List Nat := []
  timing : List PeerTiming := []
  deriving DecidableEq, Repr

/-- One event that a detector reports (R414): the source ID, up to 8 bytes of syndrome, the allotment and object block
that a memory event names (owner, handle, offset in 64-byte units), the command that the failing unit serves and the
peer of a peer event. -/
structure Detected where
  source : Nat
  syndrome : Nat := 0
  owner : Option Nat := none
  handle : Nat := 0
  offset64 : Nat := 0
  served : Option Nat := none
  peer : Nat := 0
  deriving DecidableEq, Repr

/-- One entry of the brown-out log (R472). -/
structure BrownOut where
  time : Nat
  durUs : Nat
  vext : Nat
  kind : Nat
  deriving DecidableEq, Repr

/-- A received byte string (a frame or a packet) as it leaves the link (R341, R353). -/
abbrev Wire := List Byte

/-- The partner's PAIR_BIND as it arrives (R371). -/
structure PartnerBind where
  peer : Nat
  names : Nat
  role : Nat
  lagSteps : Nat
  temperSync : Bool
  feedId : Nat
  variant : Nat
  mirrorGib : Nat
  portA : Nat
  portB : Nat
  logGib : Nat
  keysOk : Bool
  secret : Nat
  deriving DecidableEq, Repr

/-- The partner's closed-step counts of one steered layer and slot, with the running maximum (R386, R387). counts:
CONV_ELEMS, NONZERO_IN, NZ_CODES, ZEROED, CONV_BLOCKS and SAT_BLOCKS of the slot, then the layer's OPS, whether an op
reported SPILL_OVERFLOW and whether one passed HARD_SAT. chans: the channel maxima of the side of slot W or A, as codes (R171). -/
structure SyncSlot where
  layer : Nat
  slot : Nat
  runMax : W32
  counts : List Nat
  chans : List (Nat × Nat) := []
  deriving DecidableEq, Repr

/-- A debug token (R448): the challenge it answers and its ECDSA P-384 signature. -/
structure DebugToken where
  challenge : Nat
  signature : Nat
  deriving DecidableEq, Repr

/-- The commands and events of the PZ8, one constructor per row of spec/opcode_table.json. -/
inductive Instr where
  -- Deant commands: queues and allotments (R322 to R326, R297, R306)
  | nop (id : Nat)
  | qCreate (id : Nat)
  | qDestroy (id : Nat)
  | flushRest (id : Nat)
  | allotCreate (id : Nat)
  | allotDestroy (id : Nat)
  | watch (id : Nat)
  | watchTimeout (id : Nat)
  -- objects and pools (R252 to R279). The operands index here and of STREAM_OPEN, and pid of PROG_LOAD, have no effect: the
  -- module picks the number itself, by Config.pick (R32, log 44)
  | objCreate (id index : Nat)
  | objFree (id : Nat)
  | objMove (id : Nat)
  | objPin (id : Nat)
  | objCopy (id : Nat)
  | poolSet (src : Src)
  -- work of the hearths; seq: the tile sequencer, engines: the engines that are taken
  | tileRun (id seq : Nat)
  | progLoad (id pid : Nat)
  | progRun (id : Nat) (engines : List Nat)
  | barrier (id : Nat)
  | tokenWait (id : Nat)
  | tokenWaitTimeout (id : Nat)
  -- precision steering (R150 to R168, R195, R328)
  | temperSet (id : Nat)
  | temperRead (id : Nat)
  | statsRead (id : Nat)
  | scaleSet (id : Nat)
  | gridLoad (id : Nat)
  | spillSet (id : Nat)
  | stepMark (id : Nat)
  -- the update engine (R219 to R241); sums: the local sums of the other members, by peer ID (R222)
  | updNorm (id : Nat) (sums : List (Nat × W32))
  | updApply (id : Nat)
  | updFreeze (id : Nat)
  | updRule (id : Nat)
  -- fabric (R350 to R368)
  | peerMap (id : Nat)
  | routeRewrite (id : Nat)
  | collBegin (id : Nat)
  | collDeadline (id : Nat)
  | tailPolicy (id : Nat)
  | streamOpen (id index : Nat)
  | streamClose (id : Nat)
  -- pair and recovery (R371 to R403); manifest: a remote store's bytes with its chunk digests behind them; chunks: a chunk number
  -- with its first and its second read
  | pairBind (id : Nat)
  | bindWaitTimeout
  | pairUnbind (id : Nat)
  | pairTimeout
  | mirrorSet (id : Nat)
  | snapTake (id costUs : Nat)
  | snapCommit (id : Nat)
  | fillBegin (id : Nat) (manifest : Wire) (chunks : List (Nat × Wire × Wire))
  | fillGrantExpiry (fillId : Nat)
  | fillRead (fillId chunk : Nat)
  | fillChunk (id : Nat) (chunks : List (Nat × Wire × Wire))
  | fillCommit (id : Nat)
  | quench (src : Src)
  | restoreVerify (id : Nat)
  | fleetRate (id : Nat)
  -- observation (R452 to R467)
  | ctrConfig (src : Src)
  | ctrRead (id : Nat)
  | traceConfig (id : Nat)
  | traceRead (id : Nat)
  | timeMeasure (id : Nat) (timing : List PeerTiming)
  -- faults and device (R329 to R337, R423 to R443)
  | faultRead (id : Nat)
  | faultClear (src : Src)
  | faultSeverity (src : Src)
  | faultForce (id : Nat)
  | fence (src : Src)
  | unfence (src : Src) (pass : Bool)
  | selftest (src : Src)
  | powerCap (src : Src)
  | devInfo (id : Nat)
  | journalRead (id : Nat)
  | fwStage (id : Nat)
  | allotReset (src : Src)
  | devReset (src : Src) (trial : Trial)
  -- the life of a command (R286 to R337)
  | commandAccept (allot queue : Nat)
  | commandStart (id : Nat)
  | commandComplete (id : Nat)
  | arbiterRound (out : Outside)
  | doorbellCommandWrite (fn : Nat) (value : W64) (size : Nat) (stores : HostStores)
  | doorbellReplyRead (fn : Nat) (value : W64) (size : Nat)
  | gapSeen (allot queue : Nat)
  | doorbellErr (fn : Nat)
  | adminqEnable (fn : Nat) (ctrl : W32)
  | adminqDisable (fn : Nat) (ctrl : W32)
  | timestampLowRead (fn : Nat)
  | registerWrite (fn offset size : Nat) (value : W64)
  | unsupportedRequest (fn offset : Nat)
  | functionLevelResetVf (vf : Nat)
  | functionLevelResetPf (trial : Trial)
  | vfRemoval (vfEnable : Bool) (numVfs : Nat)
  -- tile ops (R62 to R65, R115, R152)
  | tileOpIssue (hearth seq anvil : Nat)
  | tileOpComplete (id op : Nat)
  -- mirror and partner (R274, R378 to R387, R24, R346); mine: an epoch of this module, else the partner's with its record
  | epochCommit (mine : Bool) (allot epoch : Nat) (record : Wire)
  | lagBoundRelease (id : Nat)
  | temperSyncStats (allot step : Nat) (stats : List SyncSlot)
  | tier3Allocation (bytes : Nat)
  | mirrorReservation (allot mirrorId bytes : Nat)
  | unbindOrder
  | keyInstallation (port dir key : Nat)
  | keyRotation (port dir secret : Nat)
  -- fabric events (R339 to R355)
  | frameReceive (port : Nat) (frame : Wire)
  | replayLimit (port : Nat)
  | portRetrainTimeout (port : Nat)
  | portTrained (port : Nat) (failedLanes : List Nat)
  | packetReceive (port : Nat) (packet : Wire)
  | retransmitTimeout (vc peer own seq : Nat)
  | peerTimeout (peer : Nat)
  | offsetMeasurement (timing : PeerTiming)
  | brownOutLogExchange (log : List BrownOut)
  -- faults and anvils (R69 to R73, R409 to R416)
  | faultEvent (events : List Detected)
  | remapComplete (unit : Nat)
  | correctedEventLimit (source : Nat)
  | handshakeWatchdog (source : Nat) (served : Option Nat)
  | patrolRotation (hearth spare : Nat)
  | anvilTestStart (hearth anvil : Nat)
  | anvilTestComplete (hearth anvil : Nat) (pass : Bool) (testUs : Nat)
  | entryCheckComplete (hearth anvil : Nat) (pass : Bool)
  -- power, thermal and pins (R29, R430 to R492); cooled: the sensors (168: the inlet) that have fallen to where their warning re-arms
  | paceWindow (mhs0 mhs1 : Nat)
  | bellowsTick (avg1 avg10 : Nat) (tj0 tj1 : Nat) (cooled : List Nat)
  | powerOn (trial : Trial)
  | brownOut (vext : Nat)
  | sagEnd (kind durUs vext : Nat)
  | mainRailsOff (rail : Nat)
  | standbyRailOff
  | inputOvervoltage (vext : Nat)
  | powerRestart (trial : Trial)
  | powerAttentionExpiry
  | perstNAssert (trial : Trial)
  | perstNDeassert (trial : Trial)
  | hostLinkLoss (trial : Trial)
  | pwrFailNAssert
  | pwrFailNDeassert (trial : Trial)
  | siteAlarmN
  | feedIdSample (straps : Nat)
  | timebaseLoss
  | timebaseReturn
  | refclkSerdesLoss
  | refclkPcieLoss (trial : Trial)
  | mgmtRestart
  | vTarget (mv : Nat)
  | tjLimit (celsius : Nat)
  | feedIdOverride (enable : Bool) (value : Nat)
  | gpioEffecter (pin : Nat) (drive : Option Bool) (level : Nat)
  | sealFuse (inSession : Bool) (serial : Nat)
  | debugUnlock (token : DebugToken)
  | internalDebugAccess
  -- IEEE 1149.1 (R448)
  | bypass
  | idcode
  | samplePreload (pins : Nat)
  | extest
  | clamp
  | highz
  -- SPDM (R447)
  | getVersion
  | getCapabilities
  | negotiateAlgorithms (algorithms : List Nat)
  | getDigests
  | getCertificate (slot offset length : Nat)
  | challenge (nonce : Nat)
  | getMeasurements (index nonce : Nat)
  | keyExchange (share : Nat)
  | finish (authentic : Bool)
  | heartbeat
  | keyUpdate
  | endSession
  -- PLDM firmware update (R445)
  | requestUpdate (components : Nat)
  | passComponentTable (components : Nat)
  | updateComponent (length : Nat)
  | requestFirmwareData (offset : Nat) (data : Wire)
  | transferComplete
  | verifyComplete
  | applyComplete
  | activateFirmware (selfContained : Bool)
  -- the vector engines (R204 to R217): the engine that issues its next instruction
  | progBudgetExhausted (hearth engine : Nat)
  | add (hearth engine : Nat)
  | sub (hearth engine : Nat)
  | mul (hearth engine : Nat)
  | fma (hearth engine : Nat)
  | min (hearth engine : Nat)
  | max (hearth engine : Nat)
  | abs (hearth engine : Nat)
  | sel (hearth engine : Nat)
  | cmplt (hearth engine : Nat)
  | cmpeq (hearth engine : Nat)
  | cvti (hearth engine : Nat)
  | widen (hearth engine : Nat)
  | narrow (hearth engine : Nat)
  | exp (hearth engine : Nat)
  | exp2 (hearth engine : Nat)
  | log (hearth engine : Nat)
  | log2 (hearth engine : Nat)
  | rcp (hearth engine : Nat)
  | rsqrt (hearth engine : Nat)
  | sqrt (hearth engine : Nat)
  | redsum (hearth engine : Nat)
  | redmax (hearth engine : Nat)
  | srnd (hearth engine : Nat)
  | ld (hearth engine : Nat)
  | st (hearth engine : Nat)
  | ldh (hearth engine : Nat)
  | sth (hearth engine : Nat)
  | gather (hearth engine : Nat)
  | scatter (hearth engine : Nat)
  | sAdd (hearth engine : Nat)
  | sSub (hearth engine : Nat)
  | sMul (hearth engine : Nat)
  | and (hearth engine : Nat)
  | or (hearth engine : Nat)
  | shl (hearth engine : Nat)
  | shr (hearth engine : Nat)
  | fadd (hearth engine : Nat)
  | fmul (hearth engine : Nat)
  | frsqrt (hearth engine : Nat)
  | mov (hearth engine : Nat)
  | jmp (hearth engine : Nat)
  | jnz (hearth engine : Nat)
  | jlt (hearth engine : Nat)
  | vecBarrier (hearth engine : Nat)
  | halt (hearth engine : Nat)
  -- PCIe and management events (R303, R371, R430)
  | vfEnable (numVfs : Nat)
  | managementControllerResumes
  | matchingPairBind (p : PartnerBind)
  deriving DecidableEq, Repr

end Sys2Proof
end

