-- ==== Sys2Proof/Decode.lean ====
section
/-! DEFINITION. decodeTableWord: the rows of spec/opcode_table.json give no bits, so that no word spells a command. -/

namespace Sys2Proof

/-- The command that a word spells by the table's bits: the table gives no row any bits. -/
def decodeTableWord (_nbits _w : Nat) : Option Instr := none

end Sys2Proof
end

