-- ==== Sys2Proof/Config.lean ====
section
/-! DEFINITION. What an implementation fixes and the specification leaves open: opaque constants that nothing in Lean can
evaluate. Each is named in a log entry. -/

namespace Sys2Proof.Config

/-- The memory unit that holds the first byte of an object or a buffer: tier, hearth, allotment, object index. The interleave of
R244 gives the units of the other bytes. FREE VALUE (log 13). -/
opaque firstUnit : Nat → Nat → Nat → Nat → Nat

/-- The channel of its capacity controller that holds a 256-byte unit: allotment, object index, unit. FREE VALUE (log 13). -/
opaque channelOf : Nat → Nat → Nat → Nat

/-- A signature that an ECDSA P-384 key's holder makes of a SHA-384 digest: the key and the digest (R441, R448). The keys are not
in the specification. FREE VALUE (log 14). -/
opaque ecdsaSign : Nat → Nat → Nat

/-- The other signatures that verify: the key, the digest and the signature. FREE VALUE (log 14). -/
opaque ecdsaOther : Nat → Nat → Nat → Bool

/-- The ECDSA P-384 signature of a digest under the attestation key of the running image (R395, R446): the image's
measurement and the digest. FREE VALUE (log 14). -/
opaque attestSign : Nat → Nat → Nat

/-- The port key derived by HKDF with SHA-384 from an exported secret, for a port and a direction (R373). The encoding of the
context is not given. FREE VALUE (log 14). -/
opaque portKey : Nat → Nat → Nat → Nat

/-- The cost C in microseconds that the device measures of an automatic snapshot: allotment and SNAP_ID (R388, R390). FREE VALUE
(log 69). -/
opaque snapCost : Nat → Nat → Nat

/-- The smoothed round trip of a stream in ns: the value before, where there is one, and a new sample (R354). The rule gives no
filter. FREE VALUE (log 64). -/
opaque smoothRtt : Option Nat → Nat → Nat

/-- The 32-bit IDCODE of the module's BSDL file (R448). FREE VALUE (log 15). -/
opaque idcode : Nat

/-- The certificate chain of SPDM slot 0 (R446), its first byte and the others: the module's serial number and the running
image's measurement. FREE VALUE (log 15). -/
opaque certChain : Nat → Nat → Byte × List Byte

/-- The SHA-384 digest of the ROM, measurement block 1 (R447). FREE VALUE (log 15). -/
opaque romDigest : Nat

/-- The responder's ECDHE share of an SPDM session, by the number of the session (R447). FREE VALUE (log 15). -/
opaque spdmShare : Nat → Nat

/-- A random challenge or nonce of the security engine, by count (R447, R448). FREE VALUE (log 15). -/
opaque nonce : Nat → Nat

/-- The number of contraction indices in one K-split pass of the internal tile ops of R230: 1 + updLines mod 64. The rule gives
neither the shape nor the split of these ops, and 64 lines is the most that a bfloat16 pair has. FREE VALUE (log 28). -/
opaque updLines : Nat

/-- The KIND 5 event code of a firmware event (R437): 0 staged, 1 staging failed, 2 activated, 3 confirmed, 4 trial cancelled,
5 status read, 6 expired trial. The rule gives no codes. FREE VALUE (log 41). -/
opaque firmwareEvent : Nat → Nat

/-- The ROM keys, as a map of 4 bits, for which an image with this measurement carries revoke requests (R442); the header of R441
has no field for them. FREE VALUE (log 41). -/
opaque revokeRequest : Nat → Nat

/-- The 64-byte status record of MIRROR_SET KIND 2 as a function of the values that R379 lists for it; the rule gives no
layout. FREE VALUE (log 29). -/
opaque mirrorStatus : List Nat → Nat

/-- A 16-byte tensor entry of MIRROR_SET KIND 2 as a function of the values that R379 lists for it; the rule gives no layout.
FREE VALUE (log 29). -/
opaque mirrorEntry : List Nat → Nat

/-- The number that the device assigns to a new object (0), program (1) or stream (2), by the numbers in use; a number that is not
free is not taken (R32, R250). FREE VALUE (log 44). -/
opaque pick : Nat → List Nat → Nat

end Sys2Proof.Config
end

