-- ==== Sys2Proof/Machine/Bits.lean ====
section
/-! DEFINITION. Bit and byte fields of numbers, byte strings, tables keyed by numbers and sparse byte stores: the plain
helpers that the operations of the module use. -/

namespace Sys2Proof.Machine

/-! ## Fields (R10: little-endian, bit 0 least significant) -/

/-- The unsigned field of size bytes at byte offset off of p. -/
def fieldOf (p off size : Nat) : Nat := (p >>> (8 * off)) % 2 ^ (8 * size)

/-- Bits [lo + n - 1 : lo] of p. -/
def bitsOf (p lo n : Nat) : Nat := (p >>> lo) % 2 ^ n

/-- Bit i of p. -/
def bitOf (p i : Nat) : Bool := p.testBit i

/-- A Bool as a bit. -/
def b2n (b : Bool) : Nat := if b then 1 else 0

/-- The least n with m at most n * k (k positive). -/
def ceilDiv (m k : Nat) : Nat := (m + k - 1) / k

/-- m rounded up to a multiple of k. -/
def roundUp (m k : Nat) : Nat := ceilDiv m k * k

/-- v saturated at limit. -/
def satTo (limit v : Nat) : Nat := if limit < v then limit else v

/-- Sign-extended value of the low n bits of v (n positive). -/
def signedOf (n v : Nat) : Int :=
  let x := v % 2 ^ n
  if x < 2 ^ (n - 1) then (x : Int) else (x : Int) - (2 : Int) ^ n

/-- The low n bits of an integer. -/
def wrapTo (n : Nat) (v : Int) : Nat := (v % (2 : Int) ^ n).toNat

/-! ## Byte strings -/

/-- The number whose little-endian bytes these are. -/
def leNat : List Byte → Nat
  | [] => 0
  | b :: bs => b.toNat + 256 * leNat bs

/-- The len low bytes of v, little-endian. -/
def leBytes (v : Nat) : Nat → List Byte
  | 0 => []
  | len + 1 => BitVec.ofNat 8 v :: leBytes (v / 256) len

/-- The number whose big-endian bytes these are. -/
def beNat (bs : List Byte) : Nat := bs.foldl (fun a b => 256 * a + b.toNat) 0

/-- The len low bytes of v, big-endian. -/
def beBytes (v len : Nat) : List Byte := (leBytes v len).reverse

/-- len zero bytes. -/
def zeros (len : Nat) : List Byte := List.replicate len 0#8

/-- bs cut or zero-padded to len bytes. -/
def padTo (len : Nat) (bs : List Byte) : List Byte := (bs ++ zeros (len - bs.length)).take len

/-- The little-endian field of size bytes at offset off of a byte string; bytes beyond the end read 0. -/
def bytesField (bs : List Byte) (off size : Nat) : Nat := leNat ((bs.drop off).take size)

/-- Pieces of n bytes; the last may be shorter. fuel bounds their number. -/
def chunksOf {α : Type} (n : Nat) : Nat → List α → List (List α)
  | 0, _ => []
  | _ + 1, [] => []
  | fuel + 1, x :: xs => (x :: xs).take n :: chunksOf n fuel ((x :: xs).drop n)

/-- All pieces of n bytes. -/
def pieces {α : Type} (n : Nat) (xs : List α) : List (List α) := chunksOf n (xs.length + 1) xs

/-! ## Tables keyed by numbers, keys rising -/

/-- The entry of key k. -/
def look {α : Type} (k : Nat) : List (Nat × α) → Option α
  | [] => none
  | (j, v) :: r => if j = k then some v else look k r

/-- The table with entry k set to v; keys stay in rising order. -/
def put {α : Type} (k : Nat) (v : α) : List (Nat × α) → List (Nat × α)
  | [] => [(k, v)]
  | (j, w) :: r => if j = k then (k, v) :: r else if k < j then (k, v) :: (j, w) :: r else (j, w) :: put k v r

/-- The table without entry k. -/
def del {α : Type} (k : Nat) (m : List (Nat × α)) : List (Nat × α) := m.filter (fun e => e.1 != k)

/-- The table with f applied to entry k, where there is one. -/
def upd {α : Type} (k : Nat) (f : α → α) (m : List (Nat × α)) : List (Nat × α) :=
  m.map (fun e => if e.1 = k then (e.1, f e.2) else e)

/-- The number at key k, 0 where there is none. -/
def lookN (k : Nat) (m : List (Nat × Nat)) : Nat := (look k m).getD 0

/-- The table of numbers with entry k set to v, an entry of 0 left out. -/
def putN (k v : Nat) (m : List (Nat × Nat)) : List (Nat × Nat) := if v = 0 then del k m else put k v m

/-- The table of numbers with n added to entry k. -/
def addN (k n : Nat) (m : List (Nat × Nat)) : List (Nat × Nat) := if n = 0 then m else put k (lookN k m + n) m

/-- x put into a rising list of distinct numbers. -/
def insertN (x : Nat) : List Nat → List Nat
  | [] => [x]
  | y :: r => if x = y then y :: r else if x < y then x :: y :: r else y :: insertN x r

/-- l in rising order without repeats. -/
def sortN (l : List Nat) : List Nat := l.foldl (fun a x => insertN x a) []

/-- x put into a list behind every entry whose key is not above its own: a stable sort by a key of two numbers. -/
def insertBy {α : Type} (key : α → Nat × Nat) (x : α) : List α → List α
  | [] => [x]
  | y :: r =>
    if (key x).1 < (key y).1 ∨ ((key x).1 = (key y).1 ∧ (key x).2 < (key y).2) then x :: y :: r
    else y :: insertBy key x r

def sortBy {α : Type} (key : α → Nat × Nat) (l : List α) : List α := l.foldl (fun a x => insertBy key x a) []

/-- l without x. -/
def without (x : Nat) (l : List Nat) : List Nat := l.filter (· != x)

/-- The entry at i changed by f. -/
def modAt {α : Type} (i : Nat) (f : α → α) (l : List α) : List α := l.modify i f

def sumN (l : List Nat) : Nat := l.foldl (· + ·) 0

def maxN (l : List Nat) : Nat := l.foldl max 0

/-! ## Sparse byte stores (R254, log 9) -/

/-- The byte at address a. -/
def cellGet (m : Bytes) (a : Nat) : Byte := (look a m).getD 0#8

/-- len bytes from address a of the entries m, none of which lies below a. -/
def cellsFrom : Bytes → Nat → Nat → List Byte
  | _, _, 0 => []
  | [], _, n + 1 => zeros (n + 1)
  | (k, b) :: m, a, n + 1 =>
    if k = a then b :: cellsFrom m (a + 1) n else 0#8 :: cellsFrom ((k, b) :: m) (a + 1) n

/-- len bytes from address a. -/
def cellRead (m : Bytes) (a len : Nat) : List Byte := cellsFrom (m.dropWhile (fun e => e.1 < a)) a len

/-- The entries of the bytes bs from address a. -/
def cellsOf : Nat → List Byte → Bytes
  | _, [] => []
  | a, b :: bs => if b = 0#8 then cellsOf (a + 1) bs else (a, b) :: cellsOf (a + 1) bs

/-- The store with the bytes bs written from address a. -/
def cellWrite (m : Bytes) (a : Nat) (bs : List Byte) : Bytes :=
  m.takeWhile (fun e => e.1 < a) ++ cellsOf a bs ++ m.dropWhile (fun e => e.1 < a + bs.length)

/-- The store with len zero bytes written from address a. -/
def cellZero (m : Bytes) (a len : Nat) : Bytes :=
  m.takeWhile (fun e => e.1 < a) ++ m.dropWhile (fun e => e.1 < a + len)

/-- The canonical form: addresses strictly rising, no entry 0. -/
def cellsWf : Bytes → Bool
  | [] => true
  | [(_, b)] => b != 0#8
  | (k, b) :: (j, c) :: m => b != 0#8 && decide (k < j) && cellsWf ((j, c) :: m)

end Sys2Proof.Machine
end

