-- ==== Sys2Proof/Machine/Cipher.lean ====
section
/-! DEFINITION. Check values (R369), and AES-256-GCM of the port ciphers (R346). PRESUMED (log 63): the block cipher of FIPS 197 and
the mode of NIST SP 800-38D, which R345 names. -/

namespace Sys2Proof.Machine

/-! ## Check polynomials (R369) -/

/-- A row of the table of R369. -/
structure Poly where
  width : Nat
  poly : Nat
  init : Nat
  reflected : Bool
  xorOut : Nat
  deriving DecidableEq, Repr

/-- The polynomial of a POLY value. -/
def polyOf (n : Nat) : Poly :=
  match n with
  | 0 => ⟨16, 0x1021, 0xFFFF, false, 0⟩
  | 1 => ⟨32, 0x04C11DB7, 0xFFFFFFFF, true, 0xFFFFFFFF⟩
  | 2 => ⟨32, 0x1EDC6F41, 0xFFFFFFFF, true, 0xFFFFFFFF⟩
  | _ => ⟨64, 0x42F0E1EBA9EA3693, 0, false, 0⟩

/-- One bit enters the register. -/
def Poly.bit (p : Poly) (r : Nat) (b : Bool) : Nat :=
  let t := (2 * r) % 2 ^ p.width
  if r.testBit (p.width - 1) != b then t ^^^ p.poly else t

/-- One byte, its most significant bit first, or its least significant where the row is reflected. -/
def Poly.byte (p : Poly) (r : Nat) (x : Byte) : Nat :=
  (List.range 8).foldl (fun q i => p.bit q (x.toNat.testBit (if p.reflected then i else 7 - i))) r

/-- The n low bits of v in the reverse order. -/
def revBits (n v : Nat) : Nat := (List.range n).foldl (fun a i => 2 * a + b2n (v.testBit i)) 0

/-- The check value of a byte string. -/
def Poly.check (p : Poly) (bs : List Byte) : Nat :=
  let r := bs.foldl p.byte p.init
  (if p.reflected then revBits p.width r else r) ^^^ p.xorOut

/-- The bytes of a check value. -/
def Poly.bytes (p : Poly) : Nat := p.width / 8

/-- CRC-64/ECMA-182. -/
def crc64 (bs : List Byte) : Nat := (polyOf 3).check bs

/-! ## AES-256 -/

/-- A byte times x in the field of the cipher. -/
def gfDouble (a : Nat) : Nat := if a < 128 then 2 * a else (2 * a) ^^^ 0x11B

def gfMul (a b : Nat) : Nat :=
  ((List.range 8).foldl (fun (p : Nat × Nat) i => (if b.testBit i then p.1 ^^^ p.2 else p.1, gfDouble p.2)) (0, a)).1

/-- The inverse, the power 254; 0 of 0. -/
def gfInverse (a : Nat) : Nat :=
  ((List.range 7).foldl (fun (p : Nat × Nat) _ => let q := gfMul p.2 p.2; (gfMul p.1 q, q)) (1, a)).1

def rotByte (n b : Nat) : Nat := b * 2 ^ n % 256 + b / 2 ^ (8 - n)

/-- The substitution of a byte. -/
def aesSub (a : Nat) : Nat :=
  let b := gfInverse a
  b ^^^ rotByte 1 b ^^^ rotByte 2 b ^^^ rotByte 3 b ^^^ rotByte 4 b ^^^ 0x63

def xorList (a b : List Nat) : List Nat := a.zipWith (· ^^^ ·) b

/-- One more word of the key schedule. -/
def aesWord (ws : List (List Nat)) (i : Nat) : List (List Nat) :=
  let last := ws.getD (i - 1) []
  let t := if i % 8 = 0 then xorList ((last.drop 1 ++ last.take 1).map aesSub) [2 ^ (i / 8 - 1), 0, 0, 0]
    else if i % 8 = 4 then last.map aesSub else last
  ws ++ [xorList (ws.getD (i - 8) []) t]

/-- The 15 round keys of a key of 32 bytes. -/
def aesKeys (key : List Nat) : List (List Nat) :=
  let ws := (List.range 52).foldl (fun w i => aesWord w (i + 8)) (pieces 4 key)
  (List.range 15).map (fun r => ((ws.drop (4 * r)).take 4).flatten)

/-- Byte r of column c moves from column c + r. -/
def aesShift (x : List Nat) : List Nat := (List.range 16).map (fun i => x.getD ((i + 4 * (i % 4)) % 16) 0)

/-- One column is mixed. -/
def aesMixOne (c : List Nat) : List Nat :=
  (List.range 4).map (fun i =>
    let b (k : Nat) : Nat := c.getD ((i + k) % 4) 0
    gfMul (b 0) 2 ^^^ gfMul (b 1) 3 ^^^ b 2 ^^^ b 3)

def aesMix (x : List Nat) : List Nat := (pieces 4 x).flatMap aesMixOne

/-- The cipher on one block of 16 bytes. -/
def aesBlock (keys : List (List Nat)) (x : List Nat) : List Nat :=
  let y := (List.range 13).foldl (fun z r => xorList (aesMix (aesShift (z.map aesSub))) (keys.getD (r + 1) [])) (xorList x (keys.getD 0 []))
  xorList (aesShift (y.map aesSub)) (keys.getD 14 [])

/-! ## Galois counter mode -/

/-- The product of two blocks, as numbers whose most significant bit is the first of the block. -/
def ghashMul (x y : Nat) : Nat :=
  ((List.range 128).foldl (fun (p : Nat × Nat) i =>
    (if x.testBit (127 - i) then p.1 ^^^ p.2 else p.1, if p.2.testBit 0 then (p.2 / 2) ^^^ (0xE1 * 2 ^ 120) else p.2 / 2)) (0, y)).1

/-- Bytes as the numbers of their blocks, the last filled up with zeros. -/
def blocksOf (bs : List Byte) : List Nat := (pieces 16 bs).map (fun p => beNat (padTo 16 p))

def ghash (h : Nat) (xs : List Nat) : Nat := xs.foldl (fun y x => ghashMul (y ^^^ x) h) 0

/-- Block n of the key stream of an IV of 12 bytes; block 1 masks the tag. -/
def gcmBlock (keys : List (List Nat)) (iv : List Byte) (n : Nat) : Nat :=
  beNat ((aesBlock keys ((iv ++ beBytes n 4).map (·.toNat))).map (BitVec.ofNat 8))

/-- Bytes under the key stream. -/
def gcmStream (keys : List (List Nat)) (iv : List Byte) (bs : List Byte) : List Byte :=
  ((pieces 16 bs).zipIdx).flatMap (fun e => e.1.zipWith (· ^^^ ·) (beBytes (gcmBlock keys iv (e.2 + 2)) 16))

/-- The tag of a ciphertext with its additional data. -/
def gcmTag (keys : List (List Nat)) (iv aad cipher : List Byte) : List Byte :=
  let h := beNat ((aesBlock keys (List.replicate 16 0)).map (BitVec.ofNat 8))
  beBytes (ghash h (blocksOf aad ++ blocksOf cipher ++ [8 * aad.length * 2 ^ 64 + 8 * cipher.length]) ^^^ gcmBlock keys iv 1) 16

/-- The round keys of a key as a number, its first byte the most significant. -/
def gcmKeys (key : Nat) : List (List Nat) := aesKeys ((beBytes key 32).map (·.toNat))

/-- Sealed bytes: the ciphertext and its tag of 16 bytes. -/
def gcmSeal (key : Nat) (iv aad plain : List Byte) : List Byte :=
  let ks := gcmKeys key
  let c := gcmStream ks iv plain
  c ++ gcmTag ks iv aad c

/-- Sealed bytes opened; none where the tag fails. -/
def gcmOpen (key : Nat) (iv aad bs : List Byte) : Option (List Byte) :=
  let ks := gcmKeys key
  let c := bs.take (bs.length - 16)
  if 16 ≤ bs.length ∧ gcmTag ks iv aad c = bs.drop (bs.length - 16) then some (gcmStream ks iv c) else none

end Sys2Proof.Machine
end

