-- ==== Sys2Proof/Machine/State.lean ====
section
/-! DEFINITION. The state of the PZ8 as plain data, and State.reset. The default of a field is its reset value: the spec's
where its rule gives one, else the value that the named log entry gives. -/

namespace Sys2Proof.Machine

/-! ## Small enumerations -/

/-- The variant of the part (R3, R310 DEV_IDENT). -/
inductive Variant where
  | x
  | h
  deriving DecidableEq, Repr

/-- The completion codes of R317. -/
inductive Code where
  | ok | okWithNote | skippedFrozen | superseded | discarded | retriedWider
  | badOpcode | badParam | noResource | notPermitted | gapSeen | wrongState | authFailed
  | faultContained | faultFatal
  deriving DecidableEq, Repr

/-- The masters of the state arbiter (R332), with allotment 0 without a queue (R303). -/
inductive Master where
  | siteAlarm
  | mgmt
  | partner
  | noQueue (acts : Nat)
  | allot
  deriving DecidableEq, Repr

/-- The phases of an accepted command (R293, R315, R155): accepted, started, at work (a unit works on it or it waits for an
event of its own), held, or complete and waiting for its reply to be written. -/
inductive Phase where
  | accepted | started | working | held | done
  deriving DecidableEq, Repr

/-- An accepted command that has not been replied to. The identity id is the model's own (log 8). -/
structure Cmd where
  id : Nat
  master : Master := .allot
  allot : Nat := 0
  queue : Nat := 0
  acc : Nat := 0
  tag : W32 := 0
  opcode : Nat := 0
  flags : Nat := 0
  dep : Nat := 0
  plen : Nat := 0
  params : Nat := 0
  gen : BitVec 8 := 0
  phase : Phase := .accepted
  tAccept : Nat := 0
  tStart : Nat := 0
  /-- how far a command of several steps has come, as its own meaning counts -/
  stage : Nat := 0
  /-- numbers that the command's meaning keeps between its steps -/
  aux : List Nat := []
  replyQ : Nat := 0
  waitedToken : Bool := false
  /-- it has started and waits for a delta set (R453, R454) -/
  waitSet : Bool := false
  /-- writes of the command that would remain if it were discarded now (PARTIAL, R318) -/
  wrote : Bool := false
  code : Code := .ok
  detail : W32 := 0
  result : W128 := 0
  /-- the tail policy and deadline that were its group's default at its acceptance (R368) -/
  tail : Nat := 1
  tailUs : Nat := 0xFFFFFFFF
  deriving DecidableEq, Repr

/-! ## Queues (R285, R300) -/

/-- A gap marker waiting to be replied (R298): the slots dropped and the pointer of the first. -/
structure Gap where
  dropped : Nat
  first : Nat
  deriving DecidableEq, Repr

/-- A queue descriptor (R300). -/
structure QDesc where
  base : W64 := 0
  reply : Bool := false
  log2 : Nat := 4
  stopped : Bool := false
  replyQ : Nat := 0
  devPtr : Nat := 0
  hostPtr : Nat := 0
  resv : Nat := 0
  qseqNext : Nat := 1
  partialSlots : Nat := 0
  /-- reply entries reserved for the packet that those slots begin (R289) -/
  partialResv : Nat := 0
  destroying : Bool := false
  gap : Option Gap := none
  deriving DecidableEq, Repr

/-- DOORBELL_ERR (R312). -/
structure DbErr where
  qid : Nat := 0
  reason : Nat := 0
  more : Bool := false
  deriving DecidableEq, Repr

/-! ## Objects (R79, R249 to R259) -/

/-- A stored tensor or raw bytes: format code (R75), scale mode (R80), the TENSOR scale attribute, the N4 grid (R83; empty
means the default grid, R85) and the bytes of all planes in the order of R79. -/
structure Tensor where
  raw : Bool := true
  fmt : Nat := 0
  smode : Nat := 0
  blkmax : Bool := false
  rows : Nat := 0
  rowLen : Nat := 0
  tscale : Nat := 0
  grid : List Nat := []
  data : Bytes := []
  deriving DecidableEq, Repr

/-- A channel binding (R170, R195): layer, side object and axis. -/
structure ChanBind where
  layer : Nat
  side : Nat
  axis : Nat
  deriving DecidableEq, Repr

/-- A value binding (R182, R195). -/
structure ValBind where
  side : Nat
  quota : Nat
  perBlock : Nat
  gap : Nat
  deriving DecidableEq, Repr

/-- A live object (R249 to R259). -/
structure Obj where
  reuse : Nat := 0
  t : Tensor := {}
  size : Nat := 0
  charged : Nat := 0
  tier : Nat := 0
  hearth : Nat := 0
  pinned : Bool := false
  /-- a valid tier-2 copy exists (R271) -/
  shadow : Bool := false
  lost : Bool := false
  lastUse : Nat := 0
  /-- poisoned 64-byte blocks: the offset in 64-byte units and the kind-2 source of the unit that holds it (R417) -/
  poison : List (Nat × Nat) := []
  /-- blocks of the tier-2 copy that were poisoned when it was made (R417) -/
  shadowPoison : List Nat := []
  chan : Option ChanBind := none
  val : Option ValBind := none
  flagMap : Option Nat := none
  /-- change fraction at the last update or all-gather (R233, R380) -/
  changeFrac : Option Nat := none
  deriving DecidableEq, Repr

/-- One pool of an allotment (R263): quota and reserve in MiB. -/
structure Pool where
  quota : Nat := 0
  reserve : Nat := 0
  deriving DecidableEq, Repr

/-- What an internal allocation is for (R264). -/
inductive ChargeKind where
  | layers | residual (layer : Nat) | copy (layer : Nat) | buffer (cmd : Nat) | workspace (cmd : Nat)
  | tailwater (group peer index : Nat) | mirrorLog | shadow (index : Nat)
  deriving DecidableEq, Repr

/-- An internal allocation charged to pool number pool (0 to 5, R263). -/
structure Charge where
  kind : ChargeKind
  pool : Nat
  bytes : Nat
  /-- tile rows of accumulator memory, by anvil, that hold what fenced banks held of a buffer (R126, R127) -/
  rows : List (Nat × Nat) := []
  deriving DecidableEq, Repr

/-! ## Precision steering (R131 to R196) -/

/-- One role of a rung (R137): format, temper scale mode, STOCH. -/
structure Role where
  fmt : Nat := 4
  mode : Nat := 0
  stoch : Bool := false
  deriving DecidableEq, Repr

/-- One rung of a ladder (R137, R163). -/
structure Rung where
  w : Role := {}
  a : Role := {}
  g : Role := {}
  deriving DecidableEq, Repr

/-- The statistics of one slot in one step (R100, R135, R166 Slot block). -/
structure SlotStats where
  runMax : W32 := 0
  scale : Nat := 0
  fmt : Option Nat := none
  convElems : Nat := 0
  nonzeroIn : Nat := 0
  nzCodes : Nat := 0
  saturated : Nat := 0
  zeroed : Nat := 0
  nanIn : Nat := 0
  convBlocks : Nat := 0
  satBlocks : Nat := 0
  zeroBlocks : Nat := 0
  swampedBlocks : Nat := 0
  spillUsed : Nat := 0
  spillOver : Nat := 0
  hist : List Nat := List.replicate 32 0
  /-- the smallest largest magnitude among the N4 grids that the slot's conversions used (R142), as an entry byte -/
  gridMax : Option Nat := none
  deriving DecidableEq, Repr

/-- The statistics of a layer in one step (R166 Statistics header). -/
structure StepStats where
  step : Nat := 0
  rung : Nat := 0
  trig : Nat := 0
  ops : Nat := 0
  accSaturated : Nat := 0
  accZeroed : Nat := 0
  retries : Nat := 0
  spillOver : Bool := false
  hardSat : Bool := false
  severity : Nat := 0
  slots : List SlotStats := List.replicate 4 {}
  /-- channel maxima of the A side and of the W side, by channel, as codes (R171) -/
  chmaxA : List (Nat × Nat) := []
  chmaxW : List (Nat × Nat) := []
  deriving DecidableEq, Repr

/-- A layer's spill policy (R195 KIND 0) with the lists in force and the passed-over channels, by window (R172). -/
structure SpillPolicy where
  list : Nat := 0
  kLen : Nat := 0
  cap : Nat := 0
  gap : Nat := 4
  mode : Nat := 2
  efW : Bool := false
  lists : List (Nat × List Nat) := []
  passed : List (Nat × List Nat) := []
  deriving DecidableEq, Repr

/-- A steered layer (R131, R162), with its histories, statistics, working copy and residual. -/
structure Layer where
  ladder : Nat := 0
  lo : Nat := 0
  hi : Nat := 0
  rung : Nat := 0
  autoOff : Bool := false
  dryMask : Bool := false
  hist : Nat := 16
  margin : Nat := 1
  promoSat : Nat := 10
  promoZero : Nat := 200
  hardSat : Nat := 100
  demoteSteps : Nat := 200
  drySteps : Nat := 32
  dryEps : Nat := 0
  wMaster : Nat := 0
  wScales : Nat := 0
  group : Nat := 1
  boundHigh : Bool := false
  dry : Bool := false
  probing : Bool := false
  storm : Bool := false
  poolShort : Bool := false
  wouldPromote : Bool := false
  cleanCount : Nat := 0
  dryCount : Nat := 0
  /-- delayed codes of W, A, G, O; the initial code is 0x7F (R142) -/
  scales : List Nat := [127, 127, 127, 127]
  pins : List Bool := [false, false, false, false]
  /-- the format of the TENSOR outputs that slot O last converted to (R142) -/
  oFmt : Option Nat := none
  /-- running maxima of the last 64 closed steps of each slot, newest first (R142) -/
  history : List (List W32) := [[], [], [], []]
  openStats : StepStats := {}
  /-- the part of the open step's counts that each TILE_RUN gave, by acceptance number (R154) -/
  openBy : List (Nat × StepStats) := []
  closedStats : StepStats := {}
  /-- the working copy: its format and mode as a tensor, and whether it was written in full (R140, R500) -/
  copy : Option Tensor := none
  copyValid : Bool := false
  /-- what the working copy was allocated for: format, temper scale mode and W master (R151) -/
  copyKey : Option (Nat × Nat × Nat) := none
  /-- W format and temper scale mode in force at the last STEP_MARK (R140, R193) -/
  wForm : Option (Nat × Nat) := none
  /-- the error-feedback residual, 2 bytes an element of the padded element plane (R192) -/
  residual : Option Bytes := none
  changeFrac : Option Nat := none
  spill : SpillPolicy := {}
  deriving DecidableEq, Repr

/-- A record accepted since the last STEP_MARK that takes effect at the next one (R150, R169, R144, R379). bytes: the
record or the parameter block, little-endian. -/
inductive PendRec where
  | layer (bytes : Nat)
  | ladder (bytes : Nat)
  | policy (bytes : Nat)
  | spill (params : Nat)
  | scale (params : Nat)
  | mirror (bytes : Nat)
  | mirrorPolicy (bytes : Nat)
  deriving DecidableEq, Repr

/-- The precision-steering state of an allotment. -/
structure Temper where
  layers : List (Nat × Layer) := []
  ladders : List (Nat × List Rung) := []
  stormThresh : Nat := 5000
  stormHold : Bool := false
  storm : Bool := false
  nonfinite : Bool := false
  step : Nat := 0
  steeredAtOpen : Nat := 0
  holdOpen : Bool := false
  stormInStep : Bool := false
  holdInStep : Bool := false
  /-- STORM_RELEASE ended a hold in the open step: no UPD_APPLY accepted after it is held (R156) -/
  released : Bool := false
  /-- accepted records that have not taken effect, with the acceptance number of their command -/
  recs : List (Nat × PendRec) := []
  deriving DecidableEq, Repr

/-! ## The update engine (R219 to R235) -/

/-- A rule record (R234). -/
structure Rule where
  iters : Nat := 5
  nesterov : Bool := false
  masterStoch : Bool := false
  eps : W32 := 0x33800000#32
  scaleK : W32 := 0x3F800000#32
  coef : List (W32 × W32 × W32) := List.replicate 5 (0x3FF00000#32, 0xBFA00000#32, 0x3EC00000#32)
  deriving DecidableEq, Repr

/-- A norm slot (R223). -/
structure Norm where
  n : W32
  qLocal : W32
  nonfinite : Nat
  deriving DecidableEq, Repr

/-- An UPD_APPLY past its holds (R226, R230, R238): the clip factor, the number of records started or skipped, the counts of its
reply, and the records in progress with D of their workspace. -/
structure ApplyRun where
  cmd : Nat
  clip : W32
  next : Nat := 0
  applied : Nat := 0
  skipped : Nat := 0
  work : List (Nat × List W32) := []
  deriving DecidableEq, Repr

structure Upd where
  rules : List (Nat × Rule) := [(0, {})]
  norms : List (Nat × Norm) := []
  frozen : List Nat := []
  /-- UPD_APPLY commands at their records -/
  runs : List ApplyRun := []
  deriving DecidableEq, Repr

/-! ## Vector programs and engines (R198 to R217) -/

/-- A loaded program (R201): its words, and whether it was loaded with FTZ. -/
structure Prog where
  pid : Nat
  words : List W64
  ftz : Bool := false
  /-- program stores that hold it (R201, R415) -/
  stores : List Nat := [0, 1]
  deriving DecidableEq, Repr

/-- One engine (07 Register model). A register that the list leaves out holds 0 in every lane (R204). -/
structure Engine where
  fenced : Bool := false
  draining : Bool := false
  /-- the command of the run and the engine's rank in it -/
  run : Option (Nat × Nat) := none
  pc : Nat := 0
  v : List (Nat × List W32) := []
  s : List (Nat × W64) := []
  p : List (Nat × BitVec 256) := []
  count : Nat := 0
  atBarrier : Bool := false
  halted : Bool := false
  deriving DecidableEq, Repr

/-- One window of a launch block (R202). -/
structure Window where
  handle : Nat := 0
  offset : Nat := 0
  layer : Nat := 0
  slot : Nat := 0
  stats : Bool := false
  write : Bool := false
  deriving DecidableEq, Repr

/-- A PROG_RUN in progress (R202 to R205). -/
structure VRun where
  cmd : Nat
  allot : Nat
  pid : Nat
  ftz : Bool
  engines : List Nat
  budget : Nat
  wins : List Window
  gens : List (W64 × W32)
  wrote : Bool := false
  /-- stopped: the pc of the lowest stopping rank, the rank, and whether by access or budget (R205) -/
  stop : Option (Nat × Nat × Bool) := none
  s10 : W64 := 0
  deriving DecidableEq, Repr

/-! ## Tile ops (R55 to R65) -/

/-- The stamp of an op (R128, R169): rung, formats and temper modes of both operands, the temper's STOCH bits, the
channel lists in force, and the SCALE code in force for each slot. -/
structure Stamp where
  rung : Nat := 0
  s : Option Role := none
  t : Option Role := none
  sCode : Nat := 127
  tCode : Nat := 127
  lists : List (Nat × List Nat) := []
  deriving DecidableEq, Repr

inductive OpPhase where
  | waiting | issued | drained | finished
  deriving DecidableEq, Repr

/-- One op of a list: the 64-byte descriptor as a number, its stamp, and what its work has given so far. -/
structure OpRec where
  desc : Nat
  stamp : Stamp := {}
  phase : OpPhase := .waiting
  anvil : Nat := 0
  waited : Bool := false
  /-- its wait for the pass before it is counted (R117) -/
  stalled : Bool := false
  rerun : Bool := false
  allMasked : Bool := false
  spillOver : Bool := false
  /-- the sums of the fed output elements, row-major, each a pair (s, c) of R121 (c = 0 out of compensated mode) -/
  sums : List (W32 × W32) := []
  /-- lifted-value corrections of R188, row-major; empty when no operand carries lifted values -/
  lifted : List (Nat × W32) := []
  satBlocks : Nat := 0
  convBlocks : Nat := 0
  /-- the statistics that the op's fetch conversions gathered, by slot (R132): replaced by a re-run (R152) -/
  fetch : List (Nat × SlotStats) := []
  accSat : Nat := 0
  accZero : Nat := 0
  fedRows : List Nat := []
  deriving DecidableEq, Repr

/-- A list handed to a tile sequencer (R62, R327). -/
structure TileList where
  cmd : Nat
  allot : Nat
  seq : Nat
  key : W64
  base : Nat
  order : Nat
  ops : List OpRec
  rerunOps : Nat := 0
  short : Bool := false
  deriving DecidableEq, Repr

/-! ## Anvils, memory units and trace of a hearth -/

inductive AnvilRole where
  | active | spare | underTest | failed
  deriving DecidableEq, Repr

structure Anvil where
  role : AnvilRole := .failed
  fenced : Bool := false
  /-- the active position that it serves (R68, trace OP records) -/
  pos : Nat := 0
  /-- the patrol's or a SELFTEST's target: it gets no new op (R69, R71) -/
  target : Bool := false
  /-- its entry check runs (R73) -/
  entry : Bool := false
  /-- a spare stands in for it: it gets no new op and serves its position no longer (R69, R423) -/
  relieved : Bool := false
  /-- a FENCE MODE 0 waits for it to fall idle (R423) -/
  leaving : Bool := false
  /-- an event that discards no work has failed it, and it leaves at its next op boundary (R68) -/
  failing : Bool := false
  /-- its test runs, from this time -/
  testing : Bool := false
  testStart : Nat := 0
  deriving DecidableEq, Repr

inductive TraceState where
  | off | armed | post | done
  deriving DecidableEq, Repr

/-- A trace record (16 "Trace records"), or a gap marker (R284). -/
inductive TraceEntry where
  | record (type flags allot index time acc data : Nat)
  | gap (dropped first : Nat)
  deriving DecidableEq, Repr

structure TraceRing where
  state : TraceState := .off
  spillMib : Nat := 0
  entries : List TraceEntry := []
  nextIndex : Nat := 0
  /-- records of the post share still to come, its last entry kept for the marker (R461) -/
  postLeft : Nat := 0
  readPos : Nat := 0
  dropped : Nat := 0
  lastPace : Nat := 0
  deriving DecidableEq, Repr

structure Hearth where
  /-- in service: left in by start-up steps 4 and 5 (R4, R440) -/
  present : Bool := false
  anvils : List Anvil := List.replicate 72 {}
  /-- the patrol's next physical anvil, and the anvils requested by SELFTEST with the command that asked (R70) -/
  nextPatrol : Nat := 0
  requests : List (Nat × Nat) := []
  lists : List TileList := []
  engines : List Engine := List.replicate 32 {}
  runs : List VRun := []
  /-- scratchpad banks fenced, and the spare banks that replace some of them (R416) -/
  banksFenced : List Nat := []
  bankSpares : List (Nat × Nat) := []
  /-- pseudo-channels fenced (64 (s mod 4) + c), those remapped, and GiB of the reserve not refilled -/
  pcsFenced : List Nat := []
  pcsRemapped : List Nat := []
  /-- units whose remap copy still runs, by unit word, with the identity of the next command at the event (R414 step 7) -/
  remapping : List (Nat × Nat) := []
  /-- the remap reserve could not be refilled (R416) -/
  reserveShort : Bool := false
  stackGrade : List Nat := [3, 3, 3, 3]
  trace : TraceRing := {}
  railMv : Nat := 620
  vThermal : Nat := 850
  tj : Nat := 70
  raised924 : Bool := false
  deriving DecidableEq, Repr

/-! ## Counters (R450 to R458) -/

/-- An open delta set, or the closing deltas of a command (R454, R456). -/
structure DeltaSet where
  cmd : Nat
  acc : Nat := 0
  window : Bool := false
  tStart : Nat := 0
  tEnd : Nat := 0
  discarded : Bool := false
  configGen : Nat := 0
  fixed : List Nat := [0, 0, 0, 0]
  prog : List (Nat × Nat) := []
  deriving DecidableEq, Repr

structure AllotCtr where
  /-- selector words that differ from the reset value 0xFFFF_4000 (R452) -/
  sel : List (Nat × Nat) := []
  prog : List (Nat × Nat) := []
  fixed : List Nat := [0, 0, 0, 0]
  configGen : Nat := 0
  windowQ : Option Nat := none
  sets : List DeltaSet := []
  lastWindow : Option DeltaSet := none
  deriving DecidableEq, Repr

/-- The trace configuration (R462). -/
structure TraceCfg where
  trigMask : Nat := 0
  types : Nat := 0
  allotMask : Nat := 0
  postPct : Nat := 25
  trigClass : Nat := 0
  trigLevel : Nat := 0
  trigAllot : Nat := 0
  trigSource : Nat := 0
  paceMin : Nat := 0
  trigAccept : Nat := 0
  deriving DecidableEq, Repr

/-- The global counters (R450) and the trace configuration. -/
structure GlobalCtr where
  sel : List (Nat × Nat) := []
  totals : List (Nat × Nat) := []
  trc : TraceCfg := {}
  deriving DecidableEq, Repr

/-! ## Mirroring, allotment by allotment (R379 to R396) -/

/-- A mirrored tensor (R379, R380). -/
structure MirTensor where
  handle : Nat
  mirrorId : Nat
  method : Nat := 0
  tap : Nat := 0
  lagPolicy : Nat := 0
  /-- method in force: 1 stream, 2 snapshot -/
  inForce : Nat := 2
  stale : Bool := false
  /-- the partner holds a committed epoch of it, and the step of that copy -/
  committed : Bool := false
  copyStep : Nat := 0
  /-- units tapped and changed in the open step, as 4,096-byte page indices (R383) -/
  pages : List Nat := []
  /-- pages of its first epoch that wait for room in the log (R380, R400) -/
  todo : List Nat := []
  /-- the change fraction at the last committed snapshot, in basis points (R380) -/
  frac : Option Nat := none
  deriving DecidableEq, Repr

/-- A tensor's copy in a store: the manifest entry of R393 with its bytes. digest: the tensor digest that the entry records; chunks:
the chunk digests kept beside it (R388, R394). -/
structure StoredTensor where
  mirrorId : Nat
  fmt : Nat
  smode : Nat
  method : Nat
  bytes : Nat
  copyStep : Nat
  digest : Nat := 0
  chunks : List Nat := []
  data : Bytes
  deriving DecidableEq, Repr

/-- A manifest or epoch record with what it refers to (R393). -/
structure Store where
  kind : Nat
  allot : Nat
  id : Nat
  step : Nat
  stale : Nat := 0
  isSigned : Bool := false
  quenched : Bool := false
  committed : Bool := false
  tensors : List StoredTensor := []
  /-- temper records of an epoch: layer index, layer record bytes, scale history bytes (R382) -/
  temper : List (Nat × Nat × Nat) := []
  /-- the recorded DIGEST and, where SIGNED is set, the signature -/
  digest : Nat := 0
  signature : Nat := 0
  deriving DecidableEq, Repr

structure AllotMirror where
  tensors : List MirTensor := []
  sizeMib : Nat := 1024
  changeBp : Nat := 500
  autoSnap : Bool := true
  sign : Bool := false
  tauMin : Nat := 300
  tauMax : Nat := 14400
  snapNext : Nat := 1
  /-- the snapshot taken and not committed, and the last committed one, in the checkpoint region -/
  snapOpen : Option Store := none
  snapDone : Option Store := none
  snapBegan : Nat := 0
  /-- the start of the snapshot taken and not committed; snapBegan is that of the committed one -/
  snapOpenAt : Nat := 0
  snapCostUs : Option Nat := none
  exported : List (Nat × Nat) := []
  /-- the committed snapshot of which parts remain to be exported (R389) -/
  exporting : Option Nat := none
  /-- the last epoch closed and the last committed at the partner -/
  epochClosed : Nat := 0
  epochCommitted : Nat := 0
  /-- closed epochs not yet committed -/
  epochs : List Store := []
  /-- the copies that the partner keeps of this module's tensors: the last committed epoch (R384) -/
  remote : Option Store := none
  remoteSnap : Option Store := none
  deriving DecidableEq, Repr

/-! ## An allotment -/

structure Allot where
  live : Bool := false
  gen : BitVec 8 := 0
  accNext : Nat := 1
  tokens : List (Nat × Nat) := []
  queues : List (Nat × QDesc) := []
  lastServed : Option Nat := none
  adminC : W64 := 0
  adminR : W64 := 0
  adminClog2 : Nat := 0
  adminRlog2 : Nat := 0
  /-- ENABLE of ADMINQ_CTRL as last written (R13) -/
  adminEnable : Bool := false
  /-- ENABLE 0 was written and queues 0 and 1 are being destroyed (R311) -/
  adminClosing : Bool := false
  dbErr : DbErr := {}
  fenced : Bool := false
  stopFetch : Bool := false
  objs : List (Nat × Obj) := []
  reuse : List (Nat × Nat) := []
  pools : List Pool := List.replicate 6 {}
  evictOff : Bool := false
  compat : Bool := false
  charges : List Charge := []
  temper : Temper := {}
  upd : Upd := {}
  progs : List Prog := []
  ctr : AllotCtr := {}
  mir : AllotMirror := {}
  deriving DecidableEq, Repr

/-! ## Attention (R305) -/

/-- The conditions of Attention conditions (R305), Pair attention (R406), R160, R226, R462, R465 and R477. -/
inductive CondName where
  | steering2 | steering1 | queueGap | doorbell | power | holdover | trace
  | commonMode | feedUnknown | suspectFeed | staleTensor | suspended | partnerLoss | quenched | lostObjects
  deriving DecidableEq, Repr

/-- An active condition of one allotment. -/
structure Cond where
  allot : Nat
  name : CondName
  level : Nat
  deriving DecidableEq, Repr

/-- The attention of one allotment as it was last computed, and ATTN_EPOCH (R305). -/
structure Attn where
  level : Nat := 0
  summary : Nat := 0
  epoch : W32 := 0
  deriving DecidableEq, Repr

/-! ## The Headgate -/

/-- A management controller's or partner's response (R334). -/
structure Response where
  id : Nat
  code : Code
  detail : W32
  result : W128
  deriving DecidableEq, Repr

structure Headgate where
  cmds : List Cmd := []
  nextId : Nat := 0
  /-- the orders presented since the last arbiter round, by command identity (R316, R332) -/
  arb : List Nat := []
  responses : List Response := []
  lastAllot : Nat := 15
  /-- cached queue descriptors, the one with the oldest last doorbell first (R301): allotment and queue -/
  cache : List (Nat × Nat) := []
  /-- data of the last BAR0 read completion, and the latched upper halves of TIMESTAMP (R310) -/
  readData : W64 := 0
  tsLatch : List (Nat × W32) := []
  deriving DecidableEq, Repr

/-- Host memory as the module's DMA sees it (log 9), and the ranges whose accesses complete with an error. -/
structure HostMem where
  bytes : Bytes := []
  bad : List (Nat × Nat) := []
  deriving DecidableEq, Repr

/-! ## Faults (R407 to R429) -/

/-- A first-error record (R419). -/
structure Fer where
  valid : Bool := false
  overflow : Bool := false
  forced : Bool := false
  cls : Nat := 0
  source : Nat := 0
  actions : Nat := 0
  maxClass : Nat := 0
  maxModule : Nat := 0
  scope : Nat := 0
  time : Nat := 0
  unit : Nat := 0
  owner : Nat := 0
  handle : Nat := 0
  offset64 : Nat := 0
  discards : Nat := 0
  syndrome : Nat := 0
  deriving DecidableEq, Repr

structure Faults where
  device : Fer := {}
  own : List Fer := List.replicate 16 {}
  counts : List (Nat × Nat) := []
  /-- classes set by FAULT_SEVERITY (R428); a source left out has its default class -/
  severity : List (Nat × Nat) := []
  /-- force bits with their FDETAIL (R429) -/
  force : List (Nat × Nat) := []
  /-- times of kind-0 corrected events of a unit, newest first, by source of kind 0 (R409) -/
  corrected : List (Nat × List Nat) := []
  /-- lanes and ports fenced, hearth 1 fenced by FENCE (R422) -/
  lanesFenced : List Nat := []
  portsFenced : List Nat := []
  hearth1Fenced : Bool := false
  /-- G-ports and hearth 1 leaving service under FENCE MODE 0 (R423) -/
  portsLeaving : List Nat := []
  hearth1Leaving : Bool := false
  /-- sensors above warning that have not re-armed (R478): 0 to 167, 168 the inlet -/
  warned : List Nat := []
  /-- contained and fatal faults with their times (R391) -/
  losses : List Nat := []
  /-- pending gap counts of the clock crossings, by overflow source (R31, R282) -/
  crossGaps : List (Nat × Nat) := []
  deriving DecidableEq, Repr

/-! ## Fabric (R339 to R370) -/

structure Path where
  port : Nat := 0
  valid : Bool := false
  addr : Nat := 0
  deriving DecidableEq, Repr

structure Route where
  valid : Bool := false
  npath : Nat := 0
  epoch : Nat := 0
  paths : List Path := []
  deriving DecidableEq, Repr

structure Group where
  allot : Nat
  members : List (Nat × Nat)
  tail : Nat := 1
  deadline : Nat := 0xFFFFFFFF
  digest : W32 := 0
  /-- the number of the last collective that began, and later numbers of COLL_BEGINs discarded before they began (R356, R363) -/
  begun : Nat := 0
  gone : List Nat := []
  /-- the same of the exchanges of UPD_NORM (R222) -/
  norms : Nat := 0
  normsGone : List Nat := []
  deriving DecidableEq, Repr

structure CheckClass where
  poly : Nat
  window : Nat := 4
  deriving DecidableEq, Repr

inductive PortMode where
  | native | longReach | ethernet | off
  deriving DecidableEq, Repr

/-- A data frame that a port keeps until it is acknowledged (R341, R342): its link sequence, virtual channel and payload, whether it
is the first or the last of its packet, and how often it was sent. -/
structure LinkFrame where
  seq : Nat
  vc : Nat
  first : Bool
  last : Bool
  payload : List Byte
  sends : Nat := 1
  deriving DecidableEq, Repr

/-- A G-port (R339 to R346, R352, R370). -/
structure Port where
  mode : PortMode := .native
  phy : Nat := 0
  medium : Nat := 0
  up : Bool := false
  training : Bool := false
  bound : Bool := false
  framesLost : Nat := 0
  misdirected : Nat := 0
  /-- times of the misdirected packets of the last second, newest first (R409) -/
  misTimes : List Nat := []
  checkFails : Nat := 0
  /-- the start of the training that runs -/
  trainAt : Nat := 0
  /-- replay buffer: the unacknowledged frames in order (R342) -/
  replay : List LinkFrame := []
  /-- packets that wait for room in the replay buffer: virtual channel and bytes -/
  waiting : List (Nat × List Byte) := []
  /-- the frames that have left the port, native or Ethernet, newest last (R341, R343) -/
  out : List (List Byte) := []
  txSeq : Nat := 0
  rxSeq : Nat := 0
  nak : Bool := false
  /-- payload bytes of the packet that is being put together from frames (R353) -/
  assembling : List Byte := []
  /-- a frame of that packet was lost in long-reach mode -/
  broken : Bool := false
  keyTx : Nat := 0
  keyRx : Nat := 0
  keyed : Bool := false
  invocTx : Nat := 0
  invocRx : Nat := 0
  keyTime : Nat := 0
  keyTimeRx : Nat := 0
  tagRun : Nat := 0
  aliveTx : List Nat := [0, 0]
  aliveRx : List Nat := [0, 0]
  deriving DecidableEq, Repr

/-- A packet that is not acknowledged (R354): own is the number under which the peer acknowledges it, allot the allotment that
sends it and far the member's allotment. sends is 0 while it waits for a path or for the window. -/
structure Sent where
  vc : Nat
  peer : Nat
  own : Nat
  allot : Nat
  far : Nat
  seq : Nat
  kind : Nat := 0
  sig : W32 := 0
  data : List Byte := []
  /-- the command that the packet serves (R451) -/
  served : Option Nat := none
  sends : Nat := 0
  /-- the port of the last send -/
  port : Nat := 0
  /-- the time of the last send, of the making of the packet before the first -/
  since : Nat := 0
  deriving DecidableEq, Repr

/-- A transport packet that the module has put on the fabric (R353), with its port; bytes: its header, data and check value. -/
structure Packet where
  port : Nat
  dst : Nat
  vc : Nat
  alive : Nat := 0
  stream : Nat := 0
  allot : Nat := 0
  seq : Nat := 0
  ack : Nat := 0
  kind : Nat := 0
  sig : W32 := 0
  data : List Byte := []
  bytes : List Byte := []
  deriving DecidableEq, Repr

/-- A stream (R354, R355). -/
structure Stream where
  reuse : Nat := 0
  allot : Nat
  group : Nat
  rank : Nat
  peer : Nat
  channel : Nat
  /-- the member's stream index, once its STREAM_OPEN has arrived: the stream is ready -/
  far : Option Nat := none
  /-- the member has closed the stream -/
  closed : Bool := false
  /-- STREAM_CLOSE has closed it here, and the close is not yet acknowledged: its handle resolves no longer -/
  gone : Bool := false
  /-- the last SEQ numbered, and the last received in order -/
  txSeq : Nat := 0
  rxSeq : Nat := 0
  /-- packets received ahead of a gap: SEQ, KIND, data -/
  early : List (Nat × Nat × List Byte) := []
  /-- data delivered and not yet taken by a RECV -/
  inbox : List Byte := []
  deriving DecidableEq, Repr

/-- A message of a collective as it arrives: the number of the collective, the signatures that its packets carry, its length and the
data so far. -/
structure Msg where
  index : Nat
  sigs : List W32
  bytes : Nat
  data : List Byte := []
  deriving DecidableEq, Repr

/-- What has arrived from a peer on a collective stream (log 38). -/
structure Inbound where
  stream : Nat
  peer : Nat
  rxSeq : Nat := 0
  /-- packets received ahead of a gap: SEQ, KIND, SIG, data -/
  early : List (Nat × Nat × W32 × List Byte) := []
  msgs : List Msg := []
  /-- packets delivered that are no part of a message: KIND, SIG, data -/
  control : List (Nat × W32 × List Byte) := []
  deriving DecidableEq, Repr

/-- A collective in progress on this module (R356 to R367). -/
structure Coll where
  cmd : Nat
  allot : Nat
  group : Nat
  /-- the number k of the collective in its group -/
  index : Nat
  op : Nat
  started : Nat
  sig : W32
  /-- the deadline in microseconds where one applies -/
  deadline : Option Nat := none
  policy : Nat := 3
  slot : Nat := 0
  /-- members that are lost, with the source that says so -/
  lost : List (Nat × Nat) := []
  /-- the module's own contribution to its range as it stands on the wire -/
  own : List Byte := []
  /-- the held contributions that it folds: peer, number of the collective that they were late for, wire bytes (R366) -/
  heldIn : List (Nat × Nat × List Byte) := []
  closed : Bool := false
  admitted : Nat := 0
  late : Nat := 0
  carried : Bool := false
  selfLate : Bool := false
  spillOver : Bool := false
  /-- the folded values of this module's range, and its result as it stands on the wire -/
  values : List W32 := []
  result : List Byte := []
  deriving DecidableEq, Repr

/-- A held contribution (R366): the collective that it was late for, its packets so far, its length, and whether all arrived. -/
structure Held where
  group : Nat
  slot : Nat
  peer : Nat
  index : Nat
  sig : W32
  data : List Byte
  bytes : Nat
  complete : Bool := false
  deriving DecidableEq, Repr

/-- Tailwater counts of a member (R368). -/
structure TailCount where
  group : Nat
  rank : Nat
  late : Nat := 0
  carried : Nat := 0
  dropped : Nat := 0
  lateBytes : Nat := 0
  deriving DecidableEq, Repr

/-- An offset table entry (R467). -/
structure OffsetEntry where
  offset : Int := 0
  rtt : Nat := 0
  err : Nat := 0
  measured : Nat := 0
  valid : Bool := false
  stale : Bool := false
  holdover : Bool := false
  deriving DecidableEq, Repr

structure Fabric where
  self : Nat := 0
  domain : Nat := 0
  retryLimit : Nat := 8
  peerTimeoutMs : Nat := 10
  lrTimeoutMs : Nat := 100
  ethertype : Nat := 0x88B5
  ports : List Port := List.replicate 24 {}
  /-- lanes that failed, and the lane that each spare in use replaces (R339) -/
  lanesFailed : List Nat := []
  spareUse : List (Nat × Nat) := []
  routes : List (Nat × Route) := []
  groups : List (Nat × Group) := []
  classes : List CheckClass :=
    [{ poly := 2 }, { poly := 2 }, { poly := 3 }, { poly := 1 }, { poly := 3 }]
  streams : List (Nat × Stream) := []
  streamReuse : List (Nat × Nat) := []
  /-- opens that arrived from members: group, rank, channel, the member's stream index (R355) -/
  opens : List (Nat × Nat × Nat × Nat) := []
  colls : List Coll := []
  held : List Held := []
  tails : List TailCount := []
  peersDown : List Nat := []
  /-- the time at which a packet last arrived from a peer -/
  heard : List (Nat × Nat) := []
  unacked : List Sent := []
  inbound : List Inbound := []
  /-- the last SEQ of each collective stream: the number 131,072 × peer + stream -/
  txSeq : List (Nat × Nat) := []
  /-- the smoothed round trip of each stream that has one (R354) -/
  rtts : List (Nat × Nat) := []
  /-- aborts that arrived before the module began the collective: group, number, peer, reason -/
  aborts : List (Nat × Nat × Nat × Nat) := []
  /-- verdicts "not admitted" that arrived before the module began the collective: group, number (R364) -/
  refused : List (Nat × Nat) := []
  offsets : List (Nat × OffsetEntry) := []
  /-- the packets that the module has put on the fabric, newest last -/
  wire : List Packet := []
  deriving DecidableEq, Repr

/-! ## The pair (R371 to R406) -/

inductive PairState where
  | unbound | binding | sync | mirror | suspended | quenching | quenched
  deriving DecidableEq, Repr

/-- A tensor of an open fill: the manifest entry, its chunk digests where the source gives them, and the handle it is mapped to
(0: not mapped). -/
structure FillTensor where
  mirrorId : Nat
  fmt : Nat
  smode : Nat
  method : Nat
  bytes : Nat
  copyStep : Nat
  digest : Nat
  chunks : List Nat := []
  handle : Nat := 0
  deriving DecidableEq, Repr

/-- A fill on this module (R401 to R403): the fill record with its manifest. -/
structure Fill where
  fillId : Nat
  allot : Nat
  source : Nat
  peer : Nat
  temper : Bool
  storeId : Nat
  step : Nat
  tensors : List FillTensor := []
  /-- temper records of the manifest: layer index, layer record, scale history -/
  layers : List (Nat × Nat × Nat) := []
  /-- the bytes of the manifest, and the local store that it describes (SOURCE 3 and 4) -/
  manifest : List Byte := []
  store : Option Store := none
  verified : List Nat := []
  committed : Bool := false
  deriving DecidableEq, Repr

/-- A grant to serve fill reads (R401). -/
structure Grant where
  fillId : Nat
  target : Nat
  source : Nat
  kind : Nat
  storeId : Nat
  made : Nat
  cursor : Nat := 0
  deriving DecidableEq, Repr

/-- A page in the mirror log (R383). -/
structure LogPage where
  allot : Nat
  epoch : Nat
  mirrorId : Nat
  page : Nat
  data : List Byte
  /-- the SEQ of its packet to the partner -/
  seq : Nat := 0
  deriving DecidableEq, Repr

structure Pair where
  state : PairState := .unbound
  /-- the state before the quench (R376) -/
  before : PairState := .unbound
  cmd : Option Nat := none
  partner : Nat := 0
  partnerFeed : Nat := 0
  partnerVariant : Nat := 0
  partnerMirrorGib : Nat := 0
  partnerUsed : Nat := 0
  role : Nat := 0
  partnerRole : Nat := 0
  portA : Nat := 0
  portB : Nat := 255
  temperSync : Bool := false
  quenchHold : Bool := false
  lagSteps : Nat := 2
  logGib : Nat := 256
  pairTimeoutMs : Nat := 10000
  bindWaitMs : Nat := 60000
  since : Nat := 0
  commonMode : Bool := false
  feedUnknown : Bool := false
  suspectFeed : Bool := false
  log : List LogPage := []
  acked : Nat := 0
  /-- a quench hold is open (R398) -/
  holdOpen : Bool := false
  quenchCmds : List Nat := []
  /-- an edge of SITE_ALARM_N arrived while the arbiter did not run (R490) -/
  alarmWaits : Bool := false
  pushedBytes : Nat := 0
  /-- the quench in progress asked for a hold, and its start -/
  wantHold : Bool := false
  quenchAt : Nat := 0
  /-- the partner's statistics that have arrived: allotment, step, slots (R387) -/
  syncStats : List (Nat × Nat × List SyncSlot) := []
  /-- the partner's copies in the local mirror region: pages staged, epoch records, committed copies (R384, R392) -/
  staged : List LogPage := []
  /-- pages that a map packet announced and that have not arrived: allotment, epoch, MIRROR_ID, page (R383) -/
  expect : List (Nat × Nat × Nat × Nat) := []
  peerStores : List Store := []
  peerReserved : List (Nat × Nat) := []
  peerLogGib : Nat := 0
  peerTier3 : Nat := 0
  lostPartner : Option Nat := none
  fill : Option Fill := none
  grants : List Grant := []
  /-- the last bytes that the module served for a fill: fill, chunk, bytes -/
  served : List (Nat × Nat × List Byte) := []
  /-- FP32 interruption rate per hour (R391): 0.01 -/
  fleetRate : W32 := 0x3C23D70A#32
  partnerLosses : List Nat := []
  partnerLog : List BrownOut := []
  correlated : List Nat := []
  deriving DecidableEq, Repr

/-! ## The management controller and the security engine -/

/-- A configuration record (R439). -/
structure Config where
  seq : Nat := 0
  ckptGib : Nat := 128
  mirrorGib : Nat := 0
  capW : Nat := 1600
  feed : Nat := 0
  fwctl : Nat := 0
  macBase : Nat := 0
  patrolMin : Nat := 30
  committed : Bool := false
  deriving DecidableEq, Repr

/-- A journal record (R437). -/
structure JRec where
  seq : Nat
  start : Nat
  kind : Nat
  step : Nat := 0
  result : Nat := 0
  image : Nat := 0
  time : Nat := 0
  reason : Nat := 0
  fault : Fer := {}
  units : List (Nat × Nat) := []
  stepData : List Nat := []
  deriving DecidableEq, Repr

/-- A firmware image in a slot: the bytes of header and body (R441). -/
structure Image where
  bytes : List Byte := []
  /-- the slot holds an image that passed authentication -/
  valid : Bool := false
  version : Nat := 0
  svn : Nat := 0
  keySlot : Nat := 0
  revokes : Nat := 0
  deriving DecidableEq, Repr

inductive SpdmPhase where
  | none | version | capabilities | algorithms | exchanging | session
  deriving DecidableEq, Repr

structure Spdm where
  phase : SpdmPhase := .none
  /-- the last response, as numbers: its request code name is the row (R447) -/
  response : List Nat := []
  error : Bool := false
  sessions : Nat := 0
  keyUpdates : Nat := 0
  deriving DecidableEq, Repr

inductive PldmPhase where
  | idle | learn | ready | download | verify | apply | activate
  deriving DecidableEq, Repr

structure Pldm where
  phase : PldmPhase := .idle
  length : Nat := 0
  received : List Byte := []
  refused : Bool := false
  deriving DecidableEq, Repr

/-- The IEEE 1149.1 instructions of R448. -/
inductive JtagIr where
  | bypass | idcode | samplePreload | extest | clamp | highz
  deriving DecidableEq, Repr

structure Jtag where
  ir : JtagIr := .bypass
  /-- the data register: the boundary cells, the IDCODE value or the bypass bit -/
  dr : Nat := 0
  boundary : Nat := 0
  /-- pins driven from the boundary cells (EXTEST, CLAMP) or floated (HIGHZ) -/
  driven : Bool := false
  floated : Bool := false
  deriving DecidableEq, Repr

structure Mgmt where
  slots : List Config := [{}, {}]
  /-- the slots as the flash holds them while PWR_FAIL_N delays a write (R473) -/
  slotsOld : Option (List Config) := none
  journal : List JRec := []
  nextSeq : Nat := 1
  /-- unit bytes that are not 0, by unit index (R437) -/
  units : List (Nat × Nat) := []
  imageA : Image := { valid := true }
  imageB : Image := { valid := true }
  /-- FW_STAGE or PLDM staging in progress, and whether the slot that is not running holds a staged image -/
  staging : Bool := false
  stagedOk : Bool := false
  patrolMin : Nat := 30
  capW : Nat := 1600
  vTarget : Nat := 850
  vPower : Nat := 850
  tjLimit : Nat := 95
  sinceFall : Nat := 10
  inputW : Nat := 0
  brownLog : List BrownOut := []
  /-- the start time of an event of each kind that has not ended (R472) -/
  brownOpen : List (Nat × Nat) := []
  /-- the input has not yet stayed in range for 10 s (R477) -/
  brownHold : Bool := false
  powerLimit : Nat := 0
  /-- FEED_ID: the last samples, newest first, the strap value in effect, and the value compared (R491) -/
  feedSamples : List Nat := []
  feedStraps : Nat := 0
  feedInEffect : Nat := 0
  gpio : List (Option Bool) := [none, none, none, none]
  gpioLevel : List Nat := [1, 1, 1, 1]
  gpioRead : Nat := 1
  /-- journal records delayed by PWR_FAIL_N (R473), oldest first -/
  delayed : List JRec := []
  restarting : Bool := false
  debugUnlocked : Bool := false
  /-- debug challenges answered, and nonces drawn for SPDM (log 15) -/
  debugChallenge : Nat := 0
  draws : Nat := 0
  spdm : Spdm := {}
  pldm : Pldm := {}
  jtag : Jtag := {}
  /-- a store without its commit word lies in the journal and is not yet reported (R436) -/
  torn : Bool := false
  deriving DecidableEq, Repr

/-! ## The module as a whole -/

/-- The one-time fuses (R442, R449): the security version, the revoked key slots and the seal. -/
structure Fuses where
  svn : Nat := 0
  revoked : Nat := 0
  sealed : Bool := false
  deriving DecidableEq, Repr

structure Dev where
  variant : Variant := .x
  fwVersion : Nat := 0
  serial : Nat := 0
  bootStep : Nat := 0
  /-- 0 starting, 1 ready, 2 halted (R310 BOOT_STATUS) -/
  bootState : Nat := 0
  imageB : Bool := false
  degraded : Bool := false
  solo : Bool := false
  failedStep : Nat := 0
  starts : Nat := 0
  vfEnable : Bool := false
  numVfs : Nat := 0
  linkUp : Bool := false
  linkGrade : Nat := 0
  linkWaits : Bool := false
  perst : Bool := false
  pwrFail : Bool := false
  inputUp : Bool := false
  standby : Bool := false
  mainRails : Bool := false
  ctrlGrade : List Nat := [3, 3, 3, 3]
  /-- the regions in force (R277) and the GiB of the checkpoint region in use -/
  ckptGib : Nat := 128
  mirrorGib : Nat := 0
  /-- a start-up that PWR_FAIL_N pauses before a journal record: the next step and the last (R473) -/
  paused : Option (Nat × Nat) := none
  /-- long-reach retransmit windows taken on hearth 0 (R278, R345) -/
  lrWindows : Nat := 0
  deriving DecidableEq, Repr

/-- The time-stamp counter and the time base (R464, R465), the pace word (R29). -/
structure Clock where
  ts : W64 := 0
  holdover : Bool := false
  present : Bool := true
  pace : W32 := 0
  lastPace : Nat := 0
  lastTick : Nat := 0
  deriving DecidableEq, Repr

/-- The state of the PZ8. pending is the queue of the commands that are waiting, first in, first out. -/
structure State where
  dev : Dev
  clk : Clock
  hg : Headgate
  allots : List Allot
  attn : List Attn
  conds : List Cond
  host : HostMem
  hearths : List Hearth
  fab : Fabric
  pair : Pair
  flt : Faults
  glob : GlobalCtr
  mgt : Mgmt
  fuse : Fuses
  pending : List Instr
  deriving DecidableEq, Repr

/-- Why the model stops with a fault. -/
inductive Fault where
  /-- REGISTER_WRITE or UNSUPPORTED_REQUEST at an offset outside the 64 KiB BAR0 window (R310): the address does not exist.
  Safe. -/
  | outsideBar0
  deriving DecidableEq, Repr

/-- Why the model refuses a command. -/
inductive Refusal where
  /-- exec's arm of a command that has no meaning yet. Safe. -/
  | notModelled (mnemonic : String)
  /-- INTERNAL_DEBUG_ACCESS on an unsealed module that has granted internal debug: the spec names scan chains and memory
  access and gives no effect of them (R448). Safe. -/
  | internalDebug
  deriving DecidableEq, Repr

/-- The module before power-on: no input, standby rail off, nothing started (log 2). Every field has its reset value. -/
def State.reset : State :=
  { dev := {}, clk := {}, hg := {}, allots := List.replicate 16 {}, attn := List.replicate 16 {}, conds := [], host := {},
    hearths := List.replicate 2 {}, fab := {}, pair := {}, flt := {}, glob := {}, mgt := {}, fuse := {}, pending := [] }

end Sys2Proof.Machine
end

