-- ==== Sys2Proof/Machine/Ops.lean ====
section
/-! DEFINITION. The named operations over the state: allotments, hearths, commands, host memory, attention, counters and
trace. -/

namespace Sys2Proof.Machine

/-! ## Groups of the state -/

/-- Allotment a. -/
def State.al (s : State) (a : Nat) : Allot := s.allots.getD a {}

def State.setAl (s : State) (a : Nat) (x : Allot) : State := { s with allots := s.allots.set a x }

def State.modAl (s : State) (a : Nat) (f : Allot → Allot) : State := s.setAl a (f (s.al a))

/-- Hearth h. -/
def State.he (s : State) (h : Nat) : Hearth := s.hearths.getD h {}

def State.setHe (s : State) (h : Nat) (x : Hearth) : State := { s with hearths := s.hearths.set h x }

def State.modHe (s : State) (h : Nat) (f : Hearth → Hearth) : State := s.setHe h (f (s.he h))

/-- The part is a PZ8-X. -/
def State.isX (s : State) : Bool := s.dev.variant == .x

/-- Hearth h is in service: left in service by start-up and not fenced (R4, R423). -/
def State.hearthUp (s : State) (h : Nat) : Bool := (s.he h).present && !(h == 1 && s.flt.hearth1Fenced)

def State.now (s : State) : Nat := s.clk.ts.toNat

/-- Time moves on to t, never backward (R465). -/
def State.passTo (s : State) (t : Nat) : State :=
  if s.now < t then { s with clk := { s.clk with ts := w64 t } } else s

/-! ## Commands in flight -/

def State.cmd? (s : State) (id : Nat) : Option Cmd := s.hg.cmds.find? (fun c => c.id == id)

def State.modCmd (s : State) (id : Nat) (f : Cmd → Cmd) : State :=
  { s with hg := { s.hg with cmds := s.hg.cmds.map (fun c => if c.id = id then f c else c) } }

/-- Command id has every effect complete, or is rejected: its code, DETAIL and RESULT stand until its reply is written. -/
def State.finish (s : State) (id : Nat) (code : Code) (detail : W32) (result : W128) : State :=
  s.modCmd id (fun c => { c with phase := .done, code := code, detail := detail, result := result })

def State.finishOk (s : State) (id : Nat) (result : Nat) : State := s.finish id .ok 0 (w128 result)

/-- BAD_PARAM DETAIL (R318): OFFSET and INDEX. -/
def badParam (offset index : Nat) : Code × W32 := (.badParam, w32 (offset + 65536 * satTo 65535 index))

/-- A failing field of a structure in an object (R318). -/
def badIn (index : Nat) : Code × W32 := badParam 0xFFFF index

/-- The result of judging: none, or the code and DETAIL of the first test that fails. -/
abbrev Verdict := Option (Code × W32)

/-- The first verdict of a list. -/
def firstBad (l : List Verdict) : Verdict := l.findSome? id

/-- A verdict that holds when b is false. -/
def need (b : Bool) (v : Code × W32) : Verdict := if b then none else some v

def State.reject (s : State) (id : Nat) (v : Code × W32) : State := s.finish id v.1 v.2 0#128

/-- A parameter field of a command. -/
def Cmd.par (c : Cmd) (off size : Nat) : Nat := fieldOf c.params off size

/-- OPFLAGS (R294). -/
def Cmd.opflag (c : Cmd) (i : Nat) : Bool := c.flags.testBit (8 + i)

def Cmd.ctrRec (c : Cmd) : Bool := c.flags.testBit 2

/-- The reply entries that a command takes (R289). -/
def Cmd.entries (c : Cmd) : Nat := if c.ctrRec then 37 else 1

def Cmd.open (c : Cmd) : Bool := c.phase != .done

/-- Commands of allotment a in flight, not done, accepted before command c. -/
def State.earlier (s : State) (c : Cmd) : List Cmd :=
  s.hg.cmds.filter (fun d => d.allot == c.allot && d.master == .allot && d.open && decide (d.id < c.id))

/-! ## Host memory (log 9) -/

def State.hostBad (s : State) (a len : Nat) : Bool := s.host.bad.any (fun r => decide (r.1 < a + len) && decide (a < r.2))

/-- A DMA read; none when the access completes with an error. -/
def State.hostRead (s : State) (a len : Nat) : Option (List Byte) :=
  if s.hostBad a len then none else some (cellRead s.host.bytes a len)

/-- A DMA write; none when the access completes with an error. -/
def State.hostWrite (s : State) (a : Nat) (bs : List Byte) : Option State :=
  if s.hostBad a bs.length then none
  else some { s with host := { s.host with bytes := cellWrite s.host.bytes a bs } }

/-! ## Trace (R459 to R463) -/

/-- Records that a ring holds: 8 MiB on the die and the spill area. -/
def TraceRing.cap (r : TraceRing) : Nat := 262144 + 32768 * r.spillMib

/-- The entries with one more at the end, the oldest overwritten when the ring is full. -/
def TraceRing.append (r : TraceRing) (e : TraceEntry) : TraceRing :=
  if r.entries.length < r.cap then { r with entries := r.entries ++ [e] }
  else { r with entries := r.entries.drop 1 ++ [e], readPos := r.readPos - 1 }

/-- The marker of a full or stopped ring: DROPPED 0 and the index of the next record (R461, R462). -/
def TraceRing.close (r : TraceRing) : TraceRing :=
  let r1 := r.append (.gap 0 (r.nextIndex % 2 ^ 32))
  { r1 with state := .done, postLeft := 0 }

/-- A later record is counted in the marker (R461). -/
def TraceRing.bump (r : TraceRing) : TraceRing :=
  { r with
    dropped := r.dropped + 1
    entries := r.entries.mapIdx (fun i e =>
      if i + 1 = r.entries.length then
        match e with
        | .gap d f => .gap (satTo (2 ^ 32 - 1) (d + 1)) f
        | .record t fl a ix tm ac da => .record t fl a ix tm ac da
      else e) }

/-- A record enters a ring. flags: TFLAGS [0], the hearth of the event. -/
def TraceRing.push (r : TraceRing) (typ hearth allot time acc data : Nat) : TraceRing :=
  match r.state with
  | .off => r
  | .done => r.bump
  | .armed =>
    let r1 := r.append (.record typ hearth allot (r.nextIndex % 2 ^ 32) time acc data)
    { r1 with nextIndex := r.nextIndex + 1 }
  | .post =>
    let r1 := r.append (.record typ (hearth + 2) allot (r.nextIndex % 2 ^ 32) time acc data)
    let r2 := { r1 with nextIndex := r.nextIndex + 1, postLeft := r.postLeft - 1 }
    if r2.postLeft ≤ 1 then r2.close else r2

/-- The ALLOT field of a record: the allotment, or NO_ALLOT. -/
def traceAllot (a : Option Nat) : Nat := a.getD 16

/-- The configuration keeps records of this TYPE and allotment (R462). -/
def TraceCfg.keeps (t : TraceCfg) (typ : Nat) (a : Option Nat) : Bool :=
  t.types.testBit typ && (match a with | none => true | some n => t.allotMask.testBit n)

/-- A record of hearth h's ring. -/
def State.traceAt (s : State) (h typ : Nat) (a : Option Nat) (acc data : Nat) : State :=
  if s.glob.trc.keeps typ a then
    s.modHe h (fun x => { x with trace := x.trace.push typ h (traceAllot a) s.now acc data })
  else s

/-- The counter/trace condition and other conditions of allotments (R305). -/
def State.hasCond (s : State) (a : Nat) (n : CondName) : Bool := s.conds.any (fun c => c.allot == a && c.name == n)

def State.setCond (s : State) (a : Nat) (n : CondName) (level : Nat) : State :=
  { s with conds := s.conds.filter (fun c => !(c.allot == a && c.name == n)) ++ [{ allot := a, name := n, level := level }] }

def State.dropCond (s : State) (a : Nat) (n : CondName) : State :=
  { s with conds := s.conds.filter (fun c => !(c.allot == a && c.name == n)) }

def allotNumbers : List Nat := List.range 16

def State.setCondAll (s : State) (n : CondName) (level : Nat) : State :=
  allotNumbers.foldl (fun t a => t.setCond a n level) s

def State.dropCondAll (s : State) (n : CondName) : State := { s with conds := s.conds.filter (fun c => c.name != n) }

/-- The summary bit of a condition, counted from STATUS bit 10 (R305). -/
def CondName.bit : CondName → Nat
  | .steering2 => 1
  | .steering1 => 1
  | .queueGap => 4
  | .doorbell => 4
  | .power => 3
  | .holdover => 5
  | .trace => 5
  | .commonMode => 2
  | .feedUnknown => 2
  | .suspectFeed => 2
  | .staleTensor => 2
  | .suspended => 2
  | .partnerLoss => 2
  | .quenched => 2
  | .lostObjects => 2

/-- The level of the fault condition of allotment a (R421). -/
def State.faultLevel (s : State) (a : Nat) : Nat :=
  let own := s.flt.own.getD a {}
  let dev := s.flt.device
  let ownL := if own.valid then own.maxClass else 0
  let devL := if dev.valid && dev.maxModule != 0 then (if dev.maxModule = 3 then 3 else 1) else 0
  let zeroL := if a = 0 && dev.valid then dev.maxClass else 0
  max ownL (max devL zeroL)

/-- ATTN_LEVEL and ATTN_SUMMARY of allotment a as its conditions stand (R305). -/
def State.attnNow (s : State) (a : Nat) : Nat × Nat :=
  let f := s.faultLevel a
  let cs := s.conds.filter (fun c => c.allot == a)
  let lvl := cs.foldl (fun m c => max m c.level) f
  let sm := cs.foldl (fun m c => m ||| (1 <<< c.name.bit)) (b2n (decide (0 < f)))
  (lvl, sm)

/-- The attention table as the conditions stand: ATTN_EPOCH increases at every change (R305). -/
def State.attnTable (s : State) : List Attn :=
  s.attn.mapIdx (fun a old =>
    let n := s.attnNow a
    if n.1 = old.level ∧ n.2 = old.summary then old
    else { level := n.1, summary := n.2, epoch := old.epoch + 1#32 })

/-- The trigger causes that the configuration enables: those of the event, and an attention level (R460, R462). -/
def State.trigCauses (s : State) (causes : Nat) : Nat :=
  let t := s.glob.trc
  let att := t.trigMask.testBit 2 &&
    allotNumbers.any (fun a => t.allotMask.testBit a && decide (t.trigLevel ≤ (s.attn.getD a {}).level))
  (causes &&& t.trigMask &&& 59) ||| (if att then 4 else 0)

/-- A ring triggers: its post share opens with a TRIGGER record (R460). -/
def TraceRing.trigger (r : TraceRing) (pct hearth time data : Nat) : TraceRing :=
  match r.state with
  | .armed => ({ r with state := .post, postLeft := ceilDiv (pct * r.cap) 100 } : TraceRing).push 1 hearth 16 time 0 data
  | .off => r
  | .post => r
  | .done => r

/-- A trigger fires in both rings (R460); allotment 0 gets the counter/trace condition (R462). -/
def State.fire (s : State) (causes src : Nat) : State :=
  if s.hearths.any (fun x => x.trace.state == .armed) then
    let data := causes + (if causes &&& 3 = 0 then 0 else src * 65536)
    ({ s with hearths := s.hearths.mapIdx (fun h x =>
        { x with trace := x.trace.trigger s.glob.trc.postPct h s.now data }) } : State).setCond 0 .trace 1
  else s

/-- The attention state follows its conditions, with ATTN records for the allotments that changed (R305). -/
def State.attend (s : State) : State :=
  let t : State := { s with attn := s.attnTable }
  allotNumbers.foldl (fun u a =>
    let n := t.attn.getD a {}
    if n = s.attn.getD a {} then u
    else u.traceAt 0 8 (some a) 0 (n.level + n.summary * 4 + n.epoch.toNat * 2 ^ 32)) t

/-- Conditions settle after an event: attention follows, and the trace trigger fires on the causes of the event (R460). -/
def State.settleWith (s : State) (causes src : Nat) : State :=
  let t := s.attend
  let c := t.trigCauses causes
  if c = 0 then t else (t.fire c src).attend

def State.settle (s : State) : State := s.settleWith 0 0

/-! ## Counters (R450 to R454) -/

/-- The event has a layer filter (R451, Counter events). -/
def evHasLayer (ev : Nat) : Bool := (decide (1 ≤ ev) && decide (ev ≤ 0x0A)) || ev == 0x17

/-- A selector word counts this event (R452). global: the word's ALLOT field is in force. -/
def selMatches (word ev : Nat) (h a layer : Option Nat) (global : Bool) : Bool :=
  let wl := bitsOf word 16 16
  decide (bitsOf word 0 8 = ev) &&
  (match bitsOf word 8 2 with
   | 0 => true
   | n => h == some (n - 1)) &&
  (wl == 0xFFFF || !evHasLayer ev || layer == some wl) &&
  (!global || (match bitsOf word 10 5 with
    | 16 => true
    | n => a == some n))

/-- The totals of the counters whose selectors match, each with n added. -/
def addMatching (sel : List (Nat × Nat)) (tot : List (Nat × Nat)) (ev : Nat) (h a layer : Option Nat) (global : Bool) (n : Nat) :
    List (Nat × Nat) :=
  sel.foldl (fun t e => if selMatches e.2 ev h a layer global then addN e.1 n t else t) tot

/-- The events of the fixed counters, in order (R450). -/
def fixedEvents : List Nat := [0x19, 0x01, 0x0F, 0x13]

def addFixed (l : List Nat) (ev n : Nat) : List Nat := (fixedEvents.zip l).map (fun e => if e.1 = ev then e.2 + n else e.2)

def AllotCtr.count (x : AllotCtr) (ev : Nat) (h layer cmd : Option Nat) (n : Nat) : AllotCtr :=
  { x with
    fixed := addFixed x.fixed ev n
    prog := addMatching x.sel x.prog ev h none layer false n
    sets := x.sets.map (fun d =>
      if some d.cmd = cmd then
        { d with fixed := addFixed d.fixed ev n, prog := addMatching x.sel d.prog ev h none layer false n }
      else d) }

/-- n events of code ev: hearth, allotment and layer that they belong to, and the command that the work serves (R451). -/
def State.count (s : State) (ev : Nat) (h a layer cmd : Option Nat) (n : Nat) : State :=
  if n = 0 then s
  else
    let s1 : State := { s with glob := { s.glob with totals := addMatching s.glob.sel s.glob.totals ev h a layer true n } }
    match a with
    | none => s1
    | some k => s1.modAl k (fun x => { x with ctr := x.ctr.count ev h layer cmd n })

/-- An event that serves command c. -/
def State.countFor (s : State) (c : Cmd) (ev : Nat) (h layer : Option Nat) (n : Nat) : State :=
  s.count ev h (some c.allot) layer (some c.id) n

/-- Byte events of a transfer in a tier (R451): one count for each whole or partial unit of 64 bytes. -/
def State.countBytes (s : State) (c : Cmd) (tier : Nat) (h : Option Nat) (bytes : Nat) : State :=
  s.countFor c (0x0E + tier) h none (ceilDiv bytes 64)

end Sys2Proof.Machine
end

