-- ==== Sys2Proof/Machine/Mem.lean ====
section
/-! DEFINITION. Objects, handles, pools and capacities (R243 to R280). -/

namespace Sys2Proof.Machine

def kib : Nat := 1024
def mib : Nat := 1048576
def gib : Nat := 1073741824

/-! ## Handles (R250, R251) -/

def handleIndex (h : Nat) : Nat := bitsOf h 0 20
def handleReuse (h : Nat) : Nat := bitsOf h 20 12
def handleOf (index reuse : Nat) : Nat := index + reuse * 1048576

/-- The live object that a handle resolves to. -/
def Allot.obj? (x : Allot) (h : Nat) : Option Obj :=
  match look (handleIndex h) x.objs with
  | some o => if o.reuse = handleReuse h ∧ handleIndex h ≠ 0 then some o else none
  | none => none

def State.obj? (s : State) (a h : Nat) : Option Obj := (s.al a).obj? h

/-- The object of a handle, an empty raw object where it does not resolve. -/
def State.objD (s : State) (a h : Nat) : Obj := (s.obj? a h).getD {}

/-- Object h of allotment a changed by f. -/
def State.modObj (s : State) (a h : Nat) (f : Obj → Obj) : State :=
  s.modAl a (fun x => { x with objs := upd (handleIndex h) f x.objs })

/-- The handle is not 0 and resolves, and the home is not lost (R251, R276). -/
def State.resolves (s : State) (a h : Nat) : Bool :=
  match s.obj? a h with
  | some o => !o.lost
  | none => false

/-- The handle resolves to a raw object (R252). -/
def State.isRaw (s : State) (a h : Nat) : Bool :=
  match s.obj? a h with
  | some o => o.t.raw && !o.lost
  | none => false

/-! ## Bytes of objects -/

def Obj.read (o : Obj) (off len : Nat) : List Byte := cellRead o.t.data off len

/-- The bytes bs written at off; blocks that the write covers whole lose their poison (R417). -/
def Obj.write (o : Obj) (off : Nat) (bs : List Byte) : Obj :=
  { o with
    t := { o.t with data := cellWrite o.t.data off bs }
    poison := o.poison.filter (fun e => !(decide (off ≤ 64 * e.1) && decide (64 * e.1 + 64 ≤ off + bs.length))) }

/-- The poisoned block of lowest offset that a range touches. -/
def Obj.poisonIn (o : Obj) (off len : Nat) : Option (Nat × Nat) :=
  o.poison.find? (fun e => decide (64 * e.1 < off + len) && decide (off < 64 * e.1 + 64))

/-- The poisoned block that a range covers only in part (R417: a partial write reads it first). -/
def Obj.poisonPart (o : Obj) (off len : Nat) : Option (Nat × Nat) :=
  o.poison.find? (fun e => decide (64 * e.1 < off + len) && decide (off < 64 * e.1 + 64) &&
    !(decide (off ≤ 64 * e.1) && decide (64 * e.1 + 64 ≤ off + len)))

/-- A little-endian field of an object. -/
def Obj.field (o : Obj) (off size : Nat) : Nat := leNat (o.read off size)

def State.writeObj (s : State) (a h off : Nat) (bs : List Byte) : State := s.modObj a h (fun o => o.write off bs)

/-! ## Pools (R263, R264, R277 to R279) -/

/-- The pool of a home (R263): tier 0 of hearths 0 and 1, tier 1 of hearths 0 and 1, tier 2, tier 3. -/
def poolOf (tier hearth : Nat) : Nat :=
  match tier with
  | 0 => hearth
  | 1 => 2 + hearth
  | 2 => 4
  | _ => 5

def poolNumbers : List Nat := List.range 6

/-- The bytes that allotment x uses in pool p. -/
def Allot.use (x : Allot) (p : Nat) : Nat :=
  sumN (x.objs.map (fun e => if poolOf e.2.tier e.2.hearth = p then e.2.charged else 0)) +
  sumN (x.charges.map (fun c => if c.pool = p then c.bytes else 0))

/-- Banks in service that are fenced and not replaced by a spare (R416, R425). -/
def Hearth.lostBanks (x : Hearth) : Nat :=
  (x.banksFenced.filter (fun b => decide (b < 64) && (look b x.bankSpares).isNone)).length

/-- Stacks in service of a hearth. -/
def Hearth.stacks (x : Hearth) : Nat := (x.stackGrade.filter (· != 3)).length

/-- GiB of the variable areas of the device region (R278). -/
def State.variableBytes (s : State) (h : Nat) : Nat :=
  (s.he h).trace.spillMib * mib + (if h = 0 then s.dev.lrWindows * 256 * mib else 0)

/-- Pseudo-channels fenced on stacks in service. -/
def Hearth.lostChannels (x : Hearth) : Nat :=
  (x.pcsFenced.filter (fun u => x.stackGrade.getD (u / 64) 3 != 3)).length

/-- The capacity of tier 2. -/
def State.tier2Bytes (s : State) : Nat := (s.dev.ctrlGrade.filter (· != 3)).length * 256 * gib

/-- The space that this module's mirror copies, log and records take in the partner's mirror region (R392). -/
def State.partnerHeld (s : State) : Nat := s.pair.partnerUsed + s.pair.logGib * gib + 64 * mib

/-- The module is bound to a partner (R376). -/
def Pair.bound (p : Pair) : Bool :=
  match p.state with
  | .unbound => false
  | .binding => false
  | .sync => true
  | .mirror => true
  | .suspended => true
  | .quenching => true
  | .quenched => true

/-- The usable capacity of a pool in bytes (R263, R274, R278, R279, R425). -/
def State.usable (s : State) (p : Nat) : Nat :=
  match p with
  | 0 => if s.hearthUp 0 then (64 - (s.he 0).lostBanks) * 3 * mib else 0
  | 1 => if s.hearthUp 1 then (64 - (s.he 1).lostBanks) * 3 * mib else 0
  | 2 => if s.hearthUp 0 then (s.he 0).stacks * 64 * gib - 2 * gib - s.variableBytes 0 - (s.he 0).lostChannels * gib else 0
  | 3 => if s.hearthUp 1 then (s.he 1).stacks * 64 * gib - 2 * gib - s.variableBytes 1 - (s.he 1).lostChannels * gib else 0
  | 4 => s.tier2Bytes - (s.dev.ckptGib + s.dev.mirrorGib) * gib
  | _ => if s.pair.bound then s.pair.partnerMirrorGib * gib - s.partnerHeld else 0

def State.totalUse (s : State) (p : Nat) : Nat := sumN (s.allots.map (fun x => x.use p))

def State.poolFree (s : State) (p : Nat) : Nat := s.usable p - s.totalUse p

/-- The space that the other allotments' reserves keep in pool p (R263). -/
def State.keptFor (s : State) (a p : Nat) : Nat :=
  sumN (s.allots.mapIdx (fun b x => if b = a then 0 else (x.pools.getD p {}).reserve * mib - x.use p))

/-- An allocation of n bytes by allotment a in pool p fits (R263). -/
def State.fits (s : State) (a p n : Nat) : Bool :=
  decide ((s.al a).use p + n ≤ ((s.al a).pools.getD p {}).quota * mib) && decide (n + s.keptFor a p ≤ s.poolFree p)

/-- The same with r bytes of the allotment's own use released and e bytes more charged (R269). -/
def State.fitsWith (s : State) (a p n r e : Nat) : Bool :=
  decide ((s.al a).use p + e + n ≤ ((s.al a).pools.getD p {}).quota * mib + r) &&
  decide (n + e + s.keptFor a p + s.totalUse p ≤ s.usable p + r)

/-- An internal allocation charged to allotment a. -/
def State.charge (s : State) (a : Nat) (k : ChargeKind) (p n : Nat) : State :=
  if n = 0 then s else s.modAl a (fun x => { x with charges := x.charges ++ [{ kind := k, pool := p, bytes := n }] })

/-- The internal allocations of kind k are released. -/
def State.uncharge (s : State) (a : Nat) (k : ChargeKind) : State :=
  s.modAl a (fun x => { x with charges := x.charges.filter (fun c => c.kind != k) })

/-- Every reserve of pool p stays met after n bytes leave its usable capacity (R278). -/
def State.reservesMetWithout (s : State) (p n : Nat) : Bool :=
  decide (n + sumN (s.allots.map (fun x => (x.pools.getD p {}).reserve * mib - x.use p)) ≤ s.poolFree p)

/-! ## Last use (R268) -/

/-- The command with acceptance number acc named object h. -/
def State.touch (s : State) (a h acc : Nat) : State :=
  match s.obj? a h with
  | some _ => s.modObj a h (fun o => { o with lastUse := max o.lastUse acc })
  | none => s

/-- The tier-2 copy of an object is released with its charge (R272). -/
def State.dropShadow (s : State) (a h : Nat) : State :=
  match s.obj? a h with
  | some o =>
    if o.shadow then (s.uncharge a (.shadow (handleIndex h))).modObj a h (fun x => { x with shadow := false, shadowPoison := [] }) else s
  | none => s

/-! ## Mirrored tensors and writes (R381 to R383) -/

/-- The mirrored tensor of handle h. -/
def Allot.mirrored? (x : Allot) (h : Nat) : Option MirTensor := x.mir.tensors.find? (fun t => t.handle == h)

def Allot.modMir (x : Allot) (h : Nat) (f : MirTensor → MirTensor) : Allot :=
  { x with mir := { x.mir with tensors := x.mir.tensors.map (fun t => if t.handle = h then f t else t) } }

/-- A write to object h by something other than a tap source: a stream tensor becomes STALE (R381). -/
def State.staleWrite (s : State) (a h : Nat) : State :=
  match (s.al a).mirrored? h with
  | some t =>
    if t.inForce = 1 ∧ t.stale = false then
      ((s.modAl a (fun x => x.modMir h (fun m => { m with stale := true }))).setCond a .staleTensor 1).settle
    else s
  | none => s

/-! ## Space that the regions hold (R279, R379, R392) -/

/-- Charged bytes of the mirrored tensors of an allotment, accepted records included. -/
def Allot.mirroredBytes (x : Allot) : Nat :=
  let soon := x.temper.recs.filterMap (fun r => match r.2 with
    | .mirror b => some (bitsOf b 0 32)
    | .layer _ | .ladder _ | .policy _ | .spill _ | .scale _ | .mirrorPolicy _ => none)
  sumN ((sortN (x.mir.tensors.map (·.handle) ++ soon)).map (fun h => ((x.obj? h).getD {}).charged))

/-- The bytes that the checkpoint region holds. -/
def State.ckptHeld (s : State) : Nat :=
  let n := sumN (s.allots.map Allot.mirroredBytes)
  2 * n + (if n = 0 ∧ s.allots.all (fun x => x.mir.snapDone.isNone && x.mir.snapOpen.isNone) then 0 else 64 * mib)

/-- The bytes of this module's mirror region that the partner's copies, log and tier-3 objects take. -/
def State.mirrorHeld (s : State) : Nat :=
  let p := s.pair
  sumN (p.peerReserved.map (·.2)) + p.peerTier3 +
    (if p.bound || p.peerStores != [] then p.peerLogGib * gib + 64 * mib else 0)

end Sys2Proof.Machine
end

