-- ==== Sys2Proof/Machine/Journal.lean ====
section
/-! DEFINITION. The boot journal: unit bytes and records (R433 to R437, R473). -/

namespace Sys2Proof.Machine

/-! ## Unit bytes (R437) -/

def ubFails (b : Nat) : Nat := bitsOf b 0 2
def ubSkipped (b : Nat) : Bool := bitOf b 2
def ubDeconfig (b : Nat) : Bool := bitOf b 3
def ubGrade (b : Nat) : Nat := bitsOf b 4 2

/-- A unit byte: FAILS, SKIPPED, GRADE; DECONFIG stands while FAILS is 2. -/
def unitByte (fails : Nat) (skipped : Bool) (grade : Nat) : Nat :=
  fails + 4 * b2n skipped + 8 * b2n (decide (2 ≤ fails)) + 16 * grade

def State.unitByteOf (s : State) (u : Nat) : Nat := lookN u s.mgt.units

def State.setUnit (s : State) (u b : Nat) : State := { s with mgt := { s.mgt with units := putN u b s.mgt.units } }

/-- The journal unit of an anvil and of a lane (R437). -/
def anvilUnit (h a : Nat) : Nat := 16 + 72 * h + a
def laneUnit (l : Nat) : Nat := 160 + l

/-- The index names a journaled unit. -/
def isJournalUnit (u : Nat) : Bool := decide (u ≤ 14) || (decide (16 ≤ u) && decide (u ≤ 263))

/-! ## Records (R436) -/

/-- A record into the journal: the newest 256 committed records stay. While PWR_FAIL_N is asserted it is delayed (R473). -/
def State.journal (s : State) (r : JRec) : State :=
  let r1 := { r with
    seq := s.mgt.nextSeq
    start := s.dev.starts
    image := b2n s.dev.imageB
    time := s.now
    units := s.mgt.units }
  if s.dev.pwrFail then
    { s with mgt := { s.mgt with nextSeq := s.mgt.nextSeq + 1, delayed := s.mgt.delayed ++ [r1] } }
  else
    { s with mgt := { s.mgt with
      nextSeq := s.mgt.nextSeq + 1
      journal := (s.mgt.journal ++ [r1]).drop (s.mgt.journal.length + 1 - 256) } }

/-- A record of a kind with nothing of its own. -/
def emptyRec (kind : Nat) : JRec := { seq := 0, start := 0, kind := kind }

/-- The records and slots that PWR_FAIL_N delayed are written in their order (R473). -/
def State.flushDelayed (s : State) : State :=
  let all := s.mgt.journal ++ s.mgt.delayed
  { s with mgt := { s.mgt with journal := all.drop (all.length - 256), delayed := [], slotsOld := none } }

/-- One more failure of a journaled unit (R433, R434): FAILS rises to at most 2. -/
def failedByte (b : Nat) : Nat := unitByte (min 2 (ubFails b + 1)) false (ubGrade b)

/-- A journaled unit fails in service (R434): its byte changes and a KIND 2 record is written. -/
def State.unitFails (s : State) (u reason : Nat) : State :=
  (s.setUnit u (failedByte (s.unitByteOf u))).journal { emptyRec 2 with reason := reason }

/-- The unit's UNFENCE test passes (R434): FAILS becomes 0 and a KIND 4 record is written. -/
def State.unitPasses (s : State) (u : Nat) : State :=
  let b := s.unitByteOf u
  (s.setUnit u (unitByte 0 (ubSkipped b) (ubGrade b))).journal (emptyRec 4)

/-- The SEQ of the newest committed record, 0 where there is none. -/
def State.newestSeq (s : State) : Nat :=
  match s.mgt.journal.getLast? with
  | some r => r.seq
  | none => 0

/-! ## The configuration store (R439) -/

/-- The defaults of the configuration record. -/
def State.configDefault (s : State) : Config := { capW := if s.isX then 1600 else 900 }

/-- The record in use: the committed slot with the newer SEQ, else the defaults. -/
def State.config (s : State) : Config :=
  match (s.mgt.slots.filter (·.committed)) with
  | [] => s.configDefault
  | c :: r => r.foldl (fun a b => if a.seq < b.seq then b else a) c

/-- A write: the record in use changed by f, into the slot with the older committed SEQ, committed last. While PWR_FAIL_N is asserted
the flash keeps its old slots (R473). -/
def State.writeConfig (s : State) (f : Config → Config) : State :=
  let n : Config := { f s.config with seq := s.config.seq + 1, committed := true }
  let rank (c : Config) : Nat := if c.committed then c.seq + 1 else 0
  let i := match s.mgt.slots with
    | [a, b] => if rank b < rank a then 1 else 0
    | _ => 0
  { s with mgt := { s.mgt with
    slots := s.mgt.slots.set i n
    slotsOld := if s.dev.pwrFail then some (s.mgt.slotsOld.getD s.mgt.slots) else none } }

end Sys2Proof.Machine
end

