-- ==== Sys2Proof/Machine/Packets.lean ====
section
/-! DEFINITION. Sending transport packets: ports, usable paths, headers, check values, ciphers and frames, windows, acknowledgements
and aborts (R341 to R346, R348, R353, R354, R369, R370). Numbers of collective streams: log 38. -/

namespace Sys2Proof.Machine

/-! ## Ports and paths (R348) -/

def State.modPort (s : State) (p : Nat) (f : Port → Port) : State :=
  { s with fab := { s.fab with ports := modAt p f s.fab.ports } }

def State.port (s : State) (p : Nat) : Port := s.fab.ports.getD p {}

/-- A port that carries traffic: up and not fenced. -/
def State.portUsable (s : State) (p : Nat) : Bool := (s.port p).up && !s.flt.portsFenced.contains p

def Port.isLong (x : Port) : Bool := x.mode == .longReach
def Port.isEthernet (x : Port) : Bool := x.mode == .ethernet

/-- A path that new packets may take: its port is up, in service and not bound to the partner (R348, R423). -/
def State.pathUsable (s : State) (x : Path) : Bool :=
  x.valid && s.portUsable x.port && !(s.port x.port).bound && !s.flt.portsLeaving.contains x.port

/-- The ports of the usable paths of a peer. -/
def State.paths (s : State) (peer : Nat) : List Nat :=
  match look peer s.fab.routes with
  | some r => if r.valid then ((r.paths.take r.npath).filter s.pathUsable).map (·.port) else []
  | none => []

/-- The bound port that the channels of the pair take now: the first one that carries traffic (R275, R383; log 67). -/
def State.mirrorPort (s : State) : Option Nat :=
  if s.pair.bound then ([s.pair.portA, s.pair.portB].find? (fun p => decide (p < 24) && s.portUsable p)) else none

/-- The port that a packet takes: of the paths of its peer, number SEQ for a collective, number stream index otherwise, modulo
their count. -/
def State.portFor (s : State) (peer vc own seq : Nat) : Option Nat :=
  if 2 ≤ vc then s.mirrorPort
  else
  let ps := s.paths peer
  ps[(if vc = 0 then seq else own) % max 1 ps.length]?

/-! ## Collective streams (log 38) -/

/-- The stream number of collective k of a group; phase 0 carries contributions, 1 results. -/
def collStream (group k phase : Nat) : Nat := group + 4096 * (k % 16) + 65536 * phase

def streamGroup (n : Nat) : Nat := bitsOf n 0 12
def streamSlot (n : Nat) : Nat := bitsOf n 12 4
def streamPhase (n : Nat) : Nat := bitsOf n 16 1

/-- The allotment of a member on its peer. -/
def Group.allotOf (g : Group) (peer : Nat) : Nat := ((g.members.find? (fun m => m.1 == peer)).map (·.2)).getD 0

/-! ## Packets (R353, R369, R370) -/

/-- The polynomial of a check class. -/
def State.classPoly (s : State) (k : Nat) : Poly := polyOf (s.fab.classes.getD k { poly := 2 }).poly

/-- The fold block of a stream packet (R370). -/
def foldBlock (dst allot stream seq : Nat) : List Byte := leBytes (dst + allot * 2 ^ 14 + stream * 2 ^ 32) 8 ++ leBytes seq 8

/-- The transport header of a packet. -/
def State.headerBytes (s : State) (x : Packet) : List Byte :=
  leBytes x.dst 2 ++ leBytes s.fab.self 2 ++ leBytes s.fab.domain 2 ++ leBytes x.vc 1 ++ leBytes x.alive 1 ++
    leBytes (x.stream + x.allot * 2 ^ 17) 4 ++ leBytes x.seq 4 ++ leBytes x.ack 4 ++ leBytes x.kind 1 ++ zeros 1 ++
    leBytes x.data.length 2 ++ leBytes x.sig.toNat 4 ++ zeros 4

/-- The bytes of a packet: header, data, and the check value of its class, which a folding class takes over the fold block too. -/
def State.packetBytes (s : State) (x : Packet) : List Byte :=
  let p := s.classPoly x.vc
  let body := s.headerBytes x ++ x.data
  body ++ leBytes (p.check (body ++ (if x.vc < 2 then foldBlock x.dst x.allot x.stream x.seq else []))) p.bytes

/-! ## Native frames (R341, R342) -/

/-- The bytes of a frame. -/
def frameBytes (typ vc seq ackWord flags : Nat) (payload : List Byte) : List Byte :=
  let head := leBytes typ 1 ++ leBytes vc 1 ++ leBytes seq 2 ++ leBytes ackWord 2 ++ leBytes payload.length 1 ++ leBytes flags 1 ++ zeros 4
  let body := padTo 240 payload
  head ++ leBytes ((polyOf 2).check (head ++ body)) 4 ++ body

/-- LINK_ACK of a frame that the port sends now; 0 in long-reach mode, which has no link retry (R345). -/
def Port.ackWord (x : Port) : Nat := if x.isLong then 0 else x.rxSeq + 4096 * b2n x.nak

/-- A data frame leaves. -/
def Port.frameOut (x : Port) (f : LinkFrame) : Port :=
  { x with out := x.out ++ [frameBytes 0 f.vc f.seq x.ackWord (b2n f.first + 2 * b2n f.last) f.payload] }

/-- A link control frame carries the acknowledgement or the NAK to the other side; it has no link sequence of its own (log 65). -/
def Port.controlOut (x : Port) : Port := if x.isLong then x else { x with out := x.out ++ [frameBytes 1 0 x.txSeq x.ackWord 0 []] }

/-- The bytes of a packet leave in frames, which a native port keeps for replay. -/
def Port.sendFrames (x : Port) (vc : Nat) (bs : List Byte) : Port :=
  let ps := pieces 240 bs
  let fs := (ps.zipIdx).map (fun e =>
    ({ seq := (x.txSeq + 1 + e.2) % 4096, vc := vc, first := e.2 == 0, last := e.2 + 1 == ps.length, payload := e.1 } : LinkFrame))
  fs.foldl Port.frameOut { x with replay := if x.isLong then x.replay else x.replay ++ fs, txSeq := (x.txSeq + ps.length) % 4096 }

/-- Packets leave in order while the replay buffer of 2,048 frames has room; the others wait. -/
def Port.flush : List (Nat × List Byte) → Port → Port
  | [], x => { x with waiting := [] }
  | e :: r, x =>
    if x.replay.length + ceilDiv e.2.length 240 ≤ 2048 then Port.flush r (x.sendFrames e.1 e.2) else { x with waiting := e :: r }

/-- The frames of the replay buffer are sent again, in order. -/
def Port.resend (x : Port) : Port :=
  let fs := x.replay.map (fun f => { f with sends := f.sends + 1 })
  fs.foldl Port.frameOut { x with replay := fs }

/-! ## Long reach and Ethernet (R343 to R346) -/

/-- The IV of a packet: FIXED with the port and the direction, 1 where the sender has the higher peer ID, and INVOCATION (log 63). -/
def ivOf (port : Nat) (up : Bool) (invocation : Nat) : List Byte := beBytes (port + 32 * b2n up) 4 ++ beBytes invocation 8

/-- A packet under the cipher of a port that sends it: its first 8 bytes in the clear, ciphertext, tag. -/
def Port.sealed (x : Port) (p : Nat) (up : Bool) (bs : List Byte) : List Byte :=
  bs.take 8 ++ gcmSeal x.keyTx (ivOf p up x.invocTx) (bs.take 8) (bs.drop 8)

/-- The frame check sequence of an Ethernet frame. PRESUMED: IEEE 802.3 (log 66). -/
def fcsOf (bs : List Byte) : List Byte := leBytes ((polyOf 1).check bs) 4

/-- The MAC address of a peer behind a port. -/
def State.macOf (s : State) (peer p : Nat) : Nat :=
  ((((look peer s.fab.routes).map (·.paths)).getD []).find? (fun x => x.port == p && x.valid)).elim 0 (·.addr)

/-- An Ethernet frame with a packet: addresses, EtherType, the packet padded to 46 bytes, FCS (log 66). -/
def State.etherFrame (s : State) (peer p : Nat) (bs : List Byte) : List Byte :=
  let body := beBytes (s.macOf peer p) 6 ++ beBytes ((s.config.macBase + p) % 2 ^ 48) 6 ++ beBytes s.fab.ethertype 2 ++ padTo (max 46 bs.length) bs
  body ++ fcsOf body

/-! ## Sending (R353, R354) -/

/-- The port has room for the frames of a packet of n data bytes. -/
def State.room (s : State) (p vc n : Nat) : Bool :=
  (s.port p).mode != .native || decide ((s.port p).replay.length + ceilDiv (32 + n + (s.classPoly vc).bytes) 240 ≤ 2048)

/-- The bytes of a packet to a peer leave port p, in the form of its mode. -/
def State.emit (s : State) (p peer vc : Nat) (bs : List Byte) : State :=
  let up := decide (peer < s.fab.self)
  s.modPort p (fun y =>
    match y.mode with
    | .native => Port.flush (y.waiting ++ [(vc, bs)]) y
    | .longReach =>
      let z := { y with invocTx := y.invocTx + 1 }
      z.sendFrames vc (z.sealed p up bs)
    | .ethernet => { y with out := y.out ++ [s.etherFrame peer p bs] }
    | .off => y)

/-- The alive counter of virtual channels 2 and 3 counts a packet (R370). -/
def Port.countAlive (x : Port) (vc : Nat) : Port :=
  if vc = 2 ∨ vc = 3 then { x with aliveTx := modAt (vc - 2) (fun c => (c + 1) % 256) x.aliveTx } else x

/-- A packet goes out on port p. -/
def State.putPacket (s : State) (p : Nat) (x : Packet) : State :=
  let t := s.modPort p (fun y => y.countAlive x.vc)
  let x1 := { x with port := p, alive := if x.vc < 2 then 0 else (t.port p).aliveTx.getD (x.vc - 2) 0 }
  let x2 := { x1 with bytes := t.packetBytes x1 }
  let u := t.emit p x.dst x.vc x2.bytes
  { u with fab := { u.fab with wire := u.fab.wire ++ [x2] } }

/-- A packet of a tier-3 transfer, class 4: the fold block holds the destination handle and byte offset (R370). It has no stream: all
ones (log 67). -/
def State.transferPacket (s : State) (p allot handle off : Nat) (data : List Byte) : Packet :=
  let x : Packet := { port := p, dst := s.pair.partner, vc := 2, stream := 0x1FFFF, allot := allot, data := data }
  let poly := s.classPoly 4
  let body := s.headerBytes x ++ data
  { x with bytes := body ++ leBytes (poly.check (body ++ leBytes handle 8 ++ leBytes off 8)) poly.bytes }

/-- Bytes that enter a tier-3 object from offset off on go to the partner on a bound port (R274, R275). -/
def State.sendTier3 (s : State) (allot handle off : Nat) (bs : List Byte) : State :=
  match s.mirrorPort with
  | none => s
  | some p => ((pieces 4096 bs).zipIdx).foldl (fun t e =>
      let x := t.transferPacket p allot handle (off + 4096 * e.2) e.1
      let u := t.emit p x.dst 2 x.bytes
      { u with fab := { u.fab with wire := u.fab.wire ++ [x] } }) s

/-- Sequence numbers of 32 bits: a lies in the 2^31 numbers up to b. -/
def seqLe (a b : Nat) : Bool := decide ((b + 2 ^ 32 - a % 2 ^ 32) % 2 ^ 32 < 2 ^ 31)

def seqNext (a : Nat) : Nat := (a + 1) % 2 ^ 32

/-! ## The channels of the pair (R370, R383; log 67) -/

/-- The number of a channel of the pair among the inbound streams. -/
def pairStream (vc own : Nat) : Nat := 2 ^ 20 * vc + own

/-- On the mirror channel the pages of an allotment travel on one stream and its messages on another; the management channel is stream
0 of its virtual channel. -/
def pagesOn (allot : Nat) : Nat := 4096 * allot
def messagesOn (allot : Nat) : Nat := 65536 + 4096 * allot

/-- The packets of an inbound stream are delivered one by one, not as messages. -/
def rawStream (n : Nat) : Bool := decide (3 * 2 ^ 20 ≤ n) || (decide (2 * 2 ^ 20 ≤ n) && decide (n < 2 * 2 ^ 20 + 65536))

/-- The key of the last SEQ of a channel of the pair. -/
def pairKey (vc own : Nat) : Nat := 2 ^ 40 * vc + own

/-- What the reverse direction of a stream has received in order. -/
def State.ackOf (s : State) (vc own peer : Nat) : Nat :=
  if vc = 1 then ((look own s.fab.streams).map (·.rxSeq)).getD 0
  else ((s.fab.inbound.find? (fun x => x.stream == (if vc = 0 then own else pairStream vc own) && x.peer == peer)).map (·.rxSeq)).getD 0

/-- The number of the stream at the peer; none before the peer has opened it. An open, or the close of a stream that the peer has
not opened, names no stream: all ones. -/
def State.farNumber (s : State) (x : Sent) : Option Nat :=
  if x.vc ≠ 1 then some x.own
  else match (look x.own s.fab.streams).bind (·.far) with
    | some n => if x.kind = 3 then some 0x1FFFF else some n
    | none => if x.kind = 3 ∨ x.kind = 4 then some 0x1FFFF else none

/-- The window of a path (R345, R354). -/
def State.sendWindow (s : State) (p : Nat) : Nat := if (s.port p).isLong then 256 * 1048576 else 512 * 1024

/-- Bytes outstanding that share the window of a packet: of its stream, on a long-reach port of all the streams of the port. -/
def State.outstanding (s : State) (p : Nat) (x : Sent) : Nat :=
  sumN ((s.fab.unacked.filter (fun y => y.sends != 0 &&
    (if (s.port p).isLong then y.port == p else y.vc == x.vc && y.own == x.own && y.peer == x.peer))).map (fun y => y.data.length))

def Sent.same (x y : Sent) : Bool := x.vc == y.vc && x.peer == y.peer && x.own == y.own && x.seq == y.seq

def State.modSent (s : State) (x : Sent) (f : Sent → Sent) : State :=
  { s with fab := { s.fab with unacked := s.fab.unacked.map (fun y => if y.same x then f y else y) } }

/-- A packet of a stream goes out on the path that it has now; without one it waits. again: it was sent before (R354). Mirror and
management traffic serves no command and counts in global counters only (R451). -/
def State.sendNow (s : State) (x : Sent) (again : Bool) : State :=
  match s.portFor x.peer x.vc x.own x.seq, s.farNumber x with
  | some p, some n =>
    if !s.room p x.vc x.data.length then s
    else
      let t := (s.putPacket p { port := p, dst := x.peer, vc := x.vc, stream := n, allot := x.far, seq := x.seq, ack := s.ackOf x.vc x.own x.peer
                                kind := x.kind, sig := x.sig, data := x.data }).modSent x (fun y => { y with sends := y.sends + 1, port := p, since := s.now })
      let a := if x.vc < 2 then some x.allot else none
      if again then t.count 0x15 none a none x.served 1
      else
        let u := if x.vc = 2 ∧ x.own < 65536 then t.count 0x44 none none none none (x.data.length / 4096 * 64) else t
        u.count 0x13 none a none x.served (ceilDiv x.data.length 64)
  | _, _ => s

/-- A waiting packet goes out when the window has room for it. -/
def State.trySend (s : State) (x : Sent) : State :=
  match s.portFor x.peer x.vc x.own x.seq with
  | some p => if x.sends = 0 ∧ s.outstanding p x + x.data.length ≤ s.sendWindow p then s.sendNow x false else s
  | none => s

/-- Every packet that waits and can go out goes out, in order. -/
def State.pump (s : State) : State := s.fab.unacked.foldl (fun t x => t.trySend x) s

/-- Packets enter the streams. -/
def State.enqueue (s : State) (xs : List Sent) : State :=
  ({ s with fab := { s.fab with unacked := s.fab.unacked ++ xs.map (fun x => { x with since := s.now }) } } : State).pump

/-- An acknowledgement, on the path of its own SEQ: cumulative (KIND 1), or selective when the packet seq lies beyond a gap
(KIND 2). -/
def State.sendAck (s : State) (peer vc own far allot seq : Nat) (sig : W32) (selective : Bool) : State :=
  let n := if selective then seq else 0
  match s.portFor peer vc own n with
  | some p => s.putPacket p { port := p, dst := peer, vc := vc, stream := far, allot := allot, seq := n, ack := s.ackOf vc own peer
                              kind := if selective then 2 else 1, sig := sig }
  | none => s

/-- Packets of a collective stream to a peer, numbered on from its last: KIND and data (log 38). served: the command that they
serve. -/
def State.sendOn (s : State) (peer stream allot far : Nat) (sig : W32) (ps : List (Nat × List Byte)) (served : Option Nat := none) : State :=
  let key := 131072 * peer + stream
  let n := lookN key s.fab.txSeq
  ({ s with fab := { s.fab with txSeq := putN key ((n + ps.length) % 2 ^ 32) s.fab.txSeq } } : State).enqueue ((ps.zipIdx 1).map (fun e =>
    { vc := 0, peer := peer, own := stream, allot := allot, far := far, seq := (n + e.2) % 2 ^ 32, kind := e.1.1, sig := sig, data := e.1.2
      served := served }))

/-- Packets to the partner on a channel of the pair, numbered on from its last: KIND, SIG and data. first: they go ahead of what waits. -/
def State.sendPair (s : State) (vc own allot : Nat) (first : Bool) (ps : List (Nat × W32 × List Byte)) : State :=
  let key := pairKey vc own
  let n := lookN key s.fab.txSeq
  let xs := (ps.zipIdx 1).map (fun e => ({ vc := vc, peer := s.pair.partner, own := own, allot := allot, far := allot, seq := (n + e.2) % 2 ^ 32
                                           kind := e.1.1, sig := e.1.2.1, data := e.1.2.2, since := s.now } : Sent))
  if s.pair.bound then
    ({ s with fab := { s.fab with
      txSeq := putN key ((n + ps.length) % 2 ^ 32) s.fab.txSeq
      unacked := if first then xs ++ s.fab.unacked else s.fab.unacked ++ xs } } : State).pump
  else s

/-- A message to the partner on the mirror channel: an open with its number and length, then its data. -/
def State.sendPairMsg (s : State) (allot index : Nat) (first : Bool) (bs : List Byte) : State :=
  s.sendPair 2 (messagesOn allot) allot first ((3, 0, leBytes index 8 ++ leBytes bs.length 8) :: (pieces 4096 bs).map (fun d => (0, 0, d)))

/-- A message between the management controllers (log 68): 1 FEED_ID, 2 a committed store, 3 unbind order, 4 unbound, 5 immediate
unbind. -/
def State.sendMgmt (s : State) (type : Nat) (data : List Byte) : State := s.sendPair 3 0 0 false [(0, 0, padTo 16 (leBytes type 1 ++ data))]

/-- An abort of a collective to every other member (R356, R363): its number, and the reason 0 for a signature that differs, 1 for
a collective that is discarded. -/
def State.sendAborts (s : State) (gid index reason : Nat) : State :=
  match look gid s.fab.groups with
  | none => s
  | some g => (g.members.filter (fun m => m.1 != s.fab.self)).foldl (fun t m =>
      t.sendOn m.1 (collStream gid index 1) g.allot m.2 g.digest [(5, leBytes index 8 ++ leBytes reason 1)]) s

/-- Number n, from 0 on, of the numbers after begun that are not taken. -/
def nextNumber (begun : Nat) (gone : List Nat) (n : Nat) : Nat :=
  (((List.range (n + 1 + gone.length)).map (begun + 1 + ·)).filter (fun k => !gone.contains k)).getD n 0

/-- The numbers of the exchanges of UPD_NORM stand apart from those of COLL_BEGIN (log 38). -/
def normBase : Nat := 2 ^ 63

/-- The group of a COLL_BEGIN that is not a SEND or RECV, or of an UPD_NORM across peers, and whether it is the latter. -/
def Cmd.collOf (c : Cmd) : Option (Nat × Bool) :=
  if c.opcode = 0x0610 ∧ c.par 0 1 ≤ 4 then some (c.par 2 2, false)
  else if c.opcode = 0x0501 ∧ c.par 0xD 1 = 1 then some (c.par 0xE 2, true)
  else none

/-- Command id, of group gid, is discarded before its collective has begun: it takes the number of its turn (R356), and every member
gets an abort. -/
def State.skipColl (s : State) (gid : Nat) (g : Group) (norm : Bool) (id : Nat) : State :=
  let n := (s.hg.cmds.filter (fun d => d.collOf == some (gid, norm) && (d.phase == .accepted || d.phase == .started) && decide (d.id < id))).length
  let k := if norm then nextNumber g.norms g.normsGone n else nextNumber g.begun g.gone n
  let f (y : Group) : Group := if norm then { y with normsGone := y.normsGone ++ [k] } else { y with gone := y.gone ++ [k] }
  ({ s with fab := { s.fab with groups := upd gid f s.fab.groups } } : State).sendAborts gid (if norm then normBase + k else k) 1

/-- The collective of command id ends on this module without an effect: every member gets an abort (R363). aux of an UPD_NORM at work
begins with the number of its exchange. -/
def State.dropColl (s : State) (id : Nat) : State :=
  match s.fab.colls.find? (fun c => c.cmd == id) with
  | some c => ({ s with fab := { s.fab with colls := s.fab.colls.filter (fun x => x.cmd != id) } } : State).sendAborts c.group c.index 1
  | none =>
    match s.hg.cmds.find? (fun c => c.id == id) with
    | none => s
    | some c =>
      match c.collOf with
      | none => s
      | some (gid, norm) =>
        match look gid s.fab.groups with
        | none => s
        | some g =>
          if g.allot ≠ c.allot then s
          else match c.phase with
            | .accepted | .started => s.skipColl gid g norm id
            | .working => if norm then s.sendAborts gid (c.aux.getD 0 0) 1 else s
            | .held | .done => s

end Sys2Proof.Machine
end

