-- ==== Sys2Proof/Machine/Sources.lean ====
section
/-! DEFINITION. Fault sources: their units, classes, floors, fences and discard scopes (R407 to R415). -/

namespace Sys2Proof.Machine

/-- The discard scope of an event (R415). -/
inductive Scope where
  | none
  | anvil (h a : Nat)
  | sequencer (h q : Nat)
  | temper (h : Nat)
  | engine (h v : Nat)
  | store (h : Nat)
  | tier0 (h : Nat)
  | tier1 (h : Nat)
  | tier2
  | served
  | hearth1
  | allotment (a : Nat)
  | all
  deriving DecidableEq, Repr

/-- When an event fences its unit (R409). -/
inductive FenceRule where
  | never
  | contained
  | always
  deriving DecidableEq, Repr

/-- What the table of R409 gives a source. unit: the unit word (R422) that the event fences, with all 64 channels of the
stack where stack is set. kind: the memory kind of domains 0x1, 0x3 and 0x4. die: 0 always carried, 1 of hearth 1, 2 of
the base part that the PZ8-H lacks (R18, R408). -/
structure SrcInfo where
  cls : Nat
  floor : Nat
  fence : FenceRule := .never
  unit : Option Nat := Option.none
  stack : Bool := false
  scope : Scope := .none
  kind : Option Nat := Option.none
  die : Nat := 0
  deriving DecidableEq, Repr

/-- A unit word (R422). -/
def unitWord (typ hearth index : Nat) : Nat := typ + 16 * hearth + 256 * index

def unitType (u : Nat) : Nat := bitsOf u 0 4
def unitHearth (u : Nat) : Nat := bitsOf u 4 1
def unitIndex (u : Nat) : Nat := bitsOf u 8 16

/-- A source of the kinds 0 to 6 of a memory unit. -/
def memInfo (k unit : Nat) (scope : Scope) (die : Nat) (fences : Bool) : SrcInfo :=
  let cls := if k = 0 ∨ k = 3 ∨ k = 4 then 1 else 2
  { cls := cls
    floor := if cls = 1 then 0 else 2
    fence := if !fences then .never else if k = 1 ∨ k = 6 then .contained else if k = 3 then .always else .never
    unit := some unit
    scope := if k = 2 then .served else if k = 5 then .none else scope
    kind := some k
    die := die }

/-- Domain 0x0: anvils, tile sequencers, temper statistics, the spare map. -/
def srcAnvils (i : Nat) : Option SrcInfo :=
  if i < 2304 then
    let h := i / 1152
    let a := i % 1152 / 16
    let u := unitWord 0 h a
    if i % 16 = 15 then some { cls := 1, floor := 0, fence := .always, unit := some u, scope := .anvil h a, die := h }
    else some { cls := 2, floor := 2, fence := .contained, unit := some u, scope := .anvil h a, die := h }
  else if 0x900 ≤ i ∧ i < 0x920 ∧ i % 4 < 3 then
    let n := (i - 0x900) / 4
    some { cls := 2, floor := 2, scope := .sequencer (n / 4) (n % 4), die := n / 4 }
  else if 0x920 ≤ i ∧ i < 0x924 then
    let h := (i - 0x920) / 2
    if i % 2 = 0 then some { cls := 1, floor := 0, die := h } else some { cls := 2, floor := 2, scope := .temper h, die := h }
  else if i = 0x924 ∨ i = 0x925 then some { cls := 1, floor := 0, die := i - 0x924 }
  else none

/-- Domain 0x1: scratchpad banks. -/
def srcBanks (i : Nat) : Option SrcInfo :=
  if i < 792 then
    let h := i % 132 / 66
    some (memInfo (i / 132) (unitWord 2 h (i % 66)) (.tier0 h) h true)
  else none

/-- Domain 0x2: accumulator memory. -/
def srcAccumulators (i : Nat) : Option SrcInfo :=
  if i < 432 then
    let h := i % 144 / 72
    let a := i % 72
    if i < 144 then some { cls := 1, floor := 0, scope := .anvil h a, die := h }
    else some { cls := 2, floor := 2, fence := .contained, unit := some (unitWord 0 h a), scope := .anvil h a, die := h }
  else none

/-- Domain 0x3: HBM pseudo-channels and stacks. -/
def srcHbm (i : Nat) : Option SrcInfo :=
  if i < 3584 then
    let u := i % 512
    some (memInfo (i / 512) (unitWord 3 (u / 256) u) (.tier1 (u / 256)) (u / 256) true)
  else if 0xE00 ≤ i ∧ i < 0xE20 ∧ i % 4 < 3 then
    let st := (i - 0xE00) / 4
    some { cls := 2, floor := 2, fence := if i % 4 < 2 then .contained else .never, unit := some (unitWord 3 (st / 4) (64 * st)),
           stack := true, scope := .tier1 (st / 4), die := st / 4 }
  else none

/-- Domain 0x4: LPDDR channels and controllers. -/
def srcLpddr (i : Nat) : Option SrcInfo :=
  if i < 384 ∧ i / 64 ≠ 3 then
    let die := if i % 64 < 32 then 0 else 2
    some { memInfo (i / 64) 0 .tier2 die false with unit := none }
  else if 0x200 ≤ i ∧ i < 0x208 then
    let die := if i < 0x204 then 0 else 2
    if i % 2 = 0 then some { cls := 3, floor := 3, die := die } else some { cls := 2, floor := 2, scope := .tier2, die := die }
  else none

/-- Domain 0x5: lanes, G-ports, peers. -/
def srcFabric (i : Nat) : Option SrcInfo :=
  if i < 416 then
    let l := i % 104
    let die := if l < 52 then 0 else 2
    some { cls := 1, floor := 0, fence := if i / 104 = 1 then .always else .never, unit := some (unitWord 4 0 l), die := die }
  else if 0x200 ≤ i ∧ i < 0x2C0 ∧ i % 8 < 5 then
    let p := (i - 0x200) / 8
    let k := i % 8
    let die := if p < 12 then 0 else 2
    let u := some (unitWord 5 0 p)
    if k = 1 ∨ k = 3 then some { cls := 2, floor := 2, fence := .contained, unit := u, die := die }
    else some { cls := 1, floor := 0, fence := if k = 0 then .always else .never, unit := u, die := die }
  else if i = 0x300 ∨ i = 0x301 then some { cls := 1, floor := 0 }
  else none

/-- Domain 0x6: die-to-die links. -/
def srcLinks (i : Nat) : Option SrcInfo :=
  if i < 8 then
    let h := i / 4
    if i % 4 = 2 then
      if h = 1 then some { cls := 2, floor := 2, fence := .contained, unit := some (unitWord 6 0 1), scope := .hearth1, die := 1 }
      else some { cls := 3, floor := 3 }
    else some { cls := 1, floor := 0, scope := if h = 1 then .hearth1 else .none, die := h }
  else none

/-- Domain 0x7: vector engines and program stores. -/
def srcVector (i : Nat) : Option SrcInfo :=
  if i < 448 then
    let h := i % 64 / 32
    let v := i % 32
    if i < 64 then some { cls := 1, floor := 0, scope := .engine h v, die := h }
    else some { cls := 2, floor := 2, fence := .contained, unit := some (unitWord 1 h v), scope := .engine h v, die := h }
  else if 0x200 ≤ i ∧ i < 0x204 then
    let h := (i - 0x200) / 2
    if i % 2 = 0 then some { cls := 1, floor := 0, die := h } else some { cls := 2, floor := 2, scope := .store h, die := h }
  else none

/-- Domains 0x8 to 0xA: update engine, movers, collective engine; queue engine; Headgate. -/
def srcBase (d i : Nat) : Option SrcInfo :=
  if d = 8 then
    if i = 0 then some { cls := 1, floor := 0, scope := .served }
    else if i = 1 ∨ i = 2 ∨ (0x10 ≤ i ∧ i < 0x20) ∨ i = 0x40 ∨ i = 0x41 then some { cls := 2, floor := 2, scope := .served }
    else none
  else if d = 9 then
    if i ≤ 16 ∨ i = 0x100 then some { cls := 1, floor := 0 }
    else if i = 0x101 then some { cls := 3, floor := 3 }
    else if i = 0x102 then some { cls := 2, floor := 2, scope := .all }
    else none
  else
    if i < 32 ∧ i % 4 < 3 then (if i % 4 = 1 then some { cls := 1, floor := 0 } else some { cls := 3, floor := 3 })
    else if i = 0x40 ∨ i = 0x41 then some { cls := 3, floor := 3 }
    else none

/-- Domains 0xB to 0xF: power, thermal, security, flash, management. -/
def srcManagement (d i : Nat) : Option SrcInfo :=
  if d = 0xB then
    if i < 48 ∨ i = 0x81 then some { cls := 3, floor := 3 } else if i = 0x80 then some { cls := 1, floor := 0 } else none
  else if d = 0xC then
    if i < 336 then
      let t := i / 2
      let die := if (72 ≤ t ∧ t < 144) ∨ (148 ≤ t ∧ t < 152) then 1 else 0
      if i % 2 = 0 then some { cls := 1, floor := 0, die := die } else some { cls := 3, floor := 3, die := die }
    else if i = 0x200 then some { cls := 1, floor := 0 }
    else none
  else if d = 0xD then
    if i = 1 ∨ i = 2 then some { cls := 3, floor := 3 } else if i < 5 then some { cls := 1, floor := 0 } else none
  else if d = 0xE then
    if i < 3 then some { cls := 1, floor := 0 } else none
  else
    if i < 3 ∨ i = 0x10 then some { cls := 1, floor := 0 }
    else if i = 0x11 then some { cls := 2, floor := 2, fence := .always, scope := .served }
    else none

/-- The row of a source ID in the table of R409; none for a reserved one (R407). -/
def srcInfo (id : Nat) : Option SrcInfo :=
  let d := id / 4096
  let i := bitsOf id 0 12
  match d with
  | 0 => srcAnvils i
  | 1 => srcBanks i
  | 2 => srcAccumulators i
  | 3 => srcHbm i
  | 4 => srcLpddr i
  | 5 => srcFabric i
  | 6 => srcLinks i
  | 7 => srcVector i
  | 8 => srcBase 8 i
  | 9 => srcBase 9 i
  | 10 => srcBase 10 i
  | _ => if d < 16 then srcManagement d i else none

/-- The module carries units of this die (R18, R408). -/
def State.carries (s : State) (die : Nat) : Bool :=
  match die with
  | 0 => true
  | 1 => s.isX && !s.dev.solo
  | _ => s.isX

/-- A source of the module (R408). -/
def State.srcPresent (s : State) (id : Nat) : Bool :=
  match srcInfo id with
  | some i => s.carries i.die
  | none => false

/-- The class of a source (R410). -/
def State.srcClass (s : State) (id : Nat) : Nat :=
  match look id s.flt.severity with
  | some c => c
  | none => match srcInfo id with
    | some i => i.cls
    | none => 0

/-- The unit word names a unit that the variant has (R422). -/
def State.unitExists (s : State) (u : Nat) : Bool :=
  let h := unitHearth u
  let i := unitIndex u
  let hOk := h == 0 || s.isX
  match unitType u with
  | 0 => hOk && decide (i < 72)
  | 1 => hOk && decide (i < 32)
  | 2 => hOk && decide (i < 66)
  | 3 => decide (i < 512) && h == i / 256 && hOk
  | 4 => h == 0 && decide (i < (if s.isX then 104 else 52))
  | 5 => h == 0 && decide (i < (if s.isX then 24 else 12))
  | 6 => h == 0 && s.isX && i == 1
  | 7 => h == 0 && decide (i < 16)
  | _ => false

/-- The discard scope of an immediate fence of a unit (R423, R415). -/
def unitScope (u : Nat) : Scope :=
  match unitType u with
  | 0 => .anvil (unitHearth u) (unitIndex u)
  | 1 => .engine (unitHearth u) (unitIndex u)
  | 2 => .tier0 (unitHearth u)
  | 3 => .tier1 (unitHearth u)
  | 6 => .hearth1
  | 7 => .allotment (unitIndex u)
  | _ => .none

/-- The units over which R244 interleaves in a tier of a hearth, without spares: banks, pseudo-channels of the stacks in service,
controllers in service. -/
def State.unitsOf (s : State) (tier h : Nat) : List Nat :=
  match tier with
  | 0 => List.range 64
  | 1 =>
    let l := (List.range 256).filter (fun c => (s.he h).stackGrade.getD (c / 64) 3 != 3)
    if l = [] then List.range 256 else l
  | _ =>
    let l := (List.range 4).filter (fun n => s.dev.ctrlGrade.getD n 3 != 3)
    if l = [] then List.range 4 else l

/-- Bytes of an interleave unit (R244). -/
def interleave (tier : Nat) : Nat := if tier = 0 then 2048 else 256

/-- The unit of a tier that holds byte off of object index of allotment a (R244, log 13). -/
def State.unitAt (s : State) (tier h a index off : Nat) : Nat :=
  let us := s.unitsOf tier h
  us.getD ((Config.firstUnit tier h a index + off / interleave tier) % us.length) 0

/-- The kind-2 source of the unit that holds a block of an object (R409, R417): the bank that serves it or its spare, the
pseudo-channel, or the channel of the controller. -/
def State.blockSource (s : State) (a index : Nat) (o : Obj) (block : Nat) : Nat :=
  let n := s.unitAt o.tier o.hearth a index (64 * block)
  match o.tier with
  | 0 => 0x1000 + 132 * 2 + 66 * o.hearth + (look n (s.he o.hearth).bankSpares).getD n
  | 1 => 0x3000 + 512 * 2 + 256 * o.hearth + n
  | _ => 0x4000 + 64 * 2 + 16 * n + Config.channelOf a index (block / 4) % 16

/-- The kind-2 source of the unit of a memory source. -/
def kindTwo (src : Nat) : Nat :=
  let i := bitsOf src 0 12
  match bitsOf src 12 4 with
  | 1 => 0x1000 + 264 + i % 132
  | 3 => 0x3000 + 1024 + i % 512
  | _ => 0x4000 + 128 + i % 64

end Sys2Proof.Machine
end

