-- ==== Sys2Proof/Machine/Operands.lean ====
section
/-! DEFINITION. The operand forms of Deant commands: opcodes, issuers, fields and their checks (R294, R313, R314, R318), the
references to objects and the names of a command (R257, R499). -/

namespace Sys2Proof.Machine

/-! ## Opcodes (R313) -/

/-- Who may issue a command: any allotment, or allotment 0 only. -/
inductive Issuer where
  | any
  | zero
  deriving DecidableEq, Repr

/-- The opcode table of R313: issuer, and whether the order passes the state arbiter. The three commands that depend on
their KIND are judged apart. -/
def opInfo (op : Nat) : Option (Issuer × Bool) :=
  match op with
  | 0x0100 => some (.any, false)
  | 0x0101 => some (.any, false)
  | 0x0102 => some (.any, false)
  | 0x0103 => some (.any, false)
  | 0x0110 => some (.zero, true)
  | 0x0111 => some (.zero, true)
  | 0x0120 => some (.any, false)
  | 0x0201 => some (.any, false)
  | 0x0202 => some (.any, false)
  | 0x0203 => some (.any, false)
  | 0x0204 => some (.any, false)
  | 0x0205 => some (.any, false)
  | 0x0210 => some (.zero, true)
  | 0x0301 => some (.any, false)
  | 0x0310 => some (.any, false)
  | 0x0311 => some (.any, false)
  | 0x0320 => some (.any, false)
  | 0x0321 => some (.any, false)
  | 0x0401 => some (.any, false)
  | 0x0402 => some (.any, false)
  | 0x0403 => some (.any, false)
  | 0x0404 => some (.any, false)
  | 0x0405 => some (.any, false)
  | 0x0406 => some (.any, false)
  | 0x0410 => some (.any, false)
  | 0x0501 => some (.any, false)
  | 0x0502 => some (.any, false)
  | 0x0503 => some (.any, false)
  | 0x0504 => some (.any, false)
  | 0x0601 => some (.zero, true)
  | 0x0602 => some (.zero, true)
  | 0x0610 => some (.any, false)
  | 0x0611 => some (.any, false)
  | 0x0620 => some (.any, false)
  | 0x0621 => some (.any, false)
  | 0x0701 => some (.zero, true)
  | 0x0702 => some (.zero, true)
  | 0x0703 => some (.any, false)
  | 0x0710 => some (.any, false)
  | 0x0711 => some (.any, false)
  | 0x0720 => some (.zero, true)
  | 0x0721 => some (.zero, false)
  | 0x0722 => some (.zero, true)
  | 0x0730 => some (.zero, true)
  | 0x0740 => some (.any, false)
  | 0x0750 => some (.zero, true)
  | 0x0801 => some (.any, false)
  | 0x0802 => some (.any, false)
  | 0x0810 => some (.zero, true)
  | 0x0811 => some (.zero, false)
  | 0x0820 => some (.zero, true)
  | 0x0901 => some (.any, false)
  | 0x0902 => some (.any, false)
  | 0x0903 => some (.zero, true)
  | 0x0904 => some (.zero, true)
  | 0x0910 => some (.zero, true)
  | 0x0911 => some (.zero, true)
  | 0x0920 => some (.zero, true)
  | 0x0A01 => some (.zero, true)
  | 0x0A10 => some (.any, false)
  | 0x0A20 => some (.zero, false)
  | 0x0A30 => some (.zero, true)
  | 0x0A40 => some (.any, true)
  | 0x0A41 => some (.zero, true)
  | _ => none

/-- The opcode exists on the variant: the PZ8-H has no FAULT_SEVERITY (R313). -/
def State.opExists (s : State) (op : Nat) : Bool := (opInfo op).isSome && (s.isX || op != 0x0903)

/-- The order of the command passes the state arbiter (R313, R316): CTR_CONFIG only for global counters, FAULT_CLEAR only
for the device-wide record, TIME_MEASURE only to measure (R467). -/
def Cmd.arbitrated (c : Cmd) : Bool :=
  if c.opcode = 0x0801 then c.par 0 1 == 1
  else if c.opcode = 0x0902 then c.par 0 1 == 1
  else if c.opcode = 0x0820 then c.par 0 1 == 0
  else match opInfo c.opcode with
    | some (_, b) => b
    | none => false

/-- The issuer may issue the command (R313, test 2 of R314). -/
def Cmd.permitted (c : Cmd) : Bool :=
  c.allot == 0 ||
  (match opInfo c.opcode with
   | some (.zero, _) => false
   | some (.any, _) =>
     if c.opcode = 0x0A40 then c.par 0 1 == c.allot
     else if c.opcode = 0x0801 then c.par 0 1 != 1
     else if c.opcode = 0x0802 then c.par 0 1 != 2
     else if c.opcode = 0x0901 then c.par 0 1 == 0
     else if c.opcode = 0x0902 then c.par 0 1 != 1 && c.par 0 1 != 2
     else true
   | none => true)

/-! ## Fields (R294, R314, R318) -/

/-- A parameter field: offset, size, and whether its value meets its rules. -/
structure Fld where
  off : Nat
  size : Nat
  ok : Bool
  deriving DecidableEq, Repr

/-- The start of the first reserved field with a nonzero byte, within n bytes from i: the bytes between two fields of the layout,
from at on, are one reserved field (R294). DEDUCED (log 46). -/
def rsvdFrom (fs : List Fld) (p : Nat) : Nat → Nat → Nat → Option Nat
  | 0, _, _ => none
  | n + 1, i, at0 =>
    if fs.any (fun f => decide (f.off ≤ i) && decide (i < f.off + f.size)) then rsvdFrom fs p n (i + 1) (i + 1)
    else if fieldOf p i 1 = 0 then rsvdFrom fs p n (i + 1) at0
    else some at0

/-- The least of the offsets of failing fields and of the failing reserved byte. -/
def firstFail (fs : List Fld) (p plen : Nat) : Option Nat :=
  let bad := (fs.filter (fun f => !f.ok)).map (fun f => f.off)
  let all := match rsvdFrom fs p plen 0 0 with
    | some o => o :: bad
    | none => bad
  match all with
  | [] => none
  | o :: r => some (r.foldl min o)

/-! ### N4 tables (R83, R84, R328) -/

/-- The magnitude of an entry byte in units of 2^−13. -/
def gridMag (b : Nat) : Nat := if bitsOf b 3 4 = 0 then 0 else (2 + bitsOf b 2 1) <<< (bitsOf b 3 4 - 1)

/-- The first entry that makes a table illegal (R84). -/
def gridBad (g : List Nat) : Option Nat :=
  (List.range 16).find? (fun c =>
    let b := g.getD c 0
    bitsOf b 0 2 != 0 || bitOf b 7 != decide (8 ≤ c) || (bitsOf b 3 4 == 0 && bitOf b 2) ||
    (c % 8 != 0 && decide (gridMag b ≤ gridMag (g.getD (c - 1) 0))))

/-- The table of a GRID_LOAD. -/
def Cmd.gridTable (c : Cmd) : List Nat := (List.range 16).map (fun i => c.par (8 + i) 1)

/-- INDEX of a failing packet field at offset o: 0, but for the TABLE of a GRID_LOAD its first failing entry (R318, R328). -/
def Cmd.failIndex (c : Cmd) (o : Nat) : Nat :=
  if c.opcode = 0x0405 ∧ o = 8 ∧ c.par 4 1 = 0 then (gridBad c.gridTable).getD 0 else 0

/-- Test 4 of R314 for the parameter block: BAD_PARAM with the packet offset of the first failing field. -/
def Cmd.checkFields (c : Cmd) (fs : List Fld) : Verdict :=
  match firstFail fs c.params c.plen with
  | some o => some (badParam (16 + o) (c.failIndex o))
  | none => none

/-- A test on the state as it stands: of an order it is made only as the arbiter executes the order, not at acceptance (R333). -/
def Cmd.late (c : Cmd) (b : Bool) : Bool := (c.arbitrated && c.phase == .accepted) || b

/-- A field that is reserved in this form of the command: it must hold 0. -/
def Cmd.mustBe0 (c : Cmd) (off size : Nat) : Fld := ⟨off, size, c.par off size == 0⟩

/-- A field without a rule of its own. -/
def anyVal (off size : Nat) : Fld := ⟨off, size, true⟩

/-- A number lies in a range. -/
def inRange (lo hi v : Nat) : Bool := decide (lo ≤ v) && decide (v ≤ hi)

def Cmd.ranged (c : Cmd) (off size lo hi : Nat) : Fld := ⟨off, size, inRange lo hi (c.par off size)⟩

/-- The handle resolves to an object that a command other than the object commands may name (R251, R275, R276). -/
def State.nameable (s : State) (a h : Nat) : Bool :=
  match s.obj? a h with
  | some o => !o.lost && o.tier != 3
  | none => false

/-- A reference of 8 bytes: handle and offset in units; the range of len bytes lies in the object. -/
def State.refOk (s : State) (a ref unit len : Nat) : Bool :=
  match s.obj? a (bitsOf ref 0 32) with
  | some o => !o.lost && o.tier != 3 && decide (bitsOf ref 32 32 * unit + len ≤ o.size)
  | none => false

/-- A byte reference into a raw object, its offset a multiple of 64. -/
def State.rawRefOk (s : State) (a ref len : Nat) : Bool :=
  s.refOk a ref 1 len && s.isRaw a (bitsOf ref 0 32) && bitsOf ref 32 32 % 64 == 0

/-- The bytes at a reference. -/
def State.readRef (s : State) (a ref unit len : Nat) : List Byte :=
  (s.objD a (bitsOf ref 0 32)).read (bitsOf ref 32 32 * unit) len

def refHandle (ref : Nat) : Nat := bitsOf ref 0 32

/-! ## The names of a command (R257, R499) -/

/-- A handle that a command names, and whether the command may write the object. -/
abbrev Naming := Nat × Bool

/-- A structure in an object that a command refers to: the handle, the byte offset, the length and the names it holds. -/
structure ListRef where
  handle : Nat
  off : Nat
  len : Nat
  names : List Byte → List Naming

/-- The records of size n in bytes bs. -/
def recordsOf (n : Nat) (bs : List Byte) : List (List Byte) := pieces n bs

/-- A tile-op descriptor names S, T, E and the mask to read and O to write (R55). -/
def descNames (d : List Byte) : List Naming :=
  [(bytesField d 0x08 4, false), (bytesField d 0x10 4, false), (bytesField d 0x18 4, true), (bytesField d 0x20 4, false)] ++
  (if bytesField d 0x38 2 % 4 = 2 then [(bytesField d 0x3C 4, false)] else [])

/-- A parameter record names MASTER and MOM to write and GRAD to read (R219). -/
def paramNames (write : Bool) (d : List Byte) : List Naming :=
  [(bytesField d 0 4, write), (bytesField d 4 4, false), (bytesField d 8 4, write)]

/-- A launch block's windows (R202). -/
def launchNames (b : List Byte) : List Naming :=
  (List.range 8).map (fun i =>
    let w := bytesField b (0x40 + 16 * i) 16
    (bitsOf w 0 32, bitOf w 83))

/-- Pairs of MIRROR_ID and handle (R397, R401). -/
def mapNames (write : Bool) (b : List Byte) : List Naming := (recordsOf 8 b).map (fun p => (bytesField p 4 4, write))

/-- Handles of 4 bytes. -/
def handleNames (write : Bool) (b : List Byte) : List Naming := (recordsOf 4 b).map (fun p => (leNat p, write))

/-- A reference of units into a list. -/
def listRef (ref unit len : Nat) (names : List Byte → List Naming) : List ListRef :=
  if refHandle ref = 0 then [] else [⟨refHandle ref, bitsOf ref 32 32 * unit, len, names⟩]

def noNames (_ : List Byte) : List Naming := []

/-- A layer record names W_MASTER and W_SCALES, which steering writes no byte of. -/
def layerNames (d : List Byte) : List Naming := [(bytesField d 0x14 4, false), (bytesField d 0x18 4, false)]

/-- The handles that the parameter block itself names. -/
def Cmd.inlineNames (c : Cmd) : List Naming :=
  match c.opcode with
  | 0x0202 => [(c.par 0 4, true)]
  | 0x0203 => [(c.par 0 4, true)]
  | 0x0204 => [(c.par 0 4, false)]
  | 0x0205 => [(c.par 8 4, false), (c.par 12 4, true)]
  | 0x0310 => if c.par 8 4 = 0 then [] else [(c.par 0 4, false)]
  | 0x0401 => if c.par 8 8 = 0 ∧ c.par 0 1 = 0 then [(c.par 0x24 4, false), (c.par 0x28 4, false)] else []
  | 0x0402 => [(c.par 8 4, true)]
  | 0x0403 => [(c.par 8 4, true)]
  | 0x0405 => [(c.par 0 4, true)]
  | 0x0406 => [(c.par 4 4, false), (if c.par 0 1 = 0 then 0 else c.par 8 4, false)]
  | 0x0501 => [(c.par 0x10 4, true)]
  | 0x0502 => [(c.par 0x30 4, true)]
  | 0x0503 => if c.par 8 8 = 0 then (List.range (min 24 (c.par 2 2))).map (fun i => (c.par (0x10 + 4 * i) 4, false)) else []
  | 0x0601 => if c.par 0 1 = 5 then [(c.par 8 4, true)] else []
  | 0x0610 => [(c.par 8 4, false), (c.par 0x10 4, true), (c.par 0x2C 4, true), (c.par 0x30 4, true)]
  | 0x0611 => [(c.par 8 4, true)]
  | 0x0703 => if c.par 0 1 = 2 then [(c.par 8 4, true)] else []
  | 0x0802 => [(c.par 8 4, true)]
  | 0x0811 => [(c.par 8 4, true)]
  | 0x0820 => if c.par 0 1 = 1 then [(c.par 8 4, true)] else []
  | 0x0901 => [(c.par 8 4, true)]
  | 0x0A10 => [(c.par 8 4, true)]
  | 0x0A20 => if c.par 0 1 = 0 then [(c.par 0x10 4, true)] else []
  | 0x0A30 => if c.par 0 1 = 0 then [(c.par 8 4, false)] else []
  | _ => []

/-- The structures in objects that the command refers to (R499). -/
def Cmd.listRefs (c : Cmd) : List ListRef :=
  match c.opcode with
  | 0x0301 => listRef (c.par 0 8) 64 (64 * c.par 8 4) (fun b => (recordsOf 64 b).flatMap descNames)
  | 0x0311 => listRef (c.par 8 8) 256 256 launchNames
  | 0x0401 => listRef (c.par 8 8) 64 (64 * c.par 2 2)
      (fun b => if c.par 0 1 = 0 then (recordsOf 64 b).flatMap layerNames else [])
  | 0x0501 => listRef (c.par 0 8) 64 (64 * c.par 8 4) (fun b => (recordsOf 64 b).flatMap (paramNames false))
  | 0x0502 => listRef (c.par 0 8) 64 (64 * c.par 8 4) (fun b => (recordsOf 64 b).flatMap (paramNames true))
  | 0x0503 => listRef (c.par 8 8) 64 (4 * c.par 2 2) (handleNames false)
  | 0x0504 => listRef (c.par 8 8) 64 128 noNames
  | 0x0601 => if c.par 0 1 = 1 then listRef (c.par 8 8) 1 (32 * c.par 0x12 2) noNames
              else if c.par 0 1 = 2 then listRef (c.par 8 8) 1 (4 * c.par 0x14 2) noNames else []
  | 0x0703 => if c.par 0 1 = 0 then listRef (c.par 8 8) 1 (32 * c.par 2 2)
                (fun b => (recordsOf 32 b).map (fun r => (bytesField r 0 4, false)))
              else if c.par 0 1 = 1 then listRef (c.par 8 8) 1 64 noNames else []
  | 0x0720 => listRef (c.par 0x18 8) 1 (8 * c.par 0x20 4) (mapNames true)
  | 0x0740 => if c.par 0 1 = 2 then listRef (c.par 0x10 8) 1 0 (mapNames false) else []
  | 0x0801 => listRef (c.par 8 8) 1 (4 * c.par 4 2) noNames
  | 0x0A20 => if c.par 0 1 = 1 then listRef (c.par 0x10 8) 1 (2 * c.par 2 2) noNames else []
  | _ => []

/-- Every name of a command, its lists read as they stand. -/
def State.namesNow (s : State) (c : Cmd) : List Naming :=
  let refs := c.listRefs
  (c.inlineNames ++ refs.map (fun r => (r.handle, false)) ++
    refs.flatMap (fun r => r.names ((s.objD c.allot r.handle).read r.off r.len))).filter (fun n => n.1 != 0)

/-- What is known of the names of the open commands accepted so far: identity, opcode, and the names, or none while an
earlier command may still write a list of the command (R499). -/
abbrev Known := Nat × Nat × Option (List Naming)

/-- Some entry of known may still write handle h. -/
def mayWrite (known : List Known) (h : Nat) : Bool :=
  known.any (fun k => match k.2.2 with
    | none => true
    | some ns => ns.any (fun n => n.1 == h && n.2))

/-- The names of the open commands of allotment a, in acceptance order. Later commands that name a mirrored tensor wait for an
open SNAP_TAKE (R388). -/
def State.knownNames (s : State) (a : Nat) : List Known :=
  (s.hg.cmds.filter (fun c => c.allot == a && c.master == .allot && c.open)).foldl (fun known c =>
    let ns := if c.listRefs.any (fun r => mayWrite known r.handle) then none
              else if c.opcode = 0x0710 then some ((s.al a).mir.tensors.map (fun t => (t.handle, true)))
              else some (s.namesNow c)
    known ++ [(c.id, c.opcode, ns)]) []

/-- OBJ_FREE, OBJ_MOVE and OBJ_COPY act on their objects in the order of acceptance (R257). -/
def isObjCmd (op : Nat) : Bool := op == 0x0202 || op == 0x0203 || op == 0x0205

/-- Two commands clash over an object: one of them is an object command, or may write it. -/
def clashes (op1 op2 : Nat) (n1 n2 : Naming) : Bool := n1.1 == n2.1 && (isObjCmd op1 || isObjCmd op2 || n1.2 || n2.2)

/-- The tile scoreboard orders two commands op by op: TILE_RUN commands, and a TILE_RUN and an UPD_APPLY (R64, R66, R240). -/
def onScoreboard (op1 op2 : Nat) : Bool :=
  (op1 == 0x0301 || op1 == 0x0502) && (op2 == 0x0301 || op2 == 0x0502) && !(op1 == 0x0502 && op2 == 0x0502)

/-- Two commands are ordered as whole commands. -/
def ordered (op1 op2 : Nat) (n1 n2 : Naming) : Bool := clashes op1 op2 n1 n2 && !onScoreboard op1 op2

/-- Command c, naming ns, waits for an earlier open command of its allotment (R257, R499). -/
def State.mustWait (s : State) (c : Cmd) (ns : List Naming) : Bool :=
  (s.knownNames c.allot).any (fun k => decide (k.1 < c.id) &&
    (match k.2.2 with
     | none => ns != []
     | some es => es.any (fun e => ns.any (fun n => ordered k.2.1 c.opcode e n))))

/-- A remap copy that the command must wait for: it was accepted after the event and names an object in the remapped tier
of that hearth (R414 step 7). -/
def State.remapWait (s : State) (c : Cmd) (ns : List Naming) : Bool :=
  ns.any (fun n => match s.obj? c.allot n.1 with
    | some o => (s.he o.hearth).remapping.any (fun r =>
        decide (r.2 ≤ c.id) && ((unitType r.1 == 2 && o.tier == 0) || (unitType r.1 == 3 && o.tier == 1)))
    | none => false)

/-- An entry of known names handle h, or may name it. -/
def Known.names (k : Known) (h : Nat) : Bool :=
  match k.2.2 with
  | none => true
  | some ns => ns.any (fun n => n.1 == h)

/-- Command c may read its lists, once every earlier command that names their objects has completed (R499), and touch its
objects now. -/
def State.ready (s : State) (c : Cmd) : Bool :=
  let ns := s.namesNow c
  !(s.knownNames c.allot).any (fun k => decide (k.1 < c.id) && c.listRefs.any (fun r => Known.names k r.handle)) &&
  !s.mustWait c ns && !s.remapWait c ns

/-- The command stands started and at its first or a later step; the meaning of a row begins from it. -/
def State.started? (s : State) (id op : Nat) : Option Cmd :=
  match s.cmd? id with
  | some c => if c.opcode = op ∧ c.waitSet = false ∧ (c.phase = .started ∨ c.phase = .working ∨ c.phase = .held) then some c else none
  | none => none

end Sys2Proof.Machine
end

