-- ==== Sys2Proof/Machine/Collector.lean ====
section
/-! DEFINITION. The fault collector: fences, containment, first-error records, discards and halts (R411 to R421), with the
loss of ports and the suspension of a pair that follow from a fence (R348, R376). -/

namespace Sys2Proof.Machine

/-! ## Anvils (R68, R73, R74) -/

def Hearth.modAnvil (x : Hearth) (a : Nat) (f : Anvil → Anvil) : Hearth := { x with anvils := modAt a f x.anvils }

def Hearth.anvil (x : Hearth) (a : Nat) : Anvil := x.anvils.getD a {}

/-- A free spare (R68): healthy, not under test, not active and not about to be either. -/
def Anvil.free (v : Anvil) : Bool := v.role == .spare && !v.entry && !v.target && !v.leaving && !v.failing

/-- The role as ANVIL_MAP shows it: a fenced anvil is failed, and one that a spare has relieved is no longer active (log 47). -/
def Anvil.shown (v : Anvil) : Nat :=
  if v.fenced then 3
  else match v.role with
    | .active => if v.relieved then 2 else 0
    | .spare => 1
    | .underTest => 2
    | .failed => 3

/-- Anvil a has no issued op. -/
def Hearth.idle (x : Hearth) (a : Nat) : Bool := !x.lists.any (fun l => l.ops.any (fun o => o.phase == .issued && o.anvil == a))

/-- The free spare that takes a position. DESIGN CHOICE (log 48): the rules say 'a free spare', and the model takes the lowest. -/
def Hearth.freeSpare (x : Hearth) : Option Nat := (List.range 72).find? (fun a => (x.anvil a).free)

/-- An active position has an anvil that serves it, that is about to take it, or that returns to it after the test of R71 (R73,
R74). One that a spare relieved does not. -/
def Hearth.covered (x : Hearth) (pos : Nat) : Bool :=
  x.anvils.any (fun v => v.pos == pos && !v.relieved &&
    (v.role == .active || (v.role == .spare && v.entry) || (v.role == .underTest && v.target)))

/-- The lowest active position that no anvil covers. -/
def Hearth.emptyPos (x : Hearth) : Option Nat := (List.range 64).find? (fun p => !x.covered p)

/-- A free spare starts its entry check for the lowest empty position (R73). -/
def Hearth.fillOne (x : Hearth) : Hearth :=
  match x.emptyPos, x.freeSpare with
  | some p, some a => x.modAnvil a (fun v => { v with entry := true, pos := p })
  | _, _ => x

/-- Free spares take the empty positions, at most eight. -/
def Hearth.fillPositions (x : Hearth) : Hearth := (List.range 8).foldl (fun y _ => y.fillOne) x

/-- The short state of a hearth follows its positions: it ends when every position is covered (R74). -/
def Hearth.checkShort (x : Hearth) : Hearth :=
  if x.raised924 && x.emptyPos.isNone then { x with raised924 := false } else x

/-- Active positions of a hearth that an active anvil serves. -/
def Hearth.activeCount (x : Hearth) : Nat := ((List.range 64).filter (fun p => x.anvils.any (fun v => v.role == .active && v.pos == p && !v.relieved))).length

/-- The commands in progress run with fewer than 64 active anvils (R67, SHORT). -/
def Hearth.noteShort (x : Hearth) : Hearth :=
  if x.activeCount < 64 then { x with lists := x.lists.map (fun l => { l with short := true }) } else x

/-- An anvil leaves service: marked failed, its position offered to the free spares. -/
def Hearth.failAnvil (x : Hearth) (a : Nat) : Hearth :=
  (((x.modAnvil a (fun v => { v with
    role := .failed, fenced := true, target := false, entry := false, relieved := false, leaving := false, failing := false, testing := false })).fillPositions).checkShort).noteShort

/-- The anvils that events have failed leave service as they fall idle (R68). -/
def Hearth.failIdle (x : Hearth) : Hearth :=
  (List.range 72).foldl (fun y a => if (y.anvil a).failing && y.idle a then y.failAnvil a else y) x

/-! ## Discards (R307, R317, R318, R415) -/

/-- Discard DETAIL (R318). -/
def discardDetail (source cause : Nat) (part : Bool) : W32 := w32 (source + cause * 65536 + b2n part * 524288)

/-- Writes of command c remain in objects (R205, R318). -/
def State.leftWrites (s : State) (c : Cmd) : Bool :=
  c.wrote || s.hearths.any (fun x => x.runs.any (fun r => r.cmd == c.id && r.wrote))

/-- The engine leaves its run. -/
def Engine.release (id : Nat) (e : Engine) : Engine :=
  match e.run with
  | some (c, _) => if c = id then { e with run := none, halted := false, atBarrier := false, fenced := e.fenced || e.draining, draining := false } else e
  | none => e

/-- The units of a hearth stop the work of command id. -/
def Hearth.drop (id : Nat) (x : Hearth) : Hearth :=
  ({ x with
    lists := x.lists.filter (fun l => l.cmd != id)
    runs := x.runs.filter (fun r => r.cmd != id)
    engines := x.engines.map (Engine.release id)
    requests := x.requests.filter (fun r => r.2 != id) } : Hearth).failIdle

/-- Every unit stops the work of command id, and its buffers and workspaces are released. A PAIR_BIND that still waits is given
up with its log. -/
def State.dropWork (s0 : State) (id : Nat) : State :=
  let s := s0.dropColl id
  { s with
    hearths := s.hearths.map (Hearth.drop id)
    allots := s.allots.map (fun x => { x with
      charges := x.charges.filter (fun c => c.kind != .buffer id && c.kind != .workspace id &&
        !(c.kind == .mirrorLog && s.pair.cmd == some id && s.pair.state == .binding))
      upd := { x.upd with runs := x.upd.runs.filter (fun r => r.cmd != id) } })
    pair := { s.pair with
      quenchCmds := s.pair.quenchCmds.filter (· != id)
      state := if s.pair.cmd = some id ∧ s.pair.state = .binding then .unbound else s.pair.state
      cmd := if s.pair.cmd = some id then none else s.pair.cmd }
    hg := { s.hg with arb := s.hg.arb.filter (· != id) } }

/-- The delta set of a command is marked discarded (R456). -/
def State.markDiscarded (s : State) (c : Cmd) : State :=
  s.modAl c.allot (fun x => { x with ctr := { x.ctr with
    sets := x.ctr.sets.map (fun d => if d.cmd = c.id then { d with discarded := true } else d) } })

/-- An open command is discarded: its one reply will carry the code and the Discard DETAIL (R307, R413). -/
def State.discard (s : State) (id : Nat) (code : Code) (source cause : Nat) : State :=
  match s.cmd? id with
  | some c =>
    if c.phase = .done then s
    else ((s.dropWork id).markDiscarded c).finish id code (discardDetail source cause (s.leftWrites c)) 0#128
  | none => s

/-! ## Ports and the pair (R348, R376) -/

/-- A port that is not down: it is up or retrains, and is not fenced (R342, R376). -/
def State.portAlive (s : State) (p : Nat) : Bool := ((s.port p).up || (s.port p).training) && !s.flt.portsFenced.contains p

/-- Some bound port is not down. -/
def State.pairPortUp (s : State) : Bool :=
  s.portAlive s.pair.portA || (s.pair.portB != 255 && s.portAlive s.pair.portB)

/-- A quench ends unable to commit (R376, R398, R399): its commands complete DISCARDED, and the state is QUENCHED with a hold,
else that before the quench. -/
def State.quenchFail (s : State) : State :=
  let p := s.pair
  let t := p.quenchCmds.foldl (fun u c => u.discard c .discarded 0 5) s
  { t with pair := { t.pair with
    state := if p.wantHold then .quenched else p.before
    holdOpen := p.holdOpen || p.wantHold
    quenchCmds := [], wantHold := false } }

/-- The pair follows its bound ports (R376): with every bound port down it is SUSPENDED, with one up again it is in SYNC. -/
def State.pairPorts (s : State) : State :=
  match s.pair.state with
  | .sync | .mirror =>
    if s.pairPortUp then s
    else (({ s with pair := { s.pair with state := .suspended, since := s.now } } : State).setCondAll .suspended 1)
  | .suspended =>
    if s.pairPortUp then ({ s with pair := { s.pair with state := .sync } } : State).dropCondAll .suspended else s
  | .quenching =>
    if s.pairPortUp then s
    else
      let t := s.quenchFail
      match t.pair.state with
      | .sync | .mirror => ({ t with pair := { t.pair with state := .suspended, since := t.now } } : State).setCondAll .suspended 1
      | .unbound | .binding | .suspended | .quenching | .quenched => t
  | .unbound | .binding | .quenched => s

/-- Port p is down: its paths become unusable (R342, R348). -/
def State.portDown (s : State) (p : Nat) : State :=
  (s.modPort p (fun x => { x with up := false, training := false, replay := [], waiting := [], assembling := [] })).pairPorts

/-! ## Memory units (R416, R417) -/

/-- Every block of a memory unit is poisoned. -/
def State.poisonUnit (s : State) (tier h unit src2 : Nat) : State :=
  { s with allots := s.allots.mapIdx (fun a x => { x with
      objs := x.objs.map (fun e =>
        if e.2.tier = tier ∧ e.2.hearth = h then
          (e.1, { e.2 with poison := e.2.poison ++ ((List.range (ceilDiv e.2.size 64)).filter (fun b =>
            s.unitAt tier h a e.1 (64 * b) == unit)).map (fun b => (b, src2)) })
        else e) }) }

/-- Tile rows of accumulator memory of anvil v of hearth h that hold parts of buffers (R126): of 256. -/
def State.rowsUsed (s : State) (h v : Nat) : Nat :=
  sumN (s.allots.flatMap (fun x => (x.charges.filter (fun c => c.pool == h)).flatMap (fun c => (c.rows.filter (fun r => r.1 == v)).map (·.2))))

/-- n tile rows taken in the anvils vs, in increasing number. -/
def State.takeRows (s : State) (h : Nat) : List Nat → Nat → List (Nat × Nat)
  | [], _ => []
  | v :: vs, n =>
    let k := min n (256 - s.rowsUsed h v)
    (if k = 0 then [] else [(v, k)]) ++ s.takeRows h vs (n - k)

/-- The tile rows, of 4 KiB, that hold the part of buffer i of allotment a in bank b of hearth h. -/
def State.partRows (s : State) (h b a i bytes : Nat) : Nat :=
  ceilDiv (2048 * ((List.range (ceilDiv bytes 2048)).filter (fun u => s.unitAt 0 h a (1048576 + i) (2048 * u) == b)).length) 4096

/-- The parts of combine buffers and park slots in bank b of hearth h go to the accumulator memory of the anvils that are not under
test, where their folds go on (R127). A group that has written its output releases its charge, and the rows with it. -/
def State.evacuate (s : State) (h b : Nat) : State :=
  let vs := (List.range 72).filter (fun v => ((s.he h).anvil v).role != .underTest)
  allotNumbers.foldl (fun t a => (List.range (t.al a).charges.length).foldl (fun u i =>
    match (u.al a).charges[i]? with
    | some c => match c.kind with
      | .buffer _ =>
        if c.pool = h then
          u.modAl a (fun x => { x with charges := modAt i (fun k => { k with rows := k.rows ++ u.takeRows h vs (u.partRows h b a i c.bytes) }) x.charges })
        else u
      | .layers | .residual _ | .copy _ | .workspace _ | .tailwater _ _ _ | .mirrorLog | .shadow _ => u
    | none => u) t) s

/-- A fenced scratchpad bank gets a spare, or space, or is poisoned; the second part tells ACTIONS. -/
def State.fenceBank (s : State) (h b : Nat) : State × Nat :=
  let x := s.he h
  if x.banksFenced.contains b then (s, 0)
  else
    let served := if b < 64 then some b else (x.bankSpares.find? (fun e => e.2 == b)).map (·.1)
    let x1 := { x with banksFenced := insertN b x.banksFenced, bankSpares := x.bankSpares.filter (fun e => e.2 != b) }
    let free := [64, 65].find? (fun sp => !x1.banksFenced.contains sp && !(x1.bankSpares.any (fun e => e.2 == sp)))
    match served with
    | none => (s.setHe h x1, 1)
    | some v =>
      let u := unitWord 2 h b
      let t := s.evacuate h v
      match free with
      | some sp => (t.setHe h { x1 with bankSpares := put v sp x1.bankSpares, remapping := x1.remapping ++ [(u, s.hg.nextId)] }, 1 + 4)
      | none =>
        if 3 * mib ≤ s.poolFree h then
          (t.setHe h { x1 with remapping := x1.remapping ++ [(u, s.hg.nextId)] }, 1 + 8)
        else ((t.setHe h x1).poisonUnit 0 h v (0x1000 + 264 + 66 * h + b), 1 + 16)

/-- A fenced pseudo-channel u (64 s + c) is remapped into the reserve of its hearth, which is then refilled, or poisoned. -/
def State.fenceChannel (s : State) (u : Nat) : State × Nat :=
  let h := u / 256
  let x := s.he h
  let k := u % 256
  if x.pcsFenced.contains k then (s, 0)
  else
    let room := s.poolFree (2 + h)
    let x1 := { x with pcsFenced := insertN k x.pcsFenced }
    if x.reserveShort then
      ((s.setHe h x1).poisonUnit 1 h k (0x3000 + 1024 + u), 1 + 16)
    else
      (s.setHe h { x1 with
        pcsRemapped := insertN k x1.pcsRemapped
        remapping := x1.remapping ++ [(unitWord 3 h u, s.hg.nextId)]
        reserveShort := decide (room < gib) }, 1 + 8)

/-! ## Fencing a unit (R414 step 4, R422) -/

/-- The unit is fenced. The second part is the ACTIONS of the record: FENCED, SPARE_TAKEN, REMAPPED, POISONED. -/
def State.fenceUnit (s : State) (u : Nat) : State × Nat :=
  let h := unitHearth u
  let i := unitIndex u
  match unitType u with
  | 0 =>
    let x := s.he h
    let y := x.failAnvil i
    (s.setHe h y, 1 + (if (x.anvils.filter (·.entry)).length < (y.anvils.filter (·.entry)).length then 4 else 0))
  | 1 => (s.modHe h (fun x => { x with engines := modAt i (fun e => { e with fenced := true, draining := false }) x.engines }), 1)
  | 2 => s.fenceBank h i
  | 3 => s.fenceChannel i
  | 4 => ({ s with flt := { s.flt with lanesFenced := insertN i s.flt.lanesFenced } }, 1)
  | 5 => (({ s with flt := { s.flt with portsFenced := insertN i s.flt.portsFenced, portsLeaving := without i s.flt.portsLeaving } } : State).portDown i, 1)
  | 6 => ({ s with flt := { s.flt with hearth1Fenced := true, hearth1Leaving := false } }, 1)
  | 7 => (s.modAl i (fun x => { x with fenced := true }), 1)
  | _ => (s, 0)

/-- All 64 channels of a stack are fenced. -/
def State.fenceStack (s : State) (first : Nat) : State × Nat :=
  (List.range 64).foldl (fun acc c => let r := acc.1.fenceChannel (first + c); (r.1, acc.2 ||| r.2)) (s, 0)

/-! ## Discard scope (R415) -/

/-- The command names an object at a home. -/
def State.namesHome (s : State) (c : Cmd) (tier : Nat) (h : Option Nat) : Bool :=
  (s.namesNow c).any (fun n => match s.obj? c.allot n.1 with
    | some o => o.tier == tier && (match h with | some k => o.hearth == k | none => true)
    | none => false)

/-- The command holds an internal allocation in pool p. -/
def State.holdsPool (s : State) (c : Cmd) (p : Nat) : Bool :=
  (s.al c.allot).charges.any (fun k => k.pool == p && (k.kind == .buffer c.id || k.kind == .workspace c.id))

/-- The command has work on hearth h. -/
def State.worksOn (s : State) (c : Cmd) (h : Nat) : Bool :=
  (s.he h).lists.any (fun l => l.cmd == c.id) || (s.he h).runs.any (fun r => r.cmd == c.id)

/-- The command lies in the discard scope (R415). -/
def State.inScope (s : State) (sc : Scope) (served : Option Nat) (c : Cmd) : Bool :=
  match sc with
  | .none => false
  | .anvil h a => (s.he h).lists.any (fun l => l.cmd == c.id && l.ops.any (fun o => o.phase == .issued && o.anvil == a))
  | .sequencer h q => (s.he h).lists.any (fun l => l.cmd == c.id && l.seq == q)
  | .temper _ => (s.al c.allot).temper.layers != []
  | .engine h v => (s.he h).runs.any (fun r => r.cmd == c.id && r.engines.contains v) || served == some c.id
  | .store h => (s.he h).runs.any (fun r => r.cmd == c.id)
  | .tier0 h => s.namesHome c 0 (some h) || s.holdsPool c h
  | .tier1 h => s.namesHome c 1 (some h) || s.holdsPool c (2 + h)
  | .tier2 => s.namesHome c 2 none
  | .served => served == some c.id
  | .hearth1 => s.worksOn c 1 || s.namesHome c 0 (some 1) || s.namesHome c 1 (some 1)
  | .allotment a => c.allot == a
  | .all => true

/-- The accepted commands that have not completed. -/
def State.inFlight (s : State) : List Cmd := s.hg.cmds.filter (fun c => c.master == .allot && c.open)

/-! ## Records (R419, R420) -/

/-- An event enters a record. -/
def Fer.latch (r new : Fer) : Fer :=
  if r.valid then
    { r with overflow := true, maxClass := max r.maxClass new.maxClass, maxModule := max r.maxModule new.maxModule }
  else new

/-- The allotments that have a group containing a peer (R412). -/
def State.peerAllots (s : State) (peer : Nat) : List Nat :=
  sortN ((s.fab.groups.filter (fun g => g.2.members.any (fun m => m.1 == peer))).map (fun g => g.2.allot))

/-- The allotments that the event names individually (R412, R420). -/
def State.namedBy (s : State) (d : Detected) (i : SrcInfo) (cls : Nat) (hit : List Cmd) : List Nat :=
  let scope := if cls = 2 then hit.map (·.allot) else []
  let own := match d.owner with
    | some a => if cls = 2 ∧ (i.kind = some 2 ∨ i.kind = some 5) then [a] else []
    | none => []
  let host := if 0x9000 ≤ d.source ∧ d.source < 0x9010 then [d.source - 0x9000] else []
  let peers := if d.source = 0x5300 ∨ d.source = 0x5301 then s.peerAllots d.peer else []
  sortN (scope ++ own ++ host ++ peers)

/-- What an event brings besides its source. -/
structure Raise where
  ev : Detected
  forced : Bool := false
  /-- the event of R440, raised although its source is absent -/
  once : Bool := false
  deriving DecidableEq, Repr

/-- An empty event of a source. -/
def event (src : Nat) : Detected := { source := src }

/-- The temper statistics of every steered allotment's open step are cleared (R415). -/
def State.clearOpenStats (s : State) : State :=
  { s with allots := s.allots.map (fun x => { x with temper := { x.temper with
      layers := x.temper.layers.map (fun e => (e.1, { e.2 with openStats := { step := e.2.openStats.step, rung := e.2.openStats.rung }, openBy := [] })) } }) }

/-- Every program in the store of a hearth is unloaded (R415). -/
def State.unloadStore (s : State) (h : Nat) : State :=
  { s with allots := s.allots.map (fun x => { x with
      progs := (x.progs.map (fun p => { p with stores := without h p.stores })).filter (fun p => p.stores != []) }) }

/-- The fence that the event carries: new state, ACTIONS, and the unit word of its record. An anvil whose work goes on leaves at its
next op boundary (R68). -/
def State.eventFence (s : State) (d : Detected) (i : SrcInfo) (cls : Nat) (once : Bool) : State × Nat × Nat :=
  let u := if d.source = 0xF010 ∨ d.source = 0xF011 then bitsOf d.syndrome 0 32 else i.unit.getD 0
  if d.source = 0xF010 then (s, 1, u)
  else
    let fences := match i.fence with
      | .never => false
      | .contained => cls == 2
      | .always => true
    if !fences then (s, 0, u)
    else if once then (s, 1, u)
    else if i.stack then let r := s.fenceStack (unitIndex u); (r.1, r.2, u)
    else if cls < 2 ∧ unitType u = 0 ∧ (s.he (unitHearth u)).idle (unitIndex u) = false then
      let t := s.modHe (unitHearth u) (fun x => x.modAnvil (unitIndex u) (fun v => { v with failing := true }))
      (t.unitFails (anvilUnit (unitHearth u) (unitIndex u)) d.source, 1, u)
    else
      let r := s.fenceUnit u
      let t := if bitsOf d.source 12 4 = 0 ∨ bitsOf d.source 12 4 = 2 then
          r.1.unitFails (anvilUnit (unitHearth u) (unitIndex u)) d.source
        else r.1
      (t, r.2, u)

/-- The block of an uncorrected memory event is poisoned (R416). -/
def State.eventPoison (s : State) (r : Raise) (i : SrcInfo) : State × Nat :=
  match r.ev.owner, i.kind with
  | some a, some k =>
    if (k = 1 ∨ k = 5) ∧ !r.forced ∧ (s.obj? a r.ev.handle).isSome then
      (s.modObj a r.ev.handle (fun o =>
        { o with poison := o.poison.filter (fun e => e.1 != r.ev.offset64) ++ [(r.ev.offset64, kindTwo r.ev.source)] }), 16)
    else (s, 0)
  | _, _ => (s, 0)

/-- The times of corrected events of a unit (R409), newest first, those of the last 3,600 s. -/
def State.noteCorrected (s : State) (src : Nat) : State :=
  let old := (look src s.flt.corrected).getD []
  let keep := (s.now :: old).filter (fun t => decide (s.now ≤ t + 3600000000000))
  { s with flt := { s.flt with corrected := put src (keep.take 64) s.flt.corrected } }

/-- The halt of a fatal event (R418): every accepted command is discarded, without replies, those of gap markers among them, for a
source of the queue engine or the Headgate (R308); the device halts, and the record is copied into the journal. -/
def State.halt (s : State) (src : Nat) : State :=
  let d := bitsOf src 12 4
  let s1 := s.inFlight.foldl (fun t c => t.discard c.id .faultFatal src 0) s
  let s2 := if d = 9 ∨ d = 10 then
      { s1 with
        hg := { s1.hg with cmds := s1.hg.cmds.filter (fun c => c.master != .allot) }
        allots := s1.allots.map (fun x => { x with queues := x.queues.map (fun e => (e.1, { e.2 with gap := none })) }) }
    else s1
  let s3 := { s2 with dev := { s2.dev with bootState := 2 } }
  let s4 := if d = 12 then { s3 with hearths := s3.hearths.map (fun x => { x with railMv := 620 }) } else s3
  s4.journal { emptyRec 3 with fault := s4.flt.device, reason := src }

/-- The first-error record of an event (R419). -/
def ferOf (r : Raise) (cls acts unit time : Nat) (hit : List Cmd) (mem : Bool) : Fer :=
  let wide := acts.testBit 6
  { valid := true, forced := r.forced, cls := cls, source := r.ev.source, actions := acts, maxClass := cls,
    maxModule := if wide then cls else 0
    scope := sumN ((sortN (hit.map (·.allot))).map (fun a => 2 ^ a))
    time := time, unit := unit
    owner := if mem then r.ev.owner.getD 0xFF else 0xFF
    handle := if mem then (if r.ev.owner.isSome then r.ev.handle else 0) else r.ev.peer
    offset64 := if mem ∧ r.ev.owner.isSome then r.ev.offset64 else 0
    discards := hit.length, syndrome := r.ev.syndrome }

/-- The record as allotment a latches it: its own discards, and the address for the owner only. -/
def Fer.forAllot (f : Fer) (a : Nat) (mem : Bool) (hit : List Cmd) : Fer :=
  { f with
    maxModule := 0
    discards := (hit.filter (fun c => c.allot == a)).length
    owner := if mem && f.owner == a then a else 0xFF
    handle := if mem && f.owner != a then 0 else f.handle
    offset64 := if mem && f.owner != a then 0 else f.offset64 }

/-- The records latch an event (R420). -/
def State.latchAll (s : State) (f : Fer) (named : List Nat) (mem : Bool) (hit : List Cmd) : State :=
  { s with flt := { s.flt with
    device := s.flt.device.latch f
    own := s.flt.own.mapIdx (fun a r => if named.contains a then r.latch (f.forAllot a mem hit) else r) } }

/-- The source of R74 is due: a position of hearth h is first left with no free spare to take it. -/
def Hearth.newlyShort (x : Hearth) : Bool := !x.raised924 && x.emptyPos.isSome && x.present

/-- One event that is not log-only (R411 to R420). -/
def State.latchEvent (s : State) (r : Raise) (i : SrcInfo) (cls : Nat) : State :=
  let d := r.ev
  let scope := if d.source = 0xF011 then unitScope (bitsOf d.syndrome 0 32) else i.scope
  let hit := if cls = 3 then s.inFlight else if cls = 2 then s.inFlight.filter (s.inScope scope d.served) else []
  let mem := i.kind.isSome
  let (s1, facts, unit) := s.eventFence d i cls r.once
  let (s2, pacts) := s1.eventPoison r i
  let spared := if bitsOf d.source 12 4 = 6 ∧ d.source % 4 = 3 then 4 else 0
  let base := facts ||| pacts ||| spared ||| (if hit != [] then 2 else 0) ||| (if cls = 3 then 2 + 32 else 0)
  let wide := (base &&& 13) != 0 || cls == 3 || d.source == 0x0924 || d.source == 0x0925
  let acts := base ||| (if wide then 64 else 0)
  let f := ferOf r cls acts unit s.now hit mem
  let s3 := s2.latchAll f (s.namedBy d i cls hit) mem hit
  let s4 := if cls = 2 ∧ i.scope = .temper 0 ∨ cls = 2 ∧ i.scope = .temper 1 then s3.clearOpenStats else s3
  let s5 := match i.scope with
    | .store h => if cls = 2 then s4.unloadStore h else s4
    | _ => s4
  let s6 := if 2 ≤ cls then { s5 with flt := { s5.flt with losses := s.now :: s5.flt.losses } } else s5
  let s7 := (s6.count 0x42 none none none none 1).traceAt 0 7 none 0 (d.source + cls * 65536)
  let t := s.glob.trc
  let causes := b2n (decide (t.trigClass ≤ cls)) + 2 * b2n (d.source == t.trigSource)
  let s8 := s7.settleWith causes d.source
  if cls = 3 then s8.halt d.source
  else hit.foldl (fun u c => u.discard c.id .discarded d.source 0) s8

/-- One event at the collector (R411, R414): counted, classed and acted upon. -/
def State.raiseOne (s : State) (r : Raise) : State :=
  match srcInfo r.ev.source with
  | none => s
  | some i =>
    if !(r.once || s.carries i.die) then s
    else
      let src := r.ev.source
      let cls := s.srcClass src
      let s1 := { s with flt := { s.flt with counts := putN src (satTo 65535 (lookN src s.flt.counts + 1)) s.flt.counts } }
      let s2 := if i.kind = some 0 then s1.noteCorrected src else s1
      if cls = 0 then (s2.eventFence r.ev i 0 r.once).1 else s2.latchEvent r i cls

/-- The hearths that a round has left short raise their sources (R74). -/
def State.raiseShort (s : State) : State :=
  [0, 1].foldl (fun t h =>
    if (t.he h).newlyShort then
      (t.modHe h (fun x => { x with raised924 := true })).raiseOne { ev := event (0x0924 + h) }
    else t) s

/-- The forced events that are pending (R429). -/
def State.forcedEvents (s : State) : List Raise :=
  s.flt.force.map (fun e => { ev := { source := e.1, syndrome := e.2 }, forced := true })

/-- A collector round (R413): the detected events and the forced ones, in increasing source ID. -/
def State.collect (s : State) (evs : List Detected) : State :=
  let all := sortBy (fun r => (r.ev.source, 0)) (evs.map (fun d => ({ ev := d } : Raise)) ++ s.forcedEvents)
  let s1 := { s with flt := { s.flt with force := [] } }
  (all.foldl (fun t r => t.raiseOne r) s1).raiseShort

/-- One detected event in a round of its own. -/
def State.raise (s : State) (src : Nat) : State := s.collect [event src]

/-- The event that a poisoned block raises when command c reads it (R417). -/
def State.raisePoison (s : State) (c : Cmd) (a h : Nat) (block src : Nat) : State :=
  s.collect [{ source := src, owner := some a, handle := h, offset64 := block, served := some c.id }]

end Sys2Proof.Machine
end

