-- ==== Sys2Proof/Machine/Reply.lean ====
section
/-! DEFINITION. Rings in host memory, replies and counter records (R281 to R292, R298 to R301, R304, R307 to R309, R456). -/

namespace Sys2Proof.Machine

/-! ## Gap markers (R284) -/

/-- The first 16 bytes of a gap marker: MARK, SRC, DROPPED, FIRST. -/
def gapMarker (src dropped first : Nat) : Nat := 0xFFFF + src * 2 ^ 16 + satTo (2 ^ 32 - 1) dropped * 2 ^ 32 + (first % 2 ^ 32) * 2 ^ 64

/-! ## Queues -/

def State.queue? (s : State) (a q : Nat) : Option QDesc := look q (s.al a).queues

def State.modQ (s : State) (a q : Nat) (f : QDesc → QDesc) : State :=
  s.modAl a (fun x => { x with queues := upd q f x.queues })

/-- Pointers of a ring have LOG2 + 1 bits (R281). -/
def QDesc.mod (d : QDesc) : Nat := 2 ^ (d.log2 + 1)

/-- The distance from pointer p to pointer w (R281). -/
def QDesc.dist (d : QDesc) (w p : Nat) : Nat := (w + d.mod - p % d.mod) % d.mod

/-- Published slots that a command ring has not fetched; entries of a reply ring not yet returned. -/
def QDesc.count (d : QDesc) : Nat := if d.reply then d.dist d.devPtr d.hostPtr else d.dist d.hostPtr d.devPtr

/-- The free space of a reply ring (R289). -/
def QDesc.free (d : QDesc) : Nat := 2 ^ d.log2 - d.count - d.resv

/-- Queues of the module in all (R285). -/
def State.queueTotal (s : State) : Nat := sumN (s.allots.map (fun x => x.queues.length))

/-- The queue-gap condition stands while a ring of the allotment is stopped (R305). -/
def State.gapCond (s : State) (a : Nat) : State :=
  if (s.al a).queues.any (fun e => e.2.stopped) then s.setCond a .queueGap 2 else s.dropCond a .queueGap

/-- DOORBELL_ERR latches its first error; later ones set MORE (R312). -/
def State.doorbellError (s : State) (a qid reason : Nat) : State :=
  (s.modAl a (fun x => { x with
    dbErr := if x.dbErr.reason = 0 then { qid := qid, reason := reason, more := false } else { x.dbErr with more := true } })).setCond a .doorbell 1

/-- The fetched slots of an incomplete packet of a command ring are dropped, and the reply entries reserved for it are free again (R289). -/
def State.dropPartial (s : State) (a q : Nat) : State :=
  match s.queue? a q with
  | none => s
  | some d =>
    if d.reply then s
    else (s.modQ a d.replyQ (fun r => { r with resv := r.resv - d.partialResv })).modQ a q (fun x => { x with partialSlots := 0, partialResv := 0 })

/-- A ring stops (R298): its unfetched slots are dropped, and a gap marker waits to be replied. -/
def State.stopRing (s : State) (a q dropped : Nat) : State :=
  ((s.dropPartial a q).modQ a q (fun d => { d with stopped := true, gap := some { dropped := dropped, first := d.devPtr } })).gapCond a

/-- A ring access completes with an error (R286): the queue stops as a gap does, and the source of the function is raised. -/
def State.ringError (s : State) (a q : Nat) : State :=
  match s.queue? a q with
  | none => s
  | some d =>
    let t := if d.reply then (s.modQ a q (fun x => { x with stopped := true })).gapCond a else s.stopRing a q d.count
    t.raise (0x9000 + a)

/-- Queue q is freed (R299, R324). -/
def State.freeQueue (s : State) (a q : Nat) : State :=
  ((({ s with hg := { s.hg with cache := s.hg.cache.filter (fun e => e != (a, q)) } } : State).dropPartial a q).modAl a (fun x => { x with
    queues := del q x.queues
    ctr := if x.ctr.windowQ = some q then { x.ctr with windowQ := none } else x.ctr })).gapCond a

/-- ADMIN_UP: queues 0 and 1 are active, of whichever kind (R310, R323). -/
def Allot.adminUp (x : Allot) : Bool :=
  match look 0 x.queues, look 1 x.queues with
  | some c, some r => !c.stopped && !r.stopped
  | _, _ => false

/-- A doorbell loads a descriptor that is not cached; room is made by writing back the one with the oldest last doorbell
among those with no fetched packet and no reserved entry (R301). -/
def State.cacheDoorbell (s : State) (a q : Nat) : State :=
  let c := s.hg.cache
  if c.contains (a, q) then { s with hg := { s.hg with cache := c.filter (· != (a, q)) ++ [(a, q)] } }
  else
    let c1 := if c.length < 4096 then c ++ [(a, q)]
      else match c.find? (fun e => match s.queue? e.1 e.2 with
          | some d => d.partialSlots == 0 && d.resv == 0
          | none => true) with
        | some v => c.filter (· != v) ++ [(a, q)]
        | none => c
    ({ s with hg := { s.hg with cache := c1 } } : State).count 0x45 none none none none 1

/-! ## Creating rings (R300, R323) -/

/-- The descriptor of a new ring. -/
def newQueue (reply : Bool) (log2 base replyQ : Nat) : QDesc :=
  { base := w64 base, reply := reply, log2 := log2, replyQ := if reply then 0 else replyQ }

/-- A new reply ring is zero-filled by DMA before it exists (R291, R323); none when the DMA ends in an error. -/
def State.createQueue (s : State) (a q : Nat) (d : QDesc) : Option State :=
  let add (t : State) : State := t.modAl a (fun x => { x with queues := put q d x.queues })
  if d.reply then
    let len := 32 * 2 ^ d.log2
    if s.hostBad d.base.toNat len then none
    else some (add { s with host := { s.host with bytes := cellZero s.host.bytes d.base.toNat len } })
  else some (add s)

/-- The sizes that R285 allows. -/
def log2Ok (reply : Bool) (n : Nat) : Bool := if reply then inRange 6 16 n else inRange 4 16 n

/-! ## Replies (R291, R292, R304, R305, R309) -/

/-- The completion codes (R317). -/
def Code.num : Code → Nat
  | .ok => 0x00
  | .okWithNote => 0x01
  | .skippedFrozen => 0x02
  | .superseded => 0x03
  | .discarded => 0x04
  | .retriedWider => 0x05
  | .badOpcode => 0x10
  | .badParam => 0x11
  | .noResource => 0x12
  | .notPermitted => 0x13
  | .gapSeen => 0x14
  | .wrongState => 0x15
  | .authFailed => 0x16
  | .faultContained => 0x20
  | .faultFatal => 0x21

/-- The STATUS word (R304). -/
def statusWord (code : Code) (att : Attn) (a : Nat) (gen : BitVec 8) : Nat :=
  code.num + att.level * 2 ^ 8 + att.summary * 2 ^ 10 + a * 2 ^ 16 + gen.toNat * 2 ^ 24

/-- The lap tag of a pointer: the complement of its bit n (R291). -/
def lapTag (n p : Nat) : Nat := if p.testBit n then 0 else 1

/-- A head entry (R304). -/
def headEntry (tag status qseq detail result : Nat) : List Byte :=
  leBytes tag 4 ++ leBytes status 4 ++ leBytes qseq 4 ++ leBytes detail 4 ++ leBytes result 16

/-- An extension entry (R304). -/
def extEntry (tag index qseq : Nat) (data : List Byte) : List Byte :=
  leBytes tag 4 ++ leBytes index 4 ++ leBytes qseq 4 ++ zeros 4 ++ padTo 16 data

/-- The address of the entry at pointer p of a reply ring. -/
def QDesc.entryAt (d : QDesc) (p : Nat) : Nat := d.base.toNat + 32 * (p % 2 ^ d.log2)

/-- QSEQ of the entry at pointer p: the count of the reply with the entry's own lap tag (R291, R292). -/
def QDesc.qseq (d : QDesc) (p : Nat) : Nat := d.qseqNext % 2 ^ 31 + lapTag d.log2 p * 2 ^ 31

/-- The entries of a reply with their addresses: the extension entries first, the head last (R291). -/
def replyEntries (d : QDesc) (tag status detail result : Nat) (ext : List Byte) : List (Nat × List Byte) :=
  ((pieces 16 ext).mapIdx (fun i data =>
    let p := (d.devPtr + i + 1) % d.mod
    (d.entryAt p, extEntry tag (i + 1) (d.qseq p) data))) ++
  [(d.entryAt (d.devPtr % d.mod), headEntry tag status (d.qseq (d.devPtr % d.mod)) detail result)]

/-- The reply is written into ring rq of allotment a: its entries, then WR and the counts advance. A write that ends in an
error stops the ring (R286). -/
def State.writeReply (s : State) (a rq tag status detail result : Nat) (ext : List Byte) : State :=
  match s.queue? a rq with
  | none => s
  | some d =>
    if d.stopped then s
    else
      let es := replyEntries d tag status detail result ext
      if es.any (fun e => s.hostBad e.1 32) then s.ringError a rq
      else
        let k := es.length
        let h := es.foldl (fun m e => cellWrite m e.1 e.2) s.host.bytes
        ({ s with host := { s.host with bytes := h } } : State).modQ a rq (fun x =>
          { x with devPtr := (x.devPtr + k) % x.mod, resv := x.resv - k, qseqNext := (x.qseqNext + 1) % 2 ^ 31 })

/-! ## Counter records (R456) -/

/-- The 576 bytes of a counter record. -/
def recordBytes (acc t0 t1 flags gen : Nat) (fixed : List Nat) (prog : List (Nat × Nat)) : List Byte :=
  leBytes acc 8 ++ leBytes t0 8 ++ leBytes t1 8 ++ leBytes flags 2 ++ leBytes gen 2 ++ zeros 4 ++
  (fixed.flatMap (fun v => leBytes v 8)) ++ ((List.range 64).flatMap (fun i => leBytes (lookN i prog) 8))

/-- The record of a delta set. -/
def DeltaSet.bytes (d : DeltaSet) (flags : Nat) : List Byte :=
  recordBytes d.acc d.tStart d.tEnd (flags + 4 * b2n d.discarded) d.configGen d.fixed d.prog

/-- The delta set of a command. -/
def State.deltaSet? (s : State) (c : Cmd) : Option DeltaSet := (s.al c.allot).ctr.sets.find? (fun d => d.cmd == c.id)

/-- The counter record of a command's reply: its delta set's, or zero deltas at one time (R453, R456). -/
def State.counterRecord (s : State) (c : Cmd) : List Byte :=
  if !c.ctrRec then []
  else match s.deltaSet? c with
    | some d => { d with tEnd := s.now }.bytes 0
    | none =>
      let t := if c.opcode = 0x0801 then s.now else c.tAccept
      recordBytes c.acc t t (if c.code = .discarded then 4 else 0) (s.al c.allot).ctr.configGen [0, 0, 0, 0] []

/-- The end latch: the delta set of the command closes, and on the window queue it becomes the last window's (R454, R458). -/
def State.closeSet (s : State) (c : Cmd) : State :=
  match s.deltaSet? c with
  | none => s
  | some d => s.modAl c.allot (fun x => { x with ctr := { x.ctr with
      sets := x.ctr.sets.filter (fun e => e.cmd != c.id)
      lastWindow := if d.window then some { d with tEnd := s.now } else x.ctr.lastWindow } })

/-- The one reply of a command that is done, to its reply ring or to the master that ordered it (R307, R334). -/
def State.reply (s : State) (c : Cmd) : State :=
  let gone (t : State) : State := { t with hg := { t.hg with cmds := t.hg.cmds.filter (fun d => d.id != c.id) } }
  match c.master with
  | .allot =>
    let ext := s.counterRecord c
    let status := statusWord c.code (s.attn.getD c.allot {}) c.allot c.gen
    let s1 := (s.closeSet c).writeReply c.allot c.replyQ c.tag.toNat status c.detail.toNat c.result.toNat ext
    let s2 := (s1.count 0x19 none (some c.allot) none none 1).traceAt 0 3 (some c.allot) c.acc (status + c.detail.toNat * 2 ^ 32)
    gone s2
  | .mgmt | .partner =>
    gone { s with hg := { s.hg with responses := s.hg.responses ++ [{ id := c.id, code := c.code, detail := c.detail, result := c.result }] } }
  | .siteAlarm | .noQueue _ => gone s

end Sys2Proof.Machine
end

