-- ==== Sys2Proof/Machine/Rows.lean ====
section
/-! DEFINITION. The shapes that the rows of Deant commands share: a command that stands started is judged again and takes
effect (R315, R499); an order is executed by the state arbiter (R316, R332). -/

namespace Sys2Proof.Machine

/-- What a meaning answers. -/
abbrev Out := Host.Outcome State Fault Refusal

/-- The number that the device assigns: the same for the same numbers in use (R32, log 44), between lo and hi and free. -/
def pickFree (kind lo hi : Nat) (used : List Nat) : Nat :=
  let p := Config.pick kind used
  if inRange lo hi p && !used.contains p then p
  else (((List.range (used.length + 1)).map (lo + ·)).find? (fun i => !used.contains i)).getD lo

/-- Command id of opcode op has started and its own work has not begun. -/
def State.fresh? (s : State) (id op : Nat) : Option Cmd :=
  match s.started? id op with
  | some c => if c.phase = .started then some c else none
  | none => none

/-- Hearth 1 is fenced, or leaves service under a FENCE accepted before the command (R423). -/
def State.h1Closed (s : State) (c : Cmd) : Bool :=
  s.flt.hearth1Fenced || (s.flt.hearth1Leaving &&
    s.hg.cmds.any (fun d => d.opcode == 0x0910 && d.phase == .working && decide (d.id < c.id)))

/-- Hearth h takes the work of command c (R62, R202, R256, R423). -/
def State.hearthOpen (s : State) (c : Cmd) (h : Nat) : Bool := s.hearthUp h && !(h == 1 && s.h1Closed c)

/-- Object h is homed on a hearth that is out of service for command c (R423). -/
def State.away (s : State) (c : Cmd) (h : Nat) : Bool :=
  match s.obj? c.allot h with
  | some o => decide (o.tier < 2) && !s.hearthOpen c o.hearth
  | none => false

/-- Names that are out of reach give NO_RESOURCE (R423). -/
def State.reachable (s : State) (c : Cmd) (ns : List Naming) : Verdict :=
  need (!ns.any (fun n => s.away c n.1)) (.noResource, 0)

/-- The fields of a command as judged with its inline names (R314, R423). -/
def State.judgeInline (s : State) (c : Cmd) (fs : List Fld) : Verdict :=
  firstBad [c.checkFields fs, s.reachable c c.inlineNames]

/-- The names of a command set the last use of their objects (R268); one that it may write loses its tier-2 copy (R272).
OBJ_PIN leaves the last use; moving, freeing or copying an object to its own copy writes none. -/
def State.noteNames (s : State) (c : Cmd) (ns : List Naming) : State :=
  if c.opcode = 0x0204 then s
  else
    let moves := c.opcode == 0x0202 || c.opcode == 0x0203
    ns.foldl (fun t n =>
      let u := if n.2 && !moves then t.dropShadow c.allot n.1 else t
      u.touch c.allot n.1 c.acc) s

/-- A command that judges its fields anew, as the commands before it left the state (R499), and takes effect. -/
def State.judged (s : State) (c : Cmd) (fs : List Fld) (body : State) : State :=
  match s.judgeInline c fs with
  | some v => s.reject c.id v
  | none => body

/-- The row of a command without the arbiter: it acts when it has started and the order of R257 and R499 lets it; before
that the state stands unchanged (log 11). -/
def State.deant (s : State) (id op : Nat) (fs : State → Cmd → List Fld) (body : State → Cmd → State) : Out :=
  match s.fresh? id op with
  | none => .next s
  | some c => if s.ready c then .next (s.judged c (fs s c) (body (s.noteNames c (s.namesNow c)) c)) else .next s

/-- The command leaves the orders that wait in the arbiter. -/
def State.takeOrder (s : State) (id : Nat) : State :=
  { s with hg := { s.hg with arb := s.hg.arb.filter (· != id) } }

/-- A command of the management controller with the parameter bytes p (R23, R332). It holds no slot and no queue. -/
def State.mgmtCmd (s : State) (op p : Nat) : Cmd :=
  { id := s.hg.nextId, master := .mgmt, opcode := op, plen := 112, params := p, phase := .started,
    tAccept := s.now, tStart := s.now }

/-- The state with that command presented to the arbiter. -/
def State.present (s : State) (c : Cmd) : State :=
  { s with hg := { s.hg with cmds := s.hg.cmds ++ [c], nextId := s.hg.nextId + 1, arb := s.hg.arb ++ [c.id] } }

/-- The control plane runs: the Headgate is loaded and the device is not halted (R418, R432). -/
def State.arbUp (s : State) : Bool := s.dev.mainRails && decide (9 ≤ s.dev.bootStep) && s.dev.bootState != 2

/-- The management controller runs (R19, R430). -/
def State.mgmtUp (s : State) : Bool := s.dev.standby && !s.mgt.restarting

/-- The arbiter takes orders of this opcode: while the device is halted or starting, a DEV_RESET only (R337, R490). -/
def State.arbTakes (s : State) (op : Nat) : Bool := s.arbUp || (op == 0x0A41 && s.dev.mainRails)

/-- A reset waits for the orders that the arbiter executed before and that it would end (R338): those of its allotment, for a
DEV_RESET every one. Opcodes: ALLOT_RESET, ALLOT_DESTROY, the orders of a Function Level Reset and of a removed VF, DEV_RESET. -/
def State.resetWaits (s : State) (c : Cmd) : Bool :=
  let ends (d : Cmd) : Bool :=
    if c.opcode = 0x0A41 then true
    else [0x0A40, 0x0111, 0xF006, 0xF007].contains c.opcode && d.master == .allot && d.allot == c.par 0 1
  s.hg.cmds.any (fun d => d.id != c.id && d.phase == .working && d.arbitrated && ends d)

/-- The row of an arbitrated command: a round of this one order, which must be the first that waits; an order of the
management controller is presented, and the round executes it with the orders before it (R332). -/
def State.order (s : State) (src : Src) (op : Nat) (fs : State → Cmd → List Fld) (body : State → Cmd → State) : Out :=
  match src with
  | .mgmt p => .next (if s.mgmtUp then s.present (s.mgmtCmd op p) else s)
  | .cmd id =>
    match s.fresh? id op with
    | none => .next s
    | some c =>
      if s.hg.arb.head? = some id ∧ s.arbTakes op = true ∧ s.resetWaits c = false then
        let t := s.takeOrder id
        .next (t.judged c (fs t c) (body (t.noteNames c (t.namesNow c)) c))
      else .next s

/-- A command at work: its row or one of its events goes on with it. -/
def State.working? (s : State) (id op : Nat) : Option Cmd :=
  match s.started? id op with
  | some c => if c.phase = .working then some c else none
  | none => none

/-- A command goes on to its later events. -/
def State.goOn (s : State) (id : Nat) (aux : List Nat) : State :=
  s.modCmd id (fun c => { c with phase := .working, aux := aux })

/-- The command has a DETAIL that says a timer ended it (R306, R321). -/
def State.finishTimed (s : State) (id : Nat) (timedOut : Bool) (result : Nat) : State :=
  s.finish id .ok (w32 (b2n timedOut)) (w128 result)

/-- A destination reference of a read command: a raw object, an aligned offset, room for len bytes (R331, R457). -/
def State.destOk (s : State) (c : Cmd) (off len : Nat) : Fld := ⟨off, 8, s.rawRefOk c.allot (c.par off 8) len⟩

/-- Bytes written through a destination reference, with their byte events. -/
def State.writeDest (s : State) (c : Cmd) (off : Nat) (bs : List Byte) : State :=
  let r := c.par off 8
  let o := s.objD c.allot (refHandle r)
  (s.writeObj c.allot (refHandle r) (bitsOf r 32 32) bs).countBytes c o.tier none bs.length

/-- Bytes written through a destination reference; a block of it that is poisoned and not covered whole stops the command (R417). -/
def State.withDest (s : State) (c : Cmd) (off : Nat) (bs : List Byte) (body : State → State) : State :=
  let r := c.par off 8
  match (s.objD c.allot (refHandle r)).poisonPart (bitsOf r 32 32) bs.length with
  | some p => s.raisePoison c c.allot (refHandle r) p.1 p.2
  | none => body (s.writeDest c off bs)

end Sys2Proof.Machine
end

