-- ==== Sys2Proof/Machine/Flags.lean ====
section
/-! DEFINITION. The status registers of the BAR0 window and the pages that repeat them (R310, R331). -/

namespace Sys2Proof.Machine

/-- Hearths in service (R310, R423). -/
def State.hearthCount (s : State) : Nat := b2n (s.hearthUp 0) + b2n (s.hearthUp 1)

/-- DEV_IDENT. -/
def State.devIdent (s : State) : Nat :=
  (if s.isX then 0x58 else 0x48) + 0xA1 * 2 ^ 8 + (s.hearthCount % 4) * 2 ^ 16 + (s.dev.fwVersion % 2 ^ 32) * 2 ^ 32

/-- BOOT_STATUS. -/
def State.bootStatus (s : State) : Nat :=
  s.dev.bootStep % 16 + (s.dev.bootState % 4) * 2 ^ 4 + b2n s.dev.imageB * 2 ^ 6 + b2n s.dev.degraded * 2 ^ 7 +
  b2n s.dev.solo * 2 ^ 8 + (s.dev.failedStep % 16) * 2 ^ 16

/-- ALLOT_STATUS of function fn; 0 on the monitor function. -/
def State.allotStatus (s : State) (fn : Nat) : Nat :=
  if 16 ≤ fn then 0
  else
    let x := s.al fn
    let t := s.attn.getD fn {}
    fn + b2n x.live * 2 ^ 4 + b2n x.adminUp * 2 ^ 5 + t.level * 2 ^ 8 + t.summary * 2 ^ 10 + x.gen.toNat * 2 ^ 16

/-- ADMINQ_CTRL of function fn, as last written (R13). -/
def State.adminqCtrl (s : State) (fn : Nat) : Nat :=
  let x := s.al fn
  x.adminClog2 % 32 + x.adminRlog2 % 32 * 2 ^ 8 + b2n x.adminEnable * 2 ^ 16

/-- DOORBELL_ERR as a word (R312). -/
def DbErr.word (d : DbErr) : Nat := d.qid + d.reason * 2 ^ 16 + b2n d.more * 2 ^ 31

/-- TotalVFs of the PF's SR-IOV capability (R302): 15 VFs for allotments 1 to 15, and VF 16, the monitor function. -/
def totalVfs : Nat := 16

/-- The function has a BAR0 window: the PF always, a VF while it is enabled (R303, R310). -/
def State.fnUp (s : State) (fn : Nat) : Bool :=
  fn == 0 || (s.dev.vfEnable && decide (fn ≤ s.dev.numVfs) && decide (fn ≤ totalVfs))

/-- A request of the host reaches function fn. -/
def State.reaches (s : State) (fn : Nat) : Bool := s.dev.linkUp && s.fnUp fn

/-- The 8 bytes of the BAR0 window of function fn at offset 8 k: an RSVD offset and the WO register DOORBELL read 0 (R13, R14, R310). -/
def State.bar0Word (s : State) (fn k : Nat) : Nat :=
  match k with
  | 0 => s.devIdent
  | 1 => s.bootStatus + s.clk.pace.toNat * 2 ^ 32
  | 2 => s.now
  | 3 => s.allotStatus fn + (s.attn.getD fn {}).epoch.toNat * 2 ^ 32
  | 4 => (s.al fn).adminC.toNat
  | 5 => (s.al fn).adminR.toNat
  | 6 => s.adminqCtrl fn + (s.al fn).dbErr.word * 2 ^ 32
  | _ => 0

/-- A read of size bytes at an offset of the window; 4 bytes of the upper half of TIMESTAMP read the latched half (R310). -/
def State.bar0Read (s : State) (fn offset size : Nat) : Nat :=
  if offset = 0x14 ∧ size = 4 then ((look fn s.hg.tsLatch).getD 0).toNat
  else s.bar0Word fn (offset / 8) / 2 ^ (8 * (offset % 8)) % 2 ^ (8 * size)

/-- The end of the BAR0 window. -/
def bar0Size : Nat := 0x10000

end Sys2Proof.Machine
end

