-- ==== Sys2Proof/Machine/Queues.lean ====
section
/-! DEFINITION. Rings, doorbells and the BAR0 window, the queue commands, WATCH, BARRIER and TOKEN_WAIT (R285 to R312, R319 to
R325). -/

namespace Sys2Proof.Machine

/-! ## Doorbells (R287, R290, R298, R312) -/

/-- What host software stored before the access (log 9). -/
def State.hostStores (s : State) (h : HostStores) : State :=
  { s with host :=
    { bytes := h.cells.foldl (fun m e => cellWrite m e.1 [e.2]) s.host.bytes, bad := h.bad.getD s.host.bad } }

/-- Fields of a DOORBELL value. -/
def dbQid (v : Nat) : Nat := bitsOf v 0 16
def dbKind (v : Nat) : Bool := bitOf v 16
def dbRsvd (v : Nat) : Nat := bitsOf v 17 15 + bitsOf v 49 15
def dbPtr (v : Nat) : Nat := bitsOf v 32 17

/-- The error that a doorbell gives before its pointer is judged; 0 for none (R312). -/
def doorbellReason (q : Option QDesc) (v size : Nat) : Nat :=
  if size < 8 ∨ dbRsvd v ≠ 0 then 4
  else match q with
    | none => 1
    | some d =>
      if d.reply ≠ dbKind v then 1
      else if d.mod ≤ dbPtr v then 4
      else if d.stopped ∨ d.destroying then 5
      else 0

/-- A write pointer w of a command ring: it is published, has no effect, or overfills the ring (R287, R298). -/
def State.publish (s : State) (a q w : Nat) (d : QDesc) : State :=
  let dist := d.dist w d.devPtr
  if 2 ^ d.log2 < dist then (s.stopRing a q dist).doorbellError a q 2
  else if d.dist d.hostPtr d.devPtr ≤ dist then s.modQ a q (fun x => { x with hostPtr := w })
  else s

/-- A read pointer r of a reply ring (R290). -/
def State.giveBack (s : State) (a q r : Nat) (d : QDesc) : State :=
  if d.dist d.devPtr d.hostPtr < d.dist r d.hostPtr then s.doorbellError a q 3
  else s.modQ a q (fun x => { x with hostPtr := r })

/-- A write of size bytes to DOORBELL of the function of allotment a: it loads the descriptor of a queue that exists (R301), and
acts on its pointer where it has no error. -/
def State.doorbell (s : State) (a v size : Nat) : State :=
  let q := dbQid v
  let n := doorbellReason (s.queue? a q) v size
  match s.queue? a q with
  | none => (s.doorbellError a q n).settle
  | some d =>
    let t := s.cacheDoorbell a q
    (if n ≠ 0 then t.doorbellError a q n
     else if d.reply then t.giveBack a q (dbPtr v) d else t.publish a q (dbPtr v) d).settle

/-- DOORBELL_COMMAND_WRITE: KIND 0; the monitor function has no DOORBELL (R302). -/
def execDoorbellCommandWrite (fn : Nat) (value : W64) (size : Nat) (stores : HostStores) (s : State) : Out :=
  let t := s.hostStores stores
  if s.reaches fn ∧ fn < 16 ∧ dbKind value.toNat = false then .next (t.doorbell fn value.toNat size) else .next t

/-- DOORBELL_REPLY_READ: KIND 1. -/
def execDoorbellReplyRead (fn : Nat) (value : W64) (size : Nat) (s : State) : Out :=
  if s.reaches fn ∧ fn < 16 ∧ dbKind value.toNat = true then .next (s.doorbell fn value.toNat size) else .next s

/-- The gap marker of a command ring: MARK, SRC 1, DROPPED, FIRST (R284). -/
def Gap.marker (g : Gap) : Nat := gapMarker 1 g.dropped g.first

/-! ## BAR0 registers (R13, R14, R310 to R312) -/

/-- DOORBELL_ERR: the read returns the register and clears it, and the level-1 condition with it (R305, R312). -/
def execDoorbellErr (fn : Nat) (s : State) : Out :=
  if s.reaches fn ∧ fn < 16 then
    let t := (s.modAl fn (fun x => { x with dbErr := {} })).dropCond fn .doorbell
    .next { t with hg := { t.hg with readData := w64 (s.bar0Read fn 0x34 4) } }.settle
  else .next s

/-- Some command ring other than queue but names reply queue rq. -/
def Allot.namesReply (x : Allot) (rq but : Nat) : Bool :=
  x.queues.any (fun e => !e.2.reply && e.2.replyQ == rq && e.1 != but)

/-- ENABLE 1 creates queues 0 and 1 (R311). -/
def State.adminUp (s : State) (fn : Nat) : State :=
  let x := s.al fn
  if !x.live || !log2Ok false x.adminClog2 || !log2Ok true x.adminRlog2 || (look 0 x.queues).isSome ||
      (look 1 x.queues).isSome || decide (1048576 < s.queueTotal + 2) then (s.doorbellError fn 0 6).settle
  else match s.createQueue fn 1 (newQueue true x.adminRlog2 x.adminR.toNat 0) with
    | none => s.raise (0x9000 + fn)
    | some t =>
      match t.createQueue fn 0 (newQueue false x.adminClog2 x.adminC.toNat 1) with
      | some u => u
      | none => s

/-- Q_DESTROY of ring q can complete: no other command of the ring is without its reply, and no gap marker waits (R299, R324). -/
def State.ringIdle (s : State) (a q : Nat) (but : Option Nat) : Bool :=
  !s.hg.cmds.any (fun c => c.master == .allot && c.allot == a && c.queue == q && some c.id != but) &&
  !(s.queue? a q).any (fun d => d.gap.isSome)

/-- A command ring stops fetching for good: its unfetched slots are dropped, and no doorbell acts on it (R324). -/
def State.closeQueue (s : State) (a q : Nat) : State := (s.dropPartial a q).modQ a q (fun d => { d with destroying := true })

/-- Once no command of queue 0 is left, queue 0 and then queue 1 are freed (R311, R324). -/
def State.adminFree (s : State) (fn : Nat) : State :=
  if (s.al fn).adminClosing && s.ringIdle fn 0 none && s.ringIdle fn 1 none then
    (((s.modAl fn (fun x => { x with adminClosing := false })).freeQueue fn 0).freeQueue fn 1).settle
  else s

/-- Queue q, where it is a command ring, is closed. -/
def State.closeCommandRing (s : State) (a q : Nat) : State := if (s.queue? a q).any (fun d => !d.reply) then s.closeQueue a q else s

/-- ENABLE 0 destroys queues 0 and 1, unless another command ring names one of them as its reply ring (R311, R324). -/
def State.adminDown (s : State) (fn : Nat) : State :=
  if (s.al fn).namesReply 1 0 || (s.al fn).namesReply 0 0 then (s.doorbellError fn 0 6).settle
  else (((s.closeCommandRing fn 0).closeCommandRing fn 1).modAl fn (fun x => { x with adminClosing := true })).adminFree fn

/-- GAP_SEEN: the reply to the gap marker of a stopped ring, when its reply ring has an entry free (R298, R299). A reply ring that
has stopped or is gone takes no reply, and the marker goes. -/
def execGapSeen (allot queue : Nat) (s : State) : Out :=
  match s.queue? allot queue with
  | some d =>
    match d.gap, s.queue? allot d.replyQ with
    | some g, some r =>
      if r.reply ∧ r.stopped = false ∧ 1 ≤ r.free then
        let t := (s.modQ allot queue (fun x => { x with gap := none })).modQ allot d.replyQ (fun x => { x with resv := x.resv + 1 })
        let status := statusWord .gapSeen (s.attn.getD allot {}) allot (s.al allot).gen
        .next ((t.writeReply allot d.replyQ 0xFFFFFFFF status g.dropped g.marker []).adminFree allot)
      else if r.reply ∧ r.stopped = false then .next s
      else .next ((s.modQ allot queue (fun x => { x with gap := none })).adminFree allot)
    | some _, none => .next ((s.modQ allot queue (fun x => { x with gap := none })).adminFree allot)
    | none, _ => .next s
  | none => .next s

/-- A write of ADMINQ_CTRL (R311): ENABLE is stored, and the sizes while ADMIN_UP is 0 (R13). -/
def State.adminCtrl (s : State) (fn ctrl : Nat) : State :=
  let up := (s.al fn).adminUp
  let t := s.modAl fn (fun x => { x with
    adminEnable := bitOf ctrl 16
    adminClog2 := if up then x.adminClog2 else bitsOf ctrl 0 5
    adminRlog2 := if up then x.adminRlog2 else bitsOf ctrl 8 5 })
  if bitOf ctrl 16 = up then t else if up then t.adminDown fn else t.adminUp fn

/-- ADMINQ_ENABLE: a write of ADMINQ_CTRL with ENABLE 1. -/
def execAdminqEnable (fn : Nat) (ctrl : W32) (s : State) : Out :=
  if s.reaches fn ∧ fn < 16 ∧ bitOf ctrl.toNat 16 = true then .next (s.adminCtrl fn ctrl.toNat) else .next s

/-- ADMINQ_DISABLE: a write of ADMINQ_CTRL with ENABLE 0. -/
def execAdminqDisable (fn : Nat) (ctrl : W32) (s : State) : Out :=
  if s.reaches fn ∧ fn < 16 ∧ bitOf ctrl.toNat 16 = false then .next (s.adminCtrl fn ctrl.toNat) else .next s

/-- TIMESTAMP_LOW_READ: a 4-byte read of the lower half latches the upper half (R310). -/
def execTimestampLowRead (fn : Nat) (s : State) : Out :=
  if s.reaches fn ∧ fn ≤ 16 then
    .next { s with hg := { s.hg with
      readData := w64 (s.bar0Read fn 0x10 4)
      tsLatch := put fn (w32 (s.now / 2 ^ 32)) s.hg.tsLatch } }
  else .next s

/-- A ring base as written: the bytes of the access at off, [11:0] RSVD and ignored (R14). -/
def baseWritten (old off size v : Nat) : Nat :=
  let lo := 8 * off
  let m := (2 ^ (8 * size) - 1) <<< lo
  let merged := (old &&& ((2 ^ 64 - 1) ^^^ m)) ||| ((v <<< lo) &&& m)
  (merged % 2 ^ 64) / 4096 * 4096

/-- The value of a DOORBELL write as 8 bytes, from a write of size bytes at offset. -/
def doorbellValue (offset size v : Nat) : Nat := v * 2 ^ (8 * (offset - 0x40)) % 2 ^ 64 % 2 ^ (8 * (offset - 0x40 + size))

/-- The effect of a register write at an offset of the window (R13, R310). DESIGN CHOICE (log 43): the rules give the width of a
write to DOORBELL alone; the ring bases take any bytes written, ADMINQ_CTRL one write of its 4 bytes. A write that holds bytes of
DOORBELL and is not its 8 bytes is narrower than 8 bytes (R312). -/
def State.bar0Write (s : State) (fn offset size : Nat) (v : Nat) : State :=
  if 16 ≤ fn then s
  else if 0x20 ≤ offset ∧ offset + size ≤ 0x28 then
    if (s.al fn).adminUp then s
    else s.modAl fn (fun x => { x with adminC := w64 (baseWritten x.adminC.toNat (offset - 0x20) size v) })
  else if 0x28 ≤ offset ∧ offset + size ≤ 0x30 then
    if (s.al fn).adminUp then s
    else s.modAl fn (fun x => { x with adminR := w64 (baseWritten x.adminR.toNat (offset - 0x28) size v) })
  else if offset = 0x30 ∧ size = 4 then s.adminCtrl fn v
  else if offset = 0x40 ∧ size = 8 then s.doorbell fn v 8
  else if 0x40 ≤ offset ∧ offset < 0x48 then s.doorbell fn (doorbellValue offset size v) 4
  else s

/-- REGISTER_WRITE: RO and RC registers, RSVD bits and RSVD offsets take no write (R13, R14). -/
def execRegisterWrite (fn offset size : Nat) (value : W64) (s : State) : Out :=
  if bar0Size ≤ offset then .fault .outsideBar0
  else if s.reaches fn then .next (s.bar0Write fn offset size (value.toNat % 2 ^ (8 * size))) else .next s

/-- UNSUPPORTED_REQUEST: a request to a virtual function that is not enabled completes as one, and reads all ones (R310). -/
def execUnsupportedRequest (fn offset : Nat) (s : State) : Out :=
  if bar0Size ≤ offset then .fault .outsideBar0
  else if s.dev.linkUp ∧ s.fnUp fn = false then .next { s with hg := { s.hg with readData := w64 (2 ^ 64 - 1) } } else .next s

/-! ## Queue commands (R322 to R325) -/

def nopFields (_ : State) (_ : Cmd) : List Fld := [anyVal 0 16]

/-- NOP (R322). -/
def execNop (id : Nat) (s : State) : Out := s.deant id 0x0100 nopFields (fun t c => t.finishOk id (c.par 0 16))

/-- The queue is an active reply ring. -/
def State.activeReply (s : State) (a q : Nat) : Bool :=
  match s.queue? a q with
  | some d => d.reply && !d.stopped
  | none => false

def qCreateFields (s : State) (c : Cmd) : List Fld :=
  let reply := c.par 2 1 == 1
  [⟨0, 2, (s.queue? c.allot (c.par 0 2)).isNone⟩, c.ranged 2 1 0 1, ⟨3, 1, log2Ok reply (c.par 3 1)⟩,
   ⟨4, 2, if reply then c.par 4 2 == 0 else s.activeReply c.allot (c.par 4 2)⟩, ⟨8, 8, c.par 8 8 % 4096 == 0⟩]

/-- Q_CREATE (R323). -/
def execQCreate (id : Nat) (s : State) : Out :=
  s.deant id 0x0101 qCreateFields (fun t c =>
    if 1048576 ≤ t.queueTotal then t.reject id (.noResource, 0)
    else match t.createQueue c.allot (c.par 0 2) (newQueue (c.par 2 1 == 1) (c.par 3 1) (c.par 8 8) (c.par 4 2)) with
      | some u => u.finishOk id 0
      | none => (t.raise (0x9000 + c.allot)).finish id .faultContained (discardDetail (0x9000 + c.allot) 0 false) 0)

/-- A reply ring is destroyed only when no command ring names it (R324). -/
def qDestroyFields (s : State) (c : Cmd) : List Fld :=
  [⟨0, 2, match s.queue? c.allot (c.par 0 2) with
    | some d => !d.reply || !(s.al c.allot).queues.any (fun e => !e.2.reply && e.2.replyQ == c.par 0 2)
    | none => false⟩]

/-- Q_DESTROY (R324): a command ring, closed when the command started, is freed after the reply; a reply ring is freed. -/
def execQDestroy (id : Nat) (s : State) : Out :=
  s.deant id 0x0102 qDestroyFields (fun t c =>
    match t.queue? c.allot (c.par 0 2) with
    | none => t
    | some d =>
      if d.reply then ((t.freeQueue c.allot (c.par 0 2)).settle).finishOk id 0
      else if t.ringIdle c.allot (c.par 0 2) (some id) then (t.closeQueue c.allot (c.par 0 2)).finishOk id 0
      else t)

def flushFields (s : State) (c : Cmd) : List Fld :=
  [⟨0, 2, match s.queue? c.allot (c.par 0 2) with
    | some d => !d.reply
    | none => false⟩]

/-- XSLOTS of the head slot at the fetch pointer (R294); 0 where the access fails. -/
def State.xslotsAt (s : State) (d : QDesc) : Nat :=
  match s.hostRead (d.base.toNat + 128 * (d.devPtr % 2 ^ d.log2)) 4 with
  | some bs => bytesField bs 2 1 % 4
  | none => 0

/-- The published slots at the fetch pointer do not make a whole packet. -/
def State.incomplete (s : State) (d : QDesc) : Bool := decide (0 < d.count) && decide (d.count < s.xslotsAt d + 1)

/-- FLUSH_REST (R297, R325). -/
def execFlushRest (id : Nat) (s : State) : Out :=
  s.deant id 0x0103 flushFields (fun t c =>
    match t.queue? c.allot (c.par 0 2) with
    | none => t
    | some d =>
      if d.stopped ∨ d.destroying ∨ d.count = 0 then t.finishOk id 0
      else if t.incomplete d then
        ((t.dropPartial c.allot (c.par 0 2)).modQ c.allot (c.par 0 2) (fun x => { x with devPtr := x.hostPtr })).finishOk id d.count
      else t)

/-! ## WATCH (R306) -/

def watchFields (_ : State) (_ : Cmd) : List Fld := [anyVal 0 4, anyVal 4 4]

/-- The allotment's ATTN_EPOCH. -/
def State.epochOf (s : State) (a : Nat) : Nat := (s.attn.getD a {}).epoch.toNat

/-- WATCH: it completes when the epoch differs from SEEN_EPOCH, and stays open till then. -/
def execWatch (id : Nat) (s : State) : Out :=
  match s.started? id 0x0120 with
  | none => .next s
  | some c =>
    .next (s.judged c (watchFields s c)
      (if s.epochOf c.allot ≠ c.par 0 4 then s.finishTimed id false (s.epochOf c.allot) else s.goOn id []))

/-- WATCH_TIMEOUT: TIMEOUT_US microseconds have passed since acceptance, and the epoch has not changed (log 5). -/
def execWatchTimeout (id : Nat) (s : State) : Out :=
  match s.working? id 0x0120 with
  | none => .next s
  | some c =>
    if c.par 4 4 = 0 ∨ s.epochOf c.allot ≠ c.par 0 4 then .next s
    else .next ((s.passTo (c.tAccept + 1000 * c.par 4 4)).finishTimed id true (s.epochOf c.allot))

/-! ## Tokens and barriers (R319 to R321) -/

def tokCell (t : Nat) : Nat := bitsOf t 0 12
def tokTarget (t : Nat) : Nat := bitsOf t 12 20

/-- The count of a token cell. -/
def State.cellCount (s : State) (a cell : Nat) : Nat := lookN cell (s.al a).tokens

/-- The token is met (R319). -/
def State.tokenMet (s : State) (a t : Nat) : Bool :=
  decide ((s.cellCount a (tokCell t) + 2 ^ 20 - tokTarget t) % 2 ^ 20 < 2 ^ 19)

def barrierFields (_ : State) (c : Cmd) : List Fld := [c.ranged 0 2 0 4095, c.ranged 2 1 0 1]

/-- A command before the barrier in its scope that has not completed (R320). -/
def State.beforeBarrier (s : State) (c : Cmd) : Bool :=
  s.hg.cmds.any (fun d => d.master == .allot && d.allot == c.allot && decide (d.id < c.id) &&
    (c.par 2 1 == 1 || d.queue == c.queue))

/-- BARRIER (R320). -/
def execBarrier (id : Nat) (s : State) : Out :=
  s.deant id 0x0320 barrierFields (fun t c =>
    if t.beforeBarrier c then t
    else if c.par 0 2 = 0 then t.finishOk id 0
    else
      let n := (t.cellCount c.allot (c.par 0 2) + 1) % 2 ^ 20
      (t.modAl c.allot (fun x => { x with tokens := putN (c.par 0 2) n x.tokens })).finishOk id n)

def tokenWaitFields (_ : State) (c : Cmd) : List Fld := [⟨0, 4, tokCell (c.par 0 4) != 0⟩, anyVal 4 4]

/-- TOKEN_WAIT: it completes when its token is met, and stays open till then (R321). -/
def execTokenWait (id : Nat) (s : State) : Out :=
  match s.started? id 0x0321 with
  | none => .next s
  | some c =>
    .next (s.judged c (tokenWaitFields s c)
      (if s.tokenMet c.allot (c.par 0 4) then s.finishTimed id false (s.cellCount c.allot (tokCell (c.par 0 4)))
       else s.goOn id []))

/-- TOKEN_WAIT_TIMEOUT: TIMEOUT_US microseconds have passed since the start, and the token is not met (log 5). -/
def execTokenWaitTimeout (id : Nat) (s : State) : Out :=
  match s.working? id 0x0321 with
  | none => .next s
  | some c =>
    if c.par 4 4 = 0 ∨ s.tokenMet c.allot (c.par 0 4) = true then .next s
    else .next ((s.passTo (c.tStart + 1000 * c.par 4 4)).finishTimed id true (s.cellCount c.allot (tokCell (c.par 0 4))))

end Sys2Proof.Machine
end

