-- ==== Sys2Proof/Machine/Observe.lean ====
section
/-! DEFINITION. Counters, trace and the offset table: CTR_CONFIG, CTR_READ, TRACE_CONFIG, TRACE_READ, TIME_MEASURE and
OFFSET_MEASUREMENT (R450 to R468). -/

namespace Sys2Proof.Machine

/-! ## Orders that wait for a list (R499) -/

/-- The row of an arbitrated command that reads a structure in an object: it acts when it may read it. -/
def State.orderReady (s : State) (src : Src) (op : Nat) (fs : State → Cmd → List Fld) (body : State → Cmd → State) : Out :=
  match src with
  | .mgmt p => s.order (.mgmt p) op fs body
  | .cmd id =>
    match s.fresh? id op with
    | none => .next s
    | some c => if s.ready c then s.order (.cmd id) op fs body else .next s

/-! ## Selector words (R452) -/

/-- The event codes of the table of counter events. -/
def eventListed (ev : Nat) : Bool := decide (ev ≤ 0x19) || (decide (0x40 ≤ ev) && decide (ev ≤ 0x45))

/-- A selector word meets its rules in an allotment's bank or the global bank. -/
def selectorOk (global : Bool) (w : Nat) : Bool :=
  eventListed (bitsOf w 0 8) && bitsOf w 8 2 != 3 && !bitOf w 15 &&
  (if global then decide (bitsOf w 10 5 ≤ 16) else bitsOf w 10 5 == 0 && decide (bitsOf w 0 8 < 0x40))

/-- The selector word of a counter (reset value 0xFFFF_4000). -/
def selectorAt (sel : List (Nat × Nat)) (i : Nat) : Nat := (look i sel).getD 0xFFFF4000

/-- The selector words of a CTR_CONFIG, inline or in its object. -/
def State.ctrWords (s : State) (c : Cmd) : List Nat :=
  if c.par 8 8 = 0 then (List.range (min 24 (c.par 4 2))).map (fun i => c.par (0x10 + 4 * i) 4)
  else (recordsOf 4 (s.readRef c.allot (c.par 8 8) 1 (4 * c.par 4 2))).map leNat

/-- The size of the bank that a KIND configures. -/
def bankSize (kind : Nat) : Nat := if kind = 1 then 256 else 64

/-- The number names a command ring of the allotment. -/
def State.commandRing (s : State) (a q : Nat) : Bool :=
  match s.queue? a q with
  | some d => !d.reply
  | none => false

def ctrConfigFields (s : State) (c : Cmd) : List Fld :=
  let kind := c.par 0 1
  let first := c.par 2 2
  let n := c.par 4 2
  let ref := c.par 8 8
  let inl := (List.range 24).map (fun i =>
    (⟨0x10 + 4 * i, 4, kind == 2 || ref != 0 || decide (n ≤ i) || selectorOk (kind == 1) (c.par (0x10 + 4 * i) 4)⟩ : Fld))
  [c.ranged 0 1 0 2,
   ⟨2, 2, if kind = 2 then first == 0xFFFF || s.commandRing c.allot first else decide (first < bankSize kind)⟩,
   ⟨4, 2, if kind = 2 then n == 0 else decide (first + n ≤ bankSize kind) && (ref != 0 || decide (n ≤ 24))⟩,
   ⟨8, 8, kind == 2 || ref == 0 || c.late (s.refOk c.allot ref 1 (4 * n) && s.isRaw c.allot (refHandle ref))⟩] ++ inl

/-- The selectors from first set to ws. -/
def setSelectors (sel : List (Nat × Nat)) (first : Nat) (ws : List Nat) : List (Nat × Nat) :=
  (ws.zipIdx first).foldl (fun m e => if e.1 = 0xFFFF4000 then del e.2 m else put e.2 e.1 m) sel

/-- The totals from first cleared, n of them. -/
def clearTotals (tot : List (Nat × Nat)) (first n : Nat) : List (Nat × Nat) :=
  tot.filter (fun e => !(decide (first ≤ e.1) && decide (e.1 < first + n)))

/-- The first selector word in an object that breaks its rules. -/
def State.badSelector (s : State) (c : Cmd) : Option Nat :=
  if c.par 0 1 = 2 then none
  else (s.ctrWords c).findIdx? (fun w => !selectorOk (c.par 0 1 == 1) w)

/-- KIND 0 and 2: selectors or the window queue, and one more CONFIG_GEN. -/
def AllotCtr.config (x : AllotCtr) (kind first : Nat) (ws : List Nat) : AllotCtr :=
  if kind = 2 then
    { x with windowQ := if first = 0xFFFF then none else some first
             lastWindow := none
             configGen := (x.configGen + 1) % 65536 }
  else
    { x with sel := setSelectors x.sel first ws
             prog := clearTotals x.prog first ws.length
             configGen := (x.configGen + 1) % 65536 }

/-- The effect of a CTR_CONFIG (R453). -/
def State.ctrConfig (s : State) (c : Cmd) : State :=
  let first := c.par 2 2
  if c.master = .mgmt ∧ c.par 0 1 ≠ 1 then s.reject c.id (.notPermitted, 0)
  else match s.badSelector c with
  | some i => s.reject c.id (badIn i)
  | none =>
    let ws := s.ctrWords c
    if c.par 0 1 = 1 then
      ({ s with glob := { s.glob with sel := setSelectors s.glob.sel first ws,
                                      totals := clearTotals s.glob.totals first ws.length } } : State).finishOk c.id 0
    else
      (s.modAl c.allot (fun x => { x with ctr := x.ctr.config (c.par 0 1) first ws })).finishOk c.id 0

/-- CTR_CONFIG: of the allotment's counters or window, when no other command of the allotment holds a delta set open; of
the global counters, through the arbiter (R453). -/
def execCtrConfig (src : Src) (s : State) : Out :=
  match src with
  | .mgmt p => s.orderReady (.mgmt p) 0x0801 ctrConfigFields State.ctrConfig
  | .cmd id =>
    match s.cmd? id with
    | none => .next s
    | some c =>
      if c.par 0 1 = 1 then s.orderReady (.cmd id) 0x0801 ctrConfigFields State.ctrConfig
      else s.deant id 0x0801 ctrConfigFields (fun t d => if (t.al d.allot).ctr.sets = [] then t.ctrConfig d else t)

/-! ## CTR_READ (R457, R458) -/

def ctrReadFields (s : State) (c : Cmd) : List Fld :=
  [c.ranged 0 1 0 2, s.destOk c 8 (if c.par 0 1 = 2 then 2112 else 576)]

/-- A delta set whose start latch falls into the counter handshake of the read: it opened at this time stamp and nothing has counted in
it. DEDUCED (log 72). -/
def DeltaSet.fresh (d : DeltaSet) (now : Nat) : Bool := d.tStart == now && d.fixed.all (· == 0) && d.prog == []

/-- The record of the last completed window command, with CFLAGS and ACCEPT; zeros where there is none. -/
def AllotCtr.closing (x : AllotCtr) (flags : Nat) : List Byte × Nat × Nat :=
  match x.lastWindow with
  | some d => (d.bytes flags, d.acc, flags)
  | none => (recordBytes 0 0 0 flags 0 [0, 0, 0, 0] [], 0, flags)

/-- The window record, with ACCEPT and the OPEN and BOUNDARY bits (R458). -/
def State.windowRead (s : State) (a : Nat) : List Byte × Nat × Nat :=
  let ctr := (s.al a).ctr
  match ctr.sets.find? (·.window) with
  | some d => if d.fresh s.now then ctr.closing 2 else ({ d with tEnd := s.now }.bytes 1, d.acc, 1)
  | none => ctr.closing 0

/-- The bytes of a read with ACCEPT and OPEN. -/
def State.ctrBytes (s : State) (c : Cmd) : List Byte × Nat × Nat :=
  let x := s.al c.allot
  let acc := x.accNext - 1
  match c.par 0 1 with
  | 0 => (recordBytes acc s.now s.now 0 x.ctr.configGen x.ctr.fixed x.ctr.prog, acc, 0)
  | 1 => s.windowRead c.allot
  | _ => ((recordBytes acc s.now s.now 0 x.ctr.configGen [0, 0, 0, 0] []).take 64 ++
      (List.range 256).flatMap (fun i => leBytes (lookN i s.glob.totals) 8), acc, 0)

/-- CTR_READ. -/
def execCtrRead (id : Nat) (s : State) : Out :=
  s.deant id 0x0802 ctrReadFields (fun t c =>
    let r := t.ctrBytes c
    t.withDest c 8 r.1 (fun u => u.finishOk id (r.2.1 + r.2.2 * 2 ^ 64)))

/-! ## TRACE_CONFIG (R459 to R462) -/

def TraceState.num : TraceState → Nat
  | .off => 0
  | .armed => 1
  | .post => 2
  | .done => 3

def traceConfigFields (_ : State) (c : Cmd) : List Fld :=
  let mask := c.par 1 1
  let arm := c.par 0 1 == 0
  [c.ranged 0 1 0 3, ⟨1, 1, decide (mask < 64)⟩, ⟨2, 2, !bitOf (c.par 2 2) 0 && !bitOf (c.par 2 2) 15⟩, anyVal 4 2,
   c.ranged 6 1 0 100,
   ⟨7, 1, decide (c.par 7 1 < 4) && (!arm || !bitOf mask 0 || c.par 7 1 != 0)⟩,
   ⟨8, 1, decide (c.par 8 1 < 4) && (!arm || !bitOf mask 2 || c.par 8 1 != 0)⟩,
   c.ranged 9 1 0 15, anyVal 0xA 2, anyVal 0xC 2,
   ⟨0xE, 2, decide (c.par 0xE 2 ≤ 512) && c.par 0xE 2 % 8 == 0⟩, anyVal 0x10 8]

/-- A ring of a hearth in service is armed anew: it is empty (R462). -/
def TraceRing.arm (r : TraceRing) : TraceRing := { spillMib := r.spillMib, lastPace := r.lastPace, state := .armed }

/-- Both rings are armed; the counter/trace condition of allotment 0 clears. -/
def State.armRings (s : State) : State :=
  ({ s with hearths := s.hearths.mapIdx (fun h x => if s.hearthUp h then { x with trace := x.trace.arm } else x) } : State).dropCond 0 .trace

/-- A ring stops: it enters DONE with a marker, or leaves DONE for OFF (R462). -/
def TraceRing.stop (r : TraceRing) : TraceRing :=
  match r.state with
  | .armed | .post => r.close
  | .done => { spillMib := r.spillMib, lastPace := r.lastPace }
  | .off => r

def State.stopRings (s : State) : State :=
  let t : State := { s with hearths := s.hearths.map (fun x => { x with trace := x.trace.stop }) }
  if t.hearths.all (fun x => x.trace.state == .off) then t.dropCond 0 .trace else t

/-- RESULT of TRACE_CONFIG. -/
def State.traceResult (s : State) : Nat :=
  (s.he 0).trace.state.num + (s.he 1).trace.state.num * 4 +
    satTo (2 ^ 32 - 1) ((s.he 0).trace.dropped + (s.he 1).trace.dropped) * 2 ^ 32

/-- Every hearth in service can give spill areas of n MiB (R278, R459). -/
def State.spillFits (s : State) (n : Nat) : Bool :=
  [0, 1].all (fun h => !s.hearthUp h || s.reservesMetWithout (2 + h) ((n - (s.he h).trace.spillMib) * mib))

/-- The configuration of an arming TRACE_CONFIG. -/
def Cmd.traceCfg (c : Cmd) : TraceCfg :=
  { trigMask := c.par 1 1, types := c.par 2 2, allotMask := c.par 4 2, postPct := if c.par 6 1 = 0 then 25 else c.par 6 1,
    trigClass := c.par 7 1, trigLevel := c.par 8 1, trigAllot := c.par 9 1, trigSource := c.par 0xA 2,
    paceMin := c.par 0xC 2, trigAccept := c.par 0x10 8 }

/-- ACTION 0. -/
def State.traceArm (s : State) (c : Cmd) : State :=
  let n := c.par 0xE 2
  let change := [0, 1].any (fun h => s.hearthUp h && (s.he h).trace.spillMib != n)
  if change ∧ s.hearths.any (fun x => x.trace.state != .off) then s.reject c.id (.wrongState, 0)
  else if !s.spillFits n then s.reject c.id (.noResource, 0)
  else
    let t : State := { s with
      hearths := s.hearths.mapIdx (fun h x => if s.hearthUp h then { x with trace := { x.trace with spillMib := n } } else x)
      glob := { s.glob with trc := c.traceCfg } }
    let u := t.armRings.settle
    u.finishOk c.id u.traceResult

/-- The effect of a TRACE_CONFIG. -/
def State.traceConfig (s : State) (c : Cmd) : State :=
  match c.par 0 1 with
  | 0 => s.traceArm c
  | 1 => let t := (s.fire (s.trigCauses 0) 0).settle; t.finishOk c.id t.traceResult
  | 2 => let t := s.stopRings.settle; t.finishOk c.id t.traceResult
  | _ => s.finishOk c.id s.traceResult

/-- TRACE_CONFIG. -/
def execTraceConfig (id : Nat) (s : State) : Out := s.order (.cmd id) 0x0810 traceConfigFields State.traceConfig

/-! ## TRACE_READ (R463) -/

/-- The 32 bytes of an entry. -/
def TraceEntry.bytes : TraceEntry → List Byte
  | .record typ flags allot index time acc data =>
    leBytes typ 1 ++ leBytes flags 1 ++ leBytes allot 2 ++ leBytes index 4 ++ leBytes time 8 ++ leBytes acc 8 ++ leBytes data 8
  | .gap dropped first => leBytes 0xFFFF 2 ++ leBytes 4 2 ++ leBytes dropped 4 ++ leBytes first 4 ++ zeros 20

def traceReadFields (s : State) (c : Cmd) : List Fld :=
  [c.ranged 0 1 0 1, c.ranged 1 1 0 1, s.destOk c 8 (c.par 0x10 8), ⟨0x10, 8, c.par 0x10 8 % 32 == 0⟩]

/-- TRACE_READ: oldest first, on from where the last read of the ring stopped. -/
def execTraceRead (id : Nat) (s : State) : Out :=
  s.deant id 0x0811 traceReadFields (fun t c =>
    let h := c.par 0 1
    let r := (t.he h).trace
    if r.state = .off ∨ r.state = .armed then t.reject id (.wrongState, 0)
    else
      let es := (r.entries.drop r.readPos).take (c.par 0x10 8 / 32)
      let left := r.entries.length - r.readPos - es.length
      t.withDest c 8 (es.flatMap TraceEntry.bytes) (fun v =>
        let u := v.modHe h (fun x => { x with trace := { x.trace with readPos := x.trace.readPos + es.length } })
        (if bitOf (c.par 1 1) 0 then u.armRings.settle else u).finishOk id (es.length + left * 2 ^ 32)))

/-! ## The offset table (R467) -/

/-- The round trip of an exchange. -/
def exchangeRtt (e : Exchange) : Int := ((e.t4 : Int) - e.t1) - ((e.t3 : Int) - e.t2)

/-- The exchange with the least round trip, the earliest on a tie. -/
def bestOf : List Exchange → Option Exchange
  | [] => none
  | e :: r => some (r.foldl (fun b x => if exchangeRtt x < exchangeRtt b then x else b) e)

/-- A measurement of one peer enters the table; false: the peer could not be reached. -/
def State.measure (s : State) (p : PeerTiming) : State × Bool :=
  let old := (look p.peer s.fab.offsets).getD {}
  match bestOf (p.exchanges.take 8) with
  | some e =>
    let rtt := (exchangeRtt e).toNat
    let n : OffsetEntry :=
      { offset := (((e.t2 : Int) - e.t1) + ((e.t3 : Int) - e.t4)) / 2, rtt := rtt, err := ceilDiv rtt 2, measured := e.t4,
        valid := true, stale := false, holdover := s.clk.holdover || p.holdover }
    ({ s with fab := { s.fab with offsets := put p.peer n s.fab.offsets } }, true)
  | none =>
    (if old.valid then { s with fab := { s.fab with offsets := put p.peer { old with stale := true } s.fab.offsets } } else s, false)

/-- An offset entry as it is laid out. -/
def OffsetEntry.bytes (e : OffsetEntry) : List Byte :=
  leBytes (wrapTo 64 e.offset) 8 ++ leBytes e.rtt 4 ++ leBytes e.err 4 ++ leBytes e.measured 8 ++
  leBytes (b2n e.valid + 2 * b2n e.stale + 4 * b2n e.holdover) 1 ++ zeros 7

def timeMeasureFields (s : State) (c : Cmd) : List Fld :=
  let act := c.par 0 1
  [c.ranged 0 1 0 2, ⟨2, 2, act == 2 || decide (c.par 2 2 < 16384)⟩, ⟨4, 2, act == 2 || inRange 1 16384 (c.par 4 2)⟩,
   ⟨8, 8, act != 1 || s.rawRefOk c.allot (c.par 8 8) (32 * c.par 4 2)⟩]

/-- The peers of a range whose route entry is valid. -/
def State.validPeers (s : State) (first n : Nat) : List Nat :=
  (s.fab.routes.filter (fun e => e.2.valid && decide (first ≤ e.1) && decide (e.1 < first + n))).map (·.1)

/-- ACTION 0: every valid entry of the range is measured. -/
def State.measureRange (s : State) (c : Cmd) (timing : List PeerTiming) : State :=
  let r := (s.validPeers (c.par 2 2) (c.par 4 2)).foldl (fun (acc : State × Nat × Nat) p =>
    let m := acc.1.measure ((timing.find? (fun t => t.peer == p)).getD { peer := p })
    (m.1, acc.2.1 + b2n m.2, acc.2.2 + b2n (!m.2))) (s, 0, 0)
  r.1.finishOk c.id (r.2.1 + r.2.2 * 2 ^ 32)

/-- ACTION 1 and 2: the entries, or HOLDOVER. -/
def State.timeRead (s : State) (c : Cmd) : State :=
  if c.par 0 1 = 1 then
    s.withDest c 8 ((List.range (c.par 4 2)).flatMap (fun i => ((look (c.par 2 2 + i) s.fab.offsets).getD {}).bytes)) (fun t => t.finishOk c.id 0)
  else s.finishOk c.id (b2n s.clk.holdover)

/-- TIME_MEASURE: ACTION 0 passes the arbiter. -/
def execTimeMeasure (id : Nat) (timing : List PeerTiming) (s : State) : Out :=
  match s.cmd? id with
  | none => .next s
  | some c =>
    if c.par 0 1 = 0 then s.order (.cmd id) 0x0820 timeMeasureFields (fun t d => t.measureRange d timing)
    else s.deant id 0x0820 timeMeasureFields State.timeRead

/-- OFFSET_MEASUREMENT: a path to a peer has become usable, or 60 s have passed for the partner. -/
def execOffsetMeasurement (timing : PeerTiming) (s : State) : Out :=
  match look timing.peer s.fab.routes with
  | some r => .next (if r.valid then (s.measure timing).1 else s)
  | none => .next s

end Sys2Proof.Machine
end

