-- ==== Sys2Proof/Machine/Num.lean ====
section
/-! DEFINITION. Exact binary numbers and their roundings: FP32 and bfloat16 arithmetic (R75, R109, R209 to R213), the
transcendental functions (R212), stochastic rounding (R98, R119) and the generator of draws (R216). -/

namespace Sys2Proof.Machine

/-- A number as the units carry it before rounding: NaN, an infinity, or (−1)^s · m · 2^e exactly. -/
inductive Fp where
  | nan (s : Bool)
  | inf (s : Bool)
  | fin (s : Bool) (m : Nat) (e : Int)
  deriving DecidableEq, Repr

def Fp.zero (s : Bool) : Fp := .fin s 0 0

def Fp.sign : Fp → Bool
  | .nan s => s
  | .inf s => s
  | .fin s _ _ => s

def Fp.isNan : Fp → Bool
  | .nan _ => true
  | .inf _ => false
  | .fin _ _ _ => false

def Fp.isInf : Fp → Bool
  | .inf _ => true
  | .nan _ => false
  | .fin _ _ _ => false

def Fp.isFin : Fp → Bool
  | .fin _ _ _ => true
  | .nan _ => false
  | .inf _ => false

def Fp.isZero : Fp → Bool
  | .fin _ m _ => m == 0
  | .nan _ => false
  | .inf _ => false

def Fp.neg : Fp → Fp
  | .nan s => .nan s
  | .inf s => .inf !s
  | .fin s m e => .fin (!s) m e

def Fp.abs : Fp → Fp
  | .nan _ => .nan false
  | .inf _ => .inf false
  | .fin _ m e => .fin false m e

/-- x · 2^k. -/
def Fp.scale (k : Int) : Fp → Fp
  | .nan s => .nan s
  | .inf s => .inf s
  | .fin s m e => .fin s m (e + k)

/-- An integer as a number. -/
def Fp.ofInt (v : Int) : Fp := .fin (decide (v < 0)) v.natAbs 0

/-- The integer of a magnitude m · 2^e at exponent q (q at most e). -/
def alignTo (m : Nat) (e q : Int) : Nat := m <<< (e - q).toNat

/-- A signed integer at exponent q. -/
def signedAt (s : Bool) (m : Nat) (e q : Int) : Int := if s then -(alignTo m e q : Int) else (alignTo m e q : Int)

/-- The exact sum. An exact zero sum of nonzero numbers or of zeros of both signs is +0. -/
def Fp.add : Fp → Fp → Fp
  | .nan _, _ => .nan false
  | _, .nan _ => .nan false
  | .inf s, .inf t => if s = t then .inf s else .nan false
  | .inf s, .fin _ _ _ => .inf s
  | .fin _ _ _, .inf t => .inf t
  | .fin s m e, .fin t n f =>
    let q := min e f
    let v := signedAt s m e q + signedAt t n f q
    if v = 0 then .fin (s && t && m == 0 && n == 0) 0 0 else .fin (decide (v < 0)) v.natAbs q

def Fp.sub (x y : Fp) : Fp := x.add y.neg

/-- The exact product. -/
def Fp.mul : Fp → Fp → Fp
  | .nan _, _ => .nan false
  | _, .nan _ => .nan false
  | .inf s, .inf t => .inf (s ^^ t)
  | .inf s, .fin t n _ => if n = 0 then .nan false else .inf (s ^^ t)
  | .fin s m _, .inf t => if m = 0 then .nan false else .inf (s ^^ t)
  | .fin s m e, .fin t n f => .fin (s ^^ t) (m * n) (e + f)

/-- |x| compared with |y| for finite magnitudes. -/
def magLt (m : Nat) (e : Int) (n : Nat) (f : Int) : Bool :=
  decide (alignTo m e (min e f) < alignTo n f (min e f))

/-- x < y; false when either is NaN. −0 equals +0. -/
def Fp.lt : Fp → Fp → Bool
  | .nan _, _ => false
  | _, .nan _ => false
  | .inf s, .inf t => s && !t
  | .inf s, .fin _ _ _ => s
  | .fin _ _ _, .inf t => !t
  | .fin s m e, .fin t n f => decide (signedAt s m e (min e f) < signedAt t n f (min e f))

/-- x = y in value; false when either is NaN. -/
def Fp.eqv (x y : Fp) : Bool := !x.isNan && !y.isNan && !x.lt y && !y.lt x

/-- floor(log2 |x|) of a nonzero magnitude. -/
def flog2 (m : Nat) (e : Int) : Int := (Nat.log2 m : Int) + e

/-! ## Rounding to a binary format -/

/-- A binary format: significand bits with the hidden bit, the exponent of the smallest normal number, and the largest
finite number as topM · 2^topE. -/
structure BinFmt where
  t : Nat
  emin : Int
  topM : Nat
  topE : Int
  deriving DecidableEq, Repr

def fmt32 : BinFmt := ⟨24, -126, 0xFFFFFF, 104⟩
def fmtB16 : BinFmt := ⟨8, -126, 0xFF, 120⟩

/-- The exponent of the unit in the last place at magnitude m · 2^e. -/
def BinFmt.quantum (f : BinFmt) (m : Nat) (e : Int) : Int :=
  if m = 0 then f.emin - f.t + 1 else max (flog2 m e) f.emin - f.t + 1

/-- n halves: m · 2^e rounded to a multiple of 2^q, to nearest with ties to even; the multiple. -/
def rne (m : Nat) (e q : Int) : Nat :=
  if q ≤ e then alignTo m e q
  else
    let sh := (q - e).toNat
    let n := m >>> sh
    let rem := m % 2 ^ sh
    let half := 2 ^ (sh - 1)
    if half < rem ∨ (rem = half ∧ n % 2 = 1) then n + 1 else n

/-- m · 2^e rounded stochastically to a multiple of 2^q with the 24-bit draw r (R98). -/
def stochRound (r m : Nat) (e q : Int) : Nat :=
  if q ≤ e then alignTo m e q
  else
    let sh := (q - e).toNat
    let n := m >>> sh
    let f := (m % 2 ^ sh) * 2 ^ 24 / 2 ^ sh
    if 2 ^ 24 ≤ f + r % 2 ^ 24 then n + 1 else n

/-- A magnitude beyond the largest finite one. -/
def BinFmt.beyond (f : BinFmt) (n : Nat) (q : Int) : Bool := magLt f.topM f.topE n q

/-- The bits of the magnitude n · 2^q, q the quantum of the format at that magnitude. -/
def BinFmt.bits (f : BinFmt) (n : Nat) (q : Int) : Nat := ((q - (f.emin - f.t + 1)).toNat <<< (f.t - 1)) + n

/-! ## FP32 -/

/-- The number that FP32 bits stand for. -/
def dec32 (w : W32) : Fp :=
  let v := w.toNat
  let s := v.testBit 31
  let e := bitsOf v 23 8
  let f := bitsOf v 0 23
  if e = 255 then (if f = 0 then .inf s else .nan s)
  else if e = 0 then .fin s f (-149)
  else .fin s (f + 2 ^ 23) ((e : Int) - 150)

def signBit (s : Bool) : Nat := if s then 2 ^ 31 else 0

/-- Bits of a finite magnitude with its sign, and whether it went beyond the largest finite number, rounded to nearest. -/
def round32 (s : Bool) (m : Nat) (e : Int) : Nat × Bool :=
  let q := fmt32.quantum m e
  let n := rne m e q
  if fmt32.beyond n q then (signBit s + 0x7F7FFFFF, true) else (signBit s + fmt32.bits n q, false)

/-- Rounding by IEEE 754: overflow gives infinity, a NaN is canonical (R209, R211). -/
def enc32 : Fp → W32
  | .nan _ => 0x7FC00000#32
  | .inf s => w32 (signBit s + 0x7F800000)
  | .fin s m e =>
    match round32 s m e with
    | (_, true) => w32 (signBit s + 0x7F800000)
    | (b, false) => w32 b

/-- Rounding that saturates a finite number at the largest finite one and tells when it did (R109). -/
def sat32 : Fp → W32 × Nat
  | .nan _ => (0x7FC00000#32, 0)
  | .inf s => (w32 (signBit s + 0x7F800000), 0)
  | .fin s m e =>
    match round32 s m e with
    | (b, true) => (w32 b, 1)
    | (b, false) => (w32 b, 0)

/-- Stochastic rounding of an exact number to FP32, saturating (R119). -/
def stoch32 (r : Nat) : Fp → W32 × Nat
  | .nan _ => (0x7FC00000#32, 0)
  | .inf s => (w32 (signBit s + 0x7F800000), 0)
  | .fin s m e =>
    if fmt32.beyond m e then (w32 (signBit s + 0x7F7FFFFF), 1)
    else
      let q := fmt32.quantum m e
      (w32 (signBit s + fmt32.bits (stochRound r m e q) q), 0)

def add32 (a b : W32) : W32 := enc32 ((dec32 a).add (dec32 b))
def sub32 (a b : W32) : W32 := enc32 ((dec32 a).sub (dec32 b))
def mul32 (a b : W32) : W32 := enc32 ((dec32 a).mul (dec32 b))
def fma32 (a b c : W32) : W32 := enc32 (((dec32 a).mul (dec32 b)).add (dec32 c))

/-- An accumulator addition (R109): its result and the count in ACC_SATURATED. -/
def accAdd (a b : W32) : W32 × Nat := sat32 ((dec32 a).add (dec32 b))

/-- The larger of two magnitudes as FP32 bits without sign. -/
def maxMag (a b : W32) : W32 := if a.toNat < b.toNat then b else a

/-- The running-maximum form of an input (R100): NaN is excluded, an infinity counts as the largest finite value. -/
def runMaxOf : Fp → W32
  | .nan _ => 0
  | .inf _ => 0x7F7FFFFF#32
  | .fin _ m e => w32 (round32 false m e).1

/-! ## bfloat16 -/

/-- The number that bfloat16 bits stand for. -/
def decB16 (v : Nat) : Fp := dec32 (w32 ((v % 2 ^ 16) * 2 ^ 16))

/-- Rounding to bfloat16 by IEEE 754 (R209, R211). -/
def encB16 : Fp → Nat
  | .nan _ => 0x7FC0
  | .inf s => (if s then 0x8000 else 0) + 0x7F80
  | .fin s m e =>
    let q := fmtB16.quantum m e
    let n := rne m e q
    (if s then 0x8000 else 0) + (if fmtB16.beyond n q then 0x7F80 else fmtB16.bits n q)

/-- Rounding to bfloat16 that saturates, and whether it did (R175, R185, R191). -/
def satB16 : Fp → Nat × Bool
  | .nan s => ((if s then 0x8000 else 0) + 0x7FC0, false)
  | .inf s => ((if s then 0x8000 else 0) + 0x7F7F, true)
  | .fin s m e =>
    let q := fmtB16.quantum m e
    let n := rne m e q
    if fmtB16.beyond n q then ((if s then 0x8000 else 0) + 0x7F7F, true)
    else ((if s then 0x8000 else 0) + fmtB16.bits n q, false)

/-! ## Flush to zero (R210) -/

/-- A subnormal FP32 word becomes zero with its sign. -/
def flush32 (ftz : Bool) (w : W32) : W32 :=
  if ftz ∧ bitsOf w.toNat 23 8 = 0 then w32 (w.toNat / 2 ^ 31 * 2 ^ 31) else w

/-- A subnormal bfloat16 becomes zero with its sign. -/
def flushB16 (ftz : Bool) (v : Nat) : Nat := if ftz ∧ bitsOf v 7 8 = 0 then v / 2 ^ 15 * 2 ^ 15 else v

/-! ## Integers -/

def int32 (w : W32) : Int := w.toInt

/-- An INT32 result, wrapping (R209). -/
def wrap32 (v : Int) : W32 := BitVec.ofInt 32 v

/-- An INT32 sum or product that saturates, and the count (R110). -/
def satI32 (v : Int) : W32 × Nat :=
  if v < -(2 ^ 31) then (0x80000000#32, 1) else if 2 ^ 31 - 1 < v then (0x7FFFFFFF#32, 1) else (BitVec.ofInt 32 v, 0)

/-! ## Two-sum (R121) -/

/-- The sum and its error; a sum that would overflow saturates with an error of +0, and with an infinite or NaN operand the
error is +0. The last part counts ACC_SATURATED. -/
def twoSum (s p : W32) : W32 × W32 × Nat :=
  let (t, k) := accAdd s p
  if k = 1 ∨ !(dec32 s).isFin ∨ !(dec32 p).isFin then (t, 0, k)
  else
    let bv := sub32 t s
    let av := sub32 t bv
    (t, add32 (sub32 s av) (sub32 p bv), 0)

/-! ## Transcendental functions (R212) -/

/-- The fixed point of the functions: 2^192 stands for 1. -/
def fixBits : Nat := 192

/-- The largest r with r · r ≤ n, by its bits from the top. -/
def isqrtFrom (n : Nat) : Nat → Nat → Nat
  | 0, r => r
  | k + 1, r => if (r + 2 ^ k) * (r + 2 ^ k) ≤ n then isqrtFrom n k (r + 2 ^ k) else isqrtFrom n k r

def isqrt (n : Nat) : Nat := isqrtFrom n (Nat.log2 n / 2 + 1) 0

/-- A magnitude known only from below: a sticky bit under it tells nearest rounding that it is not exact. -/
def sticky (s : Bool) (n : Nat) (e : Int) (exact : Bool) : Fp := .fin s (2 * n + (if exact then 0 else 1)) (e - 1)

/-- 2 · atanh(p / d) in fixed point, for p / d at most 1/3: 130 terms of its series. -/
def atanh2 (p d : Nat) : Nat :=
  let z := p * 2 ^ fixBits / d
  let z2 := z * z / 2 ^ fixBits
  2 * ((List.range 130).foldl (fun (a : Nat × Nat) k => (a.1 + a.2 / (2 * k + 1), a.2 * z2 / 2 ^ fixBits)) (0, z)).1

/-- ln 2 in fixed point. -/
def ln2Fix : Nat := atanh2 1 3

/-- ln of a positive number m · 2^e in fixed point, signed. -/
def lnFix (m : Nat) (e : Int) : Int :=
  let k := Nat.log2 m
  (flog2 m e) * (ln2Fix : Int) + (atanh2 (m - 2 ^ k) (m + 2 ^ k) : Int)

/-- A signed fixed-point number that is not exact. -/
def fixFp (v : Int) : Fp := sticky (decide (v < 0)) v.natAbs (-(fixBits : Int)) false

/-- exp of r in fixed point, for r from 0 to ln 2: 60 terms of its series. -/
def expFix (r : Nat) : Nat :=
  ((List.range 60).foldl (fun (a : Nat × Nat) k => (a.1 + a.2, a.2 * r / 2 ^ fixBits / (k + 1))) (0, 2 ^ fixBits)).1

/-- e to a fixed-point power v: 2^k · exp(r). -/
def expOf (v : Int) : Fp :=
  let k := v / (ln2Fix : Int)
  let r := (v % (ln2Fix : Int)).toNat
  sticky false (expFix r) (k - fixBits) false

/-- A finite number in fixed point, rounded down; its magnitude is below 2^10. -/
def toFix (s : Bool) (m : Nat) (e : Int) : Int :=
  let sh := e + fixBits
  let n : Nat := if 0 ≤ sh then m <<< sh.toNat else m >>> (-sh).toNat
  if s then -(n : Int) else n

def fpOne : Fp := .fin false 1 0

/-- EXP. -/
def fpExp : Fp → Fp
  | .nan _ => .nan false
  | .inf s => if s then .zero false else .inf false
  | .fin s m e =>
    if m = 0 then fpOne
    else if magLt 256 0 m e then (if s then .zero false else .inf false)
    else if flog2 m e < -100 then sticky s (if s then 2 ^ 64 - 1 else 2 ^ 64) (-64) false |>.abs
    else expOf (toFix s m e)

/-- EXP2: exact for an integer. -/
def fpExp2 : Fp → Fp
  | .nan _ => .nan false
  | .inf s => if s then .zero false else .inf false
  | .fin s m e =>
    if m = 0 then fpOne
    else if magLt 512 0 m e then (if s then .zero false else .inf false)
    else if flog2 m e < -100 then (sticky s (if s then 2 ^ 64 - 1 else 2 ^ 64) (-64) false).abs
    else
      let v := toFix s m e
      let k := v / (2 ^ fixBits : Int)
      let r := (v % (2 ^ fixBits : Int)).toNat
      if r = 0 then .fin false 1 k else sticky false (expFix (r * ln2Fix / 2 ^ fixBits)) (k - fixBits) false

/-- LOG. -/
def fpLog : Fp → Fp
  | .nan _ => .nan false
  | .inf s => if s then .nan false else .inf false
  | .fin s m e =>
    if m = 0 then .inf true
    else if s then .nan false
    else if Fp.eqv (.fin false m e) fpOne then .zero false
    else fixFp (lnFix m e)

/-- LOG2: exact for a power of two. -/
def fpLog2 : Fp → Fp
  | .nan _ => .nan false
  | .inf s => if s then .nan false else .inf false
  | .fin s m e =>
    if m = 0 then .inf true
    else if s then .nan false
    else if m = 2 ^ Nat.log2 m then Fp.ofInt (flog2 m e)
    else fixFp (lnFix m e * (2 ^ fixBits : Int) / (ln2Fix : Int))

/-- RCP. -/
def fpRcp : Fp → Fp
  | .nan _ => .nan false
  | .inf s => .zero s
  | .fin s m e =>
    if m = 0 then .inf s
    else
      let k := 64 + Nat.log2 m
      sticky s (2 ^ k / m) (-(k : Int) - e) (2 ^ k % m == 0)

/-- SQRT. -/
def fpSqrt : Fp → Fp
  | .nan _ => .nan false
  | .inf s => if s then .nan false else .inf false
  | .fin s m e =>
    if m = 0 then .zero s
    else if s then .nan false
    else
      let n := if e % 2 = 0 then m <<< 80 else m <<< 81
      let f := if e % 2 = 0 then e - 80 else e - 81
      let r := isqrt n
      sticky false r (f / 2) (r * r == n)

/-- RSQRT. -/
def fpRsqrt : Fp → Fp
  | .nan _ => .nan false
  | .inf s => if s then .nan false else .zero false
  | .fin s m e =>
    if m = 0 then .inf s
    else if s then .nan false
    else
      let m1 := if e % 2 = 0 then m else 2 * m
      let f := if e % 2 = 0 then e else e - 1
      let r := isqrt (2 ^ 160 / m1)
      sticky false r (-80 - f / 2) (r * r * m1 == 2 ^ 160)

/-! ## The generator (R216) -/

def w64mod : Nat := 2 ^ 64

/-- The mixing function of R216. -/
def mix (z : Nat) : Nat :=
  let a := ((z ^^^ (z >>> 31)) * 0x9C6A3F51D2B7E8A5) % w64mod
  let b := ((a ^^^ (a >>> 29)) * 0xD15E7A2C4B930F6B) % w64mod
  b ^^^ (b >>> 32)

/-- One draw of 32 bits for key k, stream s and counter c. -/
def draw (k s c : Nat) : Nat :=
  let k := k % w64mod
  let lo := c % w64mod
  let hi := c / w64mod % w64mod
  let a := mix (k ^^^ lo)
  let b := mix (a ^^^ hi ^^^ ((s % 2 ^ 32 * 0x9E3779B97F4A7C15) % w64mod))
  let rot := (k * 2 ^ 17 % w64mod) + k / 2 ^ 47
  mix (b ^^^ rot) % 2 ^ 32

end Sys2Proof.Machine
end

