-- ==== Sys2Proof/Machine/Formats.lean ====
section
/-! DEFINITION. Element formats, scales, the planes of a tensor and conversion with its statistics (R75 to R106, R135, R141,
R183, R191, R498). -/

namespace Sys2Proof.Machine

/-! ## Formats (R75, R77) -/

/-- Bits of an element. -/
def elemBits (fmt : Nat) : Nat :=
  match fmt with
  | 0 => 4
  | 1 => 4
  | 2 => 8
  | 3 => 8
  | 4 => 16
  | 5 => 16
  | 6 => 8
  | 7 => 4
  | _ => 32

def isIntFmt (fmt : Nat) : Bool := fmt == 6 || fmt == 7 || fmt == 9

/-- The format codes that name a format (R58). -/
def fmtOk (fmt : Nat) : Bool := decide (fmt ≤ 9)

/-- Formats of 4 bits that a master's working copy may take (R191, R192). -/
def isFourBit (fmt : Nat) : Bool := fmt == 0 || fmt == 1

/-- The binary shape of a floating-point format other than N4. -/
def binFmt (fmt : Nat) : BinFmt :=
  match fmt with
  | 0 => ⟨2, 0, 3, 1⟩
  | 2 => ⟨4, -6, 14, 5⟩
  | 3 => ⟨3, -14, 7, 13⟩
  | 4 => fmtB16
  | 5 => ⟨11, -14, 0x7FF, 5⟩
  | _ => fmt32

/-- The format has a code for NaN. -/
def hasNan (fmt : Nat) : Bool := decide (2 ≤ fmt) && decide (fmt ≤ 5) || fmt == 8

/-- The scale modes that R80 allows for a format. -/
def modeOk (fmt smode : Nat) : Bool :=
  match smode with
  | 0 => decide (2 ≤ fmt) && decide (fmt ≤ 9)
  | 1 => decide (1 ≤ fmt) && decide (fmt ≤ 3)
  | 2 => decide (fmt ≤ 3)
  | 3 => decide (fmt ≤ 3)
  | 4 => decide (1 ≤ fmt) && decide (fmt ≤ 3)
  | _ => false

/-! ## N4 grids (R83 to R85, R498) -/

/-- The default grid. -/
def defaultGrid : List Nat :=
  [0x00, 0x48, 0x50, 0x58, 0x5C, 0x60, 0x64, 0x68, 0x80, 0xC8, 0xD0, 0xD8, 0xDC, 0xE0, 0xE4, 0xE8]

/-- The grid of a tensor: an empty table is the default grid. -/
def gridOf (g : List Nat) : List Nat := if g = [] then defaultGrid else g

def gridLevel (g : List Nat) (s : Bool) (i : Nat) : Nat := gridMag ((gridOf g).getD (8 * b2n s + i) 0)

/-- The code of zero for sign s: the zero entry of its own sign, else of the other sign (R498). -/
def gridZero (g : List Nat) (s : Bool) : Option Nat :=
  if gridLevel g s 0 = 0 then some (8 * b2n s) else if gridLevel g (!s) 0 = 0 then some (8 * b2n (!s)) else none

/-! ## Decoding -/

/-- Two's complement codes. -/
def decInt (fmt code : Nat) : Int := signedOf (elemBits fmt) code

/-- The number of a code without its scale; N4 through its grid. -/
def decCode (fmt : Nat) (grid : List Nat) (code : Nat) : Fp :=
  match fmt with
  | 0 =>
    let e := bitsOf code 1 2
    let m := bitsOf code 0 1
    if e = 0 then .fin (bitOf code 3) m (-1) else .fin (bitOf code 3) (2 + m) ((e : Int) - 2)
  | 1 => .fin (bitOf code 3) (gridLevel grid (bitOf code 3) (bitsOf code 0 3)) (-13)
  | 2 =>
    let e := bitsOf code 3 4
    let m := bitsOf code 0 3
    if e = 15 ∧ m = 7 then .nan (bitOf code 7)
    else if e = 0 then .fin (bitOf code 7) m (-9) else .fin (bitOf code 7) (8 + m) ((e : Int) - 10)
  | 3 =>
    let e := bitsOf code 2 5
    let m := bitsOf code 0 2
    if e = 31 then (if m = 0 then .inf (bitOf code 7) else .nan (bitOf code 7))
    else if e = 0 then .fin (bitOf code 7) m (-16) else .fin (bitOf code 7) (4 + m) ((e : Int) - 17)
  | 4 => decB16 code
  | 5 =>
    let e := bitsOf code 10 5
    let m := bitsOf code 0 10
    if e = 31 then (if m = 0 then .inf (bitOf code 15) else .nan (bitOf code 15))
    else if e = 0 then .fin (bitOf code 15) m (-24) else .fin (bitOf code 15) (1024 + m) ((e : Int) - 25)
  | 8 => dec32 (w32 code)
  | _ => Fp.ofInt (decInt fmt code)

/-- A code with its scale code (R87, R88). -/
def decScaled (fmt : Nat) (grid : List Nat) (scale code : Nat) : Fp :=
  if scale = 255 then .nan false else (decCode fmt grid code).scale ((scale : Int) - 127)

/-! ## Encoding one element (R94 to R98, R498) -/

/-- How an element came out: exact or rounded, saturated, flushed to zero, or NaN. -/
inductive Hit where
  | plain
  | sat
  | zero
  | nan
  deriving DecidableEq, Repr

/-- The converter's fields: non-saturating, and the 24-bit draw of an element in stochastic mode. -/
structure Rnd where
  nonsat : Bool := false
  draw : Option Nat := none
  deriving DecidableEq, Repr

/-- The sign of a code in its place. -/
def codeSign (fmt : Nat) (s : Bool) : Nat := if s then 2 ^ (elemBits fmt - 1) else 0

/-- The code of the largest finite magnitude. -/
def topCode (fmt : Nat) (s : Bool) : Nat :=
  codeSign fmt s + (match fmt with
    | 0 => 7
    | 1 => 7
    | 2 => 0x7E
    | 3 => 0x7B
    | 4 => 0x7F7F
    | 5 => 0x7BFF
    | _ => 0x7F7FFFFF)

/-- The code of an infinity, NaN in E4M3 (R96, R97). -/
def infCode (fmt : Nat) (s : Bool) : Nat :=
  codeSign fmt s + (match fmt with
    | 2 => 0x7F
    | 3 => 0x7C
    | 4 => 0x7F80
    | 5 => 0x7C00
    | _ => 0x7F800000)

/-- The canonical NaN (R97). -/
def nanCode (fmt : Nat) (s : Bool) : Nat :=
  codeSign fmt s + (match fmt with
    | 2 => 0x7F
    | 3 => 0x7E
    | 4 => 0x7FC0
    | 5 => 0x7E00
    | _ => 0x7FC00000)

/-- A value that saturates: the largest finite code, or the code of R96. -/
def overCode (fmt : Nat) (r : Rnd) (s : Bool) : Nat := if r.nonsat ∧ hasNan fmt then infCode fmt s else topCode fmt s

/-- A finite scaled value into a floating-point format other than N4. -/
def encBin (fmt : Nat) (r : Rnd) (s : Bool) (m : Nat) (e : Int) : Nat × Hit :=
  let f := binFmt fmt
  let q := f.quantum m e
  let n := match r.draw with
    | none => rne m e q
    | some d => stochRound d m e q
  let ovf := match r.draw with
    | none => f.beyond n q
    | some _ => f.beyond m e
  if ovf then (overCode fmt r s, .sat)
  else (codeSign fmt s + f.bits n q, if n = 0 ∧ m ≠ 0 then .zero else .plain)

/-- Zero, or a value that rounds to zero, in N4: the level index 0 of its own sign where the grid has no zero. -/
def n4Zero (g : List Nat) (s : Bool) : Nat := (gridZero g s).getD (8 * b2n s)

/-- The index of the highest level of sign s that is at most v (in units of 2^−13 · 2^k, v scaled likewise). -/
def n4Below (g : List Nat) (s : Bool) (k v : Nat) : Option Nat :=
  ((List.range 8).reverse).find? (fun i => decide (gridLevel g s i * 2 ^ k ≤ v))

/-- A finite scaled value into N4 (R94, R95, R98, R498). -/
def encN4 (g : List Nat) (r : Rnd) (s : Bool) (m : Nat) (e : Int) : Nat × Hit :=
  if m = 0 then (n4Zero g s, .plain)
  else
    -- both sides in units of 2^(min e −13)
    let q := min e (-13)
    let v := alignTo m e q
    let k := (-13 - q).toNat
    let lv (i : Nat) : Nat := gridLevel g s i * 2 ^ k
    let top := lv 7
    let sat : Nat × Hit := (8 * b2n s + 7, .sat)
    if r.draw.isSome ∧ top < v then sat
    else if 2 * top + (top - lv 6) ≤ 2 * v then sat
    else if top ≤ v then (8 * b2n s + 7, .plain)
    else match n4Below g s k v with
      | none =>
        -- below level index 0, which is not zero
        match gridZero g s with
        | none => (8 * b2n s, .plain)
        | some z =>
          let up := match r.draw with
            | none => decide (lv 0 < 2 * v)
            | some d => decide (2 ^ 24 ≤ v * 2 ^ 24 / lv 0 + d % 2 ^ 24)
          if up then (8 * b2n s, .plain) else (z, .zero)
      | some i =>
        let a := lv i
        let b := lv (i + 1)
        let up := match r.draw with
          | none => decide (b + a < 2 * v) || (decide (2 * v = b + a) && i % 2 == 1)
          | some d => decide (2 ^ 24 ≤ (v - a) * 2 ^ 24 / (b - a) + d % 2 ^ 24)
        let j := if up then i + 1 else i
        if lv j = 0 then (n4Zero g s, .zero) else (8 * b2n s + j, .plain)

/-- An integer target (R95, R97, R124): ties to even from a floating-point value. -/
def encInt (fmt : Nat) (x : Fp) : Nat × Hit :=
  let n := elemBits fmt
  let lo : Int := -(2 ^ (n - 1) : Int)
  let hi : Int := 2 ^ (n - 1) - 1
  match x with
  | .nan _ => (0, .nan)
  | .inf s => (wrapTo n (if s then lo else hi), .sat)
  | .fin s m e =>
    let k := rne m e 0
    let v : Int := if s then -(k : Int) else k
    if v < lo then (wrapTo n lo, .sat) else if hi < v then (wrapTo n hi, .sat)
    else (wrapTo n v, if k = 0 ∧ m ≠ 0 then .zero else .plain)

/-- The code of a scaled value. -/
def encCode (fmt : Nat) (g : List Nat) (r : Rnd) (v : Fp) : Nat × Hit :=
  if isIntFmt fmt then encInt fmt v
  else match v with
    | .nan s => (if hasNan fmt then nanCode fmt s else n4Zero g false, .nan)
    | .inf s =>
      if fmt = 8 then (infCode 8 s, .plain)
      else if r.nonsat ∧ hasNan fmt then (infCode fmt s, if fmt = 2 then .sat else .plain)
      else (topCode fmt s, .sat)
    | .fin s m e =>
      if fmt = 8 then ((enc32 (.fin s m e)).toNat, .plain)
      else if fmt = 1 then encN4 g r s m e
      else encBin fmt r s m e

/-! ## Scale choice (R92) -/

/-- The largest finite magnitude of a format for a sign, as m · 2^e. -/
def gMax (fmt : Nat) (g : List Nat) (s : Bool) : Nat × Int :=
  if fmt = 1 then (gridLevel g s 7, -13) else ((binFmt fmt).topM, (binFmt fmt).topE)

/-- The smallest integer k with m · 2^e ≤ gm · 2^ge · 2^k. -/
def leastExp (m : Nat) (e : Int) (gm : Nat) (ge : Int) : Int :=
  let k := flog2 m e - flog2 gm ge
  if magLt gm (ge + k) m e then k + 1 else k

/-- The exponent that a value needs; none for zero and for values outside the choice. -/
def needExp (fmt : Nat) (g : List Nat) : Fp → Option Int
  | .fin s m e => if m = 0 then none else some (leastExp m e (gMax fmt g s).1 (gMax fmt g s).2)
  | .nan _ => none
  | .inf _ => none

/-- The unclamped exponent of a block; none when every kept value is zero. -/
def blockExp (fmt : Nat) (g : List Nat) (xs : List Fp) : Option Int :=
  (xs.filterMap (needExp fmt g)).foldl (fun a k => match a with
    | none => some k
    | some j => some (max j k)) none

def clampExp (e : Int) : Int := max (-127) (min 127 e)

/-- The E8M0 code of 2^floor(log2 x), 0x00 for zero or below 2^−127 (R100, R171). -/
def e8m0Of (m : Nat) (e : Int) : Nat := if m = 0 then 0 else (max 0 (min 254 (flog2 m e + 127))).toNat

/-- The E8M0 code of a running maximum. -/
def e8m0Of32 (w : W32) : Nat :=
  match dec32 w with
  | .fin _ m e => e8m0Of m e
  | .nan _ => 255
  | .inf _ => 254

/-! ## Conversion of one block (R91) -/

/-- An input of a conversion: padding, an element of a spilled channel (R175), or a value. -/
inductive CvIn where
  | pad
  | spilled
  | val (x : Fp)
  deriving DecidableEq, Repr

/-- The value spillway of a block: V_PER_BLOCK, V_GAP and the free entries of its reach (R183). -/
structure ValSpill where
  perBlock : Nat
  gap : Nat
  free : Nat
  deriving DecidableEq, Repr

/-- A conversion target: format, grid, the scale the conversion is given (none: it chooses one per block), the object's
block mode, rounding, and the value spillway where it is on. -/
structure CvSpec where
  fmt : Nat
  grid : List Nat := []
  given : Option Nat := none
  block : Bool := false
  nonsat : Bool := false
  spill : Option ValSpill := none
  deriving DecidableEq, Repr

/-- What the conversion of a block gives. -/
structure CvOut where
  codes : List Nat
  scale : Nat
  marker : Bool := false
  flag : Nat := 0
  blkmax : Nat := 0
  stats : SlotStats := {}
  /-- lifted values: index in the block and the bfloat16 value (R185) -/
  lifted : List (Nat × Nat) := []
  ovf : Bool := false
  /-- indices of the saturated elements -/
  sats : List Nat := []
  deriving DecidableEq, Repr

def CvIn.fp : CvIn → Option Fp
  | .val x => some x
  | .pad => none
  | .spilled => none

/-- The finite values of a block with their indices. -/
def finiteOf (xs : List CvIn) : List (Nat × Fp) :=
  (xs.zipIdx).filterMap (fun e => match e.1 with
    | .val x => if x.isFin then some (e.2, x) else none
    | .pad => none
    | .spilled => none)

/-- |x| < |y| for finite numbers. -/
def absLt (x y : Fp) : Bool := x.abs.lt y.abs

/-- The entry of largest magnitude, lowest index on a tie. -/
def largestOf : List (Nat × Fp) → Option (Nat × Fp)
  | [] => none
  | e :: r => some (r.foldl (fun b x => if absLt b.2 x.2 then x else b) e)

/-- Candidates of the block modes (R183). -/
def pickBlock (fmt : Nat) (g : List Nat) (gap : Nat) : Nat → List (Nat × Fp) → List Nat
  | 0, _ => []
  | n + 1, rest =>
    match largestOf rest with
    | none => []
    | some a =>
      let w := rest.filter (fun e => e.1 != a.1)
      let ex (l : List (Nat × Fp)) : Int := match blockExp fmt g (l.map (·.2)) with
        | some k => clampExp k
        | none => -127
      if ex rest - ex w < gap then [] else a.1 :: pickBlock fmt g gap n w

/-- Insert into a list of falling magnitude, index rising. -/
def insertFalling (x : Nat × Fp) : List (Nat × Fp) → List (Nat × Fp)
  | [] => [x]
  | y :: r => if absLt y.2 x.2 then x :: y :: r else y :: insertFalling x r

/-- The value saturates at this scale: |x| > T · 2^e (R95). -/
def wouldSat (fmt : Nat) (g : List Nat) (e : Int) (x : Fp) : Bool :=
  match x with
  | .fin s m f =>
    if fmt = 1 then
      let t := 3 * gridLevel g s 7 - gridLevel g s 6
      magLt t (-14 + e) m f
    else
      let b := binFmt fmt
      magLt (2 * b.topM + 1) (b.topE - 1 + e) m f
  | .nan _ => false
  | .inf _ => false

/-- Candidates under a supplied scale (R183). -/
def pickGiven (fmt : Nat) (g : List Nat) (e : Int) (fin : List (Nat × Fp)) : List Nat :=
  ((fin.filter (fun x => wouldSat fmt g e x.2)).foldl (fun a x => insertFalling x a) []).map (·.1)

def pickCands (sp : CvSpec) (fin : List (Nat × Fp)) : List Nat :=
  match sp.spill with
  | none => []
  | some v => match sp.given with
    | none => if sp.block then pickBlock sp.fmt sp.grid v.gap v.perBlock fin else pickGiven sp.fmt sp.grid 0 fin
    | some 255 => []
    | some c => pickGiven sp.fmt sp.grid ((c : Int) - 127) fin

/-- floor(log2 g_max) of a target (R135): of N4 the larger of the two signs; of an integer format the largest positive
number of R75's table, 2^(n−1) − 1. DEDUCED (log 53). -/
def topLog (fmt : Nat) (g : List Nat) : Int :=
  if fmt = 1 then flog2 (max (gridLevel g false 7) (gridLevel g true 7)) (-13)
  else if isIntFmt fmt then elemBits fmt - 2
  else flog2 (binFmt fmt).topM (binFmt fmt).topE

/-- The histogram bin of a finite nonzero scaled magnitude (R135). -/
def histBin (fmt : Nat) (g : List Nat) (m : Nat) (e : Int) : Nat :=
  let top := topLog fmt g
  (max 0 (min 31 (top - flog2 m e))).toNat

def bumpHist (h : List Nat) (i : Nat) : List Nat := modAt i (fun n => satTo (2 ^ 32 - 1) (n + 1)) h

/-- The smaller over the signs of the largest level of a grid, as an entry byte without sign (R142). -/
def gridMaxByte (g : List Nat) : Nat :=
  let a := (gridOf g).getD 7 0 % 128
  let b := (gridOf g).getD 15 0 % 128
  min a b

/-- The statistics of a block before its elements are counted. -/
def blockStats (fmt : Nat) (grid : List Nat) (xs : List Fp) : SlotStats :=
  { runMax := xs.foldl (fun m x => maxMag m (runMaxOf x)) 0
    fmt := some fmt
    convBlocks := 1
    nonzeroIn := (xs.filter (fun x => x.isFin && !x.isZero)).length
    nanIn := (xs.filter (·.isNan)).length
    gridMax := if fmt = 1 then some (gridMaxByte grid) else none }

/-- One element enters the counts: its scaled value, its code's value and how it came out. -/
def SlotStats.element (st : SlotStats) (fmt : Nat) (g : List Nat) (scaled : Fp) (nzCode : Bool) (h : Hit) (hist : Bool) : SlotStats :=
  if h = .nan then st
  else
    let s1 := { st with
      convElems := st.convElems + 1
      nzCodes := st.nzCodes + b2n nzCode
      saturated := st.saturated + b2n (decide (h = .sat))
      zeroed := st.zeroed + b2n (decide (h = .zero)) }
    if !hist then s1
    else match scaled with
      | .inf _ => { s1 with hist := bumpHist s1.hist 0 }
      | .fin _ m e => if m = 0 then s1 else { s1 with hist := bumpHist s1.hist (histBin fmt g m e) }
      | .nan _ => s1

/-- A block of padding and spilled elements only (R105). -/
def padBlock (sp : CvSpec) (n : Nat) : CvOut :=
  { codes := List.replicate n 0, scale := if sp.block then 0 else sp.given.getD 127, marker := sp.block,
    flag := if sp.block then 4 else 0 }

/-- The code +0 written into a slot whose value is carried elsewhere or lost. -/
def slotZero (fmt : Nat) (g : List Nat) : Nat := if fmt = 1 then n4Zero g false else 0

/-- What a conversion keeps while it walks the elements of a block. -/
structure CvAcc where
  codes : List Nat := []
  stats : SlotStats
  lifted : List (Nat × Nat) := []
  ovf : Bool := false
  sats : List Nat := []
  allZero : Bool := true
  deriving DecidableEq, Repr

/-- A value is lifted: its slot holds +0, and the entry its bfloat16 (R93, R135, R185, R186). -/
def CvAcc.lift (a : CvAcc) (sp : CvSpec) (sc : Nat) (v : Fp) (i : Nat) : CvAcc :=
  let b := satB16 v
  { a with codes := a.codes ++ [slotZero sp.fmt sp.grid], lifted := a.lifted ++ [(i, b.1)]
           stats := { a.stats.element sp.fmt sp.grid (v.scale (127 - (sc : Int))) (b.1 % 2 ^ 15 != 0) .plain true with
             spillUsed := a.stats.spillUsed + 1 } }

/-- The code of zero with the sign of an input. -/
def signedZero (fmt : Nat) (g : List Nat) (s : Bool) : Nat := if fmt = 1 then n4Zero g s else codeSign fmt s

/-- One element of an all-zero block (R91's pseudocode, R102): zero with the sign of the input. An infinity that the scale
choice left out becomes a finite code, so it counts as saturated (R97). DEDUCED (log 52). -/
def zeroElement (sp : CvSpec) (lift : List Nat) (a : CvAcc) (x : CvIn × Nat) : CvAcc :=
  match x.1 with
  | .pad => { a with codes := a.codes ++ [slotZero sp.fmt sp.grid] }
  | .spilled => { a with codes := a.codes ++ [slotZero sp.fmt sp.grid] }
  | .val v =>
    if lift.contains x.2 then a.lift sp 0 v x.2
    else
      let c := signedZero sp.fmt sp.grid v.sign
      let h : Hit := match v with
        | .nan _ => .nan
        | .inf _ => .sat
        | .fin _ _ _ => .plain
      { a with codes := a.codes ++ [c], sats := if h = .sat then a.sats ++ [x.2] else a.sats
               stats := a.stats.element sp.fmt sp.grid v (!(decCode sp.fmt sp.grid c).isZero) h true }

/-- One element of a block at scale exponent e; draws gives the 24-bit draw of each index in stochastic mode. Under a NaN λ
(scale 0xFF) a NaN input counts in NAN_IN alone, R97 against R141: DESIGN CHOICE (log 57). -/
def cvElement (sp : CvSpec) (sc : Nat) (draws : Nat → Option Nat) (lift ovf : List Nat) (a : CvAcc) (x : CvIn × Nat) : CvAcc :=
  let z := slotZero sp.fmt sp.grid
  match x.1 with
  | .pad => { a with codes := a.codes ++ [z] }
  | .spilled => { a with codes := a.codes ++ [z] }
  | .val v =>
    let scaled := v.scale (127 - (sc : Int))
    if sc = 255 then
      let h : Hit := if v.isNan then .nan else .plain
      { a with codes := a.codes ++ [z], stats := a.stats.element sp.fmt sp.grid scaled false h false }
    else if lift.contains x.2 then a.lift sp sc v x.2
    else if ovf.contains x.2 then
      { a with codes := a.codes ++ [topCode sp.fmt v.sign], ovf := true, allZero := false
               stats := { a.stats.element sp.fmt sp.grid scaled true .sat true with
                 spillOver := a.stats.spillOver + 1 } }
    else
      let r := encCode sp.fmt sp.grid { nonsat := sp.nonsat, draw := draws x.2 } scaled
      let nz := !(decCode sp.fmt sp.grid r.1).isZero
      { a with codes := a.codes ++ [r.1], allZero := a.allZero && !nz
               sats := if r.2 = .sat then a.sats ++ [x.2] else a.sats
               stats := a.stats.element sp.fmt sp.grid scaled nz r.2 true }

/-- A block whose format has no NaN code and that holds a NaN, in a block mode (R97). R91's pseudocode stops after NAN_IN:
no infinity counts as saturated and no finite input as zeroed there. DESIGN CHOICE (log 51). -/
def nanBlock (sp : CvSpec) (xs : List CvIn) (vs : List Fp) (st : SlotStats) (blkmax : Nat) : CvOut :=
  { codes := xs.map (fun _ => slotZero sp.fmt sp.grid), scale := 255, flag := 0x40, blkmax := blkmax
    stats := { st with convElems := (vs.filter (fun v => !v.isNan)).length } }

/-- The conversion of one block, or of one 32-element unit in the other modes (R91 to R104, R183 to R186). -/
def convertBlock (sp : CvSpec) (draws : Nat → Option Nat) (xs : List CvIn) : CvOut :=
  let vs := xs.filterMap CvIn.fp
  if vs = [] then padBlock sp xs.length
  else
    let st := blockStats sp.fmt sp.grid vs
    let hasN := vs.any (·.isNan)
    let blkmax := if hasN then 255 else e8m0Of32 st.runMax
    if sp.block ∧ hasN ∧ hasNan sp.fmt = false then nanBlock sp xs vs st blkmax
    else
      let fin := finiteOf xs
      let cands := pickCands sp fin
      let room := match sp.spill with
        | some v => min v.perBlock v.free
        | none => 0
      let lift := cands.take room
      let ovf := cands.drop room
      let kept := (fin.filter (fun e => !cands.contains e.1)).map (·.2)
      let chosen := sp.block && sp.given.isNone
      let ex := if chosen then blockExp sp.fmt sp.grid kept else none
      let clamped := match ex with
        | some k => decide (clampExp k ≠ k)
        | none => false
      let zeroBlock := sp.block && sp.given != some 255 && kept.all (·.isZero)
      let stop := zeroBlock && ovf == []
      let sc : Nat := if stop then 0 else match sp.given with
        | some c => c
        | none => if sp.block then (match ex with
            | some k => (clampExp k + 127).toNat
            | none => 0) else 127
      let acc := (xs.zipIdx).foldl (if stop then zeroElement sp lift else cvElement sp sc draws lift ovf) { stats := st }
      let marker := sp.block && sc != 255 && (acc.allZero || stop)
      let satAny := decide (0 < acc.stats.saturated)
      let lowClamp := clamped && sc == 0
      let swamped := chosen && ex.isSome && !lowClamp && decide (0 < acc.stats.zeroed)
      { codes := acc.codes, scale := sc, marker := marker, blkmax := blkmax, lifted := acc.lifted, ovf := acc.ovf
        sats := acc.sats
        flag := b2n satAny + 2 * b2n (decide (0 < acc.stats.zeroed)) + 4 * b2n marker + 8 * b2n swamped +
          16 * b2n (acc.lifted != []) + 32 * b2n acc.ovf + 64 * b2n hasN + 128 * b2n clamped
        stats := { acc.stats with
          satBlocks := b2n satAny, zeroBlocks := b2n zeroBlock, swampedBlocks := b2n swamped } }

/-! ## Adding statistics (R132, R135) -/

def addHist (a b : List Nat) : List Nat := (a.zip b).map (fun e => satTo (2 ^ 32 - 1) (e.1 + e.2))

/-- Counts add and maxima take the larger. -/
def SlotStats.add (a b : SlotStats) : SlotStats :=
  { runMax := maxMag a.runMax b.runMax, scale := a.scale, fmt := b.fmt.orElse (fun _ => a.fmt)
    convElems := a.convElems + b.convElems, nonzeroIn := a.nonzeroIn + b.nonzeroIn, nzCodes := a.nzCodes + b.nzCodes
    saturated := a.saturated + b.saturated, zeroed := a.zeroed + b.zeroed, nanIn := a.nanIn + b.nanIn
    convBlocks := a.convBlocks + b.convBlocks, satBlocks := a.satBlocks + b.satBlocks
    zeroBlocks := a.zeroBlocks + b.zeroBlocks, swampedBlocks := a.swampedBlocks + b.swampedBlocks
    spillUsed := a.spillUsed + b.spillUsed, spillOver := a.spillOver + b.spillOver
    hist := addHist a.hist b.hist
    gridMax := match a.gridMax, b.gridMax with
      | some x, some y => some (min x y)
      | none, y => y
      | x, none => x }

/-! ## Planes of a tensor (R79, R253) -/

/-- 32-element units of a stored row. -/
def Tensor.units (t : Tensor) : Nat := ceilDiv t.rowLen 32

/-- Bytes of a 32-element unit. -/
def unitBytes (fmt : Nat) : Nat := 4 * elemBits fmt

def Tensor.elemBytes (t : Tensor) : Nat := t.rows * t.units * unitBytes t.fmt

/-- Elements of a block: 16 in BLOCK16, else 32. -/
def blockLen (smode : Nat) : Nat := if smode = 3 then 16 else 32

def isBlock (smode : Nat) : Bool := smode == 2 || smode == 3

/-- Blocks of a tensor; in every mode the 32-element units count as blocks. -/
def Tensor.blocks (t : Tensor) : Nat := t.rows * t.units * (32 / blockLen t.smode)

def Tensor.scaleBytes (t : Tensor) : Nat := if isBlock t.smode then t.blocks else if t.smode = 4 then t.rows else 0
def Tensor.markBytes (t : Tensor) : Nat := if isBlock t.smode then ceilDiv t.blocks 8 else 0
def Tensor.maxBytes (t : Tensor) : Nat := if t.blkmax then t.blocks else 0

def Tensor.scaleOff (t : Tensor) : Nat := roundUp t.elemBytes 64
def Tensor.markOff (t : Tensor) : Nat := t.scaleOff + roundUp t.scaleBytes 64
def Tensor.maxOff (t : Tensor) : Nat := t.markOff + roundUp t.markBytes 64

/-- The size of a tensor: the sum of its padded planes. -/
def Tensor.size (t : Tensor) : Nat := t.maxOff + roundUp t.maxBytes 64

/-- Elements of the element plane, padding included. -/
def Tensor.elems (t : Tensor) : Nat := t.rows * t.units * 32

/-- The code of element i of the element plane (R77). -/
def Tensor.code (t : Tensor) (i : Nat) : Nat :=
  let b := elemBits t.fmt
  if b = 4 then bitsOf (cellGet t.data (i / 2)).toNat (4 * (i % 2)) 4
  else leNat (cellRead t.data (i * (b / 8)) (b / 8))

/-- The scale code of element i. -/
def Tensor.scaleAt (t : Tensor) (i : Nat) : Nat :=
  match t.smode with
  | 1 => t.tscale
  | 2 => (cellGet t.data (t.scaleOff + i / 32)).toNat
  | 3 => (cellGet t.data (t.scaleOff + i / 16)).toNat
  | 4 => (cellGet t.data (t.scaleOff + i / (32 * t.units))).toNat
  | _ => 127

/-- The zero marker of the block of element i. -/
def Tensor.marked (t : Tensor) (i : Nat) : Bool :=
  isBlock t.smode && (let b := i / blockLen t.smode
    (cellGet t.data (t.markOff + b / 8)).toNat.testBit (b % 8))

/-- Element i as a number, with its scale and its zero marker (R106), without lifted or spilled values. -/
def Tensor.narrow (t : Tensor) (i : Nat) : Fp :=
  if t.marked i then .zero false else decScaled t.fmt t.grid (t.scaleAt i) (t.code i)

/-- The code of an element written into the bytes of the element plane: offset and byte. -/
def codeBytes (fmt code : Nat) (i : Nat) (old : Byte) : Nat × List Byte :=
  let b := elemBits fmt
  if b = 4 then
    let o := old.toNat
    let v := if i % 2 = 0 then o / 16 * 16 + code else o % 16 + 16 * code
    (i / 2, [BitVec.ofNat 8 v])
  else (i * (b / 8), leBytes code (b / 8))

/-- Two 4-bit codes share a byte, the even element in the low half. -/
def packNibbles : List Nat → List Byte
  | [] => []
  | [a] => [BitVec.ofNat 8 a]
  | a :: b :: r => BitVec.ofNat 8 (a + 16 * b) :: packNibbles r

/-- The bytes of consecutive codes that start at an even element. -/
def packCodes (fmt : Nat) (cs : List Nat) : List Byte :=
  if elemBits fmt = 4 then packNibbles cs else cs.flatMap (fun c => leBytes c (elemBits fmt / 8))

end Sys2Proof.Machine
end

