-- ==== Sys2Proof/Machine/Tensors.lean ====
section
/-! DEFINITION. Tensors in objects: element-wise decode with lifted and spilled values, and conversion into a region of a
tensor with its side records and flag map (R79, R82, R114, R143, R170, R174 to R176, R184 to R187, R190). -/

namespace Sys2Proof.Machine

/-! ## Places in a tensor -/

/-- The stored row and the column of element i. -/
def Tensor.rowOf (t : Tensor) (i : Nat) : Nat := i / (32 * t.units)
def Tensor.colOf (t : Tensor) (i : Nat) : Nat := i % (32 * t.units)

/-- Block columns per row, of 16 elements in BLOCK16 and of 32 otherwise (R182, R184). -/
def Tensor.blockCols (t : Tensor) : Nat := t.units * (32 / blockLen t.smode)

/-- The reach of a block column at a row (R184). -/
def Tensor.reach (t : Tensor) (row bcol : Nat) : Nat := row / 64 * t.blockCols + bcol

/-! ## Value side entries (R185) -/

/-- A valid entry: row within the reach, element within the block, bfloat16 value. -/
structure LiftEntry where
  row : Nat
  elem : Nat
  value : Nat
  deriving DecidableEq, Repr

/-- The valid entries of a reach. -/
def Obj.liftEntries (side : Obj) (quota reach : Nat) : List LiftEntry :=
  (List.range quota).filterMap (fun i =>
    let w := side.field ((reach * quota + i) * 4) 4
    if bitOf w 27 then some ⟨bitsOf w 21 6, bitsOf w 16 5, bitsOf w 0 16⟩ else none)

def LiftEntry.word (e : LiftEntry) : Nat := e.value + e.elem * 2 ^ 16 + e.row * 2 ^ 21 + 2 ^ 27

/-- The entries of a reach written back, sorted by row and element, the unused ones with VALID 0. -/
def Obj.putEntries (side : Obj) (quota reach : Nat) (es : List LiftEntry) : Obj :=
  let ws := (sortBy (fun e => (e.row, e.elem)) es).map (fun e => leBytes e.word 4)
  side.write (reach * quota * 4) (padTo (4 * quota) ws.flatten)

/-- The lifted value at element i of a value-bound tensor. -/
def liftedAt (t : Tensor) (side : Obj) (quota i : Nat) : Option Fp :=
  let row := t.rowOf i
  let b := blockLen t.smode
  let col := t.colOf i
  ((side.liftEntries quota (t.reach row (col / b))).find? (fun e => e.row == row % 64 && e.elem == col % b)).map
    (fun e => decB16 e.value)

/-! ## Channel side records (R170, R174) -/

/-- The window and the index in it of a channel. -/
def chanOf (t : Tensor) (axis i : Nat) : Nat := if axis = 0 then t.colOf i else t.rowOf i

/-- The offset of the record of element i. -/
def chanRecord (t : Tensor) (axis i : Nat) : Nat :=
  if axis = 0 then (t.rowOf i * ceilDiv t.rowLen 256 + t.colOf i / 256) * 24
  else t.rowOf i / 256 * (64 + 16 * (32 * t.units))

/-- Where the IDX bytes of a record lie. -/
def chanIdxOff (axis rcd : Nat) : Nat := if axis = 0 then rcd + 16 else rcd

/-- The place of element i among the record's spilled channels. -/
def Obj.chanSlot (side : Obj) (t : Tensor) (axis i : Nat) : Option Nat :=
  let rcd := chanRecord t axis i
  let k := chanOf t axis i % 256
  if k = 255 then none
  else (List.range 8).find? (fun j => (cellGet side.t.data (chanIdxOff axis rcd + j)).toNat == k)

/-- The offset of the bfloat16 value of spilled place j of element i. -/
def chanValOff (t : Tensor) (axis i j : Nat) : Nat :=
  let rcd := chanRecord t axis i
  if axis = 0 then rcd + 2 * j else rcd + 64 + j * (64 * t.units) + 2 * t.colOf i

/-- The value that element i carries in a channel side object. -/
def spilledAt (t : Tensor) (side : Obj) (axis i : Nat) : Option Fp :=
  (side.chanSlot t axis i).map (fun j => decB16 (side.field (chanValOff t axis i j) 2))

/-! ## Element-wise decode (R114, R187) -/

/-- Element i of an object of allotment a: its narrow value, or the value carried beside it. -/
def State.elemAt (s : State) (a : Nat) (o : Obj) (i : Nat) : Fp :=
  let carried := match o.val, o.chan with
    | some v, _ => liftedAt o.t (s.objD a v.side) (if v.quota = 0 then 1 else v.quota) i
    | none, some c => spilledAt o.t (s.objD a c.side) c.axis i
    | none, none => none
  carried.getD (o.t.narrow i)

/-- A decoded value as an FP32 word; beyond the range it becomes the largest finite value and is counted (R114). -/
def State.elem32 (s : State) (a : Nat) (o : Obj) (i : Nat) : W32 × Nat := sat32 (s.elemAt a o i)

/-- The INT32 value of element i of an integer tensor. -/
def Obj.elemInt (o : Obj) (i : Nat) : Int := decInt o.t.fmt (o.t.code i)

/-! ## Writing a unit -/

/-- How a conversion writes a tensor. tscale: the code of a TENSOR target; list: the channels that are spilled, by window;
blkmax: the block maxima are written (O_BLKMAX). -/
structure WrSpec where
  nonsat : Bool := false
  tscale : Nat := 127
  list : List (Nat × List Nat) := []
  /-- passed-over candidates by window (R172, R181) -/
  passed : List (Nat × List Nat) := []
  blkmax : Bool := false
  deriving DecidableEq, Repr

/-- What a conversion into a tensor has done so far. -/
structure WrAcc where
  s : State
  stats : SlotStats := {}
  /-- channel maxima of the tensor's side, as codes -/
  chmax : List (Nat × Nat) := []
  ovf : Bool := false

/-- The scale code that the conversion of a unit is given; none where it chooses one. -/
def Tensor.givenScale (t : Tensor) (w : WrSpec) (i : Nat) : Option Nat :=
  match t.smode with
  | 1 => some w.tscale
  | 4 => some (t.scaleAt i)
  | 2 => none
  | 3 => none
  | _ => none

/-- Channel k is spilled by the lists in force. -/
def spilledBy (list : List (Nat × List Nat)) (k : Nat) : Bool := ((look (k / 256) list).getD []).contains (k % 256)

/-- Channel k is a passed-over candidate of its window (R181). -/
def passedBy (p : List (Nat × List Nat)) (k : Nat) : Bool := ((look (k / 256) p).getD []).contains (k % 256)

/-- The largest of a channel's codes (R171). -/
def raiseMax (m : List (Nat × Nat)) (k c : Nat) : List (Nat × Nat) :=
  match look k m with
  | some old => if old < c then put k c m else m
  | none => put k c m

/-- The channel maxima of a run of elements from element i on. -/
def gatherMax (t : Tensor) (axis i : Nat) (xs : List CvIn) (m : List (Nat × Nat)) : List (Nat × Nat) :=
  (xs.zipIdx i).foldl (fun acc e => match e.1 with
    | .val x => if x.isNan then acc else raiseMax acc (chanOf t axis e.2) (e8m0Of32 (runMaxOf x))
    | .pad => acc
    | .spilled => acc) m

/-- The entries of the rows and block columns that a conversion is about to write are removed (R184). -/
def State.clearLifts (s : State) (a h : Nat) (units : List Nat) : State :=
  let o := s.objD a h
  match o.val with
  | none => s
  | some v =>
    let q := if v.quota = 0 then 1 else v.quota
    units.foldl (fun u unit =>
      let row := o.t.rowOf (unit * 32)
      let b := blockLen o.t.smode
      let c0 := o.t.colOf (unit * 32) / b
      (List.range (32 / b)).foldl (fun w k =>
        w.modObj a v.side (fun side =>
          let r := o.t.reach row (c0 + k)
          side.putEntries q r ((side.liftEntries q r).filter (fun e => e.row != row % 64)))) u) s

/-- The value spillway of a block as its reach stands. -/
def State.spillOf (s : State) (a : Nat) (o : Obj) (i : Nat) : Option ValSpill :=
  match o.val with
  | none => none
  | some v =>
    let q := if v.quota = 0 then 1 else v.quota
    let r := o.t.reach (o.t.rowOf i) (o.t.colOf i / blockLen o.t.smode)
    some { perBlock := if v.perBlock = 0 then 2 else v.perBlock, gap := if v.gap = 0 then 2 else v.gap
           free := q - ((s.objD a v.side).liftEntries q r).length }

/-- The lifted values of a block enter their reach. -/
def State.addLifts (s : State) (a : Nat) (o : Obj) (i : Nat) (ls : List (Nat × Nat)) : State :=
  match o.val with
  | none => s
  | some v =>
    let q := if v.quota = 0 then 1 else v.quota
    let row := o.t.rowOf i
    let r := o.t.reach row (o.t.colOf i / blockLen o.t.smode)
    s.modObj a v.side (fun side =>
      side.putEntries q r (side.liftEntries q r ++ ls.map (fun l => ⟨row % 64, l.1, l.2⟩)))

/-- The byte of a zero-marker bit set or cleared. -/
def setBit (b : Byte) (i : Nat) (v : Bool) : Byte :=
  let n := b.toNat
  BitVec.ofNat 8 (if v then n ||| 2 ^ i else n - (if n.testBit i then 2 ^ i else 0))

/-- The planes of a block written at element i of object h: codes, scale, marker, block maximum and flag byte. -/
def State.writeBlock (s : State) (a h i : Nat) (blkmax : Bool) (r : CvOut) : State :=
  let o := s.objD a h
  let t := o.t
  let b := i / blockLen t.smode
  let o1 := o.write (i * elemBits t.fmt / 8) (packCodes t.fmt r.codes)
  let o2 := if isBlock t.smode then
      (o1.write (t.scaleOff + b) [BitVec.ofNat 8 r.scale]).write (t.markOff + b / 8)
        [setBit (cellGet o1.t.data (t.markOff + b / 8)) (b % 8) r.marker]
    else o1
  let o3 := if blkmax ∧ t.blkmax then o2.write (t.maxOff + b) [BitVec.ofNat 8 r.blkmax] else o2
  let s1 := s.modObj a h (fun _ => o3)
  match o.flagMap with
  | some f => s1.writeObj a f b [BitVec.ofNat 8 r.flag]
  | none => s1

/-- The values of spilled channels enter the record of element i: (place in the record, bfloat16) (R175). The VAL of an empty
entry of an AXIS 0 record is +0 (R174). -/
def State.writeSpilled (s : State) (a : Nat) (o : Obj) (c : ChanBind) (list : List (Nat × List Nat)) (i : Nat) (xs : List (Nat × Fp)) :
    State :=
  let w := chanOf o.t c.axis i / 256
  let idx := (look w list).getD []
  let rcd := chanRecord o.t c.axis i
  let s0 := s.writeObj a c.side (chanIdxOff c.axis rcd) (padTo 8 (idx.map (BitVec.ofNat 8)) |>.mapIdx (fun j b => if j < idx.length then b else 0xFF#8))
  let s1 := if c.axis = 0 then s0.writeObj a c.side (rcd + 2 * idx.length) (zeros (2 * (8 - idx.length))) else s0
  xs.foldl (fun u x => match (idx.findIdx? (fun k => k == chanOf o.t c.axis x.1 % 256)) with
    | some j => u.writeObj a c.side (chanValOff o.t c.axis x.1 j) (leBytes (satB16 x.2).1 2)
    | none => u) s1

/-- A bit of a flag byte set where v holds (R190). -/
def flagOr (flag bit : Nat) (v : Bool) : Nat := if v then flag ||| bit else flag

/-- One 32-element unit converted and written (R82, R91, R175, R184, R190). draws gives the draw of each element of the
element plane in stochastic mode. -/
def WrAcc.unit (acc : WrAcc) (a h : Nat) (w : WrSpec) (draws : Nat → Option Nat) (unit : Nat) (xs : List CvIn) : WrAcc :=
  let o0 := acc.s.objD a h
  let t := o0.t
  let axis := match o0.chan with
    | some c => some c
    | none => none
  let isSp (i : Nat) : Bool := match axis with
    | some c => spilledBy w.list (chanOf t c.axis i)
    | none => false
  let base := unit * 32
  let sp := (xs.zipIdx base).filterMap (fun e => match e.1 with
    | .val x => if isSp e.2 then some (e.2, x) else none
    | .pad => none
    | .spilled => none)
  let chmax := match axis with
    | some c => gatherMax t c.axis base xs acc.chmax
    | none => acc.chmax
  let narrow := (xs.zipIdx base).map (fun e => match e.1 with
    | .val x => if isSp e.2 then CvIn.spilled else .val x
    | .pad => .pad
    | .spilled => .spilled)
  let s1 := match axis with
    | some c => acc.s.writeSpilled a o0 c w.list base sp
    | none => acc.s
  let spSat (b0 n : Nat) : Nat := (sp.filter (fun x => decide (b0 ≤ x.1) && decide (x.1 < b0 + n) && (satB16 x.2).2)).length
  let n := blockLen t.smode
  let acc1 : WrAcc := { acc with
    s := s1, chmax := chmax
    stats := { acc.stats with spillUsed := acc.stats.spillUsed + sp.length, saturated := acc.stats.saturated + spSat base 32 } }
  (pieces n narrow).zipIdx.foldl (fun ac e =>
    let i := base + n * e.2
    let spec : CvSpec := { fmt := t.fmt, grid := t.grid, given := t.givenScale w i, block := isBlock t.smode, nonsat := w.nonsat
                           spill := ac.s.spillOf a o0 i }
    let r := convertBlock spec (fun k => draws (i + k)) e.1
    let po := match axis with
      | some c => (r.sats.filter (fun k => passedBy w.passed (chanOf t c.axis (i + k)))).length
      | none => 0
    let st := ac.stats.add r.stats
    let flag := flagOr (flagOr r.flag 1 (decide (0 < spSat i n))) 0x20 (decide (0 < po))
    { ac with s := (ac.s.writeBlock a h i w.blkmax { r with flag := flag }).addLifts a o0 i r.lifted
              stats := { st with spillOver := st.spillOver + po }, ovf := ac.ovf || r.ovf || decide (0 < po) }) acc1

/-- Units converted and written in increasing order. -/
def State.writeUnits (s : State) (a h : Nat) (w : WrSpec) (draws : Nat → Option Nat) (units : List (Nat × List CvIn)) : WrAcc :=
  units.foldl (fun acc u => acc.unit a h w draws u.1 u.2) { s := s.clearLifts a h (units.map (·.1)) }

/-! ## Statistics of a layer (R132, R135, R171, R451) -/

/-- The steered layer's record changed by f. -/
def State.modLayer (s : State) (a layer : Nat) (f : Layer → Layer) : State :=
  s.modAl a (fun x => { x with temper := { x.temper with layers := upd layer f x.temper.layers } })

def State.layer? (s : State) (a layer : Nat) : Option Layer := look layer (s.al a).temper.layers

/-- The layer is steered (R131). -/
def State.steered (s : State) (a layer : Nat) : Bool := (s.layer? a layer).isSome

/-- The larger codes of two sets of channel maxima. -/
def mergeMax (a b : List (Nat × Nat)) : List (Nat × Nat) := b.foldl (fun m e => raiseMax m e.1 e.2) a

/-- Statistics of a slot (0 W, 1 A, 2 G, 3 O) enter a step. -/
def StepStats.gather (z : StepStats) (slot : Nat) (st : SlotStats) : StepStats :=
  { z with slots := modAt slot (fun x => x.add st) z.slots }

/-- Statistics of a slot enter the open step of a layer. -/
def Layer.gather (l : Layer) (slot : Nat) (st : SlotStats) : Layer := { l with openStats := l.openStats.gather slot st }

/-- The open statistics changed by f for the TILE_RUN of acceptance number n. -/
def Layer.modOpen (l : Layer) (n : Nat) (f : StepStats → StepStats) : Layer :=
  { l with openStats := f l.openStats, openBy := put n (f ((look n l.openBy).getD {})) l.openBy }

/-- The counts of two parts of a step together. -/
def StepStats.merge (x y : StepStats) : StepStats :=
  { x with slots := (x.slots.zip y.slots).map (fun e => e.1.add e.2), ops := x.ops + y.ops, retries := x.retries + y.retries
           accSaturated := x.accSaturated + y.accSaturated, accZeroed := x.accZeroed + y.accZeroed
           spillOver := x.spillOver || y.spillOver, hardSat := x.hardSat || y.hardSat }

/-- The counts of the open step from the TILE_RUNs accepted before number n (R154). -/
def Layer.statsBefore (l : Layer) (n : Nat) : StepStats :=
  (l.openBy.filter (fun e => decide (e.1 < n))).foldl (fun z e => z.merge e.2) {}

/-- Channel maxima of the A side (axis 0) or the W side enter the open step. -/
def Layer.gatherMax (l : Layer) (axis : Nat) (m : List (Nat × Nat)) : Layer :=
  { l with openStats := if axis = 0 then { l.openStats with chmaxA := mergeMax l.openStats.chmaxA m }
                        else { l.openStats with chmaxW := mergeMax l.openStats.chmaxW m } }

def State.gather (s : State) (a layer slot : Nat) (st : SlotStats) : State := s.modLayer a layer (fun l => l.gather slot st)

/-- The counter events of a conversion that serves command c. -/
def State.countConv (s : State) (c : Cmd) (h : Option Nat) (layer : Option Nat) (st : SlotStats) : State :=
  (((s.countFor c 0x07 h layer st.convElems).countFor c 0x08 h layer st.saturated).countFor c 0x09 h layer st.zeroed).countFor
    c 0x0A h layer st.spillUsed

/-! ## Poisoned ranges (R417) -/

/-- A range of an object: allotment, handle, byte offset and length. -/
abbrev Range := Nat × Nat × Nat × Nat

/-- The first poisoned block that reading the ranges meets: allotment, handle, block, source. -/
def State.poisonOf (s : State) (rs : List Range) : Option (Nat × Nat × Nat × Nat) :=
  rs.findSome? (fun r => ((s.objD r.1 r.2.1).poisonIn r.2.2.1 r.2.2.2).map (fun p => (r.1, r.2.1, p.1, p.2)))

/-- The first poisoned block that writing the ranges would meet in part. -/
def State.poisonPartOf (s : State) (rs : List Range) : Option (Nat × Nat × Nat × Nat) :=
  rs.findSome? (fun r => ((s.objD r.1 r.2.1).poisonPart r.2.2.1 r.2.2.2).map (fun p => (r.1, r.2.1, p.1, p.2)))

/-- Command c meets a poisoned block: its kind-2 source is raised, which discards the command (R415, R417). -/
def State.meetPoison (s : State) (c : Cmd) (p : Nat × Nat × Nat × Nat) : State :=
  s.raisePoison c p.1 p.2.1 p.2.2.1 p.2.2.2

/-- Blocks that a write of several pieces covers whole lose their poison (R417). -/
def Obj.heal (o : Obj) (off len : Nat) : Obj :=
  { o with poison := o.poison.filter (fun e => !(decide (off ≤ 64 * e.1) && decide (64 * e.1 + 64 ≤ off + len))) }

def State.healRange (s : State) (r : Range) : State := s.modObj r.1 r.2.1 (fun o => o.heal r.2.2.1 r.2.2.2)

/-- The bytes that n elements from element i take: their codes, and their scales and markers where the object has them. -/
def Obj.elemRanges (o : Obj) (a h i n : Nat) : List Range :=
  let t := o.t
  let b := elemBits t.fmt
  let k := blockLen t.smode
  let codes : Range := (a, h, i * b / 8, ceilDiv (i % 2 * b + n * b) 8)
  if isBlock t.smode then
    [codes, (a, h, t.scaleOff + i / k, ceilDiv (i % k + n) k), (a, h, t.markOff + i / k / 8, ceilDiv (i / k % 8 + ceilDiv (i % k + n) k) 8)]
  else if t.smode = 4 then [codes, (a, h, t.scaleOff + t.rowOf i, t.rowOf (i + n - 1) + 1 - t.rowOf i)]
  else [codes]

/-- What a reader of n elements of object h from element i of one stored row reads beside them: the channel records and the
value entries that the elements may lie in (R174, R176, R185, R187). -/
def State.sideReads (s : State) (a : Nat) (o : Obj) (i n : Nat) : List Range :=
  let t := o.t
  (match o.chan with
   | none => []
   | some c =>
     if c.axis = 0 then [(a, c.side, chanRecord t 0 i, 24 * ((t.colOf i + n - 1) / 256 + 1 - t.colOf i / 256))]
     else (a, c.side, chanRecord t 1 i, 8) :: (match (s.objD a c.side).chanSlot t 1 i with
       | some j => [(a, c.side, chanValOff t 1 i j, 2 * n)]
       | none => [])) ++
  (match o.val with
   | none => []
   | some v =>
     let q := if v.quota = 0 then 1 else v.quota
     let k := t.colOf i / blockLen t.smode
     [(a, v.side, t.reach (t.rowOf i) k * q * 4, ((t.colOf i + n - 1) / blockLen t.smode + 1 - k) * q * 4)])

/-- What a conversion of n elements of an object from element i of one stored row writes beside its planes: the channel records,
the value entries and the flag bytes (R174, R185, R190). -/
def State.sideWrites (s : State) (a : Nat) (o : Obj) (i n : Nat) : List Range :=
  s.sideReads a o i n ++ (match o.flagMap with
    | some f => [(a, f, i / blockLen o.t.smode, (i % blockLen o.t.smode + n - 1) / blockLen o.t.smode + 1)]
    | none => [])

/-- Everything that reading n elements of object h from element i of one stored row reads. -/
def State.elemReads (s : State) (a h i n : Nat) : List Range :=
  let o := s.objD a h
  if n = 0 then [] else o.elemRanges a h i n ++ s.sideReads a o i n

end Sys2Proof.Machine
end

