-- ==== Sys2Proof/Machine/Vector.lean ====
section
/-! DEFINITION. Vector programs and engines: PROG_LOAD, PROG_RUN, the instruction words and the frame that every instruction
shares (R198 to R205, R207, R216 to R218). -/

namespace Sys2Proof.Machine

/-! ## Instruction words (Encodings) -/

def wForm (w : Nat) : Nat := bitsOf w 0 4
def wOp (w : Nat) : Nat := bitsOf w 4 8

/-- The types that the table of vector opcodes gives an operation; none for a reserved one. -/
def vecTypes (op : Nat) : Option (List Nat) :=
  match op with
  | 0x01 => some [0, 1, 2]
  | 0x02 => some [0, 1, 2]
  | 0x03 => some [0, 1, 2]
  | 0x04 => some [0, 1]
  | 0x05 => some [0, 1, 2]
  | 0x06 => some [0, 1, 2]
  | 0x07 => some [0, 1, 2]
  | 0x08 => some [0, 1, 2]
  | 0x09 => some [0, 2]
  | 0x0A => some [0, 2]
  | 0x0B => some [0]
  | 0x0C => some [0]
  | 0x0D => some [1]
  | 0x10 => some [0]
  | 0x11 => some [0]
  | 0x12 => some [0]
  | 0x13 => some [0]
  | 0x14 => some [0]
  | 0x15 => some [0]
  | 0x16 => some [0]
  | 0x20 => some [0, 2]
  | 0x21 => some [0, 2]
  | 0x30 => some [2]
  | _ => none

/-- The operation has a VI form. -/
def hasVi (op : Nat) : Bool := !([0x08, 0x0C, 0x0D, 0x20, 0x21, 0x30].contains op)

def typeOk (op typ : Nat) : Bool :=
  match vecTypes op with
  | some l => l.contains typ
  | none => false

/-- A word of a program image meets the rules of its form (R201). -/
def wordOk (w : Nat) : Bool :=
  match wForm w with
  | 0 => typeOk (wOp w) (bitsOf w 40 2) && bitsOf w 43 21 == 0
  | 1 => typeOk (wOp w) (bitsOf w 28 2) && hasVi (wOp w) && bitsOf w 30 2 == 0 && (bitsOf w 28 2 != 1 || bitsOf w 48 16 == 0)
  | 2 => inRange 1 6 (wOp w) && decide (bitsOf w 26 4 ≤ 9) && !(wOp w == 4 && bitsOf w 26 4 == 0)
  | 4 => inRange 1 11 (wOp w) && bitsOf w 28 4 == 0
  | 5 => (inRange 1 3 (wOp w) || inRange 0x10 0x11 (wOp w)) && bitsOf w 28 4 == 0
  | _ => false

/-! ## PROG_LOAD (R201) -/

/-- Words of the program store of hearth h in use. -/
def State.storeUse (s : State) (h : Nat) : Nat :=
  sumN (s.allots.map (fun x => sumN (x.progs.map (fun p => if p.stores.contains h then p.words.length else 0))))

/-- The hearths of the module, whose stores take every image. -/
def State.storeHearths (s : State) : List Nat := [0, 1].filter (fun h => s.hearthUp h)

def Allot.prog? (x : Allot) (pid : Nat) : Option Prog := x.progs.find? (fun p => p.pid == pid)

def progLoadFields (s : State) (c : Cmd) : List Fld :=
  let n := c.par 8 4
  let pid := c.par 0xC 2
  [⟨0, 8, if n = 0 then c.par 0 8 == 0 else s.refOk c.allot (c.par 0 8) 1 (8 * n)⟩, ⟨8, 4, decide (n ≤ 32768)⟩,
   ⟨0xC, 2, if n = 0 then ((s.al c.allot).prog? pid).isSome else pid == 0⟩, ⟨0xE, 2, decide (c.par 0xE 2 < 2)⟩]

/-- A PROG_RUN of the program is in flight: accepted and not completed. -/
def State.progBusy (s : State) (c : Cmd) (pid : Nat) : Bool :=
  s.hg.cmds.any (fun d => d.allot == c.allot && d.opcode == 0x0311 && d.open && d.par 0 2 == pid)

/-- The image words of a PROG_LOAD. -/
def State.imageOf (s : State) (c : Cmd) : List Nat := (recordsOf 8 (s.readRef c.allot (c.par 0 8) 1 (8 * c.par 8 4))).map leNat

/-- Loading an image under the free PROG_ID pid. -/
def State.progLoad (s : State) (c : Cmd) (pid : Nat) : State :=
  let ws := s.imageOf c
  let r := c.par 0 8
  let o := s.objD c.allot (refHandle r)
  match s.poisonOf [(c.allot, refHandle r, bitsOf r 32 32, 8 * c.par 8 4)] with
  | some p => s.meetPoison c p
  | none =>
    match ws.findIdx? (fun w => !wordOk w) with
    | some i => s.finish c.id .badParam (badIn i).2 (w128 i)
    | none =>
      if s.storeHearths.any (fun h => decide (32768 < s.storeUse h + ws.length)) then s.reject c.id (.noResource, 0)
      else ((s.modAl c.allot (fun x => { x with progs := x.progs ++
          [{ pid := pid, words := ws.map (BitVec.ofNat 64), ftz := bitOf (c.par 0xE 2) 0, stores := s.storeHearths }] })).countBytes
            c o.tier none (8 * ws.length)).finishOk c.id pid

/-- The PROG_ID that the device assigns. -/
def Allot.newPid (x : Allot) : Nat := pickFree 1 1 65535 (x.progs.map (·.pid))

/-- PROG_LOAD. The PROG_ID is the module's own pick (R32): the row's operand has no effect. -/
def execProgLoad (id _pid : Nat) (s : State) : Out :=
  s.deant id 0x0310 progLoadFields (fun t c =>
    if c.par 8 4 = 0 then
      if t.progBusy c (c.par 0xC 2) then t
      else (t.modAl c.allot (fun x => { x with progs := x.progs.filter (fun p => p.pid != c.par 0xC 2) })).finishOk id 0
    else t.progLoad c (t.al c.allot).newPid)

/-! ## PROG_RUN (R202 to R204, R218) -/

/-- The launch block of a PROG_RUN. -/
def State.launchOf (s : State) (c : Cmd) : List Byte := s.readRef c.allot (c.par 8 8) 256 256

def progRunFields (s : State) (c : Cmd) : List Fld :=
  [⟨0, 2, match (s.al c.allot).prog? (c.par 0 2) with
    | some p => p.stores.contains (c.par 2 1) || !s.hearthUp (c.par 2 1)
    | none => false⟩,
   c.ranged 2 1 0 1, c.ranged 3 1 1 32, anyVal 4 4, ⟨8, 8, s.refOk c.allot (c.par 8 8) 256 256⟩]

/-- Window i of a launch block. -/
def windowOf (b : List Byte) (i : Nat) : Window :=
  let w := bytesField b (0x40 + 16 * i) 16
  { handle := bitsOf w 0 32, offset := bitsOf w 32 32, layer := bitsOf w 64 16, slot := bitsOf w 80 2, stats := bitOf w 82, write := bitOf w 83 }

/-- A window entry meets its rules (R200, R203, R252). -/
def State.windowOk (s : State) (a : Nat) (b : List Byte) (i : Nat) : Bool :=
  let w := windowOf b i
  let o := s.objD a w.handle
  bitsOf (bytesField b (0x40 + 16 * i) 16) 84 44 == 0 &&
  (w.handle == 0 || (s.nameable a w.handle && !o.t.raw && (!w.stats || s.steered a w.layer) &&
    !(w.write && (o.chan.isSome || o.val.isSome))))

/-- Generator binding i: KEY and STREAM. -/
def genOf (b : List Byte) (i : Nat) : W64 × W32 := (w64 (bytesField b (0xC0 + 16 * i) 8), w32 (bytesField b (0xC8 + 16 * i) 4))

/-- The first entry of the launch block that breaks its rules. -/
def State.badLaunch (s : State) (a : Nat) (b : List Byte) : Option Nat :=
  match (List.range 8).find? (fun i => !s.windowOk a b i) with
  | some i => some i
  | none => (List.range 4).find? (fun i => bytesField b (0xCC + 16 * i) 4 != 0)

/-- Two bindings of n streams correlate (R218). -/
def correlate (n : Nat) (x y : W64 × W32) : Bool :=
  let used (g : W64 × W32) : Bool := !(g.1 == 0 && g.2 == 0)
  used x && used y && x.1 == y.1 &&
  (decide ((y.2 - x.2).toNat < n) || decide ((x.2 - y.2).toNat < n))

/-- Some pair of a command's bindings correlates. -/
def anyCorrelate (n : Nat) : List (W64 × W32) → Bool
  | [] => false
  | g :: r => r.any (correlate n g) || anyCorrelate n r

/-- An engine that a run may take. -/
def Engine.free (e : Engine) : Bool := !e.fenced && !e.draining && e.run.isNone

/-- An earlier PROG_RUN of the hearth has not been launched (R202). -/
def State.runAhead (s : State) (c : Cmd) : Bool :=
  s.hg.cmds.any (fun d => decide (d.id < c.id) && d.opcode == 0x0311 && d.par 2 1 == c.par 2 1 &&
    (d.phase == .accepted || d.phase == .started))

/-- An engine at launch (R204). -/
def Engine.launch (e : Engine) (cmd rank n : Nat) (args : List Nat) : Engine :=
  { e with
    run := some (cmd, rank), pc := 0, count := 0, atBarrier := false, halted := false, v := []
    s := [(0, w64 rank), (1, w64 n)] ++ (args.zipIdx 2).map (fun x => (x.2, w64 x.1))
    p := (List.range 7).map (fun i => (i + 1, BitVec.allOnes 256)) }

/-- The run starts on the engines es of its hearth. -/
def State.launch (s : State) (c : Cmd) (p : Prog) (b : List Byte) (es : List Nat) : State :=
  let h := c.par 2 1
  let ws := (List.range 8).map (windowOf b)
  let gs := (List.range 4).map (genOf b)
  let args := (List.range 8).map (fun i => bytesField b (8 * i) 8)
  let run : VRun := { cmd := c.id, allot := c.allot, pid := p.pid, ftz := p.ftz, engines := es, budget := c.par 4 4, wins := ws, gens := gs }
  (s.modHe h (fun x => { x with
    runs := x.runs ++ [run]
    engines := x.engines.mapIdx (fun i e => match es.idxOf? i with
      | some r => e.launch c.id r es.length args
      | none => e) })).goOn c.id [b2n (anyCorrelate es.length gs)]

/-- PROG_RUN; engines names the free engines that the run takes. -/
def execProgRun (id : Nat) (engines : List Nat) (s : State) : Out :=
  s.deant id 0x0311 progRunFields (fun t c =>
    let h := c.par 2 1
    let n := c.par 3 1
    let b := t.launchOf c
    match t.poisonOf [(c.allot, refHandle (c.par 8 8), bitsOf (c.par 8 8) 32 32 * 256, 256)] with
    | some p => t.meetPoison c p
    | none =>
      match t.badLaunch c.allot b with
      | some i => t.reject id (badIn i)
      | none =>
        let unfenced := ((t.he h).engines.filter (fun e => !e.fenced && !e.draining)).length
        if !t.hearthOpen c h || decide (unfenced < n) || (t.reachable c (t.namesNow c)).isSome then t.reject id (.noResource, 0)
        else
          let es := sortN engines
          if t.runAhead c ∨ es.length ≠ n ∨ es.any (fun i => !(((t.he h).engines.getD i { fenced := true }).free)) then t
          else match (t.al c.allot).prog? (c.par 0 2) with
            | some p => t.launch c p b es
            | none => t)

/-! ## Registers (Register model, R207) -/

def zeroLanes : List W32 := List.replicate 256 0#32

def Engine.vreg (e : Engine) (n : Nat) : List W32 := (look n e.v).getD zeroLanes
def Engine.sreg (e : Engine) (n : Nat) : W64 := (look n e.s).getD 0
def Engine.preg (e : Engine) (n : Nat) : BitVec 256 := if n = 0 then BitVec.allOnes 256 else (look n e.p).getD 0

def Engine.setV (e : Engine) (n : Nat) (l : List W32) : Engine := { e with v := put n l e.v }
def Engine.setS (e : Engine) (n : Nat) (w : W64) : Engine := { e with s := put n w e.s }
def Engine.setP (e : Engine) (n : Nat) (p : BitVec 256) : Engine := if n = 0 then e else { e with p := put n p e.p }

/-- The lanes of a result under a predicate: an inactive lane keeps its value, or gets +0 with ZM (R207). -/
def predicated (p : BitVec 256) (zm : Bool) (old new : List W32) : List W32 :=
  ((old.zip new).zipIdx).map (fun e => if p.getLsbD e.2 then e.1.2 else if zm then 0#32 else e.1.1)

/-! ## The frame of an instruction -/

/-- What an instruction finds: its hearth and engine, the run, the engine's rank, the word and the command. -/
structure Ctx where
  h : Nat
  e : Nat
  rank : Nat
  run : VRun
  eng : Engine
  w : Nat
  c : Cmd
  deriving DecidableEq, Repr

/-- The engine's next instruction, while it may issue one (R204, R205). -/
def State.ctx? (s : State) (h e : Nat) : Option Ctx :=
  let eng := (s.he h).engines.getD e {}
  match eng.run with
  | none => none
  | some (id, rank) =>
    match (s.he h).runs.find? (fun r => r.cmd == id), s.cmd? id with
    | some run, some c =>
      if eng.halted ∨ eng.atBarrier then none
      else match (s.al run.allot).prog? run.pid with
        | some p => match p.words[eng.pc]? with
          | some w => some { h := h, e := e, rank := rank, run := run, eng := eng, w := w.toNat, c := c }
          | none => none
        | none => none
    | _, _ => none

/-- The run has instructions left in its budget on this engine. -/
def Ctx.within (x : Ctx) : Bool := x.run.budget == 0 || decide (x.eng.count < x.run.budget)

def State.modEng (s : State) (h e : Nat) (f : Engine → Engine) : State :=
  s.modHe h (fun x => { x with engines := modAt e f x.engines })

/-- The engine has completed an instruction and goes on at pc. -/
def State.retire (s : State) (x : Ctx) (pc : Nat) (f : Engine → Engine) : State :=
  (s.modEng x.h x.e (fun e => { f e with pc := pc, count := e.count + 1 })).countFor x.c 0x0B (some x.h) none 1

/-- The row of an instruction of a form and operation: it runs when it is the engine's next one. -/
def State.instr (s : State) (h e form op : Nat) (body : State → Ctx → State) : Out :=
  match s.ctx? h e with
  | some x => if wForm x.w = form ∧ wOp x.w = op ∧ x.within = true then .next (body s x) else .next s
  | none => .next s

/-- The row of a vector operation in its V form or its VI form. -/
def State.vecInstr (s : State) (h e op : Nat) (body : State → Ctx → State) : Out :=
  match s.ctx? h e with
  | some x => if (wForm x.w = 0 ∨ wForm x.w = 1) ∧ wOp x.w = op ∧ x.within = true then .next (body s x) else .next s
  | none => .next s

/-- The engines of a run go free and the run's record ends. -/
def Hearth.endRun (x : Hearth) (id : Nat) : Hearth :=
  { x with runs := x.runs.filter (fun r => r.cmd != id), engines := x.engines.map (Engine.release id) }

/-- PROG_RUN DETAIL (R205). -/
def progDetail (pc : Nat) (corr access budget part : Bool) : W32 :=
  w32 (pc % 65536 + b2n corr * 2 ^ 16 + b2n access * 2 ^ 17 + b2n budget * 2 ^ 18 + b2n part * 2 ^ 19)

/-- The instruction stops the run (R205). -/
def State.stopRun (s : State) (x : Ctx) (access : Bool) : State :=
  (s.modHe x.h (fun y => y.endRun x.run.cmd)).finish x.run.cmd .badParam (progDetail x.eng.pc false access (!access) x.run.wrote) 0

/-- PROG_BUDGET_EXHAUSTED: the engine has reached BUDGET and has not halted. -/
def execProgBudgetExhausted (hearth engine : Nat) (s : State) : Out :=
  match s.ctx? hearth engine with
  | some x => if x.within then .next s else .next (s.stopRun x false)
  | none => .next s

/-- The run has written into an object (R205, R318). -/
def State.runWrote (s : State) (x : Ctx) : State :=
  (s.modHe x.h (fun y => { y with runs := y.runs.map (fun r => if r.cmd = x.run.cmd then { r with wrote := true } else r) })).modCmd
    x.run.cmd (fun c => { c with wrote := true })

/-! ## Fields of V and VI words -/

def Ctx.vi (x : Ctx) : Bool := wForm x.w == 1
def Ctx.vd (x : Ctx) : Nat := bitsOf x.w 12 6
def Ctx.va (x : Ctx) : Nat := bitsOf x.w 18 6
def Ctx.vc (x : Ctx) : Nat := bitsOf x.w 30 6
def Ctx.typ (x : Ctx) : Nat := if x.vi then bitsOf x.w 28 2 else bitsOf x.w 40 2
def Ctx.zm (x : Ctx) : Bool := if x.vi then bitOf x.w 27 else bitOf x.w 39
def Ctx.pred (x : Ctx) : BitVec 256 := x.eng.preg (if x.vi then bitsOf x.w 24 3 else bitsOf x.w 36 3)

/-- Source A. -/
def Ctx.srcA (x : Ctx) : List W32 := x.eng.vreg x.va

/-- Source B: a register, a broadcast scalar, or the constant of the VI form. -/
def Ctx.srcB (x : Ctx) : List W32 :=
  if x.vi then
    List.replicate 256 (if x.typ = 1 then w32 (bitsOf x.w 32 16 * 65537) else w32 (bitsOf x.w 32 32))
  else if bitOf x.w 42 then List.replicate 256 (w32 (x.eng.sreg (bitsOf x.w 24 5)).toNat)
  else x.eng.vreg (bitsOf x.w 24 6)

/-- Source C of FMA. -/
def Ctx.srcC (x : Ctx) : List W32 := if x.vi then x.eng.vreg x.vd else x.eng.vreg x.vc

/-- The result lanes go to VD under the predicate. -/
def State.writeV (s : State) (x : Ctx) (new : List W32) : State :=
  s.retire x (x.eng.pc + 1) (fun e => e.setV x.vd (predicated x.pred x.zm (x.eng.vreg x.vd) new))

/-! ## Lane arithmetic (R209 to R211) -/

/-- An FP32 lane with FTZ on inputs and result. -/
def lane32 (ftz : Bool) (f : Fp → Fp → Fp → Fp) (a b c : W32) : W32 :=
  flush32 ftz (enc32 (f (dec32 (flush32 ftz a)) (dec32 (flush32 ftz b)) (dec32 (flush32 ftz c))))

/-- One bfloat16 element with FTZ. -/
def elemB16 (ftz : Bool) (f : Fp → Fp → Fp → Fp) (a b c : Nat) : Nat :=
  flushB16 ftz (encB16 (f (decB16 (flushB16 ftz a)) (decB16 (flushB16 ftz b)) (decB16 (flushB16 ftz c))))

def loHalf (w : W32) : Nat := bitsOf w.toNat 0 16
def hiHalf (w : W32) : Nat := bitsOf w.toNat 16 16

/-- A lane in pair form. -/
def lanePair (ftz : Bool) (f : Fp → Fp → Fp → Fp) (a b c : W32) : W32 :=
  w32 (elemB16 ftz f (loHalf a) (loHalf b) (loHalf c) + 65536 * elemB16 ftz f (hiHalf a) (hiHalf b) (hiHalf c))

/-- Three lists lane by lane. -/
def zip3 (f : W32 → W32 → W32 → W32) (a b c : List W32) : List W32 := ((a.zip b).zip c).map (fun e => f e.1.1 e.1.2 e.2)

/-- An arithmetic instruction: exact in FP32 or pairs with one rounding, wrapping in INT32. -/
def State.arith (s : State) (x : Ctx) (f : Fp → Fp → Fp → Fp) (g : Int → Int → Int) : State :=
  let l := match x.typ with
    | 0 => zip3 (lane32 x.run.ftz f) x.srcA x.srcB x.srcC
    | 1 => zip3 (lanePair x.run.ftz f) x.srcA x.srcB x.srcC
    | _ => zip3 (fun a b _ => wrap32 (g (int32 a) (int32 b))) x.srcA x.srcB x.srcC
  s.writeV x l

end Sys2Proof.Machine
end

