-- ==== Sys2Proof/Machine/VecOps.lean ====
section
/-! DEFINITION. The instructions of the vector engines (R207 to R217, Vector opcodes, Encodings). -/

namespace Sys2Proof.Machine

/-! ## Lane arithmetic (R209 to R211) -/

/-- ADD: VD := VA + VB. -/
def execAdd (hearth engine : Nat) (s : State) : Out :=
  s.vecInstr hearth engine 0x01 (fun t x => t.arith x (fun a b _ => a.add b) (fun a b => a + b))

/-- SUB: VD := VA − VB. -/
def execSub (hearth engine : Nat) (s : State) : Out :=
  s.vecInstr hearth engine 0x02 (fun t x => t.arith x (fun a b _ => a.sub b) (fun a b => a - b))

/-- MUL: VD := VA × VB. -/
def execMul (hearth engine : Nat) (s : State) : Out :=
  s.vecInstr hearth engine 0x03 (fun t x => t.arith x (fun a b _ => a.mul b) (fun a b => a * b))

/-- FMA: VD := VA × VB + VC, one rounding. -/
def execFma (hearth engine : Nat) (s : State) : Out :=
  s.vecInstr hearth engine 0x04 (fun t x => t.arith x (fun a b c => (a.mul b).add c) (fun a b => a * b))

/-- The smaller number: NaN when either is NaN, −0 below +0 (R211). -/
def Fp.min (a b : Fp) : Fp :=
  if a.isNan then a else if b.isNan then b else if a.lt b then a else if b.lt a then b else if a.sign then a else b

/-- The larger number (R211). -/
def Fp.max (a b : Fp) : Fp :=
  if a.isNan then a else if b.isNan then b else if a.lt b then b else if b.lt a then a else if a.sign then b else a

/-- MIN (R211). -/
def execMin (hearth engine : Nat) (s : State) : Out :=
  s.vecInstr hearth engine 0x05 (fun t x => t.arith x (fun a b _ => a.min b) (fun a b => if a ≤ b then a else b))

/-- MAX (R211). -/
def execMax (hearth engine : Nat) (s : State) : Out :=
  s.vecInstr hearth engine 0x06 (fun t x => t.arith x (fun a b _ => a.max b) (fun a b => if a ≤ b then b else a))

/-- ABS: VD := |VA|; in INT32 the most negative number wraps to itself (R209). -/
def execAbs (hearth engine : Nat) (s : State) : Out :=
  s.vecInstr hearth engine 0x07 (fun t x => t.arith x (fun a _ _ => a.abs) (fun a _ => (a.natAbs : Int)))

/-- A lane that passes through an instruction of a TYPE: flushed under FTZ, NaN canonical (R210, R211). -/
def passLane (typ : Nat) (ftz : Bool) (a : W32) : W32 :=
  match typ with
  | 0 => lane32 ftz (fun v _ _ => v) a 0 0
  | 1 => lanePair ftz (fun v _ _ => v) a 0 0
  | _ => a

/-- SEL: VD := VA where the lane's bit of the predicate VC[2:0] is 1, else VB. -/
def execSel (hearth engine : Nat) (s : State) : Out :=
  s.vecInstr hearth engine 0x08 (fun t x =>
    let p := x.eng.preg (x.vc % 8)
    t.writeV x (((x.srcA.zip x.srcB).zipIdx).map (fun e => passLane x.typ x.run.ftz (if p.getLsbD e.2 then e.1.1 else e.1.2))))

/-- A compare of TYPE FP32 or INT32 writes predicate VD[2:0]; an inactive lane keeps its bit, or gets 0 with ZM (R207). -/
def State.compare (s : State) (x : Ctx) (f : Fp → Fp → Bool) (g : Int → Int → Bool) : State :=
  let n := x.vd % 8
  let z := x.run.ftz
  let old := x.eng.preg n
  let bits := ((x.srcA.zip x.srcB).zipIdx).map (fun e =>
    if x.pred.getLsbD e.2 then
      (if x.typ = 0 then f (dec32 (flush32 z e.1.1)) (dec32 (flush32 z e.1.2)) else g (int32 e.1.1) (int32 e.1.2))
    else !x.zm && old.getLsbD e.2)
  let v := (bits.zipIdx).foldl (fun a b => if b.1 then a + 2 ^ b.2 else a) 0
  s.retire x (x.eng.pc + 1) (fun e => e.setP n (BitVec.ofNat 256 v))

/-- CMPLT: P[VD] := VA < VB. -/
def execCmplt (hearth engine : Nat) (s : State) : Out :=
  s.vecInstr hearth engine 0x09 (fun t x => t.compare x (fun a b => a.lt b) (fun a b => decide (a < b)))

/-- CMPEQ: P[VD] := VA = VB. -/
def execCmpeq (hearth engine : Nat) (s : State) : Out :=
  s.vecInstr hearth engine 0x0A (fun t x => t.compare x (fun a b => a.eqv b) (fun a b => decide (a = b)))

/-- CVTI: INT32 to FP32, to nearest with ties to even. -/
def execCvti (hearth engine : Nat) (s : State) : Out :=
  s.vecInstr hearth engine 0x0B (fun t x => t.writeV x (x.srcA.map (fun a => enc32 (Fp.ofInt (int32 a)))))

/-- WIDEN: the even or the odd elements of pair form to FP32, by VC[0]. -/
def execWiden (hearth engine : Nat) (s : State) : Out :=
  s.vecInstr hearth engine 0x0C (fun t x =>
    let z := x.run.ftz
    t.writeV x (x.srcA.map (fun a =>
      flush32 z (enc32 (decB16 (flushB16 z (if bitOf x.vc 0 then hiHalf a else loHalf a)))))))

/-- NARROW: VA gives the even elements and VB the odd ones, to nearest with ties to even; overflow
gives infinity (R209). DEDUCED (log 20): the inverse of WIDEN. -/
def execNarrow (hearth engine : Nat) (s : State) : Out :=
  s.vecInstr hearth engine 0x0D (fun t x =>
    let z := x.run.ftz
    let one (a : W32) : Nat := flushB16 z (encB16 (dec32 (flush32 z a)))
    t.writeV x ((x.srcA.zip x.srcB).map (fun e => w32 (one e.1 + 65536 * one e.2))))

/-! ## Transcendental instructions (R212) -/

/-- A function of source A in FP32, rounded once. -/
def State.unary (s : State) (x : Ctx) (f : Fp → Fp) : State :=
  s.writeV x (x.srcA.map (fun a => lane32 x.run.ftz (fun v _ _ => f v) a 0 0))

def execExp (hearth engine : Nat) (s : State) : Out := s.vecInstr hearth engine 0x10 (fun t x => t.unary x fpExp)
def execExp2 (hearth engine : Nat) (s : State) : Out := s.vecInstr hearth engine 0x11 (fun t x => t.unary x fpExp2)
def execLog (hearth engine : Nat) (s : State) : Out := s.vecInstr hearth engine 0x12 (fun t x => t.unary x fpLog)
def execLog2 (hearth engine : Nat) (s : State) : Out := s.vecInstr hearth engine 0x13 (fun t x => t.unary x fpLog2)
def execRcp (hearth engine : Nat) (s : State) : Out := s.vecInstr hearth engine 0x14 (fun t x => t.unary x fpRcp)
def execRsqrt (hearth engine : Nat) (s : State) : Out := s.vecInstr hearth engine 0x15 (fun t x => t.unary x fpRsqrt)
def execSqrt (hearth engine : Nat) (s : State) : Out := s.vecInstr hearth engine 0x16 (fun t x => t.unary x fpSqrt)

/-! ## Reductions (R213) -/

/-- One level of the tree: adjacent results combine. -/
def treeLevel (f : W32 → W32 → W32) : List W32 → List W32
  | a :: b :: r => f a b :: treeLevel f r
  | l => l

/-- Eight levels over 256 lanes. -/
def tree (f : W32 → W32 → W32) (l : List W32) : W32 :=
  ((List.range 8).foldl (fun a _ => treeLevel f a) l).headD 0

/-- A reduction: inactive lanes enter as the neutral value; the result goes to S[VD[4:0]]. -/
def State.reduce (s : State) (x : Ctx) (f : Fp → Fp → Fp) (g : Int → Int → Int) (neutral neutralInt : W32) : State :=
  let z := x.run.ftz
  let ins := (x.srcA.zipIdx).map (fun e => if x.pred.getLsbD e.2 then e.1 else if x.typ = 0 then neutral else neutralInt)
  let v : W64 :=
    if x.typ = 0 then w64 (tree (fun a b => lane32 z (fun p q _ => f p q) a b 0) ins).toNat
    else BitVec.ofInt 64 (int32 (tree (fun a b => wrap32 (g (int32 a) (int32 b))) ins))
  s.retire x (x.eng.pc + 1) (fun e => e.setS (x.vd % 32) v)

/-- REDSUM: S[VD] := sum of the active lanes of VA. -/
def execRedsum (hearth engine : Nat) (s : State) : Out :=
  s.vecInstr hearth engine 0x20 (fun t x => t.reduce x Fp.add (fun a b => a + b) 0x80000000#32 0)

/-- REDMAX: S[VD] := maximum of the active lanes of VA. -/
def execRedmax (hearth engine : Nat) (s : State) : Out :=
  s.vecInstr hearth engine 0x21 (fun t x =>
    t.reduce x Fp.max (fun a b => if a ≤ b then b else a) 0xFF800000#32 0x80000000#32)

/-! ## Draws (R217) -/

/-- The draw i of a generator slot for this engine, from counter base c. -/
def Ctx.draw (x : Ctx) (slot c i : Nat) : Nat :=
  let g := x.run.gens.getD slot (0, 0)
  Machine.draw g.1.toNat ((g.2.toNat + x.rank) % 2 ^ 32) (c + i)

/-- SRND: VD := one draw per lane. -/
def execSrnd (hearth engine : Nat) (s : State) : Out :=
  s.vecInstr hearth engine 0x30 (fun t x =>
    let c := (x.eng.sreg (x.va % 32)).toNat
    t.writeV x ((List.range 256).map (fun i => if x.pred.getLsbD i then w32 (x.draw (x.vc % 4) c i) else 0)))

/-! ## Memory access (R214, R215) -/

def Ctx.win (x : Ctx) : Window := x.run.wins.getD (bitsOf x.w 18 3) {}
def Ctx.fmt (x : Ctx) : Nat := bitsOf x.w 26 4
def Ctx.mpred (x : Ctx) : BitVec 256 := x.eng.preg (bitsOf x.w 30 3)

/-- The window element of the access: S[SOFF] + 32 × IMM. -/
def Ctx.elemBase (x : Ctx) : Nat := ((x.eng.sreg (bitsOf x.w 21 5)).toNat + 32 * bitsOf x.w 48 16) % 2 ^ 64

/-- The window element of a lane of GATHER or SCATTER. -/
def Ctx.lanePlace (x : Ctx) (i : Nat) : Nat :=
  wrapTo 64 ((x.elemBase : Int) + int32 ((x.eng.vreg (bitsOf x.w 42 6)).getD i 0))

/-- The lanes that an access acts on. -/
def Ctx.lanes (x : Ctx) : List Nat := (List.range 256).filter (fun i => x.mpred.getLsbD i)

/-- The object of a window. -/
def State.winObj (s : State) (x : Ctx) : Obj := s.objD x.run.allot x.win.handle

/-- The object's element at element i of the window. -/
def Ctx.place (x : Ctx) (i : Nat) : Nat := 32 * x.win.offset + i

/-- Every element of the access lies in its window, whose object has the format FMT; a write needs WRITE (R203, R205).
DEDUCED (log 21): an object of another format is an access violation. -/
def State.accessOk (s : State) (x : Ctx) (els : List Nat) (write : Bool) : Bool :=
  let o := s.winObj x
  els == [] || (!o.t.raw && s.nameable x.run.allot x.win.handle && o.t.fmt == x.fmt && (!write || x.win.write) &&
    els.all (fun i => decide (x.place i < o.t.elems)))

/-- A load of the objects' elements of each active lane as FP32 (R114, R214). at i: the elements of lane i; word: what the lane
receives from their decoded words. A decode beyond the FP32 range counts through a STATS window in ACC_SATURATED. -/
def State.load (s : State) (x : Ctx) (gather : Bool) (els : Nat → List Nat) (word : List W32 → W32) : State :=
  let o := s.winObj x
  let a := x.run.allot
  let is := x.lanes.flatMap els
  match s.poisonOf (is.flatMap (fun i => s.elemReads a x.win.handle i 1)) with
  | some p => s.meetPoison x.c p
  | none =>
    let t := s.countBytes x.c o.tier (some x.h) (ceilDiv (is.length * elemBits o.t.fmt) 8)
    let t1 := if gather then t.countFor x.c 0x0D (some x.h) none is.length else t
    let sat := sumN (is.map (fun i => (s.elem32 a o i).2))
    let t2 := if x.win.stats ∧ 0 < sat then
        t1.modLayer a x.win.layer (fun l => { l with openStats := { l.openStats with accSaturated := l.openStats.accSaturated + sat } })
      else t1
    let val (i : Nat) : W32 := if x.mpred.getLsbD i then word ((els i).map (fun j => (s.elem32 a o j).1)) else 0
    t2.retire x (x.eng.pc + 1) (fun e => e.setV x.vd (predicated x.mpred false (x.eng.vreg x.vd) ((List.range 256).map val)))

/-- The word of a lane that loads one element. -/
def oneWord (ws : List W32) : W32 := ws.headD 0

/-- The word of a lane that loads two bfloat16 elements in pair form. -/
def pairWord (ws : List W32) : W32 := w32 (encB16 (dec32 (ws.headD 0)) + 65536 * encB16 (dec32 (ws.getD 1 0)))

/-- LD: 256 consecutive elements to FP32. -/
def execLd (hearth engine : Nat) (s : State) : Out :=
  s.instr hearth engine 2 0x01 (fun t x =>
    let b := x.elemBase
    if b % 32 = 0 ∧ t.accessOk x (x.lanes.map (fun i => b + i)) false = true then
      t.load x false (fun i => [x.place (b + i)]) oneWord
    else t.stopRun x true)

/-- LDH: 512 consecutive bfloat16 elements in pair form. -/
def execLdh (hearth engine : Nat) (s : State) : Out :=
  s.instr hearth engine 2 0x05 (fun t x =>
    let b := x.elemBase
    if b % 32 = 0 ∧ x.fmt = 4 ∧ t.accessOk x (x.lanes.flatMap (fun i => [b + 2 * i, b + 2 * i + 1])) false = true then
      t.load x false (fun i => [x.place (b + 2 * i), x.place (b + 2 * i + 1)]) pairWord
    else t.stopRun x true)

/-- GATHER: one element per active lane. -/
def execGather (hearth engine : Nat) (s : State) : Out :=
  s.instr hearth engine 2 0x03 (fun t x =>
    if t.accessOk x (x.lanes.map x.lanePlace) false then
      t.load x true (fun i => [x.place (x.lanePlace i)]) oneWord
    else t.stopRun x true)

/-- The values of a block enter element i and its followers of object h; none stands for an inactive lane, whose element
keeps its code and takes no part (R207, R214). -/
def State.storeBlock (s : State) (a h i : Nat) (nonsat : Bool) (draws : Nat → Option Nat) (vals : List (Option Fp)) : State × SlotStats :=
  let t := (s.objD a h).t
  let xs := (vals.zipIdx i).map (fun e => match e.1 with
    | some v => if t.colOf e.2 < t.rowLen then CvIn.val v else .pad
    | none => .pad)
  if xs.all (· == .pad) then (s, {})
  else
    let r := convertBlock { fmt := t.fmt, grid := t.grid, given := t.givenScale { tscale := t.tscale } i
                            block := isBlock t.smode, nonsat := nonsat } draws xs
    let codes := ((vals.zip r.codes).zipIdx i).map (fun e => if e.1.1.isSome then e.1.2 else t.code e.2)
    let marker := r.marker && ((vals.zipIdx i).all (fun e => e.1.isSome || (decCode t.fmt t.grid (t.code e.2)).isZero))
    (s.writeBlock a h i false { r with codes := codes, marker := marker, flag := if r.marker && !marker then r.flag - 4 else r.flag },
      r.stats)

/-- The draws of a stochastic store, by the element's index within the instruction (R214, R217). -/
def Ctx.storeDraws (x : Ctx) (i : Nat) : Option Nat :=
  if bitOf x.w 34 then some (x.draw (bitsOf x.w 35 2) (x.eng.sreg (bitsOf x.w 37 5)).toNat i) else none

/-- What follows the writes of a store: statistics, counter events, mirror state and the end of the instruction. -/
def State.stored (s : State) (x : Ctx) (st : SlotStats) (els : Nat) (scatter : Bool) (rs : List Range) : State :=
  let w := x.win
  let o := s.winObj x
  let s1 := if w.stats then s.gather x.run.allot w.layer w.slot st else s
  let s2 := s1.countConv x.c (some x.h) (if w.stats then some w.layer else none) st
  let s3 := s2.countBytes x.c o.tier (some x.h) (ceilDiv (els * elemBits o.t.fmt) 8)
  let s4 := if scatter then s3.countFor x.c 0x0D (some x.h) none els else s3
  let s5 := if els = 0 then s4 else ((rs.foldl State.healRange s4).staleWrite x.run.allot w.handle).runWrote x
  s5.retire x (x.eng.pc + 1) (fun e => e)

/-- A contiguous store of the values from window element b on. -/
def State.storeRun (s : State) (x : Ctx) (b : Nat) (vals : List (Option Fp)) : State :=
  let a := x.run.allot
  let h := x.win.handle
  let o := s.winObj x
  let act := (vals.zipIdx).filterMap (fun e => if e.1.isSome then some e.2 else none)
  let rs : List Range := match act.head?, act.getLast? with
    | some f, some l => if act.length = l + 1 - f then o.elemRanges a h (x.place (b + f)) act.length
                        else act.flatMap (fun i => o.elemRanges a h (x.place (b + i)) 1)
    | _, _ => []
  match s.poisonPartOf rs with
  | some p => s.meetPoison x.c p
  | none =>
    let n := blockLen o.t.smode
    let r := (pieces n vals).zipIdx.foldl (fun acc e =>
      let q := acc.1.storeBlock a h (x.place (b + n * e.2)) (bitOf x.w 33) (fun k => x.storeDraws (n * e.2 + k)) e.1
      (q.1, acc.2.add q.2)) (s, ({} : SlotStats))
    r.1.stored x r.2 act.length false rs

/-- ST: 256 consecutive elements. -/
def execSt (hearth engine : Nat) (s : State) : Out :=
  s.instr hearth engine 2 0x02 (fun t x =>
    let b := x.elemBase
    if b % 32 = 0 ∧ t.accessOk x (x.lanes.map (fun i => b + i)) true = true then
      t.storeRun x b ((x.eng.vreg x.vd).zipIdx.map (fun e => if x.mpred.getLsbD e.2 then some (dec32 e.1) else none))
    else t.stopRun x true)

/-- STH: 512 consecutive bfloat16 elements from pair form. -/
def execSth (hearth engine : Nat) (s : State) : Out :=
  s.instr hearth engine 2 0x06 (fun t x =>
    let b := x.elemBase
    if b % 32 = 0 ∧ x.fmt = 4 ∧ t.accessOk x (x.lanes.flatMap (fun i => [b + 2 * i, b + 2 * i + 1])) true = true then
      t.storeRun x b ((x.eng.vreg x.vd).zipIdx.flatMap (fun e =>
        if x.mpred.getLsbD e.2 then [some (decB16 (loHalf e.1)), some (decB16 (hiHalf e.1))] else [none, none]))
    else t.stopRun x true)

/-- One element of a SCATTER. -/
def State.scatterOne (s : State) (x : Ctx) (acc : SlotStats) (i : Nat) : State × SlotStats :=
  let p := x.place (x.lanePlace i)
  let v := dec32 ((x.eng.vreg x.vd).getD i 0)
  let r := s.storeBlock x.run.allot x.win.handle (p / 32 * 32) (bitOf x.w 33) (fun _ => x.storeDraws i)
    ((List.range 32).map (fun k => if k = p % 32 then some v else none))
  (r.1, acc.add r.2)

/-- SCATTER: one element per active lane, in increasing lane order (R215). -/
def execScatter (hearth engine : Nat) (s : State) : Out :=
  s.instr hearth engine 2 0x04 (fun t x =>
    let o := t.winObj x
    if t.accessOk x (x.lanes.map x.lanePlace) true = true ∧ (x.lanes = [] ∨ isBlock o.t.smode = false) then
      match t.poisonPartOf (x.lanes.flatMap (fun i => o.elemRanges x.run.allot x.win.handle (x.place (x.lanePlace i)) 1)) with
      | some p => t.meetPoison x.c p
      | none =>
        let r := x.lanes.foldl (fun acc i => acc.1.scatterOne x acc.2 i) (t, ({} : SlotStats))
        r.1.stored x r.2 x.lanes.length true []
    else t.stopRun x true)

/-! ## Scalar instructions (R208) -/

def Ctx.sd (x : Ctx) : Nat := bitsOf x.w 12 5
def Ctx.sa (x : Ctx) : W64 := x.eng.sreg (bitsOf x.w 17 5)
def Ctx.imm32 (x : Ctx) : W32 := w32 (bitsOf x.w 32 32)

/-- Source B of an integer operation: S[SB], or IMM32 sign-extended. -/
def Ctx.sb (x : Ctx) : W64 := if bitOf x.w 27 then x.imm32.signExtend 64 else x.eng.sreg (bitsOf x.w 22 5)

/-- Source B of an FP32 operation: bits [31:0] of S[SB], or IMM32. -/
def Ctx.fb (x : Ctx) : W32 := if bitOf x.w 27 then x.imm32 else w32 (x.eng.sreg (bitsOf x.w 22 5)).toNat

/-- The result of a scalar operation goes to SD. -/
def State.writeS (s : State) (x : Ctx) (v : W64) : State := s.retire x (x.eng.pc + 1) (fun e => e.setS x.sd v)

/-- A scalar ADD modulo 2^64. -/
def execSAdd (hearth engine : Nat) (s : State) : Out :=
  s.instr hearth engine 4 0x01 (fun t x => t.writeS x (x.sa + x.sb))

def execSSub (hearth engine : Nat) (s : State) : Out :=
  s.instr hearth engine 4 0x02 (fun t x => t.writeS x (x.sa - x.sb))

def execSMul (hearth engine : Nat) (s : State) : Out :=
  s.instr hearth engine 4 0x03 (fun t x => t.writeS x (x.sa * x.sb))

def execAnd (hearth engine : Nat) (s : State) : Out :=
  s.instr hearth engine 4 0x04 (fun t x => t.writeS x (x.sa &&& x.sb))

def execOr (hearth engine : Nat) (s : State) : Out :=
  s.instr hearth engine 4 0x05 (fun t x => t.writeS x (x.sa ||| x.sb))

/-- A shift amount of 64 or more leaves no bit (log 22). -/
def shiftAmount (b : W64) : Nat := min 64 b.toNat

/-- SHL: the low 64 bits of SA · 2^B. -/
def execShl (hearth engine : Nat) (s : State) : Out :=
  s.instr hearth engine 4 0x06 (fun t x => t.writeS x (x.sa <<< shiftAmount x.sb))

/-- SHR: logical. DEDUCED (log 22). -/
def execShr (hearth engine : Nat) (s : State) : Out :=
  s.instr hearth engine 4 0x07 (fun t x => t.writeS x (x.sa >>> shiftAmount x.sb))

/-- An FP32 result in bits [31:0], bits [63:32] cleared. -/
def State.writeF (s : State) (x : Ctx) (f : Fp → Fp → Fp) (a b : W32) : State :=
  s.writeS x (w64 (lane32 x.run.ftz (fun p q _ => f p q) a b 0).toNat)

def execFadd (hearth engine : Nat) (s : State) : Out :=
  s.instr hearth engine 4 0x08 (fun t x => t.writeF x Fp.add (w32 x.sa.toNat) x.fb)

def execFmul (hearth engine : Nat) (s : State) : Out :=
  s.instr hearth engine 4 0x09 (fun t x => t.writeF x Fp.mul (w32 x.sa.toNat) x.fb)

/-- FRSQRT of source A, or of the constant with USE_IMM. DEDUCED (log 22). -/
def execFrsqrt (hearth engine : Nat) (s : State) : Out :=
  s.instr hearth engine 4 0x0A (fun t x =>
    t.writeF x (fun p _ => fpRsqrt p) (if bitOf x.w 27 then x.imm32 else w32 x.sa.toNat) 0)

/-- MOV of source A, or of the constant with USE_IMM. DEDUCED (log 22). -/
def execMov (hearth engine : Nat) (s : State) : Out :=
  s.instr hearth engine 4 0x0B (fun t x => t.writeS x (if bitOf x.w 27 then x.sb else x.sa))

/-! ## Control instructions (R204, R208) -/

/-- The target of a jump. -/
def Ctx.target (x : Ctx) : Nat := bitsOf x.w 32 32

def execJmp (hearth engine : Nat) (s : State) : Out :=
  s.instr hearth engine 5 0x01 (fun t x => t.retire x x.target (fun e => e))

/-- JNZ: jumps when S[SA] is not 0. -/
def execJnz (hearth engine : Nat) (s : State) : Out :=
  s.instr hearth engine 5 0x02 (fun t x => t.retire x (if x.sa = 0 then x.eng.pc + 1 else x.target) (fun e => e))

/-- JLT: jumps when S[SA] < S[SB] as signed integers. -/
def execJlt (hearth engine : Nat) (s : State) : Out :=
  s.instr hearth engine 5 0x03 (fun t x => t.retire x (if x.sa.toInt < x.sb.toInt then x.target else x.eng.pc + 1) (fun e => e))

/-- The engines of a run pass the barrier when every one of them has reached it (R208). -/
def Hearth.passBarrier (x : Hearth) (id : Nat) (engines : List Nat) : Hearth :=
  if engines.all (fun i => (x.engines.getD i {}).atBarrier) then
    { x with engines := x.engines.map (fun e => match e.run with
        | some (c, _) => if c = id then { e with atBarrier := false } else e
        | none => e) }
  else x

/-- BARRIER. -/
def execVecBarrier (hearth engine : Nat) (s : State) : Out :=
  s.instr hearth engine 5 0x10 (fun t x =>
    (t.retire x (x.eng.pc + 1) (fun e => { e with atBarrier := true })).modHe x.h (fun y => y.passBarrier x.run.cmd x.run.engines))

/-- The run ends when every engine has executed HALT: RESULT carries S10 of rank 0 (R204, R218). -/
def State.runEnds (s : State) (x : Ctx) : State :=
  match (s.he x.h).runs.find? (fun r => r.cmd == x.run.cmd) with
  | none => s
  | some r =>
    if r.engines.all (fun i => ((s.he x.h).engines.getD i {}).halted) then
      let corr := x.c.aux.headD 0 == 1
      (s.modHe x.h (fun y => y.endRun r.cmd)).finish r.cmd (if corr then .okWithNote else .ok) (progDetail 0 corr false false false)
        (w128 r.s10.toNat)
    else s

/-- HALT. -/
def execHalt (hearth engine : Nat) (s : State) : Out :=
  s.instr hearth engine 5 0x11 (fun t x =>
    let t1 := t.retire x (x.eng.pc + 1) (fun e => { e with halted := true })
    let t2 := if x.rank = 0 then
        t1.modHe x.h (fun y => { y with runs := y.runs.map (fun r => if r.cmd = x.run.cmd then { r with s10 := x.eng.sreg 10 } else r) })
      else t1
    t2.runEnds x)

end Sys2Proof.Machine
end

