-- ==== Sys2Proof/Machine/Objects.lean ====
section
/-! DEFINITION. Objects and pools: OBJ_CREATE, OBJ_FREE, OBJ_MOVE, OBJ_PIN, OBJ_COPY and POOL_SET, with eviction and the
compatibility mode (R252 to R276, R279). -/

namespace Sys2Proof.Machine

/-! ## Homes -/

/-- Poisoned blocks name the unit of their new place (R417). -/
def State.replaced (s : State) (a index : Nat) (o : Obj) : Obj :=
  { o with poison := o.poison.map (fun e => (e.1, s.blockSource a index o e.1)) }

/-- The home of object h becomes (tier, hearth). A valid copy becomes the home in tier 2 (R273), stays valid across tiers 0
and 1 (R271) and is released on a move into tier 3. -/
def State.rehome (s : State) (a h tier hearth : Nat) : State :=
  match s.obj? a h with
  | none => s
  | some o =>
    let i := handleIndex h
    if o.shadow ∧ tier = 2 then
      (s.uncharge a (.shadow i)).modObj a h (fun x =>
        s.replaced a i { x with tier := 2, hearth := 0, shadow := false, shadowPoison := [], poison := x.shadowPoison.map (fun b => (b, 0)) })
    else
      let t := if tier = 3 then s.dropShadow a h else s
      t.modObj a h (fun x => s.replaced a i { x with tier := tier, hearth := hearth })

/-! ## Eviction (R269, R270) -/

/-- A plan: index and whether the eviction is a drop, with the bytes released and moved so far. -/
structure EvictPlan where
  steps : List (Nat × Bool) := []
  released : Nat := 0
  moved : Nat := 0
  deriving DecidableEq, Repr

/-- Handles named by accepted commands of the allotment that have not completed. -/
def State.busyNames (s : State) (a : Nat) : List Nat :=
  (s.hg.cmds.filter (fun c => c.allot == a && c.master == .allot && c.open)).flatMap (fun c => (s.namesNow c).map (·.1))

/-- The candidates of R269 in order. -/
def State.candidates (s : State) (a p : Nat) : List (Nat × Obj) :=
  let busy := s.busyNames a
  sortBy (fun e => (e.2.lastUse, e.1)) ((s.al a).objs.filter (fun e =>
    poolOf e.2.tier e.2.hearth == p && !e.2.pinned && !busy.contains (handleOf e.1 e.2.reuse)))

/-- One candidate of the plan. -/
def State.planStep (s : State) (a p n : Nat) (pl : EvictPlan) (c : Nat × Obj) : EvictPlan :=
  if s.fitsWith a p n pl.released 0 then pl
  else if c.2.shadow then { pl with steps := pl.steps ++ [(c.1, true)], released := pl.released + c.2.charged }
  else if s.fitsWith a 4 c.2.charged 0 pl.moved then
    { steps := pl.steps ++ [(c.1, false)], released := pl.released + c.2.charged, moved := pl.moved + c.2.charged }
  else pl

/-- The plan of a request of n bytes by allotment a in pool p; none when it does not fit (R269). -/
def State.plan (s : State) (a p n : Nat) : Option EvictPlan :=
  if s.fits a p n then some {}
  else if (p ≠ 2 ∧ p ≠ 3) ∨ (s.al a).evictOff = true then none
  else
    let pl := (s.candidates a p).foldl (s.planStep a p n) {}
    if s.fitsWith a p n pl.released 0 then some pl else none

/-- One eviction of a plan: the home becomes tier 2. -/
def State.evictOne (s : State) (c : Cmd) (e : Nat × Bool) : State :=
  let o := (look e.1 (s.al c.allot).objs).getD {}
  let t := ((s.rehome c.allot (handleOf e.1 o.reuse) 2 0).countFor c 0x12 (some o.hearth) none 1).traceAt 0 0xB (some c.allot) c.acc
    (handleOf e.1 o.reuse + b2n e.2 * 2 ^ 32)
  if e.2 then t else (t.countBytes c o.tier (some o.hearth) o.size).countBytes c 2 none o.size

/-- The plan is carried out in its order (R270). -/
def State.evict (s : State) (c : Cmd) (pl : EvictPlan) : State := pl.steps.foldl (fun t e => t.evictOne c e) s

/-- Placement DETAIL (R262). -/
def EvictPlan.detail (pl : EvictPlan) : W32 :=
  w32 (satTo 65535 pl.steps.length + 65536 * b2n (pl.steps.any (·.2)))

/-! ## OBJ_CREATE (R252 to R254) -/

/-- The fields of a tensor in an OBJ_CREATE. -/
def Cmd.newTensor (c : Cmd) : Tensor :=
  if c.par 0 1 = 1 then {}
  else { raw := false, fmt := c.par 1 1, smode := bitsOf (c.par 2 1) 0 3, blkmax := bitOf (c.par 2 1) 3
         rows := c.par 4 4, rowLen := c.par 8 4, tscale := if bitsOf (c.par 2 1) 0 3 = 1 then c.par 0xC 1 else 127 }

/-- The largest raw object: the capacity of one home of the tier. DEDUCED (log 23). -/
def State.homeCapacity (s : State) (tier : Nat) : Nat :=
  match tier with
  | 0 => 192 * mib
  | 1 => 256 * gib
  | 2 => (if s.isX then 1024 else 512) * gib
  | _ => (if s.pair.bound && s.pair.partnerVariant != 0x58 then 384 else 768) * gib

/-- A HOME byte: reserved bits 0, and HEARTH 0 for tiers 2 and 3. -/
def homeOk (v : Nat) : Bool := decide (v < 16) && (decide (bitsOf v 0 2 < 2) || !bitOf v 2)

def objCreateFields (s : State) (c : Cmd) : List Fld :=
  let tensor := c.par 0 1 == 0
  let t := c.newTensor
  let mode := bitsOf (c.par 2 1) 0 3
  let dims := inRange 1 16777216 (c.par 4 4)
  [c.ranged 0 1 0 1,
   ⟨1, 1, if tensor then fmtOk (c.par 1 1) else c.par 1 1 == 0⟩,
   ⟨2, 1, if tensor then decide (c.par 2 1 < 16) && modeOk (c.par 1 1) mode && (!bitOf (c.par 2 1) 3 || isBlock mode) else c.par 2 1 == 0⟩,
   ⟨3, 1, homeOk (c.par 3 1)⟩,
   ⟨4, 4, if tensor then dims && decide (c.par 4 4 * t.units ≤ 2 ^ 32) else c.par 4 4 == 0⟩,
   ⟨8, 4, if tensor then inRange 1 16777216 (c.par 8 4) else c.par 8 4 == 0⟩,
   ⟨0xC, 1, if tensor && mode == 1 then decide (c.par 0xC 1 ≤ 0xFE) else c.par 0xC 1 == 0⟩,
   ⟨0x10, 8, if tensor then c.par 0x10 8 == 0 else inRange 1 (s.homeCapacity (bitsOf (c.par 3 1) 0 2)) (c.par 0x10 8)⟩]

/-- The size of the new object. -/
def Cmd.newSize (c : Cmd) : Nat := if c.par 0 1 = 1 then c.par 0x10 8 else c.newTensor.size

/-- REUSE of an index that is assigned (R250). -/
def Allot.nextReuse (x : Allot) (i : Nat) : Nat :=
  match look i x.reuse with
  | some r => (r + 1) % 4096
  | none => 0

/-- The object index that the device assigns (R250). -/
def Allot.newIndex (x : Allot) : Nat := pickFree 0 1 1048575 (x.objs.map (·.1))

/-- OBJ_CREATE. The index is the module's own pick (R32, R250): the row's operand has no effect. -/
def execObjCreate (id _index : Nat) (s : State) : Out :=
  s.deant id 0x0201 objCreateFields (fun t c =>
    let a := c.allot
    let x := t.al a
    let tier := bitsOf (c.par 3 1) 0 2
    let hearth := bitsOf (c.par 3 1) 2 1
    if x.objs.length ≥ 1048575 then t.reject id (.noResource, 0)
    else if tier < 2 ∧ t.hearthOpen c hearth = false then t.reject id (.noResource, 0)
    else
      let size := c.newSize
      let charged := roundUp size 4096
      match t.plan a (poolOf tier hearth) charged with
      | none => t.reject id (.noResource, 0)
      | some pl =>
        let index := x.newIndex
        let r := x.nextReuse index
        let o : Obj := { reuse := r, t := c.newTensor, size := size, charged := charged, tier := tier, hearth := hearth
                         pinned := bitOf (c.par 3 1) 3, lastUse := c.acc }
        let t1 := (t.evict c pl).modAl a (fun y => { y with objs := put index o y.objs, reuse := put index r y.reuse })
        (t1.countBytes c tier (some hearth) size).finish id .ok pl.detail (w128 (handleOf index r + charged * 2 ^ 64)))

/-! ## OBJ_FREE (R258) -/

/-- The object is in use by steering or by a rule load (R258). -/
def State.heldBy (s : State) (a h : Nat) : Bool :=
  let x := s.al a
  x.temper.layers.any (fun e => e.2.wMaster == h || e.2.wScales == h || (e.2.spill.list == h && h != 0)) ||
  x.objs.any (fun e =>
    let b := handleOf e.1 e.2.reuse
    let sides := (match e.2.chan with | some c => [c.side] | none => []) ++ (match e.2.val with | some v => [v.side] | none => []) ++
      (match e.2.flagMap with | some f => [f] | none => [])
    (sides != [] && b == h) || sides.contains h) ||
  s.hg.cmds.any (fun c => c.allot == a && c.opcode == 0x0504 && c.open && refHandle (c.par 8 8) == h)

/-- Object h of allotment a is gone with its charges and marks. -/
def State.freeObj (s : State) (a h : Nat) : State :=
  let t := (s.uncharge a (.shadow (handleIndex h))).modAl a (fun x => { x with
    objs := del (handleIndex h) x.objs
    upd := { x.upd with frozen := without h x.upd.frozen } })
  if (t.al a).objs.any (fun e => e.2.lost) then t else t.dropCond a .lostObjects

/-- A handle of an object command: live, and reachable through a lost home where lost allows. -/
def State.objOk (s : State) (a h : Nat) (lost : Bool) : Bool :=
  match s.obj? a h with
  | some o => lost || !o.lost
  | none => false

def objFreeFields (s : State) (c : Cmd) : List Fld :=
  [⟨0, 4, s.objOk c.allot (c.par 0 4) true && !s.heldBy c.allot (c.par 0 4)⟩]

/-- OBJ_FREE: the object and its charge are released, and the handle stops resolving. -/
def execObjFree (id : Nat) (s : State) : Out :=
  s.deant id 0x0202 objFreeFields (fun t c => ((t.freeObj c.allot (c.par 0 4)).settle).finishOk id 0)

/-! ## OBJ_MOVE (R256, R270, R276) -/

def objMoveFields (s : State) (c : Cmd) : List Fld :=
  [⟨0, 4, s.objOk c.allot (c.par 0 4) false⟩, ⟨4, 1, homeOk (c.par 4 1) && !bitOf (c.par 4 1) 3⟩]

/-- OBJ_MOVE: every plane is copied to the new home, and the home switches. A block that is poisoned cannot leave for tier 3
(R417). -/
def execObjMove (id : Nat) (s : State) : Out :=
  s.deant id 0x0203 objMoveFields (fun t c =>
    let a := c.allot
    let h := c.par 0 4
    let o := t.objD a h
    let tier := bitsOf (c.par 4 1) 0 2
    let hearth := bitsOf (c.par 4 1) 2 1
    if tier < 2 ∧ t.hearthOpen c hearth = false then t.reject id (.noResource, 0)
    else if o.tier = tier ∧ o.hearth = hearth then t.finishOk id 0
    else if tier = 2 ∧ o.shadow = true then (t.rehome a h 2 0).finishOk id 0
    else match t.plan a (poolOf tier hearth) o.charged with
      | none => t.reject id (.noResource, 0)
      | some pl =>
        match if tier = 3 then t.poisonOf [(a, h, 0, o.size)] else none with
        | some p => t.meetPoison c p
        | none =>
          let u := if tier = 3 then (t.sendTier3 a h 0 (o.read 0 o.size)).countFor c 0x13 none none (ceilDiv o.size 64) else t
          ((((u.evict c pl).countBytes c o.tier (some o.hearth) o.size).countBytes c tier (some hearth) o.size).rehome a h tier hearth).finish
            id .ok pl.detail 0)

/-! ## OBJ_PIN (R259) -/

/-- Object state. -/
def Obj.stateWord (o : Obj) : Nat :=
  o.tier + o.hearth * 4 + b2n o.pinned * 8 + b2n o.shadow * 16 + b2n o.lost * 32 + o.charged * 2 ^ 64

def objPinFields (s : State) (c : Cmd) : List Fld := [⟨0, 4, s.objOk c.allot (c.par 0 4) true⟩, c.ranged 4 1 0 2]

/-- OBJ_PIN: pins, unpins or queries; RESULT is the object's state. -/
def execObjPin (id : Nat) (s : State) : Out :=
  s.deant id 0x0204 objPinFields (fun t c =>
    let h := c.par 0 4
    let t1 := if c.par 4 1 = 2 then t else t.modObj c.allot h (fun o => { o with pinned := c.par 4 1 == 1 })
    t1.finishOk id (t1.objD c.allot h).stateWord)

/-! ## OBJ_COPY (R260, R261, R271, R417) -/

def objCopyFields (s : State) (c : Cmd) : List Fld :=
  let a := c.allot
  let k := c.par 0 1
  let src := c.par 8 4
  let dst := c.par 0xC 4
  let so := c.par 0x10 8
  let d := c.par 0x18 8
  let n := c.par 0x20 8
  let useS := k == 0 || k == 2
  let useD := k == 0 || k == 1
  let sOk := s.objOk a src false
  let dOk := s.objOk a dst false
  let tier3 := (k == 2 && sOk && (s.objD a src).tier == 3) || (k == 1 && dOk && (s.objD a dst).tier == 3)
  [⟨0, 1, decide (k ≤ 3) && (k != 3 || (s.al a).compat) && !tier3⟩,
   ⟨8, 4, if useS then sOk else if k == 3 then sOk && decide ((s.objD a src).tier < 2) else src == 0⟩,
   ⟨0xC, 4, if useD then dOk else dst == 0⟩,
   ⟨0x10, 8, if useS then so % 64 == 0 else so == 0⟩,
   ⟨0x18, 8, if useD then d % 64 == 0 && !(k == 0 && src == dst && decide (so < d + n) && decide (d < so + n)) else d == 0⟩,
   ⟨0x20, 8, if k == 3 then n == 0 else n % 64 == 0 && (!useS || decide (so + n ≤ (s.objD a src).size)) &&
     (!useD || decide (d + n ≤ (s.objD a dst).size))⟩,
   ⟨0x28, 8, k == 1 || k == 2 || c.par 0x28 8 == 0⟩]

/-- Bytes of a region copied to object dst with their poison (R417). -/
def State.carry (s : State) (a src so dst d n : Nat) : State :=
  let o := s.objD a src
  let bad := (o.poison.filter (fun e => decide (so ≤ 64 * e.1) && decide (64 * e.1 < so + n))).map (fun e => (64 * e.1 - so + d) / 64)
  let t := (if (s.objD a dst).tier = 3 then s.sendTier3 a dst d (o.read so n) else s).writeObj a dst d (o.read so n)
  t.modObj a dst (fun x => { x with poison := x.poison ++ bad.map (fun b => (b, t.blockSource a (handleIndex dst) x b)) })

/-- KIND 0, object to object: into tier 3 it stops at a poisoned block. -/
def State.copyObj (s : State) (c : Cmd) : State :=
  let a := c.allot
  let src := c.par 8 4
  let dst := c.par 0xC 4
  let so := c.par 0x10 8
  let d := c.par 0x18 8
  let n := c.par 0x20 8
  let o := s.objD a src
  let x := s.objD a dst
  let moved (t : State) (k : Nat) : State :=
    let u := (t.countBytes c o.tier none k).countBytes c x.tier none k
    if x.tier = 3 then u.countFor c 0x13 none none (ceilDiv k 64) else u
  match if x.tier = 3 then s.poisonOf [(a, src, so, n)] else none with
  | some p =>
    let m := 64 * p.2.2.1 - so
    let t := moved (s.carry a src so dst d m) m
    let c1 := { c with wrote := c.wrote || decide (0 < m) }
    (t.modCmd c.id (fun _ => c1)).meetPoison c1 p
  | none =>
    let t := moved (s.carry a src so dst d n) n
    (if n = 0 then t else t.staleWrite a dst).finishOk c.id 0

/-- Bytes of a region of n bytes at host address ha that lie before the first 64-byte block whose access fails. -/
def State.hostGood (s : State) (ha n : Nat) : Nat :=
  match (List.range (n / 64)).find? (fun i => s.hostBad (ha + 64 * i) 64) with
  | some i => 64 * i
  | none => n

/-- The copy met a host-memory error after m bytes (R261): FAULT_CONTAINED, and the source of the function is raised. -/
def State.hostFailed (s : State) (c : Cmd) (m : Nat) : State :=
  let src := 0x9000 + c.allot
  ((s.modCmd c.id (fun d => { d with wrote := d.wrote || decide (0 < m) })).discard c.id .faultContained src 0).collect
    [{ source := src, served := some c.id }]

/-- KIND 1, host to object. -/
def State.copyIn (s : State) (c : Cmd) : State :=
  let dst := c.par 0xC 4
  let n := c.par 0x20 8
  let ha := c.par 0x28 8
  let m := s.hostGood ha n
  let t := ((s.writeObj c.allot dst (c.par 0x18 8) (cellRead s.host.bytes ha m)).countBytes c (s.objD c.allot dst).tier none m)
  let t1 := if m = 0 then t else t.staleWrite c.allot dst
  if m < n then t1.hostFailed c m else t1.finishOk c.id 0

/-- KIND 2, object to host: it stops at a poisoned block (R417). -/
def State.copyOut (s : State) (c : Cmd) : State :=
  let src := c.par 8 4
  let so := c.par 0x10 8
  let n := c.par 0x20 8
  let ha := c.par 0x28 8
  let o := s.objD c.allot src
  let good := s.hostGood ha n
  let p := s.poisonOf [(c.allot, src, so, n)]
  let clean := match p with
    | some q => 64 * q.2.2.1 - so
    | none => n
  let m := min good clean
  let t := ({ s with host := { s.host with bytes := cellWrite s.host.bytes ha (o.read so m) } } : State).countBytes c o.tier none m
  if good < n ∧ good ≤ clean then t.hostFailed c m
  else match p with
    | some q =>
      let c1 := { c with wrote := c.wrote || decide (0 < m) }
      (t.modCmd c.id (fun _ => c1)).meetPoison c1 q
    | none => t.finishOk c.id 0

/-- KIND 3, the tier-2 copy (R271). -/
def State.copyShadow (s : State) (c : Cmd) : State :=
  let a := c.allot
  let h := c.par 8 4
  let o := s.objD a h
  if o.shadow then s.finishOk c.id 0
  else if s.fits a 4 o.charged then
    ((((s.charge a (.shadow (handleIndex h)) 4 o.charged).modObj a h (fun x =>
      { x with shadow := true, shadowPoison := x.poison.map (·.1) })).countBytes c o.tier (some o.hearth) o.size).countBytes c 2 none o.size).finishOk c.id 0
  else s.reject c.id (.noResource, 0)

/-- OBJ_COPY. -/
def execObjCopy (id : Nat) (s : State) : Out :=
  s.deant id 0x0205 objCopyFields (fun t c =>
    match c.par 0 1 with
    | 0 => t.copyObj c
    | 1 => t.copyIn c
    | 2 => t.copyOut c
    | _ => t.copyShadow c)

/-! ## POOL_SET (R265, R266, R273, R279) -/

/-- Entry i of POOL: QUOTA and RESERVE in MiB. -/
def Cmd.poolAt (c : Cmd) (i : Nat) : Pool := { quota := c.par (8 + 8 * i) 4, reserve := c.par (12 + 8 * i) 4 }

/-- The reserve of entry i is at most its quota, 0 in tier 3, and fits with the reserves of the other allotments. -/
def State.reserveOk (s : State) (c : Cmd) (i : Nat) : Bool :=
  let p := c.poolAt i
  let others := sumN (s.allots.mapIdx (fun b x => if b = c.par 1 1 then 0 else (x.pools.getD i {}).reserve))
  decide (p.reserve ≤ p.quota) && (i != 5 || p.reserve == 0) && decide ((p.reserve + others) * mib ≤ s.usable i)

def poolSetFields (s : State) (c : Cmd) : List Fld :=
  if c.par 0 1 = 0 then
    [c.ranged 0 1 0 1, ⟨1, 1, decide (c.par 1 1 < 16) && c.late (s.al (c.par 1 1)).live⟩, ⟨2, 1, decide (c.par 2 1 < 4)⟩] ++
    poolNumbers.flatMap (fun i => [anyVal (8 + 8 * i) 4, ⟨12 + 8 * i, 4, c.late (s.reserveOk c i)⟩])
  else
    let total := s.tier2Bytes / gib
    let reserves := sumN (s.allots.map (fun x => (x.pools.getD 4 {}).reserve)) * mib
    let ck := c.par 8 4
    let mi := c.par 0xC 4
    [c.ranged 0 1 0 1, c.mustBe0 1 1, c.mustBe0 2 1,
     ⟨8, 4, c.late (decide ((ck + mi) * gib + reserves ≤ total * gib) && (decide (s.dev.ckptGib ≤ ck) || decide (s.ckptHeld ≤ ck * gib)))⟩,
     ⟨0xC, 4, decide (mi ≤ if s.isX then 768 else 384) && c.late (decide (s.dev.mirrorGib ≤ mi) || decide (s.mirrorHeld ≤ mi * gib))⟩]

/-- A POOL_SET KIND 0 that clears COMPAT releases every tier-2 copy of its allotment (R273). -/
def State.dropCopies (s : State) (c : Cmd) : State :=
  let a := c.par 1 1
  if c.opcode = 0x0210 ∧ c.par 0 1 = 0 ∧ bitOf (c.par 2 1) 1 = false then
    (s.al a).objs.foldl (fun u e => u.dropShadow a (handleOf e.1 e.2.reuse)) s
  else s

/-- POOL_SET KIND 0; copies made since its acceptance are released with COMPAT. -/
def State.setPools (s : State) (c : Cmd) : State :=
  (s.modAl (c.par 1 1) (fun x => { x with
    pools := poolNumbers.map c.poolAt, evictOff := bitOf (c.par 2 1) 0, compat := bitOf (c.par 2 1) 1 })).dropCopies c

/-- POOL_SET KIND 1: the regions, kept in the configuration store (R439). A change of MIRROR_GIB ends the copies kept of a lost
partner (R377). -/
def State.setRegions (s : State) (c : Cmd) : State :=
  let ck := c.par 8 4
  let mi := c.par 0xC 4
  if s.pair.bound ∧ mi ≠ s.dev.mirrorGib then s.reject c.id (.wrongState, 0)
  else
    let p := if mi = s.dev.mirrorGib then s.pair else { s.pair with peerStores := [], peerReserved := [], staged := [], lostPartner := none }
    (({ s with dev := { s.dev with ckptGib := ck, mirrorGib := mi }, pair := p } : State).writeConfig (fun r =>
      { r with ckptGib := ck, mirrorGib := mi })).finishOk c.id 0

def State.poolSet (s : State) (c : Cmd) : State :=
  if c.par 0 1 = 0 then (s.setPools c).finishOk c.id 0 else s.setRegions c

/-- POOL_SET, from allotment 0 or the management controller, whose order is accepted as it is presented. -/
def execPoolSet (src : Src) (s : State) : Out :=
  match src with
  | .cmd id => s.order (.cmd id) 0x0210 poolSetFields State.poolSet
  | .mgmt p =>
    let c := { s.mgmtCmd 0x0210 p with phase := .accepted }
    (if s.mgmtUp && (s.judgeInline c (poolSetFields s c)).isNone then s.dropCopies c else s).order (.mgmt p) 0x0210 poolSetFields State.poolSet

end Sys2Proof.Machine
end

