-- ==== Sys2Proof/Machine/Tempers.lean ====
section
/-! DEFINITION. Ladders, roles, scale codes and working copies of steered layers (R137 to R142, R191 to R193). -/

namespace Sys2Proof.Machine

/-! ## Ladders (R137, R138, R163) -/

/-- The default ladder. -/
def defaultLadder : List Rung :=
  [{ w := ⟨1, 4, false⟩, a := ⟨2, 1, false⟩, g := ⟨3, 1, true⟩ },
   { w := ⟨2, 1, false⟩, a := ⟨2, 1, false⟩, g := ⟨3, 1, true⟩ },
   { w := ⟨4, 0, false⟩, a := ⟨4, 0, false⟩, g := ⟨4, 0, false⟩ },
   { w := ⟨5, 0, false⟩, a := ⟨5, 0, false⟩, g := ⟨4, 0, false⟩ }]

/-- Ladder n of an allotment. -/
def Temper.ladder (x : Temper) (n : Nat) : List Rung := if n = 0 then defaultLadder else (look n x.ladders).getD []

/-- A role (0 W, 1 A, 2 G) of a rung. -/
def Rung.role (r : Rung) (i : Nat) : Role :=
  match i with
  | 0 => r.w
  | 1 => r.a
  | _ => r.g

/-- The role of a layer at a rung. -/
def Temper.roleAt (x : Temper) (l : Layer) (rung i : Nat) : Role := ((x.ladder l.ladder).getD rung {}).role i

/-- The object scale mode of a temper scale mode (R137). -/
def objMode (mode : Nat) : Nat :=
  match mode with
  | 0 => 0
  | 1 => 1
  | 2 => 2
  | 3 => 3
  | 4 => 4
  | _ => 2

/-- A format and a temper scale mode that R137 and R139 allow for a role. -/
def roleOk (i : Nat) (r : Role) : Bool :=
  match r.mode with
  | 0 => r.fmt == 4 || r.fmt == 5
  | 1 => inRange 1 3 r.fmt
  | 2 => decide (r.fmt ≤ 3)
  | 3 => decide (r.fmt ≤ 3)
  | 4 => i == 0 && inRange 1 3 r.fmt
  | 5 => i == 0 && decide (r.fmt ≤ 3)
  | _ => false

def isLearned (mode : Nat) : Bool := mode == 4 || mode == 5

/-- The rungs within a layer's bounds. -/
def Temper.boundRungs (x : Temper) (l : Layer) : List Rung :=
  ((x.ladder l.ladder).drop l.lo).take (l.hi + 1 - l.lo)

/-! ## Scale codes (R141, R142) -/

/-- The delayed code of a slot (0 W, 1 A, 2 G, 3 O). -/
def Layer.code (l : Layer) (slot : Nat) : Nat := l.scales.getD slot 127

/-- The scale code of a learned λ. -/
def lambdaCode (x : Fp) : Nat :=
  match x with
  | .nan _ => 255
  | .inf s => if s then 0 else 254
  | .fin s m e =>
    let k : Int := rne m e 0
    ((max (-127) (min 127 (if s then -k else k))) + 127).toNat

/-- Element r of a learned-scale object, in element order. A learned mode of a layer without W_SCALES, which a later ladder record
may bring within its bounds, reads λ = +0. DESIGN CHOICE (log 59). -/
def Obj.lambda (o : Obj) (r : Nat) : Fp :=
  if o.t.rowLen = 0 then .zero false else o.t.narrow (r / o.t.rowLen * (32 * o.t.units) + r % o.t.rowLen)

/-- Elements of a learned-scale object. -/
def Obj.lambdas (o : Obj) : Nat := o.t.rows * o.t.rowLen

/-- Blocks of 32 elements in a λ group. -/
def Layer.groupLen (l : Layer) : Nat := if l.group = 0 then 1 else l.group

/-- The number of the λ of element i of a W tensor under a learned mode. -/
def Layer.lambdaIndex (l : Layer) (t : Tensor) (mode i : Nat) : Nat :=
  if mode = 4 then t.rowOf i
  else t.rowOf i * ceilDiv t.units l.groupLen + t.colOf i / 32 / l.groupLen

/-- The scale code that a conversion of a role is given at element i; none where it chooses one or has none. -/
def State.roleCode (s : State) (a : Nat) (l : Layer) (r : Role) (slot : Nat) (t : Tensor) (i : Nat) : Option Nat :=
  match r.mode with
  | 1 => some (l.code slot)
  | 4 => some (lambdaCode ((s.objD a l.wScales).lambda (l.lambdaIndex t 4 i)))
  | 5 => some (lambdaCode ((s.objD a l.wScales).lambda (l.lambdaIndex t 5 i)))
  | _ => none

/-! ## Working copies (R140, R173, R191) -/

/-- An empty working copy of a master for a role. -/
def copyTensor (master : Tensor) (r : Role) : Tensor :=
  { raw := false, fmt := r.fmt, smode := objMode r.mode, rows := master.rows, rowLen := master.rowLen }

/-- The bytes that a working copy takes: its planes. -/
def copyBytes (master : Tensor) (r : Role) : Nat := (copyTensor master r).size

/-- A block written into the planes of a tensor. -/
def Tensor.putBlock (t : Tensor) (i : Nat) (r : CvOut) : Tensor :=
  let b := i / blockLen t.smode
  let d1 := cellWrite t.data (i * elemBits t.fmt / 8) (packCodes t.fmt r.codes)
  let d2 := if isBlock t.smode then
      let m := t.markOff + b / 8
      cellWrite (cellWrite d1 (t.scaleOff + b) [BitVec.ofNat 8 r.scale]) m [setBit (cellGet d1 m) (b % 8) r.marker]
    else if t.smode = 4 then cellWrite d1 (t.scaleOff + t.rowOf i) [BitVec.ofNat 8 r.scale]
    else d1
  { t with data := d2 }

/-- Code j of a converted block as a number: +0 in a block whose scale is 0xFF (R191). -/
def CvOut.value (r : CvOut) (fmt : Nat) (grid : List Nat) (j : Nat) : Fp :=
  match r.lifted.find? (fun l => l.1 == j) with
  | some l => decB16 l.2
  | none => if r.scale = 255 ∨ r.marker = true then .zero false else decScaled fmt grid r.scale (r.codes.getD j 0)

/-- The residual left by an element: bf16(y − decode(code)); +0 for NaN (R191). -/
def residualOf (y q : Fp) : Nat :=
  match y with
  | .nan _ => 0
  | .inf _ => (satB16 (y.sub q)).1
  | .fin _ _ _ => (satB16 (y.sub q)).1

/-- What the writing of a working copy keeps. -/
structure CopyAcc where
  s : State
  t : Tensor
  res : Bytes
  stats : SlotStats := {}
  chmax : List (Nat × Nat) := []

/-- The inputs of a unit of the master, with the residual added where there is one. The master keeps its own elements; the side
rows of its binding belong to its working copy. DEDUCED (log 27). -/
def copyInputs (m : Obj) (ef : Bool) (res : Bytes) (i0 : Nat) : List CvIn :=
  (List.range 32).map (fun k =>
    let i := i0 + k
    if m.t.colOf i < m.t.rowLen then
      let x := (sat32 (m.t.narrow i)).1
      .val (dec32 (if ef then add32 x (w32 (leNat (cellRead res (2 * i) 2) * 65536)) else x))
    else .pad)

/-- One unit of a working copy. list: the channel lists in force, where the master is bound; a saturated element of an overflowed
channel counts in SPILL_OVER (R181). -/
def CopyAcc.unit (acc : CopyAcc) (a : Nat) (l : Layer) (r : Role) (h : Nat) (ef : Bool) (list : List (Nat × List Nat)) (u : Nat) : CopyAcc :=
  let m := acc.s.objD a h
  let i0 := 32 * u
  let xs := copyInputs m ef acc.res i0
  let isSp (i : Nat) : Bool := match m.chan with
    | some c => spilledBy list (chanOf m.t c.axis i)
    | none => false
  let sp := (xs.zipIdx i0).filterMap (fun e => match e.1 with
    | .val x => if isSp e.2 then some (e.2, x) else none
    | .pad => none
    | .spilled => none)
  let kept := (xs.zipIdx i0).map (fun e => match e.1 with
    | .val x => if isSp e.2 then CvIn.spilled else .val x
    | .pad => .pad
    | .spilled => .spilled)
  let s1 := match m.chan with
    | some c => acc.s.writeSpilled a m c list i0 sp
    | none => acc.s
  let n := blockLen acc.t.smode
  let axis := (m.chan.map (·.axis)).getD 1
  let po (i : Nat) (sats : List Nat) : Nat := match m.chan with
    | some c => (sats.filter (fun k => passedBy l.spill.passed (chanOf m.t c.axis (i + k)))).length
    | none => 0
  let acc1 : CopyAcc := { acc with
    s := s1
    chmax := gatherMax m.t axis i0 xs acc.chmax
    stats := { acc.stats with spillUsed := acc.stats.spillUsed + sp.length
                              saturated := acc.stats.saturated + (sp.filter (fun x => (satB16 x.2).2)).length } }
  (pieces n kept).zipIdx.foldl (fun ac e =>
    let i := i0 + n * e.2
    let given := ac.s.roleCode a l r 0 m.t i
    let o := convertBlock { fmt := r.fmt, given := given, block := isBlock (objMode r.mode) } (fun _ => none) e.1
    let res := if !ef then ac.res else
      (e.1.zipIdx).foldl (fun d x => match x.1, (xs.getD (n * e.2 + x.2) .pad) with
        | .val y, _ => cellWrite d (2 * (i + x.2)) (leBytes (residualOf y (o.value r.fmt [] x.2)) 2)
        | .spilled, .val y => cellWrite d (2 * (i + x.2)) (leBytes (residualOf y (decB16 (satB16 y).1)) 2)
        | _, _ => d) ac.res
    let st := ac.stats.add o.stats
    { ac with t := ac.t.putBlock i o, res := res, stats := { st with spillOver := st.spillOver + po i o.sats } }) acc1

/-- The layer has error feedback for its working copy at this role (R191). -/
def Layer.feedback (l : Layer) (r : Role) : Bool := l.spill.efW && isFourBit r.fmt && l.residual.isSome

/-- The working copy's storage fits the rung in force (R140, R151). -/
def State.hasCopy (s : State) (a : Nat) (l : Layer) : Bool :=
  let r := (s.al a).temper.roleAt l l.rung 0
  l.copy.isSome && l.copyKey == some (r.fmt, r.mode, l.wMaster)

/-- What the writing of a layer's working copy reads: the elements of its master, and its λ under a learned mode (R141). -/
def State.copyReads (s : State) (a : Nat) (l : Layer) : List Range :=
  (a, l.wMaster, 0, (s.objD a l.wMaster).t.elemBytes) ::
    (if isLearned ((s.al a).temper.roleAt l l.rung 0).mode then [(a, l.wScales, 0, (s.objD a l.wScales).t.elemBytes)] else [])

/-- What it writes beside the copy: the side records of a channel-bound master (R173, R175). -/
def State.copyWrites (s : State) (a : Nat) (l : Layer) : List Range :=
  let m := s.objD a l.wMaster
  match m.chan with
  | none => []
  | some c =>
    if c.axis = 0 then [(a, c.side, 0, m.t.rows * ceilDiv m.t.rowLen 256 * 24)]
    else (List.range (ceilDiv m.t.rows 256)).map (fun w => (a, c.side, chanRecord m.t 1 (256 * w * (32 * m.t.units)), 8))

/-- The poisoned block that the writing of a layer's working copy meets. -/
def State.copyPoison (s : State) (a : Nat) (l : Layer) : Option (Nat × Nat × Nat × Nat) :=
  (s.poisonOf (s.copyReads a l)).orElse (fun _ => s.poisonPartOf (s.copyWrites a l))

/-- The byte events of the writing of a working copy (R242, R451): the copy, and the residual read and written. -/
def State.countCopy (s : State) (c : Cmd) (m : Obj) (copy : Tensor) (ef : Bool) : State :=
  let h := if m.tier < 2 then m.hearth else 0
  let t := s.countBytes c 1 (some h) copy.size
  if ef then (t.countBytes c 1 (some h) (2 * m.t.elems)).countBytes c 1 (some h) (2 * m.t.elems) else t

/-- The working copy of a layer is written from its master at the layer's rung (R140), for command c. -/
def State.writeCopy (s : State) (c : Cmd) (a layer : Nat) : State :=
  match s.layer? a layer with
  | none => s
  | some l =>
    let r := (s.al a).temper.roleAt l l.rung 0
    let m := s.objD a l.wMaster
    let t0 := { copyTensor m.t r with tscale := if r.mode = 1 then l.code 0 else 127 }
    let ef := l.feedback r && !(s.al a).upd.frozen.contains l.wMaster
    let list := if m.chan.isSome then l.spill.lists else []
    let acc := (List.range (m.t.rows * m.t.units)).foldl (fun ac u => ac.unit a l r l.wMaster ef list u)
      ({ s := s, t := t0, res := l.residual.getD [] } : CopyAcc)
    let st := acc.stats
    let set (x : Layer) : Layer := { x with
      copy := some acc.t, copyValid := true, residual := if ef then some acc.res else x.residual }
    ((acc.s.modLayer a layer (fun x => ((set x).gather 0 st).gatherMax 1 acc.chmax)).countConv c none (some layer) st).countCopy
      c m acc.t ef

/-- The same where the master is read for it. -/
def State.copyFrom (s : State) (c : Cmd) (a layer : Nat) : State :=
  let m := s.objD a (((s.layer? a layer).map (·.wMaster)).getD 0)
  (s.writeCopy c a layer).countBytes c m.tier (some m.hearth) m.t.elemBytes

end Sys2Proof.Machine
end

