-- ==== Sys2Proof/Machine/Tiles.lean ====
section
/-! DEFINITION. TILE_RUN: descriptors and their checks, stamps, K-split groups and their buffers (R39 to R62, R116, R118, R128,
R327), and GRID_LOAD (R83 to R86, R328). -/

namespace Sys2Proof.Machine

/-! ## Descriptors (R55 to R57) -/

/-- Fields of a descriptor, the 64 bytes as a little-endian number. -/
def dOp (d : Nat) : Nat := bitsOf d 0 4
def dShape (d : Nat) : Nat := bitsOf d 4 2
def dAcc (d : Nat) : Nat := bitsOf d 6 2
def dComp (d : Nat) : Bool := bitOf d 8
def dZeroFill (d : Nat) : Bool := bitOf d 9
def dStochCombine (d : Nat) : Bool := bitOf d 10
def dSpill (d : Nat) : Bool := bitOf d 11
def dLayer (d : Nat) : Nat := bitsOf d 16 16
def dEpi (d : Nat) : Nat := bitsOf d 56 2
def dOFmt (d : Nat) : Nat := bitsOf d 48 4
def dEFmt (d : Nat) : Nat := bitsOf d 58 4
def dM (d : Nat) : Nat := bitsOf d 320 16
def dK (d : Nat) : Nat := bitsOf d 336 16
def dN (d : Nat) : Nat := bitsOf d 352 16
def dPass (d : Nat) : Nat := bitsOf d 368 8
def dPasses (d : Nat) : Nat := bitsOf d 376 8
def dMaskKind (d : Nat) : Nat := bitsOf d 448 2
def dMaskLines (d : Nat) : Bool := bitOf d 450
def dMaskA (d : Nat) : Nat := bitsOf d 464 16
def dMaskB (d : Nat) : Nat := bitsOf d 480 32

/-- Which operand of an op. -/
inductive Side where
  | s | t | o | e
  deriving DecidableEq, Repr

def Side.index : Side → Nat
  | .s => 0
  | .t => 1
  | .o => 2
  | .e => 3

/-- Handle, offset in units and row distance of an operand. -/
def dHandle (d : Nat) (x : Side) : Nat := bitsOf d (64 + 64 * x.index) 32
def dOff (d : Nat) (x : Side) : Nat := bitsOf d (96 + 64 * x.index) 32
def dLd (d : Nat) (x : Side) : Nat := bitsOf d (384 + 16 * x.index) 16

/-- Rows and extent of an operand as it is stored (R42 to R44). -/
def dRows (d : Nat) (x : Side) : Nat :=
  match x with
  | .s => if dOp d = 3 then dK d else dM d
  | .t => if dOp d = 2 then dN d else dK d
  | .o => dM d
  | .e => dM d

def dExt (d : Nat) (x : Side) : Nat :=
  match x with
  | .s => if dOp d = 3 then dM d else dK d
  | .t => if dOp d = 2 then dK d else dN d
  | .o => dN d
  | .e => dN d

/-- Format code, role and TEMPER bit of S or T. -/
def dFmt (d : Nat) (x : Side) : Nat := bitsOf d (32 + 8 * x.index) 4
def dRole (d : Nat) (x : Side) : Nat := bitsOf d (36 + 8 * x.index) 2
def dTemper (d : Nat) (x : Side) : Bool := bitOf d (38 + 8 * x.index)

/-- The first element of stored row r of an operand. -/
def dElem (d : Nat) (x : Side) (r : Nat) : Nat := 32 * (dOff d x + r * dLd d x)

/-- The reserved fields of a descriptor are 0. -/
def dRsvdOk (d : Nat) : Bool :=
  bitsOf d 12 4 == 0 && !bitOf d 39 && !bitOf d 47 && !bitOf d 55 && bitsOf d 62 2 == 0 && bitsOf d 451 13 == 0

/-- Billet class of an input format (R39). -/
def billetClass (fmt : Nat) : Nat :=
  match fmt with
  | 0 => 1
  | 1 => 1
  | 2 => 2
  | 3 => 2
  | 7 => 2
  | 5 => 6
  | _ => 4

/-! ## Operands and stamps (R128, R133, R140) -/

/-- The operand of a descriptor names the master of its layer as W, so that it reads the valid working copy (R140). -/
def readsCopy (l : Layer) (d : Nat) (x : Side) : Bool :=
  dTemper d x && dRole d x == 0 && dHandle d x == l.wMaster && l.wMaster != 0 && l.copyValid && l.copy.isSome

/-- What an operand reads: its object, or the master's object with the planes of the working copy. -/
def State.operand (s : State) (a d : Nat) (x : Side) : Obj :=
  let o := s.objD a (dHandle d x)
  match s.layer? a (dLayer d) with
  | some l => if readsCopy l d x then { o with t := l.copy.getD o.t, val := none } else o
  | none => o

/-- The format that an operand is fed in. -/
def State.fedFmt (s : State) (a d : Nat) (st : Option Role) (x : Side) : Nat :=
  match st with
  | some r => r.fmt
  | none => (s.objD a (dHandle d x)).t.fmt

/-- The stamp of a descriptor at a rung (R128, R169). -/
def State.stampOf (s : State) (a d rung : Nat) : Stamp :=
  match s.layer? a (dLayer d) with
  | none => {}
  | some l =>
    let role (x : Side) : Option Role := if dTemper d x then some ((s.al a).temper.roleAt l rung (dRole d x)) else none
    { rung := rung, s := role .s, t := role .t, sCode := l.code (dRole d .s), tCode := l.code (dRole d .t), lists := l.spill.lists }

/-- The rung that the op of a descriptor is stamped with. -/
def State.rungNow (s : State) (a d : Nat) : Nat := ((s.layer? a (dLayer d)).map (·.rung)).getD 0

/-! ## Checks of a descriptor (R58, R59) -/

/-- A region of an operand lies in its tensor. -/
def State.regionOk (s : State) (a d : Nat) (x : Side) : Bool :=
  let o := s.objD a (dHandle d x)
  s.nameable a (dHandle d x) && !o.t.raw &&
  decide (dOff d x + (dRows d x - 1) * dLd d x + ceilDiv (dExt d x) 32 ≤ o.t.rows * o.t.units)

/-- Every λ that the operand needs exists (R59, R141). -/
def State.lambdasOk (s : State) (a d : Nat) (l : Layer) (r : Role) (x : Side) : Bool :=
  !isLearned r.mode || dRole d x != 0 ||
  (let o := s.objD a (dHandle d x)
   let n := (s.objD a l.wScales).lambdas
   (List.range (dRows d x)).all (fun k => decide (l.lambdaIndex o.t r.mode (dElem d x k + 32 * (ceilDiv (dExt d x) 32 - 1)) < n)))

/-- An input operand meets its rules, its scale mode that of R80 and R81 among them. DESIGN CHOICE (log 24): an S_FMT or T_FMT that is
not its object's format breaks them, too. -/
def State.inputOk (s : State) (a d : Nat) (st : Stamp) (x : Side) : Bool :=
  let o := s.objD a (dHandle d x)
  dRole d x != 3 && s.regionOk a d x && modeOk o.t.fmt o.t.smode &&
  (if dTemper d x then
     dFmt d x == 0 && !isIntFmt o.t.fmt &&
     (match s.layer? a (dLayer d), (match x with | .s => st.s | _ => st.t) with
      | some l, some r => s.lambdasOk a d l r x
      | _, _ => false)
   else decide (dFmt d x ≤ 7) && dFmt d x == o.t.fmt)

/-- The mask of a descriptor resolves and is long enough. -/
def State.maskOk (s : State) (a d : Nat) : Bool :=
  match dMaskKind d with
  | 0 => true
  | 1 => true
  | 2 => s.nameable a (dMaskB d) &&
      decide (64 * dMaskA d + (if dMaskLines d then dK d else dM d) ≤ 8 * (s.objD a (dMaskB d)).size)
  | _ => false

/-- C and P of the grid (R41, R47). -/
def gridC (shape cls : Nat) : Nat := 256 / (2 ^ shape * cls)
def gridP (shape cls : Nat) : Nat := 2 ^ shape * (256 / cls)

/-- A descriptor by itself meets the rules of R59; an O_FMT or E_FMT that is not its object's format breaks them. DESIGN
CHOICE (log 24). -/
def State.descOk (s : State) (a d : Nat) : Bool :=
  let st := s.stampOf a d (s.rungNow a d)
  let sf := s.fedFmt a d st.s .s
  let tf := s.fedFmt a d st.t .t
  let epi := dEpi d
  dRsvdOk d && inRange 1 3 (dOp d) && dAcc d != 3 && epi != 3 && dMaskKind d != 3 &&
  (epi != 0 || (bitsOf d 256 64 == 0 && dLd d .e == 0 && dEFmt d == 0)) &&
  dM d != 0 && dK d != 0 && dN d != 0 && !(dOp d == 2 && dShape d != 0) && !(dAcc d == 1 && dZeroFill d) &&
  (if dAcc d = 2 then inRange 2 255 (dPasses d) && decide (dPass d < dPasses d) else bitsOf d 368 16 == 0) &&
  !(dSpill d && dOp d != 1) &&
  s.inputOk a d st .s && s.inputOk a d st .t && s.regionOk a d .o && (epi == 0 || s.regionOk a d .e) &&
  isIntFmt sf == isIntFmt tf && isIntFmt (dOFmt d) == isIntFmt sf &&
  dOFmt d == (s.objD a (dHandle d .o)).t.fmt && (epi == 0 || dEFmt d == (s.objD a (dHandle d .e)).t.fmt) &&
  decide (dK d ≤ gridC (dShape d) (billetClass sf)) && decide (dN d ≤ gridP (dShape d) (billetClass tf)) && s.maskOk a d

/-! ## K-split groups (R60, R116, R118) -/

/-- Two descriptors belong to one group. -/
def sameGroup (d e : Nat) : Bool :=
  dAcc d == 2 && dAcc e == 2 && bitsOf d 192 64 == bitsOf e 192 64 && dLd d .o == dLd e .o && dM d == dM e && dN d == dN e

/-- The members of a group agree. -/
def groupAgrees (d e : Nat) : Bool :=
  dPasses d == dPasses e && bitsOf d 48 14 == bitsOf e 48 14 && bitsOf d 256 64 == bitsOf e 256 64 && dLd d .e == dLd e .e &&
  dComp d == dComp e && dZeroFill d == dZeroFill e && bitsOf d 448 64 == bitsOf e 448 64

/-- The list position of each member of the group of descriptor d, by pass number. -/
def groupOf (ds : List Nat) (d : Nat) : List (Nat × Nat) :=
  sortBy (fun e => (e.1, e.2)) ((ds.zipIdx).filterMap (fun e => if sameGroup d e.1 then some (dPass e.1, e.2) else none))

/-- The descriptor at position j breaks the rules of its group. -/
def groupBad (ds : List Nat) (d : Nat) : Bool :=
  dAcc d == 2 &&
  (let g := groupOf ds d
   g.map (·.1) != List.range (dPasses d) || !(g.all (fun e => groupAgrees d (ds.getD e.2 0))))

/-- Member j is out of turn: a member with a lower pass number comes later in the list (R118). -/
def outOfTurn (ds : List Nat) (j : Nat) : Bool :=
  let d := ds.getD j 0
  (groupOf ds d).any (fun e => decide (j < e.2) && decide (e.1 < dPass d))

/-- The running sum of the group is kept in O itself (R116). int: an integer op. -/
def sumInO (d : Nat) (int : Bool) : Bool := dOFmt d == (if int then 9 else 8) && !(dComp d && !int) && dEpi d == 0

/-- The allocations of the group whose pass 0 has descriptor d: the combine buffer, then one park slot for each member out of
turn. int: an integer op. -/
def groupNeeds (ds : List Nat) (d : Nat) (int : Bool) : List Nat :=
  let comp := dComp d && !int
  let unit := dM d * dN d * 4 * (if comp then 2 else 1)
  (if sumInO d int then [] else [unit]) ++ ((groupOf ds d).filter (fun e => outOfTurn ds e.2)).map (fun _ => unit)

/-- The list positions of the first members of the groups of a list. -/
def groupHeads (ds : List Nat) : List Nat :=
  (List.range ds.length).filter (fun j => dAcc (ds.getD j 0) == 2 && (groupOf ds (ds.getD j 0)).all (fun g => decide (j ≤ g.2)))

/-- The allocations of the group whose first member is at position j. -/
def headNeeds (ds : List Nat) (j : Nat) : List Nat := groupNeeds ds (ds.getD j 0) (isIntFmt (dOFmt (ds.getD j 0)))

/-- Buffers taken for command id on hearth h: tier 0, else tier 1; none when neither pool can hold one (R116). -/
def State.takeBuffers (s : State) (a id h : Nat) : List Nat → Option State
  | [] => some s
  | n :: r =>
    if s.fits a h n then (s.charge a (.buffer id) h n).takeBuffers a id h r
    else if s.fits a (2 + h) n then (s.charge a (.buffer id) (2 + h) n).takeBuffers a id h r
    else none

/-! ## TILE_RUN (R59, R62, R327) -/

def tileRunFields (s : State) (c : Cmd) : List Fld :=
  [⟨0, 8, s.refOk c.allot (c.par 0 8) 64 (64 * c.par 8 4)⟩, c.ranged 8 4 1 65535, c.ranged 0xC 1 0 1, anyVal 0x10 8, anyVal 0x18 4]

/-- The descriptors of a TILE_RUN. -/
def State.descsOf (s : State) (c : Cmd) : List Nat := (recordsOf 64 (s.readRef c.allot (c.par 0 8) 64 (64 * c.par 8 4))).map leNat

/-- An earlier TILE_RUN of the allotment for the hearth has not been handed over (R62). -/
def State.tileAhead (s : State) (c : Cmd) : Bool :=
  s.hg.cmds.any (fun d => decide (d.id < c.id) && d.opcode == 0x0301 && d.allot == c.allot && d.par 0xC 1 == c.par 0xC 1 &&
    d.phase == .started)

/-- The last free sequencer of a hearth is kept for an UPD_APPLY accepted before command c whose products may still need one (R230). DEDUCED
(log 62). -/
def State.seqKept (s : State) (c : Cmd) (h : Nat) : Bool :=
  decide (3 ≤ (s.he h).lists.length) &&
  s.hg.cmds.any (fun d => d.opcode == 0x0502 && d.open && d.phase != .held && decide (d.id < c.id) && !(s.he h).lists.any (fun l => l.cmd == d.id))

/-- The first descriptor that breaks a rule. -/
def State.badDesc (s : State) (a : Nat) (ds : List Nat) : Option Nat :=
  match ds.findIdx? (fun d => !s.descOk a d) with
  | some j => some j
  | none => ds.findIdx? (fun d => groupBad ds d)

/-- The list is handed to sequencer seq of hearth h. -/
def State.handOver (s : State) (c : Cmd) (h seq : Nat) (ds : List Nat) : State :=
  let ops := ds.map (fun d => ({ desc := d, stamp := s.stampOf c.allot d (s.rungNow c.allot d) } : OpRec))
  let l : TileList := { cmd := c.id, allot := c.allot, seq := seq, key := w64 (c.par 0x10 8), base := c.par 0x18 4, order := c.id, ops := ops }
  (s.modHe h (fun x => ({ x with lists := x.lists ++ [l] } : Hearth).noteShort)).goOn c.id []

/-- TILE_RUN: checks the list, stamps its ops and hands it to the free sequencer seq of its hearth. -/
def execTileRun (id seq : Nat) (s : State) : Out :=
  s.deant id 0x0301 tileRunFields (fun t c =>
    let a := c.allot
    let h := c.par 0xC 1
    if t.hearthOpen c h = false then t.reject id (.noResource, 0)
    else match t.poisonOf [(a, refHandle (c.par 0 8), bitsOf (c.par 0 8) 32 32 * 64, 64 * c.par 8 4)] with
    | some p => t.meetPoison c p
    | none =>
      let ds := t.descsOf c
      match t.badDesc a ds with
      | some j => t.reject id (badIn j)
      | none =>
        match t.reachable c (t.namesNow c) with
        | some v => t.reject id v
        | none =>
          match t.takeBuffers a id h ((groupHeads ds).flatMap (headNeeds ds)) with
          | none => t.reject id (.noResource, 0)
          | some u =>
            if t.tileAhead c ∨ t.seqKept c h ∨ 4 ≤ seq ∨ (t.he h).lists.any (fun l => l.seq == seq) = true then t
            else u.handOver c h seq ds)

/-! ## GRID_LOAD (R84 to R86, R328) -/

def gridLoadFields (s : State) (c : Cmd) : List Fld :=
  let o := s.objD c.allot (c.par 0 4)
  [⟨0, 4, s.nameable c.allot (c.par 0 4) && !o.t.raw && o.t.fmt == 1⟩, c.ranged 4 1 0 1] ++
  [if c.par 4 1 = 1 then c.mustBe0 8 16 else ⟨8, 16, (gridBad c.gridTable).isNone⟩]

/-- GRID_LOAD: the grid of an N4 tensor is replaced; its codes are not rewritten. -/
def execGridLoad (id : Nat) (s : State) : Out :=
  s.deant id 0x0405 gridLoadFields (fun t c =>
    (t.modObj c.allot (c.par 0 4) (fun o => { o with t := { o.t with grid := if c.par 4 1 = 1 then [] else c.gridTable } })).finishOk id 0)

end Sys2Proof.Machine
end

