-- ==== Sys2Proof/Machine/Fetch.lean ====
section
/-! DEFINITION. What an anvil reads and sums: masks, fetch conversion, products and accumulation (R42 to R54, R88, R90, R108 to
R111, R121, R122, R133, R134, R171, R176 to R179, R187, R188). -/

namespace Sys2Proof.Machine

/-! ## Masks (R50, R51, R55) -/

/-- The rows or lines that the mask of a descriptor feeds, of total ones. -/
def State.masked (s : State) (a d total : Nat) : List Nat :=
  match dMaskKind d with
  | 1 => (List.range total).filter (fun i => decide (dMaskA d ≤ i) && decide (i < dMaskA d + dMaskB d))
  | 2 =>
    let o := s.objD a (dMaskB d)
    (List.range total).filter (fun i => (cellGet o.t.data (8 * dMaskA d + i / 8)).toNat.testBit (i % 8))
  | _ => List.range total

/-- The streaming rows that are fed, and the contraction lines that take part. -/
def State.fedRows (s : State) (a d : Nat) : List Nat := if dMaskLines d then List.range (dM d) else s.masked a d (dM d)
def State.fedLines (s : State) (a d : Nat) : List Nat := if dMaskLines d then s.masked a d (dK d) else List.range (dK d)

/-! ## Elements as they are fed -/

/-- An element on its way to the sites: its number on the narrow line, its value for the strip where its operand is bound, and
its lifted value. -/
structure Fed where
  num : Fp
  wide : Option Fp := none
  lift : Option Fp := none
  deriving DecidableEq, Repr

/-- What the fetch of one operand works with: the descriptor, the object read, the layer, the stamped role, the fed rows and
lines, the lines in the strip, and the generator key and stream. -/
structure Fetch where
  s : State
  a : Nat
  d : Nat
  x : Side
  o : Obj
  l : Option Layer
  role : Option Role
  rows : List Nat
  lines : List Nat
  strip : List Nat
  key : Nat
  stream : Nat

/-- Streaming row and contraction line of element c of stored row r. -/
def Fetch.place (f : Fetch) (r c : Nat) : Nat × Nat :=
  match f.x with
  | .s => if dOp f.d = 3 then (c, r) else (r, c)
  | _ => (0, if dOp f.d = 2 then c else r)

/-- The element is fetched: not in padding, its row fed and its line taking part. -/
def Fetch.keep (f : Fetch) (r c : Nat) : Bool :=
  decide (c < dExt f.d f.x) && f.lines.contains (f.place r c).2 &&
  (if f.x = .s then f.rows.contains (f.place r c).1 else f.rows != [])

/-- The draw of an element of a stochastic fetch conversion (R134). -/
def Fetch.draw (f : Fetch) (r c : Nat) : Option Nat :=
  if (f.role.map (·.stoch)).getD false then
    let p := f.place r c
    let n := if f.x = .s then 2 ^ 64 + p.1 * dK f.d + p.2 else 2 ^ 65 + r * dExt f.d f.x + c
    some (Machine.draw f.key f.stream n)
  else none

/-- The operand is converted as it is read (R133). -/
def Fetch.converts (f : Fetch) : Bool :=
  match f.role with
  | some r => !(f.o.t.fmt == r.fmt && f.o.t.smode == objMode r.mode)
  | none => false

def Fetch.fmt (f : Fetch) : Nat := (f.role.map (·.fmt)).getD f.o.t.fmt

/-- The grid in which an element is fed: the default grid in a fetch conversion (R85). -/
def Fetch.grid (f : Fetch) : List Nat := if f.converts then [] else f.o.t.grid

/-- The value that a channel side record carries for element i. -/
def Fetch.carried (f : Fetch) (i : Nat) : Option Fp :=
  match f.o.val, f.o.chan with
  | none, some c => spilledAt f.o.t (f.s.objD f.a c.side) c.axis i
  | _, _ => none

/-- What a fetch has gathered: lifted entries used in each reach, the statistics, the channel maxima, an overflow, and the
decodes counted in ACC_SATURATED. -/
structure FetchAcc where
  used : List (Nat × Nat) := []
  stats : SlotStats := {}
  chmax : List (Nat × Nat) := []
  ovf : Bool := false
  accSat : Nat := 0
  any : Bool := false
  deriving DecidableEq, Repr

/-- The number of code j of a converted block on the narrow line. -/
def CvOut.narrow (r : CvOut) (fmt : Nat) (grid : List Nat) (j : Nat) : Fp :=
  if r.marker then .zero false else decScaled fmt grid r.scale (r.codes.getD j 0)

/-- Saturated elements i + k of overflowed channels (R181). -/
def Fetch.overs (f : Fetch) (i : Nat) (sats : List Nat) : Nat :=
  match f.o.chan, f.l with
  | some cb, some l => (sats.filter (fun k => passedBy l.spill.passed (chanOf f.o.t cb.axis (i + k)))).length
  | _, _ => 0

/-- The channel maxima of elements from element i on (R171). -/
def Fetch.maxima (f : Fetch) (i : Nat) (xs : List CvIn) (m : List (Nat × Nat)) : List (Nat × Nat) :=
  match f.o.chan with
  | some cb => gatherMax f.o.t cb.axis i xs m
  | none => m

/-- An element converted as a block of one, with a scale of its own (R176): a fetch conversion, with its channel's maximum. -/
def Fetch.solo (f : Fetch) (acc : FetchAcc) (r c : Nat) (v : Fp) : FetchAcc × Fed :=
  let i := dElem f.d f.x r + c
  let o := convertBlock { fmt := f.fmt, block := decide (f.fmt ≤ 3) } (fun _ => f.draw r c) [.val v]
  let po := f.overs i o.sats
  let st := acc.stats.add o.stats
  ({ acc with stats := { st with spillOver := st.spillOver + po }, chmax := f.maxima i [.val v] acc.chmax
              ovf := acc.ovf || decide (0 < po), any := true }, { num := o.narrow f.fmt [] 0 })

/-- An element that is fed as it is stored. -/
def Fetch.stored (f : Fetch) (acc : FetchAcc) (r c : Nat) : FetchAcc × Fed :=
  let i := dElem f.d f.x r + c
  let n := if isIntFmt f.o.t.fmt then Fp.ofInt (f.o.elemInt i) else f.o.t.narrow i
  if !f.keep r c then (acc, { num := n })
  else if f.o.chan.isNone then
    (acc, { num := n, lift := match f.o.val with
      | some v => liftedAt f.o.t (f.s.objD f.a v.side) (if v.quota = 0 then 1 else v.quota) i
      | none => none })
  else if f.strip.contains (f.place r c).2 then (acc, { num := n, wide := some ((f.carried i).getD n) })
  else match f.carried i with
    | some v => f.solo acc r c v
    | none => (acc, { num := n })

/-- The value spillway of a block of a fetch conversion: the free entries of its reach in the op's own list (R187). -/
def Fetch.spill (f : Fetch) (acc : FetchAcc) (i : Nat) : Option ValSpill :=
  match f.o.val with
  | none => none
  | some v =>
    let q := if v.quota = 0 then 1 else v.quota
    let r := f.o.t.reach (f.o.t.rowOf i) (f.o.t.colOf i / blockLen f.o.t.smode)
    some { perBlock := if v.perBlock = 0 then 2 else v.perBlock, gap := if v.gap = 0 then 2 else v.gap, free := q - lookN r acc.used }

/-- The wide value of a strip element in a fetch conversion: carried, or the decoded value in bfloat16, which saturates. -/
def Fetch.wideOf (f : Fetch) (i : Nat) : Fp × Nat :=
  match f.carried i with
  | some v => (v, 0)
  | none => let b := satB16 (dec32 (f.s.elem32 f.a f.o i).1); (decB16 b.1, b2n b.2)

/-- One block of n elements from column c0 of stored row r, converted to the stamped format and mode (R133). -/
def Fetch.block (f : Fetch) (r c0 n : Nat) (acc : FetchAcc) : FetchAcc × List Fed :=
  let role := f.role.getD {}
  let i0 := dElem f.d f.x r + c0
  let bound := f.o.chan.isSome
  let onStrip (c : Nat) : Bool := bound && f.strip.contains (f.place r c).2
  let cols := (List.range n).map (fun k => c0 + k)
  let dec (c : Nat) : W32 × Nat := f.s.elem32 f.a f.o (dElem f.d f.x r + c)
  let xs := cols.map (fun c =>
    if !f.keep r c then CvIn.pad
    else if onStrip c ∨ (f.carried (dElem f.d f.x r + c)).isSome = true then .spilled
    else .val (dec32 (dec c).1))
  let given := match f.l with
    | some l => f.s.roleCode f.a l role (dRole f.d f.x) f.o.t i0
    | none => none
  let o := convertBlock { fmt := role.fmt, given := given, block := isBlock (objMode role.mode), spill := f.spill acc i0 }
    (fun k => f.draw r (c0 + k)) xs
  let reach := f.o.t.reach (f.o.t.rowOf i0) (f.o.t.colOf i0 / blockLen f.o.t.smode)
  let kept := cols.filter (fun c => f.keep r c)
  let chmax := f.maxima i0 (cols.map (fun c => if f.keep r c then CvIn.val (dec32 (dec c).1) else .pad)) acc.chmax
  let po := f.overs i0 o.sats
  let strips := kept.filter onStrip
  let st := acc.stats.add o.stats
  let acc1 : FetchAcc := { acc with
    used := addN reach o.lifted.length acc.used
    stats := { st with
      spillOver := st.spillOver + po, spillUsed := st.spillUsed + strips.length
      saturated := st.saturated + sumN (strips.map (fun c => (f.wideOf (dElem f.d f.x r + c)).2)) }
    chmax := chmax, ovf := acc.ovf || o.ovf || decide (0 < po), any := true
    accSat := acc.accSat + sumN (kept.map (fun c => (dec c).2)) }
  (cols.zipIdx).foldl (fun st e =>
    let c := e.1
    let i := dElem f.d f.x r + c
    let base : Fed := { num := o.narrow role.fmt [] e.2, lift := (o.lifted.find? (fun q => q.1 == e.2)).map (fun q => decB16 q.2) }
    if !f.keep r c then (st.1, st.2 ++ [base])
    else if onStrip c then (st.1, st.2 ++ [{ base with wide := some (f.wideOf i).1 }])
    else match f.carried i with
      | some v => let q := f.solo st.1 r c v; (q.1, st.2 ++ [q.2])
      | none => (st.1, st.2 ++ [base])) (acc1, ([] : List Fed))

/-- A stored row of an operand. -/
def Fetch.row (f : Fetch) (r : Nat) (acc : FetchAcc) : FetchAcc × List Fed :=
  let ext := dExt f.d f.x
  if f.converts then
    let n := blockLen (objMode (f.role.getD {}).mode)
    (List.range (ceilDiv ext 32 * (32 / n))).foldl (fun st k =>
      let q := f.block r (n * k) n st.1
      (q.1, st.2 ++ q.2)) (acc, ([] : List Fed))
  else
    (List.range ext).foldl (fun st c => let q := f.stored st.1 r c; (q.1, st.2 ++ [q.2])) (acc, ([] : List Fed))

/-- The whole operand; a row that nothing needs is not read. -/
def Fetch.run (f : Fetch) : FetchAcc × List (List Fed) :=
  (List.range (dRows f.d f.x)).foldl (fun st r =>
    let q := f.row r st.1
    (q.1, st.2 ++ [q.2])) ({}, [])

/-! ## The strip (R177, R180) -/

/-- The contraction lines of an MM op with SPILL whose channels its layer spills; none on an op that does not use the strip. -/
def State.stripLines (s : State) (a d : Nat) (st : Stamp) : List Nat :=
  let sobj := s.operand a d .s
  let tobj := s.operand a d .t
  let sf := s.fedFmt a d st.s .s
  let tf := s.fedFmt a d st.t .t
  if dOp d = 1 ∧ dSpill d = true ∧ billetClass sf ≤ 2 ∧ billetClass tf ≤ 2 ∧ isIntFmt sf = false then
    (List.range (dK d)).filter (fun k =>
      match sobj.chan, tobj.chan with
      | some c, _ => if c.axis = 0 then spilledBy st.lists (sobj.t.colOf (dElem d .s 0 + k)) else
          (match tobj.chan with
           | some e => e.axis == 1 && spilledBy st.lists (tobj.t.rowOf (dElem d .t k))
           | none => false)
      | none, some e => e.axis == 1 && spilledBy st.lists (tobj.t.rowOf (dElem d .t k))
      | none, none => false)
  else []

/-! ## Products and sums (R88, R90, R108 to R111, R121, R179) -/

/-- A product enters the FP32 accumulator (R90): the value, and its counts in ACC_SATURATED and ACC_ZEROED. -/
def enterProduct (p : Fp) : W32 × Nat × Nat :=
  match p with
  | .nan _ => (0x7FC00000#32, 0, 0)
  | .inf t => (w32 (signBit t + 0x7F800000), 0, 0)
  | .fin t m e =>
    if m = 0 then (w32 (signBit t), 0, 0)
    else if 128 ≤ flog2 m e then (w32 (signBit t + 0x7F7FFFFF), 1, 0)
    else if flog2 m e < -126 then (w32 (signBit t), 0, 1)
    else (enc32 (.fin t m e), 0, 0)

/-- A running sum: the words s and c of R121 (c is +0 out of compensated mode), and its counts. -/
structure Sum where
  s : W32 := 0
  c : W32 := 0
  sat : Nat := 0
  zeroed : Nat := 0
  /-- it holds at least one product -/
  any : Bool := false
  deriving DecidableEq, Repr

/-- A product added to a floating-point sum. -/
def Sum.push (x : Sum) (comp : Bool) (p : W32 × Nat × Nat) : Sum :=
  let y := { x with sat := x.sat + p.2.1, zeroed := x.zeroed + p.2.2 }
  if !x.any then { y with s := p.1, any := true }
  else if comp then
    let (t, e, k) := twoSum x.s p.1
    let c := accAdd x.c e
    { y with s := t, c := c.1, sat := y.sat + k + c.2 }
  else let t := accAdd x.s p.1; { y with s := t.1, sat := y.sat + t.2 }

/-- An integer product added to a sum (R110). -/
def Sum.pushInt (x : Sum) (p : Int) : Sum :=
  let t := satI32 (int32 x.s + p)
  { x with s := t.1, sat := x.sat + t.2, any := true }

/-- The pair of another sum folded in (R122), or one further addition (R115, R179). -/
def Sum.fold (x y : Sum) (comp : Bool) : Sum :=
  let n := x.sat + y.sat
  let z := x.zeroed + y.zeroed
  if comp then
    let (t, e, k) := twoSum x.s y.s
    let c1 := accAdd x.c y.c
    let c2 := accAdd c1.1 e
    { s := t, c := c2.1, sat := n + k + c1.2 + c2.2, zeroed := z, any := true }
  else let t := accAdd x.s y.s; { s := t.1, sat := n + t.2, zeroed := z, any := true }

/-- The grid sum and the strip sum merge (R179). -/
def Sum.merge (g st : Sum) (comp : Bool) : Sum := if !st.any then g else if !g.any then st else g.fold st comp

/-- One line of a sum: whether it runs on the strip, and the two elements. -/
abbrev Line := Bool × Fed × Fed

/-- The value of an element on the strip. -/
def Fed.onStrip (x : Fed) : Fp := x.wide.getD x.num

/-- The sum of one output element over its lines in increasing contraction index. -/
def sumLines (int comp : Bool) (ls : List Line) : Sum :=
  if int then ls.foldl (fun a l =>
    match l.2.1.num, l.2.2.num with
    | .fin s m _, .fin t n _ => a.pushInt ((if s then -(m : Int) else m) * (if t then -(n : Int) else n))
    | _, _ => a) {}
  else
    let g := (ls.filter (fun l => !l.1)).foldl (fun a l => a.push comp (enterProduct (l.2.1.num.mul l.2.2.num))) ({} : Sum)
    let st := (ls.filter (fun l => l.1)).foldl (fun a l => a.push comp (enterProduct (l.2.1.onStrip.mul l.2.2.onStrip))) ({} : Sum)
    g.merge st comp

/-- The factors of the lifted products of an output element, in the order of R188: S before T at equal index. -/
def liftFactors (ls : List Line) : List (W32 × W32) :=
  ls.flatMap (fun l =>
    let t := l.2.2.lift.getD (if l.1 then l.2.2.onStrip else l.2.2.num)
    (match l.2.1.lift with
     | some v => [((sat32 v).1, (sat32 t).1)]
     | none => []) ++
    (match l.2.2.lift with
     | some v => [((sat32 l.2.1.num).1, (sat32 v).1)]
     | none => []))

/-- The correction of R188: fused multiply-adds in FP32. -/
def correction (fs : List (W32 × W32)) : W32 := fs.foldl (fun c f => fma32 f.1 f.2 c) 0

end Sys2Proof.Machine
end

