-- ==== Sys2Proof/Machine/TileOps.lean ====
section
/-! DEFINITION. TILE_OP_ISSUE and TILE_OP_COMPLETE: the tile scoreboard, the work of an op, the K-split combine, the epilogue,
the output conversion, the judgement against HARD_SAT and the end of a TILE_RUN (R50 to R54, R62 to R67, R112 to R125, R130,
R143, R152, R153). -/

namespace Sys2Proof.Machine

/-! ## The tile scoreboard (R64, R65) -/

/-- A footprint: handle, first unit, end and whether the op writes it. -/
abbrev Foot := Nat × Nat × Nat × Bool

/-- The footprint of an operand. -/
def footOf (d : Nat) (x : Side) (w : Bool) : Foot :=
  (dHandle d x, dOff d x, dOff d x + (dRows d x - 1) * dLd d x + ceilDiv (dExt d x) 32, w)

/-- The footprint of an output: every row of each reach it touches in a value-bound tensor (R184). -/
def State.outFoot (s : State) (a d : Nat) : Foot :=
  let f := footOf d .o true
  let o := s.objD a (dHandle d .o)
  if o.val.isSome then
    let n := 64 * o.t.units
    (f.1, f.2.1 / n * n, roundUp f.2.2.1 n, true)
  else f

def State.feet (s : State) (a d : Nat) : List Foot :=
  [footOf d .s false, footOf d .t false, s.outFoot a d] ++ (if dEpi d = 0 then [] else [footOf d .e false])

/-- Two footprints conflict (R64). -/
def hits (f g : Foot) : Bool :=
  f.1 == g.1 && (f.2.2.2 || g.2.2.2) && decide (f.2.1 < g.2.2.1) && decide (g.2.1 < f.2.2.1)

def State.opsConflict (s : State) (a d e : Nat) : Bool := (s.feet a d).any (fun f => (s.feet a e).any (hits f))

/-- Some member of the K-split group of descriptor d in list l is in flight. -/
def TileList.begun (l : TileList) (d : Nat) : Bool := l.ops.any (fun o => sameGroup d o.desc && (o.phase == .issued || o.phase == .drained))

/-- The footprint of a whole object (R240). -/
def wholeFoot (n : Naming) : Foot := (n.1, 0, 2 ^ 64, n.2)

/-- An UPD_APPLY accepted before command id, still open, conflicts with one of the footprints: its accesses count as those of an op
issued at its acceptance (R240). One whose list may still be written conflicts with every op. -/
def State.updAhead (s : State) (a id : Nat) (fs : List Foot) : Bool :=
  (s.knownNames a).any (fun k => k.2.1 == 0x0502 && decide (k.1 < id) && (match k.2.2 with
    | none => true
    | some ns => ns.any (fun n => fs.any (hits (wholeFoot n)))))

/-- The footprint of an op's mask object. -/
def maskFoot (d : Nat) : List Foot := if dMaskKind d = 2 then [wholeFoot (dMaskB d, false)] else []

/-- Op j of list l waits for an op that conflicts with it (R62, R64, R65, R120, R240): one in flight, of whichever list, or one before
it in issue order, unless its own group has begun. -/
def State.opBlocked (s : State) (h : Nat) (l : TileList) (j : Nat) : Bool :=
  let d := (l.ops.getD j { desc := 0 }).desc
  s.updAhead l.allot l.order (s.feet l.allot d ++ maskFoot d) ||
  (s.he h).lists.any (fun m =>
    m.allot == l.allot &&
    (m.ops.zipIdx).any (fun e =>
      e.1.phase != .finished && !(m.cmd == l.cmd && (e.2 == j || sameGroup d e.1.desc)) &&
      (e.1.phase != .waiting || (!l.begun d && (decide (m.order < l.order) || (m.cmd == l.cmd && decide (e.2 < j))))) &&
      s.opsConflict l.allot d e.1.desc))

/-- An op of a TILE_RUN accepted before command c, not finished, conflicts with what c names (R240); a list that no sequencer has
yet conflicts by the objects it names. -/
def State.tilesAhead (s : State) (c : Cmd) (ns : List Naming) : Bool :=
  (s.knownNames c.allot).any (fun k => k.2.1 == 0x0301 && decide (k.1 < c.id) &&
    (match (s.hearths.flatMap (·.lists)).find? (fun l => l.cmd == k.1) with
     | some l => l.ops.any (fun o => o.phase != .finished &&
         (s.feet l.allot o.desc ++ maskFoot o.desc).any (fun f => ns.any (fun n => hits (wholeFoot n) f)))
     | none => match k.2.2 with
       | none => true
       | some es => es.any (fun e => ns.any (clashes 0x0301 c.opcode e))))

/-! ## The work of an op -/

/-- The fetch of an operand of an op. -/
def State.fetchOf (s : State) (l : TileList) (o : OpRec) (j : Nat) (x : Side) (rows lines strip : List Nat) : Fetch :=
  { s := s, a := l.allot, d := o.desc, x := x, o := s.operand l.allot o.desc x, l := s.layer? l.allot (dLayer o.desc)
    role := (match x with | .s => o.stamp.s | _ => o.stamp.t)
    rows := rows, lines := lines, strip := strip, key := l.key.toNat, stream := (l.base + 2 * j) % 2 ^ 32 }

/-- Runs of consecutive numbers in a rising list: first and length. -/
def runs : List Nat → List (Nat × Nat)
  | [] => []
  | i :: r => match runs r with
    | (j, n) :: t => if j = i + 1 then (i, n + 1) :: t else (i, 1) :: (j, n) :: t
    | [] => [(i, 1)]

/-- The ranges that the op reads of its operands: the fed rows of S, which an MTM op finds in the columns of S, and T (R50). -/
def State.opReads (s : State) (a d : Nat) (rows : List Nat) : List Range :=
  let rowsOf (x : Side) (rs : List Nat) : List Range :=
    let isCopy := match s.layer? a (dLayer d) with
      | some l => readsCopy l d x
      | none => false
    if isCopy then []
    else rs.flatMap (fun r => (if x = .s ∧ dOp d = 3 then runs rows else [(0, dExt d x)]).flatMap (fun q =>
      s.elemReads a (dHandle d x) (dElem d x r + q.1) q.2))
  if rows = [] then []
  else rowsOf .s (if dOp d = 3 then List.range (dRows d .s) else rows) ++ rowsOf .t (List.range (dRows d .t))

/-- The range that the op reads of its mask object. -/
def maskRange (a d : Nat) : List Range :=
  if dMaskKind d = 2 then [(a, dMaskB d, 8 * dMaskA d, ceilDiv (if dMaskLines d then dK d else dM d) 8)] else []

/-- The record of an op after its products are summed, and what its fetches gathered. -/
def State.workOp (s : State) (l : TileList) (o : OpRec) (j anvil : Nat) : OpRec × List (Nat × FetchAcc) :=
  let d := o.desc
  let a := l.allot
  let rows := s.fedRows a d
  let lines := s.fedLines a d
  if rows = [] then
    ({ o with phase := .issued, anvil := anvil, allMasked := true, fedRows := [], sums := [], lifted := [], fetch := [] }, [])
  else
    let strip := s.stripLines a d o.stamp
    let fs := (s.fetchOf l o j .s rows lines strip).run
    let ft := (s.fetchOf l o j .t rows lines strip).run
    let int := isIntFmt (dOFmt d)
    let comp := dComp d && !int
    let sAt (m k : Nat) : Fed := if dOp d = 3 then (fs.2.getD k []).getD m { num := .zero false } else (fs.2.getD m []).getD k { num := .zero false }
    let tAt (k n : Nat) : Fed := if dOp d = 2 then (ft.2.getD n []).getD k { num := .zero false } else (ft.2.getD k []).getD n { num := .zero false }
    let cells := rows.flatMap (fun m => (List.range (dN d)).map (fun n => lines.map (fun k => ((strip.contains k, sAt m k, tAt k n) : Line))))
    let sums := cells.map (sumLines int comp)
    let lifts := (cells.zipIdx).flatMap (fun c => (liftFactors c.1).flatMap (fun f => [(c.2, f.1), (c.2, f.2)]))
    let tempered := (if dTemper d .s then [fs.1.stats] else []) ++ (if dTemper d .t then [ft.1.stats] else [])
    let got := (if fs.1.any then [(dRole d .s, fs.1)] else []) ++ (if ft.1.any then [(dRole d .t, ft.1)] else [])
    ({ o with
        phase := .issued, anvil := anvil, fedRows := rows, allMasked := false
        sums := sums.map (fun x => (x.s, x.c)), lifted := lifts
        satBlocks := sumN (tempered.map (·.satBlocks)), convBlocks := sumN (tempered.map (·.convBlocks))
        fetch := got.map (fun g => (g.1, g.2.stats))
        spillOver := o.spillOver || got.any (fun g => g.2.ovf)
        accSat := sumN (sums.map (·.sat)) + sumN (got.map (fun g => g.2.accSat)), accZero := sumN (sums.map (·.zeroed)) }, got)

/-! ## TILE_OP_ISSUE (R48, R62, R65, R68) -/

/-- Lists changed by f where they belong to command id. -/
def Hearth.modList (x : Hearth) (id : Nat) (f : TileList → TileList) : Hearth :=
  { x with lists := x.lists.map (fun l => if l.cmd = id then f l else l) }

def TileList.modOp (l : TileList) (j : Nat) (f : OpRec → OpRec) : TileList := { l with ops := modAt j f l.ops }

/-- An active anvil that serves no op and takes one of list l (R68, R69): a target that no spare relieves goes on with the commands
that it serves (R71). -/
def Hearth.anvilFree (x : Hearth) (l : TileList) (v : Nat) : Bool :=
  let n := x.anvil v
  n.role == .active && !n.fenced && !n.relieved && !n.leaving && !n.failing && x.idle v &&
  (!n.target || l.ops.any (fun o => o.phase != .waiting && o.anvil == v))

/-- Bytes of the rows of an operand, row by row. -/
def State.countRows (s : State) (c : Cmd) (h : Nat) (o : Obj) (rows ext : Nat) : State :=
  s.countFor c (0x0E + o.tier) (some h) none (rows * ceilDiv (ceilDiv (ext * elemBits o.t.fmt) 8) 64)

/-- Rows that wait for an accumulator set of an op with N_USED above 256 (R45, R113): those after the first two output tiles. DEDUCED
(log 50). -/
def stallRows (d rows : Nat) (comp : Bool) : Nat :=
  if 256 < dN d then rows - 2 * ((if comp then 32768 else 65536) / dN d) else 0

/-- The counter events of an op that has been issued (R451). The billets of the anvil that a fed row does not use are idle: those
outside the product sites, those of masked lines and of spilled lines, which the strip takes (R51, R54, R177). -/
def State.countOp (s : State) (c : Cmd) (h a d : Nat) (o : OpRec) : State :=
  let rows := o.fedRows.length
  let lines := s.fedLines a d
  let strip := ((s.stripLines a d o.stamp).filter lines.contains).length
  let comp := dComp d && !isIntFmt (dOFmt d)
  let r := if comp then 2 else 1
  let sc := billetClass (s.fedFmt a d o.stamp.s .s)
  let tc := billetClass (s.fedFmt a d o.stamp.t .t)
  let grid := rows * (lines.length - strip) * dN d * (sc * tc)
  let side := rows * strip * dN d * (4 * (if (s.operand a d .t).chan.isSome then 4 else tc))
  let ev (t : State) (code n : Nat) : State := t.countFor c code (some h) (some (dLayer d)) n
  let t := ev (ev (ev (ev s 0x01 (rows * lines.length * dN d)) 0x02 (r * (grid + side))) 0x03 (r * (rows * 65536 - grid))) 0x04 (stallRows d rows comp)
  if rows = 0 then t
  else (if dOp d = 3 then t.countRows c h (s.objD a (dHandle d .s)) (dRows d .s) rows
        else t.countRows c h (s.objD a (dHandle d .s)) rows (dExt d .s)).countRows c h (s.objD a (dHandle d .t)) (dRows d .t) (dExt d .t)

/-- The conversions of a fetch are counted, and its channel maxima enter the layer of the binding (R171). -/
def State.noteFetch (s : State) (c : Cmd) (h a d : Nat) (x : Side) (f : FetchAcc) : State :=
  let t := s.countConv c (some h) (some (dLayer d)) f.stats
  match (s.objD a (dHandle d x)).chan with
  | some b => t.modLayer a b.layer (fun l => l.gatherMax b.axis f.chmax)
  | none => t

/-- DATA of an OP_ISSUE or OP_DONE record (16 "Trace record types"). -/
def State.opTrace (s : State) (h j : Nat) (o : OpRec) : Nat :=
  j % 65536 + ((s.he h).anvil o.anvil).pos % 64 * 2 ^ 16 + dLayer o.desc * 2 ^ 32 + o.stamp.rung % 256 * 2 ^ 48

/-- Op j of list l runs on an anvil. -/
def State.issueOp (s : State) (c : Cmd) (h : Nat) (l : TileList) (j anvil : Nat) : State :=
  let o := l.ops.getD j { desc := 0 }
  let d := o.desc
  match s.poisonOf (maskRange l.allot d) with
  | some p => s.meetPoison c p
  | none =>
    match s.poisonOf (s.opReads l.allot d (s.fedRows l.allot d)) with
    | some p => s.meetPoison c p
    | none =>
      let w := s.workOp l o j anvil
      let t := s.modHe h (fun x => (x.modList l.cmd (fun m => m.modOp j (fun _ => w.1))).noteShort)
      let fs := match w.2 with
        | [p] => [(if (s.fetchOf l o j .s w.1.fedRows [] []).role.isSome && dRole d .s == p.1 then Side.s else .t, p.2)]
        | [p, q] => [(Side.s, p.2), (Side.t, q.2)]
        | _ => []
      (fs.foldl (fun u f => u.noteFetch c h l.allot d f.1 f.2) (t.countOp c h l.allot d w.1)).traceAt h 4 (some l.allot) c.acc
        (s.opTrace h j w.1)

/-- TILE_OP_ISSUE: a sequencer issues the next op of its list, in list order (R62), once the scoreboard lets it start; an op that must
wait counts once in TILE_WAITS. -/
def execTileOpIssue (hearth seq anvil : Nat) (s : State) : Out :=
  match (s.he hearth).lists.find? (fun l => l.seq == seq) with
  | none => .next s
  | some l =>
    match s.cmd? l.cmd with
    | none => .next s
    | some c =>
      if !(s.he hearth).anvilFree l anvil then .next s
      else
        match l.ops.findIdx? (fun o => o.phase == .waiting) with
        | none => .next s
        | some j =>
          let o := l.ops.getD j { desc := 0 }
          if !s.opBlocked hearth l j then .next (s.issueOp c hearth l j anvil)
          else if o.waited then .next s
          else .next ((s.modHe hearth (fun x => x.modList l.cmd (fun m => m.modOp j (fun p => { p with waited := true })))).countFor
            c 0x05 (some hearth) (some (dLayer o.desc)) 1)

/-! ## The combine (R115, R119, R122) -/

/-- Draw of the combine of the group whose pass 0 is at position j. -/
def TileList.combineDraw (l : TileList) (j n : Nat) : Nat := draw l.key.toNat ((l.base + 2 * j + 1) % 2 ^ 32) n

/-- One fold of a running sum with the partial of a pass. draw: in a stochastic combine (R119). -/
def foldPass (int comp : Bool) (dr : Option Nat) (t p : W32 × W32) : (W32 × W32) × Nat :=
  if int then let r := satI32 (int32 t.1 + int32 p.1); ((r.1, 0), r.2)
  else if comp then
    let r := ({ s := t.1, c := t.2, any := true } : Sum).fold { s := p.1, c := p.2, any := true } true
    ((r.s, r.c), r.sat)
  else match dr with
    | none => let r := accAdd t.1 p.1; ((r.1, 0), r.2)
    | some x => let r := stoch32 x ((dec32 t.1).add (dec32 p.1)); ((r.1, 0), r.2)

/-- What the drain of an op or group works with: its members in pass order with their list positions, and whether its combine
is stochastic. -/
structure Drain where
  l : TileList
  h : Nat
  c : Cmd
  ops : List (OpRec × Nat)
  deriving DecidableEq, Repr

def Drain.head (x : Drain) : OpRec := (x.ops.headD ({ desc := 0 }, 0)).1
def Drain.pos (x : Drain) : Nat := (x.ops.headD ({ desc := 0 }, 0)).2
def Drain.d (x : Drain) : Nat := x.head.desc
def Drain.int (x : Drain) : Bool := isIntFmt (dOFmt x.d)
def Drain.comp (x : Drain) : Bool := dComp x.d && !x.int

/-- STOCH_COMBINE of pass 0 governs the group (R111, R115, R119). -/
def Drain.stoch (x : Drain) : Bool := dAcc x.d == 2 && dStochCombine x.d && !x.comp && !x.int

/-- The folded sum of fed row number r (streaming row i), column k, with the count in ACC_SATURATED (R115). -/
def Drain.folded (x : Drain) (r i k : Nat) : (W32 × W32) × Nat :=
  let n := r * dN x.d + k
  let first := (x.head.sums.getD n (0, 0))
  ((x.ops.drop 1).zipIdx 1).foldl (fun acc e =>
    let dr := if x.stoch then some (x.l.combineDraw x.pos ((e.2 - 1) * dM x.d * dN x.d + i * dN x.d + k)) else none
    let f := foldPass x.int x.comp dr acc.1 (e.1.1.sums.getD n (0, 0))
    (f.1, acc.2 + f.2)) (first, 0)

/-- The factors of the lifted products of an output element over the whole group (R188). -/
def pairUp : List (Nat × W32) → List (W32 × W32)
  | a :: b :: r => (a.2, b.2) :: pairUp r
  | _ => []

def Drain.factors (x : Drain) (n : Nat) : List (W32 × W32) :=
  x.ops.flatMap (fun e => pairUp (e.1.lifted.filter (fun f => f.1 == n)))

/-! ## Accumulate mode and the epilogue (R114, R121, R123, R124) -/

/-- A value on its way to the conversion: FP32, or INT32. -/
abbrev Val := W32

/-- Stage 2 in FP32: add or multiply, one rounding, saturating. -/
def epi32 (mul : Bool) (dr : Option Nat) (v e : W32) : W32 × Nat :=
  let x := if mul then (dec32 v).mul (dec32 e) else (dec32 v).add (dec32 e)
  match dr with
  | none => sat32 x
  | some r => stoch32 r x

/-- The final value of an output element as the conversion takes it, and its count in ACC_SATURATED. old: the existing element
in accumulate mode; e: the epilogue element with its format. -/
def Drain.final (x : Drain) (p : W32 × W32) (fs : List (W32 × W32)) (old e : Option W32) (dr : Option Nat) : Fp × Nat :=
  let mul := dEpi x.d == 2
  if x.int then
    let v0 : W32 × Nat := match old with
      | some w => satI32 (int32 p.1 + int32 w)
      | none => (p.1, 0)
    match e with
    | none => (Fp.ofInt (int32 v0.1), v0.2)
    | some w =>
      if isIntFmt (dEFmt x.d) then
        let r := satI32 (if mul then int32 v0.1 * int32 w else int32 v0.1 + int32 w)
        (Fp.ofInt (int32 r.1), v0.2 + r.2)
      else
        let r := epi32 mul none (enc32 (Fp.ofInt (int32 v0.1))) w
        (dec32 r.1, v0.2 + r.2)
  else
    let q : (W32 × W32) × Nat := if fs = [] then (p, 0) else let r := accAdd p.1 (correction fs); ((r.1, p.2), r.2)
    let z : (W32 × W32) × Nat := match old with
      | none => q
      | some w =>
        if x.comp then
          let (t, er, k) := twoSum q.1.1 w
          let c := accAdd q.1.2 er
          ((t, c.1), q.2 + k + c.2)
        else let r := accAdd q.1.1 w; ((r.1, 0), q.2 + r.2)
    let v : W32 × Nat := if x.comp then let r := accAdd z.1.1 z.1.2; (r.1, z.2 + r.2) else (z.1.1, z.2)
    match e with
    | none => (dec32 v.1, v.2)
    | some w => let r := epi32 mul dr v.1 w; (dec32 r.1, v.2 + r.2)

/-! ## The drain (R46, R50, R112, R125, R143) -/

/-- What a drain keeps: the conversion of fed rows, the units written, and the counts in ACC_SATURATED. -/
structure DrainAcc where
  w : WrAcc
  written : List Nat := []
  sat : Nat := 0

/-- Element i of object hd as a value of the op: INT32, or FP32 by R114. pre: the state before the drain. -/
def Drain.read (x : Drain) (acc : DrainAcc) (pre : State) (hd i : Nat) (int : Bool) : W32 × Nat :=
  let s := if hd = dHandle x.d .o ∧ acc.written.contains (i / 32) = false then pre else acc.w.s
  let o := s.objD x.l.allot hd
  if int then (wrap32 (o.elemInt i), 0) else s.elem32 x.l.allot o i

/-- The value of output element (i, k), row number r among the fed rows. -/
def Drain.value (x : Drain) (pre : State) (acc : DrainAcc) (r i k : Nat) : Fp × Nat :=
  let d := x.d
  let f := x.folded r i k
  let old := if dAcc d = 1 then some (x.read acc pre (dHandle d .o) (dElem d .o i + k) x.int) else none
  let e := if dEpi d = 0 then none else some (x.read acc pre (dHandle d .e) (dElem d .e i + k) (x.int && isIntFmt (dEFmt d)))
  let dr := if x.stoch then some (x.l.combineDraw x.pos ((x.ops.length - 1) * dM d * dN d + i * dN d + k)) else none
  let v := x.final f.1 (x.factors (r * dN d + k)) (old.map (·.1)) (e.map (·.1)) dr
  (v.1, v.2 + f.2 + (old.map (·.2)).getD 0 + (e.map (·.2)).getD 0)

/-- The draws of the output conversion of row i (R99): element k of the row. -/
def Drain.draws (x : Drain) (i : Nat) (n : Nat) : Option Nat :=
  let d := x.d
  if bitOf d 53 ∧ x.int = false then
    some (draw x.l.key.toNat ((x.l.base + 2 * x.pos) % 2 ^ 32) (i * dN d + (n - dElem d .o i)))
  else none

/-- One unit of output row i: fed (its number among the fed rows), or a masked row that ZERO_FILL writes. -/
def Drain.unit (x : Drain) (pre : State) (spec : WrSpec) (i : Nat) (fed : Option Nat) (acc : DrainAcc) (u : Nat) : DrainAcc :=
  let d := x.d
  let unit := dOff d .o + i * dLd d .o + u
  let cols := (List.range 32).map (fun k => 32 * u + k)
  match fed with
  | some r =>
    let vs := cols.map (fun k => if k < dN d then some (x.value pre acc r i k) else none)
    let xs := vs.map (fun v => match v with | some y => CvIn.val y.1 | none => .pad)
    { w := acc.w.unit x.l.allot (dHandle d .o) spec (x.draws i) unit xs
      written := unit :: acc.written
      sat := acc.sat + sumN (vs.map (fun v => (v.map (·.2)).getD 0)) }
  | none =>
    let xs := cols.map (fun k => if k < dN d then CvIn.val (.zero false) else .pad)
    let z := ({ s := acc.w.s } : WrAcc).unit x.l.allot (dHandle d .o) spec (fun _ => none) unit xs
    { acc with w := { acc.w with s := z.s }, written := unit :: acc.written }

/-- The rows that the drain writes, with the number of each fed row. -/
def Drain.rows (x : Drain) : List (Nat × Option Nat) :=
  (List.range (dM x.d)).filterMap (fun i => match x.head.fedRows.idxOf? i with
    | some r => some (i, some r)
    | none => if dZeroFill x.d then some (i, none) else none)

/-- The ranges of the rows that the drain writes, and those that it reads of E and, in accumulate mode, of O. -/
def Drain.writes (x : Drain) (s : State) : List Range :=
  let a := x.l.allot
  let o := s.objD a (dHandle x.d .o)
  let n := 32 * ceilDiv (dN x.d) 32
  x.rows.flatMap (fun e => o.elemRanges a (dHandle x.d .o) (dElem x.d .o e.1) n ++ s.sideWrites a o (dElem x.d .o e.1) n)

def Drain.reads (x : Drain) (s : State) : List Range :=
  let a := x.l.allot
  let of (sd : Side) : List Range := x.head.fedRows.flatMap (fun i => s.elemReads a (dHandle x.d sd) (dElem x.d sd i) (dN x.d))
  (if dAcc x.d = 1 then of .o else []) ++ (if dEpi x.d = 0 then [] else of .e)

/-- The conversion target: scale, rounding, block maxima, and the stamped channel lists (R143, R175, R181). -/
def Drain.spec (x : Drain) (s : State) : WrSpec :=
  let o := s.objD x.l.allot (dHandle x.d .o)
  let l := s.layer? x.l.allot (dLayer x.d)
  let b := (o.chan.bind (fun c => s.layer? x.l.allot c.layer))
  { nonsat := bitOf x.d 52, blkmax := bitOf x.d 54
    tscale := match l with
      | some y => if o.t.smode = 1 then y.code 3 else o.t.tscale
      | none => o.t.tscale
    list := (b.map (·.spill.lists)).getD [], passed := (b.map (·.spill.passed)).getD [] }

/-- The output is drained: the new state with the statistics of slot O. -/
def State.drain (s : State) (x : Drain) : State × DrainAcc :=
  let a := x.l.allot
  let hd := dHandle x.d .o
  let spec := x.spec s
  let units := x.rows.flatMap (fun e => (List.range (ceilDiv (dN x.d) 32)).map (fun u => dOff x.d .o + e.1 * dLd x.d .o + u))
  let s0 := s.clearLifts a hd units
  let acc := x.rows.foldl (fun ac e => (List.range (ceilDiv (dN x.d) 32)).foldl (fun q u => x.unit s spec e.1 e.2 q u) ac)
    ({ w := { s := s0 } } : DrainAcc)
  let t := (x.writes s).foldl State.healRange acc.w.s
  let t1 := if (s.objD a hd).t.smode = 1 ∧ s.steered a (dLayer x.d) = true ∧ x.rows ≠ [] then
      (t.modObj a hd (fun o => { o with t := { o.t with tscale := spec.tscale } })).modLayer a (dLayer x.d) (fun l =>
        { l with oFmt := some (dOFmt x.d) })
    else t
  (if x.rows = [] then t1 else t1.staleWrite a hd, acc)

/-! ## TILE_OP_COMPLETE (R65, R67, R116, R152, R153) -/

/-- The re-run that R152 asks for: the members saturate too much in their fetch conversions. -/
def Drain.tooMuch (x : Drain) (l : Layer) : Bool :=
  decide (l.hardSat * sumN (x.ops.map (fun o => o.1.convBlocks)) < sumN (x.ops.map (fun o => o.1.satBlocks)) * 10000)

/-- A member that its first run has already fed from its output is not re-run (R130). -/
def rerunBars (d : Nat) : Bool := dAcc d == 1 || (dEpi d != 0 && hits (footOf d .e false) (footOf d .o true))

/-- Entry n of the buffers of command id, of length k, is released (R116). -/
def releaseBuffers (id n k : Nat) : List Charge → List Charge
  | [] => []
  | c :: r =>
    if c.kind = .buffer id then
      (if n = 0 then (if k = 0 then c :: r else releaseBuffers id 0 (k - 1) r) else c :: releaseBuffers id (n - 1) k r)
    else c :: releaseBuffers id n k r

/-- The buffers of a group that has written its output are released. -/
def State.releaseGroup (s : State) (l : TileList) (d : Nat) : State :=
  let ds := l.ops.map (·.desc)
  let heads := groupHeads ds
  let mine := heads.filter (fun j => sameGroup (ds.getD j 0) d)
  match mine.head? with
  | none => s
  | some j =>
    let before := heads.filter (fun k => decide (k < j) && ((l.ops.getD k { desc := 0 }).phase != .finished))
    let drop := releaseBuffers l.cmd (before.flatMap (headNeeds ds)).length (headNeeds ds j).length
    s.modAl l.allot (fun x => { x with charges := drop x.charges })

/-- A finished op in the statistics of its layer. -/
def OpRec.note (o : OpRec) (z : StepStats) : StepStats :=
  { z with ops := z.ops + 1, accSaturated := z.accSaturated + o.accSat, accZeroed := z.accZeroed + o.accZero,
           spillOver := z.spillOver || o.spillOver }

/-- The statistics of finished ops enter their layers (R132, R135). -/
def State.noteOps (s : State) (x : Drain) (acc : DrainAcc) : State :=
  let a := x.l.allot
  let lay := dLayer x.d
  let t := x.ops.foldl (fun u o =>
    u.modLayer a (dLayer o.1.desc) (fun l =>
      l.modOpen x.c.acc (fun z => o.1.note (o.1.fetch.foldl (fun v f => v.gather f.1 f.2) z)))) s
  let t1 := t.modLayer a lay (fun l => l.modOpen x.c.acc (fun z =>
    { z.gather 3 acc.w.stats with accSaturated := z.accSaturated + acc.sat, spillOver := z.spillOver || acc.w.ovf }))
  match (t.objD a (dHandle x.d .o)).chan with
  | some b => t1.modLayer a b.layer (fun l => l.gatherMax b.axis acc.w.chmax)
  | none => t1

/-- TILE_RUN DETAIL (R67). -/
def TileList.detail (l : TileList) : W32 :=
  w32 (satTo 65535 (l.ops.filter (·.waited)).length + 2 ^ 16 * b2n (l.ops.any (·.allMasked)) + 2 ^ 17 * b2n (l.ops.any (·.spillOver)) +
    2 ^ 18 * b2n l.short)

/-- The completion of a TILE_RUN whose ops have all finished. -/
def State.endList (s : State) (h id : Nat) : State :=
  match (s.he h).lists.find? (fun l => l.cmd == id) with
  | none => s
  | some l =>
    if l.ops.all (fun o => o.phase == .finished) then
      let code : Code := if 0 < l.rerunOps then .retriedWider else if l.ops.any (·.spillOver) then .okWithNote else .ok
      let t := (s.modHe h (fun x => { x with lists := x.lists.filter (fun m => m.cmd != id) })).finish id code l.detail
        (w128 (l.ops.length + l.rerunOps * 2 ^ 32))
      if code = .retriedWider then t.settleWith 8 0 else t
    else s

/-- The ops finish: drained, counted, and their buffers released. -/
def State.finishOps (s : State) (x : Drain) : State :=
  let a := x.l.allot
  match s.poisonOf (x.reads s) with
  | some p => s.meetPoison x.c p
  | none =>
    match s.poisonPartOf (x.writes s) with
    | some p => s.meetPoison x.c p
    | none =>
      let (t, acc) := s.drain x
      let o := s.objD a (dHandle x.d .o)
      let lay := dLayer x.d
      let t1 := (t.noteOps x acc).countConv x.c (some x.h) (some lay) acc.w.stats
      let t2 := t1.countRows x.c x.h o (x.rows.length * (if dAcc x.d = 1 ∨ (dAcc x.d = 2 ∧ sumInO x.d x.int = true) then 2 else 1)) (dN x.d)
      let t3 := if dEpi x.d = 0 then t2 else t2.countRows x.c x.h (s.objD a (dHandle x.d .e)) x.head.fedRows.length (dN x.d)
      let t4 := t3.modHe x.h (fun y => (y.modList x.l.cmd (fun l => x.ops.foldl (fun m e =>
        m.modOp e.2 (fun q => { q with phase := .finished, spillOver := q.spillOver || acc.w.ovf, sums := [], lifted := [] })) l)).noteShort)
      let t5 := if x.rows = [] then t4 else t4.modCmd x.c.id (fun c => { c with wrote := true })
      let t6 := x.ops.foldl (fun u e => u.traceAt x.h 5 (some a) x.c.acc (s.opTrace x.h e.2 e.1 + b2n e.1.rerun * 2 ^ 56)) t5
      ((t6.releaseGroup x.l x.d).modHe x.h Hearth.failIdle).raiseShort.endList x.h x.l.cmd

/-- The members go back to their sequencer one rung wider (R130, R152). -/
def State.rerunOps (s : State) (x : Drain) : State :=
  let a := x.l.allot
  let n := x.ops.length
  let t := s.modHe x.h (fun y => Hearth.failIdle (y.modList x.l.cmd (fun m =>
    let m1 := x.ops.foldl (fun q e => q.modOp e.2 (fun o =>
      { o with phase := .waiting, rerun := true, stamp := s.stampOf a o.desc (o.stamp.rung + 1)
               sums := [], lifted := [], fetch := [], satBlocks := 0, convBlocks := 0, accSat := 0, accZero := 0, spillOver := false })) m
    { m1 with rerunOps := m1.rerunOps + n })))
  (t.modLayer a (dLayer x.d) (fun y => y.modOpen x.c.acc (fun z => { z with retries := z.retries + n }))).countFor
    x.c 0x06 (some x.h) (some (dLayer x.d)) n

/-- Both partners of an active-active pair judge their layers together (R386, R387). -/
def State.temperSynced (s : State) : Bool := s.pair.bound && s.pair.temperSync && s.pair.role == 0

/-- TEMPER_SYNC is set on the pair: an op that passes HARD_SAT is not re-run (R386). -/
def State.syncSet (s : State) : Bool := s.pair.bound && s.pair.temperSync

/-- The judgement of R152, then the drain or the re-run. Under TEMPER_SYNC an op is not re-run and its layer requests (R386). -/
def State.judgeOps (s : State) (x : Drain) : State :=
  match s.layer? x.l.allot (dLayer x.d) with
  | none => s.finishOps x
  | some l =>
    if x.head.rerun ∨ x.tooMuch l = false then s.finishOps x
    else if s.syncSet = false ∧ x.head.stamp.rung < l.hi ∧ l.autoOff = false ∧ x.ops.all (fun o => !rerunBars o.1.desc) = true then s.rerunOps x
    else
      let t := (s.finishOps x).modLayer x.l.allot (dLayer x.d) (fun y => y.modOpen x.c.acc (fun z => { z with hardSat := z.hardSat || s.syncSet }))
      if x.head.stamp.rung = l.hi then
        ((t.modLayer x.l.allot (dLayer x.d) (fun y => { y with boundHigh := true })).setCond x.l.allot .steering2 2).settle
      else t

/-- The members of the group of op j, in pass order, as they stand. -/
def TileList.members (l : TileList) (j : Nat) : List (OpRec × Nat) :=
  let d := (l.ops.getD j { desc := 0 }).desc
  if dAcc d = 2 then (groupOf (l.ops.map (·.desc)) d).map (fun e => (l.ops.getD e.2 { desc := 0 }, e.2))
  else [(l.ops.getD j { desc := 0 }, j)]

/-- The running sum of a group, after the passes of x, where it is kept in O itself (R116): the passes from number n on read and
write the fed rows of O. -/
def State.foldIntoO (s : State) (x : Drain) (n : Nat) : State :=
  let a := x.l.allot
  let hd := dHandle x.d .o
  let rows : List Range := x.head.fedRows.flatMap (fun i => (s.objD a hd).elemRanges a hd (dElem x.d .o i) (dN x.d))
  match s.poisonOf (if x.ops.length = 1 then [] else rows) with
  | some p => s.meetPoison x.c p
  | none => match s.poisonPartOf rows with
    | some p => s.meetPoison x.c p
    | none =>
      let t := (x.head.fedRows.zipIdx).foldl (fun u e =>
        u.writeObj a hd (4 * dElem x.d .o e.1) ((List.range (dN x.d)).flatMap (fun k => leBytes (x.folded e.2 e.1 k).1.1.toNat 4))) s
      let moves := 2 * (x.ops.length - n) - (if n = 0 then 1 else 0)
      let u := ((rows.foldl State.healRange t).countRows x.c x.h (s.objD a hd) (x.head.fedRows.length * moves) (dN x.d))
      if x.head.fedRows = [] then u else (u.staleWrite a hd).modCmd x.c.id (fun c => { c with wrote := true })

/-- Members at the front of a group that have drained. -/
def drainedFront (ms : List (OpRec × Nat)) : Nat := (ms.takeWhile (fun m => m.1.phase == .drained)).length

/-- TILE_OP_COMPLETE: op number op of command id has drained its last output tile. A member of a K-split group drains when the
passes before it have, or into its park slot; the last one completes the group. -/
def execTileOpComplete (id op : Nat) (s : State) : Out :=
  match [0, 1].find? (fun h => (s.he h).lists.any (fun l => l.cmd == id)), s.cmd? id with
  | some h, some c =>
    match (s.he h).lists.find? (fun l => l.cmd == id) with
    | none => .next s
    | some l =>
      match l.ops[op]? with
      | none => .next s
      | some o =>
        if o.phase ≠ .issued then .next s
        else if dAcc o.desc ≠ 2 then .next (s.judgeOps { l := l, h := h, c := c, ops := [(o, op)] })
        else
          let ms := l.members op
          let before := ms.filter (fun m => decide (dPass m.1.desc < dPass o.desc))
          if before.any (fun m => m.1.phase != .drained) && !outOfTurn (l.ops.map (·.desc)) op then
            (if o.stalled then .next s
             else .next ((s.modHe h (fun x => x.modList id (fun m => m.modOp op (fun q => { q with stalled := true })))).countFor
               c 0x04 (some h) (some (dLayer o.desc)) 1))
          else
            let l1 := l.modOp op (fun q => { q with phase := .drained })
            let ms1 := l1.members op
            let t := s.modHe h (fun x => (x.modList id (fun m => m.modOp op (fun q => { q with phase := .drained }))).failIdle)
            let n := drainedFront ms
            let k := min (drainedFront ms1) (ms1.length - 1)
            let u := if sumInO o.desc (isIntFmt (dOFmt o.desc)) ∧ n < k then
                t.foldIntoO { l := l1, h := h, c := c, ops := ms1.take k } n
              else t
            if ms1.all (fun m => m.1.phase == .drained) ∧ (u.he h).lists.any (fun m => m.cmd == id) = true then
              .next (u.judgeOps { l := l1, h := h, c := c, ops := ms1 })
            else .next u
  | _, _ => .next s

end Sys2Proof.Machine
end

