-- ==== Sys2Proof/Machine/Steering.lean ====
section
/-! DEFINITION. The records of precision steering: TEMPER_SET, SPILL_SET and SCALE_SET with the state that accepted records
will leave, and TEMPER_READ and STATS_READ (R131, R139, R144, R149, R160 to R169, R182, R190, R192, R195). -/

namespace Sys2Proof.Machine

/-- A field whose value 0 selects its default. -/
def orDefault (v d : Nat) : Nat := if v = 0 then d else v

/-! ## Layer records (R162) -/

def recLayer (r : Nat) : Nat := fieldOf r 0 2
def recLo (r : Nat) : Nat := bitsOf r 24 3
def recHi (r : Nat) : Nat := bitsOf r 28 3
def recOn (r : Nat) : Bool := bitOf r 40
def recSetRung (r : Nat) : Bool := bitOf r 41

/-- A layer's rung clamped into its bounds; a rung change resets its counts (R148, R150, R157). -/
def Layer.clamped (l : Layer) : Layer :=
  let n := max l.lo (min l.hi l.rung)
  if n = l.rung then l else { l with rung := n, cleanCount := 0, dryCount := 0 }

/-- What a layer record with ENABLE makes of the layer that stood there (R150 step 3, R160). A newly steered layer whose record does
not set SET_RUNG starts at rung 0, which step 3 clamps into its bounds. DESIGN CHOICE (log 55). -/
def layerOf (old : Layer) (r : Nat) : Layer :=
  let set := recSetRung r
  { old with
    ladder := fieldOf r 2 1, lo := recLo r, hi := recHi r
    rung := if set then fieldOf r 4 1 else old.rung
    autoOff := bitOf r 42, dryMask := bitOf r 43
    hist := orDefault (fieldOf r 6 1) 16, margin := fieldOf r 7 1
    promoSat := fieldOf r 8 2, promoZero := fieldOf r 0xA 2, hardSat := fieldOf r 0xC 2
    demoteSteps := orDefault (fieldOf r 0xE 2) 200, drySteps := orDefault (fieldOf r 0x10 2) 32, dryEps := fieldOf r 0x12 2
    wMaster := fieldOf r 0x14 4, wScales := fieldOf r 0x18 4, group := fieldOf r 0x1C 1
    boundHigh := false, dry := false, storm := false, poolShort := false, wouldPromote := false
    cleanCount := if set then 0 else old.cleanCount, dryCount := if set then 0 else old.dryCount }

def Temper.setLayer (x : Temper) (r : Nat) : Temper :=
  { x with layers := if recOn r then put (recLayer r) (layerOf ((look (recLayer r) x.layers).getD {}) r) x.layers
                     else del (recLayer r) x.layers }

/-! ## Ladder and policy records (R163, R164) -/

/-- A role of a rung entry. -/
def entryRole (w i : Nat) : Role := { fmt := bitsOf w (8 * i) 4, mode := bitsOf w (8 * i + 4) 3, stoch := bitOf w (8 * i + 7) }

def entryRung (w : Nat) : Rung := { w := entryRole w 0, a := entryRole w 1, g := entryRole w 2 }

def Role.bits (r : Role) : Nat := r.fmt + 16 * r.mode + 128 * b2n r.stoch

def Rung.word (r : Rung) : Nat := r.w.bits + 2 ^ 8 * r.a.bits + 2 ^ 16 * r.g.bits

def ladderId (r : Nat) : Nat := fieldOf r 0 1
def ladderLen (r : Nat) : Nat := fieldOf r 1 1
def ladderEntry (r i : Nat) : Nat := fieldOf r (8 + 4 * i) 4

def Temper.setLadder (x : Temper) (r : Nat) : Temper :=
  { x with ladders := put (ladderId r) ((List.range (ladderLen r)).map (fun i => entryRung (ladderEntry r i))) x.ladders }

/-- An allotment policy record: STORM clears, and the nonfinite norm with it (R160, R226). -/
def Temper.setPolicy (x : Temper) (r : Nat) : Temper :=
  { x with stormThresh := fieldOf r 0 2, stormHold := bitOf r 16, storm := false, nonfinite := false }

/-! ## SPILL_SET records (R195) -/

def spKind (p : Nat) : Nat := fieldOf p 0 1
def spLayer (p : Nat) : Nat := fieldOf p 2 2
def spObj (p : Nat) : Nat := fieldOf p 4 4
def spAux (p : Nat) : Nat := fieldOf p 8 4
def spP (p i : Nat) : Nat := fieldOf p (0xC + i) 1

/-- KIND 0: the layer's policy. The lists in force stay until step 7. -/
def Temper.setSpill (x : Temper) (p : Nat) : Temper :=
  if spKind p = 0 then
    { x with layers := upd (spLayer p) (fun l => { l with spill := { l.spill with
        list := spObj p, kLen := spAux p, cap := spP p 0, gap := orDefault (spP p 1) 4, mode := spP p 2, efW := bitOf (spP p 3) 0 } }) x.layers }
  else x

/-- KIND 1 to 4: the bindings of a tensor. -/
def Obj.setSpill (o : Obj) (p : Nat) : Obj :=
  match spKind p with
  | 1 => { o with chan := some { layer := spLayer p, side := spAux p, axis := spP p 0 } }
  | 2 => { o with val := some { side := spAux p, quota := orDefault (spP p 0) 1, perBlock := orDefault (spP p 1) 2, gap := orDefault (spP p 2) 2 } }
  | 3 => { o with flagMap := some (spAux p) }
  | 4 =>
    let o1 := if bitOf (spP p 0) 0 then { o with chan := none, val := none } else o
    if bitOf (spP p 0) 1 then { o1 with flagMap := none } else o1
  | _ => o

/-! ## The state that accepted records will leave (R161, R169) -/

/-- Records in the order in which step 3 of a STEP_MARK takes them: ladders, policy, layers, then SPILL_SET. -/
def PendRec.rank : PendRec → Nat
  | .ladder _ => 0
  | .policy _ => 1
  | .layer _ => 2
  | .spill _ => 3
  | .scale _ => 4
  | .mirror _ => 5
  | .mirrorPolicy _ => 6

def Temper.apply (x : Temper) : PendRec → Temper
  | .ladder r => x.setLadder r
  | .policy r => x.setPolicy r
  | .layer r => x.setLayer r
  | .spill p => x.setSpill p
  | .scale _ => x
  | .mirror _ => x
  | .mirrorPolicy _ => x

def recsInOrder (l : List PendRec) : List PendRec := sortBy (fun r => (r.rank, 0)) l

/-- The temper state once every accepted record has taken effect. -/
def Temper.soon (x : Temper) : Temper := (recsInOrder (x.recs.map (·.2))).foldl Temper.apply x

/-- An object's bindings once every accepted record has taken effect. -/
def State.objSoon (s : State) (a h : Nat) : Obj :=
  (s.al a).temper.recs.foldl (fun o r => match r.2 with
    | .spill p => if spObj p = h then o.setSpill p else o
    | .ladder _ | .policy _ | .layer _ | .scale _ | .mirror _ | .mirrorPolicy _ => o) (s.objD a h)

/-- The temper states that the accepted records will leave one after another, in their order of acceptance (R161). -/
def Temper.futures (x : Temper) : List Temper :=
  (List.range x.recs.length).map (fun n => (recsInOrder ((x.recs.take (n + 1)).map (·.2))).foldl Temper.apply x)

/-- The layers that are steered now or that an accepted record will steer. -/
def Temper.everSteered (x : Temper) : List Nat :=
  sortN (x.layers.map (·.1) ++ x.recs.filterMap (fun r => match r.2 with
    | .layer b => if recOn b then some (recLayer b) else none
    | .ladder _ | .policy _ | .spill _ | .scale _ | .mirror _ | .mirrorPolicy _ => none))

/-- Every TEMPER_SET and SPILL_SET of the allotment accepted before the command has been judged. -/
def State.setsSettled (s : State) (c : Cmd) : Bool :=
  !(s.earlier c).any (fun d => d.opcode == 0x0401 || d.opcode == 0x0406)

/-! ## Checks of records (R139, R141, R161 to R164) -/

/-- A W master: a tensor in bfloat16, FP16 or FP32 without scales (R140, R219). -/
def State.masterOk (s : State) (a h : Nat) : Bool :=
  let t := (s.objD a h).t
  s.nameable a h && !t.raw && (t.fmt == 4 || t.fmt == 5 || t.fmt == 8) && t.smode == 0

/-- W_SCALES holds every λ that the master needs (R141). -/
def State.scalesOk (s : State) (a r : Nat) (modes : List Nat) : Bool :=
  let o := s.objD a (fieldOf r 0x18 4)
  let m := (s.objD a (fieldOf r 0x14 4)).t
  s.nameable a (fieldOf r 0x18 4) && !o.t.raw && o.t.fmt == 4 && o.t.smode == 0 &&
  (fieldOf r 0x14 4 == 0 ||
    ((!modes.contains 4 || decide (m.rows ≤ o.lambdas)) &&
     (!modes.contains 5 || decide (m.rows * ceilDiv m.units (max 1 (fieldOf r 0x1C 1)) ≤ o.lambdas))))

/-- A threshold in basis points. R162 states the range for PROMO_SAT; PROMO_ZERO and HARD_SAT are judged by the same one. DESIGN
CHOICE (log 54). -/
def bpOk (v : Nat) : Bool := decide (v ≤ 10000) || v == 0xFFFF

/-- The fields of a layer record that stands at parameter offset b; x: the state that earlier records will leave. Every field is
judged, ENABLE set or not (R162). -/
def State.layerFlds (s : State) (a : Nat) (x : Temper) (r b : Nat) : List Fld :=
  let rungs := x.ladder (fieldOf r 2 1)
  let modes := ((rungs.drop (recLo r)).take (recHi r + 1 - recLo r)).map (fun g => g.w.mode)
  [⟨b, 2, true⟩, ⟨b + 2, 1, decide (fieldOf r 2 1 < 4) && rungs != []⟩,
   ⟨b + 3, 1, !bitOf r 27 && !bitOf r 31 && decide (recLo r ≤ recHi r) && decide (recHi r < rungs.length)⟩,
   ⟨b + 4, 1, !recSetRung r || inRange (recLo r) (recHi r) (fieldOf r 4 1)⟩,
   ⟨b + 5, 1, decide (fieldOf r 5 1 < 16)⟩, ⟨b + 6, 1, decide (fieldOf r 6 1 ≤ 64)⟩, ⟨b + 7, 1, decide (fieldOf r 7 1 ≤ 7)⟩,
   ⟨b + 8, 2, bpOk (fieldOf r 8 2)⟩, ⟨b + 0xA, 2, bpOk (fieldOf r 0xA 2)⟩, ⟨b + 0xC, 2, bpOk (fieldOf r 0xC 2)⟩,
   ⟨b + 0xE, 2, true⟩, ⟨b + 0x10, 2, true⟩, ⟨b + 0x12, 2, decide (fieldOf r 0x12 2 ≤ 10000)⟩,
   ⟨b + 0x14, 4, fieldOf r 0x14 4 == 0 || s.masterOk a (fieldOf r 0x14 4)⟩,
   ⟨b + 0x18, 4, if modes.any isLearned then s.scalesOk a r modes else fieldOf r 0x18 4 == 0⟩,
   ⟨b + 0x1C, 1, inRange 1 64 (fieldOf r 0x1C 1)⟩, ⟨b + 0x1D, 3, fieldOf r 0x1D 3 == 0⟩, ⟨b + 0x20, 32, fieldOf r 0x20 32 == 0⟩]

/-- A rung entry meets R137 and R139. -/
def entryOk (w : Nat) : Bool :=
  decide (w < 2 ^ 24) && roleOk 0 (entryRole w 0) && roleOk 1 (entryRole w 1) && roleOk 2 (entryRole w 2)

def ladderFlds (x : Temper) (r b : Nat) : List Fld :=
  let n := ladderLen r
  [⟨b, 1, inRange 1 3 (ladderId r)⟩,
   ⟨b + 1, 1, inRange 1 8 n && x.layers.all (fun l => l.2.ladder != ladderId r || decide (l.2.hi < n))⟩, ⟨b + 2, 6, fieldOf r 2 6 == 0⟩] ++
  (List.range 8).map (fun i => ⟨b + 8 + 4 * i, 4, if i < n then entryOk (ladderEntry r i) else ladderEntry r i == 0⟩) ++
  [⟨b + 0x28, 24, fieldOf r 0x28 24 == 0⟩]

def policyFlds (r b : Nat) : List Fld := [⟨b, 2, true⟩, ⟨b + 2, 1, decide (fieldOf r 2 1 < 2)⟩, ⟨b + 3, 61, fieldOf r 3 61 == 0⟩]

def State.recFlds (s : State) (a kind r b : Nat) : List Fld :=
  let x := (s.al a).temper.soon
  match kind with
  | 0 => s.layerFlds a x r b
  | 1 => ladderFlds x r b
  | _ => policyFlds r b

/-! ## Charges (R131, R161, R192, R264) -/

/-- Bytes of a steered layer's records. -/
def layerRecBytes : Nat := 3392

/-- The tier-1 pool of a W master's hearth, or of hearth 0. -/
def masterPool (m : Obj) : Nat := poolOf 1 (if m.tier < 2 then m.hearth else 0)

/-- The residual that a layer needs: pool and bytes. -/
def State.residualNeed (s : State) (a : Nat) (x : Temper) (l : Layer) : Option (Nat × Nat) :=
  if l.spill.efW && (x.boundRungs l).any (fun g => isFourBit g.w.fmt) && l.wMaster != 0 then
    (s.obj? a l.wMaster).map (fun m => (masterPool m, 2 * m.t.elems))
  else none

def State.heldBytes (s : State) (a : Nat) (k : ChargeKind) : Nat :=
  sumN ((s.al a).charges.map (fun c => if c.kind = k then c.bytes else 0))

/-- The residuals that the layers of x will need are charged beyond what they hold; none when one does not fit. -/
def State.chargeResiduals (s : State) (a : Nat) (x : Temper) : List (Nat × Layer) → Option State
  | [] => some s
  | (i, l) :: r =>
    match s.residualNeed a x l with
    | none => s.chargeResiduals a x r
    | some (p, n) =>
      let more := n - s.heldBytes a (.residual i)
      if more = 0 then s.chargeResiduals a x r
      else if s.fits a p more then (s.charge a (.residual i) p more).chargeResiduals a x r
      else none

/-- Accepted records of command c wait for the next STEP_MARK. -/
def State.addRecs (s : State) (c : Cmd) (l : List PendRec) : State :=
  s.modAl c.allot (fun x => { x with temper := { x.temper with recs := x.temper.recs ++ l.map (fun r => (c.acc, r)) } })

/-! ## TEMPER_SET (R161) -/

def pendRec (kind r : Nat) : PendRec :=
  match kind with
  | 0 => .layer r
  | 1 => .ladder r
  | _ => .policy r

/-- The structure that REC_REF names is raw bytes of an object, at 64 (count) bytes. -/
def State.rawRefUnits (s : State) (a ref unit len : Nat) : Bool := s.refOk a ref unit len && s.isRaw a (refHandle ref)

def temperSetFields (s : State) (c : Cmd) : List Fld :=
  let kind := c.par 0 1
  let n := c.par 2 2
  let ref := c.par 8 8
  let inl := if ref = 0 then
      (if s.setsSettled c && decide (kind < 3) then s.recFlds c.allot kind (c.par 0x10 64) 0x10 else [anyVal 0x10 64])
    else [c.mustBe0 0x10 64]
  [c.ranged 0 1 0 2, ⟨2, 2, decide (1 ≤ n) && ((kind == 0 && ref != 0) || n == 1)⟩,
   ⟨8, 8, ref == 0 || s.rawRefUnits c.allot ref 64 (64 * n)⟩] ++ inl

/-- The records of a TEMPER_SET. -/
def State.temperRecs (s : State) (c : Cmd) : List Nat :=
  if c.par 8 8 = 0 then [c.par 0x10 64] else (recordsOf 64 (s.readRef c.allot (c.par 8 8) 64 (64 * c.par 2 2))).map leNat

/-- The layers that the records newly steer. -/
def newLayers (x : Temper) (rs : List Nat) : List Nat :=
  sortN ((rs.filter (fun r => recOn r && !x.everSteered.contains (recLayer r))).map recLayer)

/-- The records are checked, charged and kept. -/
def State.temperSet (s : State) (c : Cmd) : State :=
  let a := c.allot
  let kind := c.par 0 1
  let ref := c.par 8 8
  match if ref = 0 then none else s.poisonOf [(a, refHandle ref, 64 * bitsOf ref 32 32, 64 * c.par 2 2)] with
  | some p => s.meetPoison c p
  | none =>
    let rs := s.temperRecs c
    match if ref = 0 then none else rs.findIdx? (fun r => (s.recFlds a kind r 0).any (fun f => !f.ok)) with
    | some i => s.reject c.id (badIn i)
    | none =>
      let x := (s.al a).temper.soon
      let n := if kind = 0 then layerRecBytes * (newLayers (s.al a).temper rs).length else 0
      let y := recsInOrder (rs.map (pendRec kind)) |>.foldl Temper.apply x
      if n ≠ 0 ∧ s.fits a 2 n = false then s.reject c.id (.noResource, 0)
      else match (s.charge a .layers 2 n).chargeResiduals a y y.layers with
        | none => s.reject c.id (.noResource, 0)
        | some t => (t.addRecs c (rs.map (pendRec kind))).finishOk c.id 0

/-- TEMPER_SET: judged once the TEMPER_SET and SPILL_SET commands before it have been. -/
def execTemperSet (id : Nat) (s : State) : Out :=
  s.deant id 0x0401 temperSetFields (fun t c => if t.setsSettled c then t.temperSet c else t)

/-! ## SPILL_SET (R169, R182, R190, R192, R195) -/

/-- Bytes of a channel side object (R174). -/
def chanBytes (t : Tensor) (axis : Nat) : Nat :=
  if axis = 0 then t.rows * ceilDiv t.rowLen 256 * 24 else ceilDiv t.rows 256 * (64 + 16 * (32 * t.units))

/-- Bytes of a value side object (R184, R185). -/
def valBytes (t : Tensor) (quota : Nat) : Nat := ceilDiv t.rows 64 * t.blockCols * quota * 4

/-- A raw object that a command may name, of at least n bytes. -/
def State.rawOf (s : State) (a h n : Nat) : Bool := s.nameable a h && s.isRaw a h && decide (n ≤ (s.objD a h).size)

def State.tensorOf (s : State) (a h : Nat) : Bool := s.nameable a h && !(s.objD a h).t.raw

def spillSetFields (s : State) (c : Cmd) : List Fld :=
  let a := c.allot
  let p := c.params
  let k := spKind p
  let o := s.objSoon a (spObj p)
  let steered := (look (spLayer p) (s.al a).temper.soon.layers).isSome || !s.setsSettled c
  let unbound := (o.chan.isNone && o.val.isNone) || !s.setsSettled c
  let q := orDefault (spP p 0) 1
  [c.ranged 0 1 0 4, ⟨2, 2, if k < 2 then steered else spLayer p == 0⟩,
   ⟨4, 4, match k with
     | 0 => s.rawOf a (spObj p) (if spAux p ≤ 16777216 then ceilDiv (spAux p) 256 * 576 else 0)
     | 1 => s.tensorOf a (spObj p) && unbound
     | 2 => s.tensorOf a (spObj p) && decide (o.t.fmt ≤ 3) && o.t.smode != 0 && unbound
     | 3 => s.tensorOf a (spObj p) && (o.flagMap.isNone || !s.setsSettled c)
     | _ => s.tensorOf a (spObj p)⟩,
   ⟨8, 4, match k with
     | 0 => inRange 1 16777216 (spAux p)
     | 1 => s.rawOf a (spAux p) (chanBytes o.t (spP p 0))
     | 2 => s.rawOf a (spAux p) (valBytes o.t q)
     | 3 => s.rawOf a (spAux p) o.t.blocks
     | _ => spAux p == 0⟩,
   ⟨0xC, 1, match k with
     | 0 => decide (spP p 0 ≤ 8)
     | 1 => decide (spP p 0 ≤ 1)
     | 2 => decide (spP p 0 ≤ 16)
     | 3 => spP p 0 == 0
     | _ => decide (spP p 0 < 4)⟩,
   ⟨0xD, 1, match k with
     | 0 => decide (spP p 1 ≤ 15)
     | 2 => decide (spP p 1 ≤ 2)
     | _ => spP p 1 == 0⟩,
   ⟨0xE, 1, match k with
     | 0 => decide (spP p 2 ≤ 2)
     | 2 => decide (spP p 2 ≤ 7)
     | _ => spP p 2 == 0⟩,
   ⟨0xF, 1, if k = 0 then decide (spP p 3 < 2) else spP p 3 == 0⟩]

/-- SPILL_SET: checked, its residual charged, and kept for the next STEP_MARK. -/
def execSpillSet (id : Nat) (s : State) : Out :=
  s.deant id 0x0406 spillSetFields (fun t c =>
    if t.setsSettled c then
      let y := (t.al c.allot).temper.soon.setSpill c.params
      match t.chargeResiduals c.allot y y.layers with
      | none => t.reject id (.noResource, 0)
      | some u => (u.addRecs c [.spill c.params]).finishOk id 0
    else t)

/-! ## SCALE_SET (R144, R167) -/

def scaleSetFields (s : State) (c : Cmd) : List Fld :=
  let x := (s.al c.allot).temper.soon
  let slot := c.par 2 1
  let l := look (c.par 0 2) x.layers
  let wait := !s.setsSettled c
  [⟨0, 2, l.isSome || wait⟩,
   ⟨2, 1, decide (slot ≤ 3) && (slot == 3 || wait || (match l with
     | some y => (x.boundRungs y).any (fun g => (g.role slot).mode == 1)
     | none => true))⟩,
   c.ranged 3 1 0 2, c.ranged 4 1 0 254]

/-- SCALE_SET: its record takes effect at step 7 of the next STEP_MARK. -/
def execScaleSet (id : Nat) (s : State) : Out :=
  s.deant id 0x0404 scaleSetFields (fun t c =>
    if t.setsSettled c then (t.addRecs c [.scale (c.params % 2 ^ 64)]).finishOk id 0 else t)

/-! ## Attention and triggers (R145, R157, R160, R226) -/

/-- The steering conditions of an allotment follow its statuses. -/
def State.steerAttn (s : State) (a : Nat) : State :=
  let x := (s.al a).temper
  let two := x.storm || x.nonfinite || x.layers.any (fun e => e.2.boundHigh || e.2.poolShort || (e.2.dry && !e.2.dryMask))
  let one := x.layers.any (fun e => e.2.wouldPromote)
  let t := if two then s.setCond a .steering2 2 else s.dropCond a .steering2
  (if one then t.setCond a .steering1 1 else t.dropCond a .steering1).settle

/-- A dry step (R157). -/
def Layer.isDry (l : Layer) (st : StepStats) : Bool :=
  let g := st.slots.getD 2 {}
  decide (0 < g.convElems) && decide (g.nzCodes * 10000 ≤ l.dryEps * g.convElems)

/-- DRY_COUNT becomes equal to D at the close of this step. -/
def Layer.dryFires (l : Layer) (st : StepStats) : Bool := l.isDry st && l.dryCount + 1 == l.drySteps && !l.dryMask

/-- count / total above a threshold in basis points; 0xFFFF disables it (R145). -/
def aboveBp (count total bp : Nat) : Bool := bp != 0xFFFF && decide (bp * total < count * 10000)

/-- The triggers of a layer on the counts of a step, as TRIG bits 0 to 4. -/
def Layer.triggers (l : Layer) (st : StepStats) : Nat :=
  let w := st.slots.take 3
  b2n (st.hardSat || w.any (fun x => aboveBp x.satBlocks x.convBlocks l.promoSat)) +
  2 * b2n (w.any (fun x => aboveBp x.zeroed x.nonzeroIn l.promoZero)) +
  4 * b2n st.spillOver + 8 * b2n (decide (0 < st.retries)) + 16 * b2n (l.dryFires st)

/-- PENDING (R162): the rung that the next STEP_MARK would apply on the counts so far. -/
def Layer.pendingRung (l : Layer) : Nat :=
  if l.autoOff then l.rung
  else if l.triggers l.openStats != 0 then min (l.rung + 1) l.hi
  else if 0 < l.openStats.ops ∧ l.lo < l.rung ∧ l.demoteSteps ≤ l.cleanCount + 1 then l.rung - 1
  else l.rung

/-! ## TEMPER_READ and STATS_READ (R162, R163, R165, R166) -/

/-- The delayed codes in force, 0 for a slot without delayed scaling. Slot O, whose scaling its outputs decide, always shows its code:
the initial 0x7F while it has drained into no TENSOR object. DESIGN CHOICE (log 56). -/
def Temper.codes (x : Temper) (l : Layer) : List Nat :=
  (List.range 4).map (fun i => if i = 3 ∨ (x.roleAt l l.rung i).mode = 1 then l.code i else 0)

def Layer.status (l : Layer) : Nat :=
  b2n l.boundHigh + 2 * b2n l.dry + 4 * b2n l.probing + 8 * b2n l.storm + 16 * b2n l.poolShort + 32 * b2n l.wouldPromote +
  64 * b2n (decide (0 < l.closedStats.retries)) + 128 * b2n l.closedStats.spillOver

/-- The 64 bytes of a layer record. -/
def Temper.layerBytes (x : Temper) (i : Nat) (l : Layer) : List Byte :=
  leBytes i 2 ++ leBytes l.ladder 1 ++ leBytes (l.lo + 16 * l.hi) 1 ++ leBytes l.rung 1 ++
  leBytes (1 + 4 * b2n l.autoOff + 8 * b2n l.dryMask) 1 ++ leBytes l.hist 1 ++ leBytes l.margin 1 ++ leBytes l.promoSat 2 ++
  leBytes l.promoZero 2 ++ leBytes l.hardSat 2 ++ leBytes l.demoteSteps 2 ++ leBytes l.drySteps 2 ++ leBytes l.dryEps 2 ++
  leBytes l.wMaster 4 ++ leBytes l.wScales 4 ++ leBytes l.group 1 ++ zeros 3 ++
  leBytes l.status 2 ++ leBytes l.pendingRung 1 ++ zeros 1 ++ leBytes l.cleanCount 2 ++ leBytes l.dryCount 2 ++
  (x.codes l).flatMap (fun v => leBytes v 1) ++
  leBytes (sumN (l.pins.mapIdx (fun i p => 2 ^ i * b2n p))) 1 ++ zeros 19

/-- The 64 bytes of a ladder record; a ladder that was never loaded has RUNGS 0. DESIGN CHOICE (log 60). -/
def Temper.ladderBytes (x : Temper) (n : Nat) : List Byte :=
  let rungs := x.ladder n
  padTo 64 (leBytes n 1 ++ leBytes rungs.length 1 ++ zeros 6 ++ rungs.flatMap (fun g => leBytes g.word 4))

/-- A slot block. -/
def SlotStats.bytes (x : SlotStats) (code : Nat) : List Byte :=
  leBytes x.runMax.toNat 4 ++ leBytes code 1 ++ leBytes (x.fmt.getD 0xFF) 1 ++ zeros 2 ++
  [x.convElems, x.nonzeroIn, x.nzCodes, x.saturated, x.zeroed, x.nanIn, x.convBlocks, x.satBlocks, x.zeroBlocks,
    x.swampedBlocks, x.spillUsed, x.spillOver].flatMap (fun v => leBytes v 8) ++
  zeros 24 ++ x.hist.flatMap (fun v => leBytes v 4)

/-- floor(n · 10,000 / d), 0xFFFF when d is 0. -/
def fracBp (n d : Nat) : Nat := if d = 0 then 0xFFFF else n * 10000 / d

/-- The 1,152 bytes of a statistics record. -/
def Temper.statBytes (x : Temper) (i : Nat) (l : Layer) (closed : Bool) : List Byte :=
  let st := if closed then l.closedStats else l.openStats
  let g := st.slots.getD 2 {}
  leBytes i 2 ++ leBytes (if closed then st.rung else l.rung) 1 ++ leBytes st.trig 1 ++ leBytes (satTo (2 ^ 32 - 1) st.ops) 4 ++
  leBytes (if closed then st.step else x.step) 8 ++ leBytes st.accSaturated 8 ++ leBytes st.accZeroed 8 ++
  leBytes (satTo (2 ^ 32 - 1) st.retries) 4 ++ leBytes (l.changeFrac.getD 0xFFFF) 2 ++ leBytes (fracBp g.nzCodes g.convElems) 2 ++
  leBytes st.severity 2 ++ zeros 86 ++
  (st.slots.mapIdx (fun k v => v.bytes (if closed then v.scale else (x.codes l).getD k 0))).flatten

/-- FIRST_LAYER and COUNT. -/
def layerRange (c : Cmd) : List Fld := [anyVal 0 2, ⟨2, 2, decide (1 ≤ c.par 2 2) && decide (c.par 0 2 + c.par 2 2 ≤ 65536)⟩]

/-- DEST_REF: a raw object and an offset in units of 64 bytes within it. -/
def State.destUnits (s : State) (c : Cmd) : Fld := ⟨8, 8, s.rawRefUnits c.allot (c.par 8 8) 64 0⟩

/-- The steered layers of the command's range. -/
def State.layersIn (s : State) (c : Cmd) : List (Nat × Layer) :=
  (s.al c.allot).temper.layers.filter (fun e => decide (c.par 0 2 ≤ e.1) && decide (e.1 < c.par 0 2 + c.par 2 2))

/-- Whole records of n bytes that the destination still holds. -/
def State.roomFor (s : State) (c : Cmd) (n : Nat) : Nat :=
  ((s.objD c.allot (refHandle (c.par 8 8))).size - 64 * bitsOf (c.par 8 8) 32 32) / n

/-- Records written at DEST_REF. -/
def State.writeUnitsAt (s : State) (c : Cmd) (bs : List Byte) : State :=
  let r := c.par 8 8
  let o := s.objD c.allot (refHandle r)
  (s.writeObj c.allot (refHandle r) (64 * bitsOf r 32 32) bs).countBytes c o.tier none bs.length

def temperReadFields (s : State) (c : Cmd) : List Fld := layerRange c ++ [c.ranged 4 1 0 3, s.destUnits c]

/-- TEMPER_READ: ladders, then layers, each whole while the destination holds it; CLEAR acts on the layers written. -/
def execTemperRead (id : Nat) (s : State) : Out :=
  s.deant id 0x0402 temperReadFields (fun t c =>
    let x := (t.al c.allot).temper
    let clear := bitOf (c.par 4 1) 0
    let room := t.roomFor c 64
    let lads := (if bitOf (c.par 4 1) 1 then List.range 4 else []).take room
    let ls := (t.layersIn c).take (room - lads.length)
    let t1 := t.writeUnitsAt c (lads.flatMap x.ladderBytes ++ ls.flatMap (fun e => x.layerBytes e.1 e.2))
    let res := ls.length + b2n x.storm * 2 ^ 16 + lads.length * 2 ^ 17
    if clear then
      let drop (e : Nat × Layer) : Nat × Layer :=
        if ls.any (fun k => k.1 == e.1) then
          (e.1, { e.2 with boundHigh := false, dry := false, storm := false, poolShort := false, wouldPromote := false })
        else e
      ((t1.modAl c.allot (fun y => { y with temper := { y.temper with
        layers := y.temper.layers.map drop, storm := false, nonfinite := false } })).steerAttn c.allot).finishOk id res
    else t1.finishOk id res)

def statsReadFields (s : State) (c : Cmd) : List Fld := layerRange c ++ [c.ranged 4 1 0 1, s.destUnits c]

/-- STATS_READ: one record for each steered layer of the range, each whole while the destination holds it. -/
def execStatsRead (id : Nat) (s : State) : Out :=
  s.deant id 0x0403 statsReadFields (fun t c =>
    let x := (t.al c.allot).temper
    let ls := (t.layersIn c).take (t.roomFor c 1152)
    (t.writeUnitsAt c (ls.flatMap (fun e => x.statBytes e.1 e.2 (c.par 4 1 == 0)))).finishOk id ls.length)

end Sys2Proof.Machine
end

