-- ==== Sys2Proof/Machine/Marks.lean ====
section
/-! DEFINITION. Steps 2 to 8 of a STEP_MARK: the closing of a step, records, triggers, storms, rung changes, delayed scales,
the dry probe, channel lists and working copies (R136, R142 to R158, R169 to R173, R193, R386, R500). -/

namespace Sys2Proof.Machine

def State.modTemper (s : State) (a : Nat) (f : Temper → Temper) : State := s.modAl a (fun x => { x with temper := f x.temper })

def State.temper (s : State) (a : Nat) : Temper := (s.al a).temper

/-- Every layer of an allotment changed by f. -/
def State.modLayers (s : State) (a : Nat) (f : Nat → Layer → Layer) : State :=
  s.modTemper a (fun x => { x with layers := x.layers.map (fun e => (e.1, f e.1 e.2)) })

/-! ## Step 2 (R136) -/

/-- The open step of a layer closes. -/
def Temper.closeLayer (x : Temper) (l : Layer) : Layer :=
  let st := l.openStats
  { l with
    closedStats := { st with step := x.step, rung := l.rung,
                             slots := (st.slots.zip (x.codes l)).map (fun e => { e.1 with scale := e.2 }) }
    openStats := {}, openBy := [] }

def State.closeStep (s : State) (a : Nat) : State := s.modLayers a (fun _ l => (s.temper a).closeLayer l)

/-! ## Step 3 (R144, R150, R161, R169, R192) -/

/-- The records of commands accepted before acceptance number n, in their order. -/
def Temper.recsBefore (x : Temper) (n : Nat) : List PendRec := (x.recs.filter (fun r => decide (r.1 < n))).map (·.2)

/-- The layers that the records place with SET_RUNG. -/
def placedBy (rs : List PendRec) : List Nat :=
  sortN (rs.filterMap (fun r => match r with
    | .layer b => if recOn b && recSetRung b then some (recLayer b) else none
    | .ladder _ | .policy _ | .spill _ | .scale _ | .mirror _ | .mirrorPolicy _ => none))

/-- The residual of a layer follows what its bounds and its record need (R140, R192, R193); a new W master starts at +0. Its charge
also holds what a record that waits will need (R161). -/
def State.syncResidual (s : State) (a i oldMaster : Nat) : State :=
  let x := s.temper a
  let needs := (x :: x.futures).filterMap (fun y => (look i y.layers).bind (s.residualNeed a y))
  let t := s.uncharge a (.residual i)
  let u := t.charge a (.residual i) ((needs.head?.map (·.1)).getD 2) (maxN (needs.map (·.2)))
  let has := ((look i x.layers).bind (s.residualNeed a x)).isSome
  u.modLayer a i (fun y =>
    { y with residual := if has then some (if y.wMaster = oldMaster then y.residual.getD [] else []) else none })

/-- The charges of layers that are no longer steered are returned, but for what the records that wait will need (R161). -/
def State.dropLayerCharges (s : State) (a : Nat) : State :=
  let keep (k : ChargeKind) : Bool := match k with
    | .copy i => s.steered a i
    | .residual i => (s.temper a).everSteered.contains i
    | .layers | .buffer _ | .workspace _ | .tailwater _ _ _ | .mirrorLog | .shadow _ => true
  let t := s.modAl a (fun x => { x with charges := x.charges.filter (fun c => keep c.kind) })
  (t.uncharge a .layers).charge a .layers 2 (layerRecBytes * (t.temper a).everSteered.length)

/-- A rung change leaves a RUNG_CHANGE record (16 "Trace record types"). -/
def State.traceRung (s : State) (c : Cmd) (i old new : Nat) : State :=
  if old = new then s else s.traceAt 0 6 (some c.allot) c.acc (i + old * 2 ^ 16 + new * 2 ^ 24)

/-- Step 3: the records take effect, and every rung is clamped into its bounds. Records of SCALE_SET and MIRROR_SET stay for
steps 7 and 9. -/
def State.applyRecords (s : State) (c : Cmd) (rs : List PendRec) : State :=
  let a := c.allot
  let old := s.temper a
  let y := (recsInOrder rs).foldl Temper.apply old
  let t := s.modTemper a (fun x => { y with
    layers := y.layers.map (fun e => (e.1, e.2.clamped))
    recs := x.recs.filter (fun r => !decide (r.1 < c.acc) || decide (4 ≤ r.2.rank)) })
  let t1 := rs.foldl (fun u r => match r with
    | .spill p => if (u.obj? a (spObj p)).isSome then u.modObj a (spObj p) (fun o => o.setSpill p) else u
    | .layer _ | .ladder _ | .policy _ | .scale _ | .mirror _ | .mirrorPolicy _ => u) t
  let t2 := t1.dropLayerCharges a
  let t3 := (t2.temper a).everSteered.foldl (fun u i => u.syncResidual a i (((look i old.layers).map (·.wMaster)).getD 0)) t2
  (t3.temper a).layers.foldl (fun u e => match look e.1 old.layers with
    | some o => u.traceRung c e.1 o.rung e.2.rung
    | none => u) t3

/-! ## Step 4 (R145 to R149, R157, R386) -/

/-- What step 4 finds of a layer: its request with class and severity fraction, and its move. -/
structure Judged where
  layer : Nat
  requests : Bool := false
  cls : Nat := 0
  frac : Nat := 0
  up : Bool := false
  down : Bool := false
  deriving DecidableEq, Repr

/-- A slot with the partner's counts added and the larger maximum (R386). -/
def SlotStats.withPartner (x : SlotStats) (p : SyncSlot) : SlotStats :=
  let n (i : Nat) : Nat := p.counts.getD i 0
  { x with runMax := maxMag x.runMax p.runMax, convElems := x.convElems + n 0, nonzeroIn := x.nonzeroIn + n 1, nzCodes := x.nzCodes + n 2
           zeroed := x.zeroed + n 3, convBlocks := x.convBlocks + n 4, satBlocks := x.satBlocks + n 5 }

/-- The partner's slots of layer i enter the closed step. -/
def StepStats.withPartner (st : StepStats) (ps : List SyncSlot) : StepStats :=
  ps.foldl (fun z p => { z with
    slots := modAt p.slot (fun x => x.withPartner p) z.slots
    chmaxW := if p.slot = 0 then mergeMax z.chmaxW p.chans else z.chmaxW
    chmaxA := if p.slot = 1 then mergeMax z.chmaxA p.chans else z.chmaxA
    ops := z.ops + p.counts.getD 6 0
    spillOver := z.spillOver || p.counts.getD 7 0 != 0
    hardSat := z.hardSat || p.counts.getD 8 0 != 0 }) st

/-- The closed step of a layer as the partner gets it; the counts of the whole layer stand in slot W (R387). -/
def StepStats.toPartner (st : StepStats) (layer : Nat) : List SyncSlot :=
  (st.slots.zipIdx).map (fun e =>
    { layer := layer, slot := e.2, runMax := e.1.runMax
      counts := [e.1.convElems, e.1.nonzeroIn, e.1.nzCodes, e.1.zeroed, e.1.convBlocks, e.1.satBlocks] ++
        (if e.2 = 0 then [st.ops, b2n st.spillOver, b2n st.hardSat] else [])
      chans := if e.2 = 0 then st.chmaxW else if e.2 = 1 then st.chmaxA else [] })

/-- The closed step of layer i as it is judged: on both sides' counts while the pair shares its tempers. -/
def State.judgedStats (s : State) (a i : Nat) (l : Layer) : StepStats :=
  match if s.temperSynced then s.pair.syncStats.find? (fun e => e.1 == a && e.2.1 == (s.temper a).step) else none with
  | some e => l.closedStats.withPartner (e.2.2.filter (fun p => p.layer == i))
  | none => l.closedStats

/-- A fraction in basis points, rounded down; 0 of nothing (R146). -/
def fracOf (n d : Nat) : Nat := if d = 0 then 0 else n * 10000 / d

/-- The class of TRIG bits 0 to 4 (R146). -/
def trigClass (t : Nat) : Nat :=
  if bitOf t 3 then 4 else if bitOf t 2 then 3 else if bitOf t 0 then 2 else if bitOf t 1 then 1 else 0

/-- The severity fraction of a class. -/
def StepStats.severityOf (st : StepStats) (cls : Nat) : Nat :=
  let w := st.slots.take 3
  match cls with
  | 0 => 10000
  | 1 => maxN (w.map (fun x => fracOf x.zeroed x.nonzeroIn))
  | _ => maxN (w.map (fun x => fracOf x.satBlocks x.convBlocks))

/-- DRY_COUNT after the step (R157). -/
def Layer.nextDry (l : Layer) (st : StepStats) : Nat :=
  if (st.slots.getD 2 {}).convElems = 0 then l.dryCount else if l.isDry st then min 65535 (l.dryCount + 1) else 0

/-- A layer is judged on the closed step. -/
def Layer.judge (l : Layer) (i : Nat) (st : StepStats) : Layer × Judged :=
  let t := l.triggers st
  let fires := l.dryFires st
  let cls := trigClass t
  let frac := if t = 0 then 0 else st.severityOf cls
  let atHi := decide (l.hi ≤ l.rung)
  let base := { l with dryCount := l.nextDry st, dry := l.dry || fires }
  let closed (bh : Bool) : StepStats := { l.closedStats with trig := t + 32 * b2n (t != 0) + 64 * b2n bh, severity := min 65535 frac }
  if t ≠ 0 then
    if l.autoOff then ({ base with cleanCount := 0, wouldPromote := true, closedStats := closed false },
      { layer := i, requests := true, cls := cls, frac := frac })
    else if atHi then ({ base with cleanCount := 0, boundHigh := true, closedStats := closed true },
      { layer := i, requests := true, cls := cls, frac := frac })
    else ({ base with cleanCount := 0, closedStats := closed false }, { layer := i, requests := true, cls := cls, frac := frac, up := true })
  else if st.ops = 0 then ({ base with closedStats := closed false }, { layer := i })
  else
    let n := min l.demoteSteps (l.cleanCount + 1)
    ({ base with cleanCount := n, closedStats := closed false },
      { layer := i, down := decide (l.demoteSteps ≤ n) && decide (l.lo < l.rung) && !l.autoOff })

/-- A standby makes no decisions of its own (R386). -/
def State.standby (s : State) : Bool := s.pair.bound && s.pair.role == 2

/-- Step 4 for every steered layer but those that step 3 placed. -/
def State.judgeAll (s : State) (a : Nat) (placed : List Nat) : State × List Judged :=
  if s.standby then (s, [])
  else
    (s.temper a).layers.foldl (fun acc e =>
      if placed.contains e.1 then acc
      else
        let r := e.2.judge e.1 (s.judgedStats a e.1 e.2)
        (acc.1.modLayer a e.1 (fun _ => r.1), acc.2 ++ [r.2])) (s, [])

/-! ## Step 5 (R154) -/

/-- REQ layers of STEERED are too many. -/
def Temper.stormy (x : Temper) (reqs : Nat) : Bool := decide (x.stormThresh * x.steeredAtOpen < reqs * 10000)

/-- The storm test: a storm sets the statuses, raises attention and is a trigger cause. -/
def State.stormTest (s : State) (a : Nat) (reqs : List Nat) : State × Bool :=
  if (s.temper a).stormy reqs.length then
    ((((s.modTemper a (fun x => { x with storm := true, stormInStep := true })).modLayers a (fun i l =>
      { l with storm := l.storm || reqs.contains i })).steerAttn a).settleWith 8 0, true)
  else (s, false)

/-! ## Step 6 (R151) -/

/-- The working copy of a layer is made to match a rung: fits or not, and whether a new copy was allocated. A copy that does not
fit leaves the storage of the old one in place. DEDUCED (log 61). -/
def State.fitCopy (s : State) (a i rung : Nat) : State × Bool × Bool :=
  match s.layer? a i with
  | none => (s, true, false)
  | some l =>
    match if l.wMaster = 0 then none else s.obj? a l.wMaster with
    | none => ((s.uncharge a (.copy i)).modLayer a i (fun y => { y with copy := none, copyValid := false, copyKey := none }), true, false)
    | some m =>
      let r := (s.temper a).roleAt l rung 0
      let key := (r.fmt, r.mode, l.wMaster)
      if l.copyKey = some key then (s, true, false)
      else
        let n := copyBytes m.t r
        if s.fits a (masterPool m) n then
          (((s.uncharge a (.copy i)).charge a (.copy i) (masterPool m) n).modLayer a i (fun y => { y with
            copy := some (copyTensor m.t r), copyValid := false, copyKey := some key }), true, true)
        else (s.modLayer a i (fun y => { y with poolShort := true }), false, false)

/-- What step 6 has done: the layers with new copies, and the counts of promotions and demotions. -/
structure Rungs where
  s : State
  made : List Nat := []
  promoted : Nat := 0
  demoted : Nat := 0

/-- Copies that step 3 made necessary (point 1). -/
def Rungs.settleCopy (x : Rungs) (a i : Nat) : Rungs :=
  match x.s.layer? a i with
  | none => x
  | some l =>
    let r := x.s.fitCopy a i l.rung
    { x with s := if r.2.1 then r.1 else r.1.modLayer a i (fun y => { y with copyValid := false })
             made := if r.2.2 then insertN i x.made else x.made }

/-- A demotion or a promotion, taken when its copy fits (points 2 to 5). -/
def Rungs.move (x : Rungs) (c : Cmd) (i : Nat) (up : Bool) : Rungs :=
  match x.s.layer? c.allot i with
  | none => x
  | some l =>
    let n := if up then l.rung + 1 else l.rung - 1
    let r := x.s.fitCopy c.allot i n
    if r.2.1 then
      { s := (r.1.modLayer c.allot i (fun y => { y with rung := n, cleanCount := 0, dryCount := 0 })).traceRung c i l.rung n
        made := if r.2.2 then insertN i x.made else x.made
        promoted := x.promoted + b2n up, demoted := x.demoted + b2n (!up) }
    else { x with s := r.1 }

/-- The order of promotions: class and fraction falling, layer rising (R146). -/
def promoteOrder (js : List Judged) : List Judged := sortBy (fun j => (4 - j.cls, 10000000 - j.frac)) (js.filter (·.up))

/-- A layer whose W format or scale mode has changed since the last STEP_MARK starts its residual again from +0 and has its copy
written (R140, R193). -/
def Rungs.noteForm (x : Rungs) (a i : Nat) : Rungs :=
  match x.s.layer? a i with
  | none => x
  | some l =>
    let r := (x.s.temper a).roleAt l l.rung 0
    let changed := l.wForm.isSome && l.wForm != some (r.fmt, r.mode)
    { x with
      s := x.s.modLayer a i (fun y => { y with
        wForm := some (r.fmt, r.mode), residual := if changed then y.residual.map (fun _ => []) else y.residual })
      made := if changed && x.s.hasCopy a l then insertN i x.made else x.made }

/-- Step 6. -/
def State.moveRungs (s : State) (c : Cmd) (js : List Judged) : Rungs :=
  let x1 := (s.temper c.allot).layers.foldl (fun x e => x.settleCopy c.allot e.1) ({ s := s } : Rungs)
  let x2 := (js.filter (·.down)).foldl (fun x j => x.move c j.layer false) x1
  let x3 := (promoteOrder js).foldl (fun x j => x.move c j.layer true) x2
  (s.temper c.allot).layers.foldl (fun x e => x.noteForm c.allot e.1) x3

/-! ## Step 7: scales (R142, R144, R158) -/

/-- A SCALE_SET record: release or set the pin, or clear the history. -/
def Layer.setScale (l : Layer) (slot act code : Nat) : Layer :=
  match act with
  | 0 => { l with pins := l.pins.set slot false }
  | 1 => { l with pins := l.pins.set slot true, scales := l.scales.set slot code }
  | _ => { l with history := l.history.set slot [] }

/-- The delayed code of a maximum: 2^d is the delayed scale and the code that of 2^(−d). -/
def delayedCode (fmt : Nat) (grid : Option Nat) (h : W32) (margin : Nat) : Option Nat :=
  match dec32 h with
  | .fin _ m e =>
    let g : Nat × Int := if fmt = 1 then (gridMag (grid.getD (gridMaxByte [])), -13) else gMax fmt [] false
    if m = 0 ∨ g.1 = 0 then none
    else
      let he := e + (margin : Int)
      let k := flog2 g.1 g.2 - flog2 m he
      let d := if magLt g.1 g.2 m (he + k) then k - 1 else k
      some (max 0 (min 254 (127 - d))).toNat
  | .inf _ => none
  | .nan _ => none

/-- The code that the history of a slot gives; the previous code where it gives none (R142). -/
def Layer.historyCode (l : Layer) (i fmt : Nat) (st : SlotStats) : Nat :=
  let h := ((l.history.getD i []).take l.hist).foldl maxMag 0#32
  (delayedCode fmt st.gridMax h l.margin).getD (l.code i)

/-- One fall of the probe. -/
def Layer.fall (l : Layer) : Layer := { l with scales := l.scales.set 2 (l.code 2 - 4), probing := true }

/-- The format that slot i's delayed scaling acts for; none where it has none. -/
def Temper.delayedFmt (x : Temper) (l : Layer) (i : Nat) : Option Nat :=
  if i = 3 then l.oFmt else let r := x.roleAt l l.rung i; if r.mode = 1 then some r.fmt else none

/-- Step 7 for slot i of a layer. st: the closed step as judged. A step that converts no G element neither moves nor ends the
probe, and a probe that a pin ended does not start again when the pin is released. DESIGN CHOICE (log 58). -/
def Temper.scaleSlot (x : Temper) (st : StepStats) (l : Layer) (i : Nat) : Layer :=
  let quiet (y : Layer) : Layer := if i = 2 then { y with probing := false } else y
  match x.delayedFmt l i with
  | none => quiet l
  | some f =>
    let z := st.slots.getD i {}
    let l1 := { l with history := l.history.set i ((z.runMax :: l.history.getD i []).take 64) }
    let set (y : Layer) : Layer := { y with scales := y.scales.set i (y.historyCode i f z) }
    if l.pins.getD i false then quiet l1
    else if i = 2 ∧ l.dryMask = false ∧ l.probing = true then
      if l.isDry st then l1.fall
      else if z.convElems = 0 then l1
      else set { l1 with probing := false, history := l1.history.set 2 [z.runMax] }
    else if i = 2 ∧ bitOf l.closedStats.trig 4 = true then l1.fall
    else set (quiet l1)

/-! ## Step 7: channel lists (R172, R173, R196) -/

/-- The codes of a window's channels. -/
def windowCodes (m : List (Nat × Nat)) (w n : Nat) : List Nat := (List.range n).map (fun k => lookN (256 * w + k) m)

/-- The code at rank ceil(n/2), largest first. -/
def refCode (cs : List Nat) : Nat := (sortBy (fun v => (255 - v, 0)) cs).getD (ceilDiv cs.length 2 - 1) 0

/-- The candidates of a window, by gap falling, then index rising. The index 255 cannot be listed (log 26). -/
def windowCands (sides : List (List Nat)) (n gap : Nat) (cur : List Nat) : List Nat :=
  let refs := sides.map refCode
  let g (k : Nat) : Int := ((sides.zip refs).map (fun e => (e.1.getD k 0 : Int) - (e.2 : Int))).foldl max (-256)
  let need (k : Nat) : Int := if cur.contains k then (gap : Int) - 1 else (gap : Int)
  let ks := (List.range (min n 255)).filter (fun k => decide (need k ≤ g k))
  if sides = [] then [] else sortBy (fun k => ((256 - g k).toNat, k)) ks

/-- A tensor of the side (axis 0 or 1) is bound to the layer. -/
def State.sideBound (s : State) (a layer axis : Nat) : Bool :=
  (s.al a).objs.any (fun e => match e.2.chan with
    | some c => c.layer == layer && c.axis == axis
    | none => false)

/-- A list window record. -/
def windowBytes (ca cw list passed : List Nat) (cands : Nat) : List Byte :=
  let eight (l : List Nat) : List Byte := (l.map (BitVec.ofNat 8) ++ List.replicate (8 - l.length) 0xFF#8).take 8
  padTo 256 (ca.map (BitVec.ofNat 8)) ++ padTo 256 (cw.map (BitVec.ofNat 8)) ++ eight list ++ eight passed ++
  leBytes list.length 1 ++ leBytes (satTo 255 cands) 1 ++ zeros 46

/-- The LIST of window w that host software wrote. -/
def hostList (o : Obj) (w : Nat) : List Nat :=
  ((o.read (576 * w + 0x200) 8).map (·.toNat)).filter (· != 255)

/-- Lists and passed-over candidates of one window in force after this step, with the number of candidates. -/
def Layer.windowList (l : Layer) (o : Obj) (sides : List (List Nat)) (n w : Nat) : List Nat × List Nat × Nat :=
  let cur := if l.spill.mode = 1 then hostList o w else (look w l.spill.lists).getD []
  let cands := windowCands sides n l.spill.gap cur
  let list := if l.spill.mode = 1 then cur else sortN (cands.take l.spill.cap)
  (list, (cands.drop l.spill.cap).take 8, cands.length)

/-- Step 7 for the lists of a layer; whether a list has changed. -/
def State.chooseLists (s : State) (a i : Nat) : State × Bool :=
  match s.layer? a i with
  | none => (s, false)
  | some l =>
    let p := l.spill
    if p.kLen = 0 then (s, false)
    else if p.mode = 2 then
      (s.modLayer a i (fun y => { y with spill := { y.spill with lists := [], passed := [] } }), p.lists.any (fun e => e.2 != []))
    else
      let useA := s.sideBound a i 0
      let useW := s.sideBound a i 1
      let o := s.objD a p.list
      let st := s.judgedStats a i l
      let step (acc : State × List (Nat × List Nat) × List (Nat × List Nat)) (w : Nat) : State × List (Nat × List Nat) × List (Nat × List Nat) :=
        let n := min 256 (p.kLen - 256 * w)
        let ca := windowCodes st.chmaxA w n
        let cw := windowCodes st.chmaxW w n
        let r := l.windowList o ((if useA then [ca] else []) ++ (if useW then [cw] else [])) n w
        (if (acc.1.obj? a p.list).isSome then acc.1.writeObj a p.list (576 * w) (windowBytes ca cw r.1 r.2.1 r.2.2) else acc.1,
          if r.1 = [] then acc.2.1 else acc.2.1 ++ [(w, r.1)], if r.2.1 = [] then acc.2.2 else acc.2.2 ++ [(w, r.2.1)])
      let r := (List.range (ceilDiv p.kLen 256)).foldl step (s, [], [])
      (r.1.modLayer a i (fun y => { y with spill := { y.spill with lists := r.2.1, passed := r.2.2 } }), decide (r.2.1 ≠ p.lists))

/-- Step 7: SCALE_SET records, then histories and codes, then channel lists. The second part: the layers whose lists have
changed. -/
def State.setScales (s : State) (a : Nat) (rs : List PendRec) : State × List Nat :=
  let s1 := rs.foldl (fun t r => match r with
    | .scale p => t.modLayer a (fieldOf p 0 2) (fun l => l.setScale (fieldOf p 2 1) (fieldOf p 3 1) (fieldOf p 4 1))
    | .layer _ | .ladder _ | .policy _ | .spill _ | .mirror _ | .mirrorPolicy _ => t) s
  let s2 := s1.modLayers a (fun i l => (List.range 4).foldl ((s1.temper a).scaleSlot (s1.judgedStats a i l)) l)
  (s2.temper a).layers.foldl (fun acc e =>
    let r := acc.1.chooseLists a e.1
    (r.1, if r.2 then acc.2 ++ [e.1] else acc.2)) (s2, [])

/-! ## Step 8 (R140, R173, R500) -/

/-- Working copies are written in layer order until one meets a poisoned block: then the command is discarded with PARTIAL, and
that layer and those after it have no valid working copy. -/
def State.writeCopies (s : State) (c : Cmd) : List Nat → State
  | [] => s
  | i :: r =>
    match s.layer? c.allot i with
    | none => s.writeCopies c r
    | some l =>
      if !s.hasCopy c.allot l then s.writeCopies c r
      else match s.copyPoison c.allot l with
        | some p =>
          let c1 := { c with wrote := true }
          let t := (i :: r).foldl (fun u k => u.modLayer c.allot k (fun y => { y with copyValid := false })) s
          (t.modCmd c.id (fun d => { d with wrote := true })).meetPoison c1 p
        | none => (s.copyFrom c c.allot i).writeCopies c r

end Sys2Proof.Machine
end

