-- ==== Sys2Proof/Machine/Update.lean ====
section
/-! DEFINITION. The update engine: parameter records, the norm pass, rule slots and frozen parameters (R219 to R224, R234 to
R236), and the arithmetic of an update (R227 to R232). -/

namespace Sys2Proof.Machine

/-! ## Parameter records (R219, R220) -/

/-- A parameter record. -/
structure Param where
  master : Nat
  grad : Nat
  mom : Nat
  layer : Nat
  kind : Nat
  rule : Nat
  rows : Nat
  cols : Nat
  lrMult : W32
  wdMult : W32
  rsvd : Nat
  deriving DecidableEq, Repr

/-- The record whose 64 bytes are r. -/
def paramOf (r : Nat) : Param :=
  { master := fieldOf r 0 4, grad := fieldOf r 4 4, mom := fieldOf r 8 4, layer := fieldOf r 0xC 2, kind := fieldOf r 0xE 1
    rule := fieldOf r 0xF 1, rows := fieldOf r 0x10 4, cols := fieldOf r 0x14 4, lrMult := w32 (fieldOf r 0x18 4)
    wdMult := w32 (fieldOf r 0x1C 4), rsvd := fieldOf r 0x20 32 }

/-- The records of the list of an UPD_NORM or UPD_APPLY. -/
def State.paramsOf (s : State) (c : Cmd) : List Param :=
  (recordsOf 64 (s.readRef c.allot (c.par 0 8) 64 (64 * c.par 8 4))).map (fun b => paramOf (leNat b))

/-- A tensor of n elements that a command may name. -/
def State.countOk (s : State) (a h n : Nat) : Bool :=
  s.tensorOf a h && (s.objD a h).t.rows * (s.objD a h).t.rowLen == n

def finite32 (w : W32) : Bool := (dec32 w).isFin

/-- Slot n holds a rule, or an UPD_RULE accepted before the command is still to load it. -/
def State.ruleSoon (s : State) (c : Cmd) (n : Nat) : Bool :=
  (look n (s.al c.allot).upd.rules).isSome || (s.earlier c).any (fun d => d.opcode == 0x0504 && d.par 0 1 == n)

/-- A record by itself (R220). -/
def State.paramOk (s : State) (c : Cmd) (p : Param) : Bool :=
  let a := c.allot
  let n := p.rows * p.cols
  let mo := (s.objD a p.mom).t
  p.rsvd == 0 && inRange 1 65536 p.rows && inRange 1 65536 p.cols && decide (p.kind ≤ 1) && decide (p.rule ≤ 7) &&
  s.masterOk a p.master && s.countOk a p.master n && s.countOk a p.grad n && s.countOk a p.mom n &&
  (mo.fmt == 4 || mo.fmt == 8) && mo.smode == 0 && (p.kind == 1 || (decide (2 ≤ p.rows) && decide (2 ≤ p.cols))) &&
  (p.layer == 0xFFFF || (match s.layer? a p.layer with
    | some l => l.wMaster == p.master
    | none => false)) &&
  s.ruleSoon c p.rule && finite32 p.lrMult && finite32 p.wdMult

/-- The first record that fails; a MASTER that a record before it names fails too. -/
def State.badParamRec (s : State) (c : Cmd) (ps : List Param) : Option Nat :=
  (ps.zipIdx).findSome? (fun e =>
    if s.paramOk c e.1 && !(ps.take e.2).any (fun q => q.master == e.1.master) then none else some e.2)

/-- The list of a command may be read (R499). -/
def State.listReady (s : State) (c : Cmd) : Bool :=
  !(s.knownNames c.allot).any (fun k => decide (k.1 < c.id) && c.listRefs.any (fun r => mayWrite [k] r.handle))

/-- The range of the list of a command. -/
def listRange (c : Cmd) : Range := (c.allot, refHandle (c.par 0 8), 64 * bitsOf (c.par 0 8) 32 32, 64 * c.par 8 4)

/-- An earlier open command of the allotment with this opcode, and this NORM_SLOT where one is given. -/
def State.before (s : State) (c : Cmd) (op : Nat) (slot : Option Nat) : Bool :=
  (s.earlier c).any (fun d => d.opcode == op && (match slot with
    | some n => bitsOf (d.par 0xC 1) 0 2 == n
    | none => true))

/-! ## Elements -/

/-- The place of element k, in element order, in the element plane. -/
def Tensor.place (t : Tensor) (k : Nat) : Nat := if t.rowLen = 0 then 0 else k / t.rowLen * (32 * t.units) + k % t.rowLen

/-- The elements of a gradient, decoded to FP32 (R114, R187). -/
def State.gradVals (s : State) (a h : Nat) : List W32 :=
  let o := s.objD a h
  (List.range (o.t.rows * o.t.rowLen)).map (fun k => (s.elem32 a o (o.t.place k)).1)

/-- The elements of a master or a momentum as they are stored. -/
def Obj.words (o : Obj) : List W32 :=
  (List.range (o.t.rows * o.t.rowLen)).map (fun k => (sat32 (o.t.narrow (o.t.place k))).1)

/-- The codes of a master or a momentum as they are stored. -/
def Obj.storedCodes (o : Obj) : List Nat := (List.range (o.t.rows * o.t.rowLen)).map (fun k => o.t.code (o.t.place k))

/-- The object with the codes written row by row. -/
def Obj.putCodes (o : Obj) (codes : List Nat) : Obj :=
  ((pieces (max 1 o.t.rowLen) codes).zipIdx).foldl (fun x e =>
    x.write (e.2 * x.t.units * unitBytes x.t.fmt) (packCodes x.t.fmt e.1)) o

/-- The planes of a tensor that a decode reads. -/
def State.planesOf (s : State) (a h : Nat) : Range := (a, h, 0, (s.objD a h).t.markOff + (s.objD a h).t.markBytes)

/-! ## The norm (R221, R222) -/

/-- A two-sum whose overflowing sum becomes infinity with an error of +0 (R121, R227). -/
def twoSumInf (s p : W32) : W32 × W32 :=
  let t := add32 s p
  if !finite32 s || !finite32 p || !finite32 t then (t, 0)
  else
    let bv := sub32 t s
    let av := sub32 t bv
    (t, add32 (sub32 s av) (sub32 p bv))

/-- fl(s + c) of one compensated accumulator over its squares. -/
def laneOf (l : List W32) : W32 :=
  let r := l.foldl (fun (a : W32 × W32) p => let t := twoSumInf a.1 p; (t.1, add32 a.2 t.2)) (0, 0)
  add32 r.1 r.2

/-- The sum of the squares of a list: lane i mod 256, then the fixed tree. -/
def sumSquares (xs : List W32) : W32 :=
  let rows := pieces 256 (xs.map (fun x => mul32 x x))
  tree add32 ((List.range 256).map (fun i => laneOf (rows.filterMap (fun r => r[i]?))))

def sqrt32 (x : W32) : W32 := enc32 (fpSqrt (dec32 x))

/-- The fold of the local sums in increasing peer ID (R122, R222). -/
def foldSums (l : List (Nat × W32)) : W32 :=
  match sortBy (fun e => (e.1, 0)) l with
  | [] => 0
  | x :: r =>
    let z := r.foldl (fun (a : Sum) e => a.fold { s := e.2, any := true } true) ({ s := x.2, any := true } : Sum)
    (accAdd z.s z.c).1

/-! ## UPD_NORM (R221 to R224) -/

/-- A reference in 64-byte units, or 0. -/
def State.refOr0 (s : State) (c : Cmd) (off len : Nat) : Bool := c.par off 8 == 0 || s.refOk c.allot (c.par off 8) 64 len

/-- The group belongs to the allotment. -/
def State.groupOk (s : State) (a g : Nat) : Bool :=
  match look g s.fab.groups with
  | some x => x.allot == a
  | none => false

def updNormFields (s : State) (c : Cmd) : List Fld :=
  let cross := c.par 0xD 1 == 1
  [⟨0, 8, s.refOk c.allot (c.par 0 8) 64 (64 * c.par 8 4)⟩, c.ranged 8 4 1 65535, c.ranged 0xC 1 0 3, c.ranged 0xD 1 0 1,
   ⟨0xE, 2, if cross then s.groupOk c.allot (c.par 0xE 2) else c.par 0xE 2 == 0⟩, ⟨0x10, 8, s.refOr0 c 0x10 16⟩]

def Norm.bytes (x : Norm) : List Byte :=
  leBytes x.n.toNat 4 ++ leBytes x.qLocal.toNat 4 ++ leBytes (satTo (2 ^ 32 - 1) x.nonfinite) 4 ++ zeros 4

/-- Bytes written at a reference in 64-byte units. -/
def State.writeRef (s : State) (c : Cmd) (off k : Nat) (bs : List Byte) : State :=
  let r := c.par off 8
  if r = 0 then s
  else (s.writeObj c.allot (refHandle r) (64 * bitsOf r 32 32 + k) bs).staleWrite c.allot (refHandle r)

/-- The range of n bytes at a reference in 64-byte units. -/
def refRange (c : Cmd) (off k n : Nat) : List Range :=
  if c.par off 8 = 0 then [] else [(c.allot, refHandle (c.par off 8), 64 * bitsOf (c.par off 8) 32 32 + k, n)]

/-- The norm stands in its slot and in NORM_OUT, and the command completes. -/
def State.putNorm (s : State) (c : Cmd) (n : Norm) : State :=
  let t := s.modAl c.allot (fun x => { x with upd := { x.upd with norms := put (c.par 0xC 1) n x.upd.norms } })
  match t.poisonPartOf (refRange c 0x10 0 16) with
  | some p => t.meetPoison c p
  | none => (t.writeRef c 0x10 0 n.bytes).finishOk c.id (leNat n.bytes)

/-! ## The all-reduce of UPD_NORM (R222) -/

/-- The other members of a group. -/
def State.otherMembers (s : State) (g : Nat) : List Nat :=
  match look g s.fab.groups with
  | some x => sortN ((x.members.map (·.1)).filter (· != s.fab.self))
  | none => []

/-- The stream of exchange k of a group: that of the results of a collective (log 38). -/
def normStream (group k : Nat) : Nat := collStream group k 1

/-- The local sum of a peer, from the sums given or from the message that carries it. -/
def State.peerSum (s : State) (gid k peer : Nat) (sums : List (Nat × W32)) : Option W32 :=
  match look peer sums with
  | some q => some q
  | none =>
    match (s.fab.inbound.find? (fun x => x.stream == normStream gid k && x.peer == peer)).bind (fun x => x.msgs.find? (fun m => m.index == k)) with
    | some m => if m.bytes ≤ m.data.length then some (w32 (bytesField m.data 0 4)) else none
    | none => none

/-- The exchange leaves the engine with its messages. -/
def State.endNorm (s : State) (gid k : Nat) : State :=
  { s with fab := { s.fab with
    aborts := s.fab.aborts.filter (fun e => !(e.1 == gid && e.2.1 == k))
    inbound := s.fab.inbound.map (fun x => if x.stream = normStream gid k then { x with msgs := x.msgs.filter (fun m => m.index != k) } else x) } }

/-- A member that is waited for is lost: the exchange ends FAULT_CONTAINED (R367). -/
def State.failNorm (s : State) (c : Cmd) (src : Nat) : State :=
  (s.endNorm (c.par 0xE 2) (c.aux.getD 0 0)).finish c.id .faultContained (discardDetail src 0 false) 0

/-- The exchange as far as it can go now: with the sum of every member the norm is written; it waits for the others. aux: the number
of the exchange, the module's own sum, its count of non-finite elements. -/
def State.normGo (s : State) (c : Cmd) (sums : List (Nat × W32)) : State :=
  let gid := c.par 0xE 2
  let k := c.aux.getD 0 0
  let q := w32 (c.aux.getD 1 0)
  let parts := (s.otherMembers gid).map (fun p => (p, s.peerSum gid k p sums))
  let missing := (parts.filter (fun e => e.2.isNone)).map (·.1)
  if missing = [] then
    let qs := parts.filterMap (fun e => e.2.map (fun x => (e.1, x)))
    (s.endNorm gid k).putNorm c { n := sqrt32 (foldSums ((s.fab.self, q) :: qs)), qLocal := q, nonfinite := c.aux.getD 2 0 }
  else if missing.any (fun p => s.fab.aborts.any (fun e => e.1 == gid && e.2.1 == k && e.2.2.1 == p)) then s.failNorm c 0x5301
  else if missing.any (fun p => s.fab.peersDown.contains p) then s.failNorm c 0x5300
  else s

/-- The exchange begins: it takes its number, and the module's sum goes to every other member. -/
def State.normBegin (s : State) (c : Cmd) (q : W32) (nonfinite : Nat) (sums : List (Nat × W32)) : State :=
  let gid := c.par 0xE 2
  match look gid s.fab.groups with
  | none => s
  | some g =>
    let n := nextNumber g.norms g.normsGone 0
    let k := normBase + n
    let d := { c with phase := .working, aux := [k, q.toNat, nonfinite] }
    let t : State := ({ s with fab := { s.fab with
      groups := upd gid (fun y => { y with norms := n, normsGone := y.normsGone.filter (fun m => decide (n < m)) }) s.fab.groups } } : State).goOn c.id d.aux
    let u := (s.otherMembers gid).foldl (fun y p =>
      y.sendOn p (normStream gid k) g.allot (g.allotOf p) g.digest [(3, leBytes k 8 ++ leBytes 4 8), (0, leBytes q.toNat 4)] (some c.id)) t
    u.normGo d sums

/-- The norm pass: the gradients of the records that are not frozen. sums: local sums of the group's other members. -/
def State.updNorm (s : State) (c : Cmd) (ps : List Param) (sums : List (Nat × W32)) : State :=
  let a := c.allot
  let live := ps.filter (fun p => !(s.al a).upd.frozen.contains p.master)
  match s.poisonOf (live.map (fun p => s.planesOf a p.grad)) with
  | some p => s.meetPoison c p
  | none =>
    let xs := live.flatMap (fun p => s.gradVals a p.grad)
    let q := sumSquares xs
    let bad := (xs.filter (fun x => !finite32 x)).length
    let t := live.foldl (fun u p =>
      let o := s.objD a p.grad
      u.countBytes c o.tier (if o.tier < 2 then some o.hearth else none) o.t.elemBytes) s
    if c.par 0xD 1 = 1 then t.normBegin c q bad sums else t.putNorm c { n := sqrt32 q, qLocal := q, nonfinite := bad }

/-- The exchanges in progress that have a peer as a member. -/
def State.normsWith (s : State) (peer : Nat) : List Cmd :=
  s.hg.cmds.filter (fun c => c.opcode == 0x0501 && c.phase == .working && (s.otherMembers (c.par 0xE 2)).contains peer)

/-- A peer is lost for the exchanges that wait for its sum. -/
def State.loseNorms (s : State) (peer src : Nat) : State :=
  (s.normsWith peer).foldl (fun t c => if (t.peerSum (c.par 0xE 2) (c.aux.getD 0 0) peer []).isNone then t.failNorm c src else t) s

/-- Collective k of a group, or exchange k of UPD_NORM, has begun on this module or was discarded, and an exchange has ended. -/
def State.collPast (s : State) (gid k : Nat) : Bool :=
  let g := (look gid s.fab.groups).getD { allot := 0, members := [] }
  if normBase ≤ k then
    (decide (k - normBase ≤ g.norms) || g.normsGone.contains (k - normBase)) &&
      !s.hg.cmds.any (fun c => c.opcode == 0x0501 && c.phase == .working && c.par 0xE 2 == gid && c.aux.getD 0 0 == k)
  else decide (k ≤ g.begun) || g.gone.contains k

/-- An UPD_NORM at work goes on with the sums that have arrived. -/
def State.normsGo (s : State) : State :=
  (s.hg.cmds.filter (fun c => c.opcode == 0x0501 && c.phase == .working)).foldl (fun t c => t.normGo c []) s

/-- UPD_NORM: its pass, or, across peers, its exchange with the sums that have come. -/
def execUpdNorm (id : Nat) (sums : List (Nat × W32)) (s : State) : Out :=
  match s.working? id 0x0501 with
  | some c => .next (s.normGo c sums)
  | none => s.deant id 0x0501 updNormFields (fun t c =>
    match t.poisonOf [listRange c] with
    | some p => t.meetPoison c p
    | none =>
      let ps := t.paramsOf c
      match t.badParamRec c ps with
      | some j => t.reject id (badIn j)
      | none =>
        match t.reachable c (t.namesNow c) with
        | some v => t.reject id v
        | none =>
          if t.before c 0x0502 (some (c.par 0xC 1)) then t
          else t.updNorm c ps sums)

/-! ## UPD_RULE (R234) -/

def updRuleFields (s : State) (c : Cmd) : List Fld := [c.ranged 0 1 1 7, ⟨8, 8, s.refOk c.allot (c.par 8 8) 64 128⟩]

/-- Coefficients of iteration i of a rule record. -/
def ruleCoef (r i : Nat) : W32 × W32 × W32 :=
  (w32 (fieldOf r (0x10 + 12 * i) 4), w32 (fieldOf r (0x14 + 12 * i) 4), w32 (fieldOf r (0x18 + 12 * i) 4))

/-- The rule record whose 128 bytes are r; none when it breaks a rule. -/
def ruleOf (r : Nat) : Option Rule :=
  let n := fieldOf r 0 1
  let eps := w32 (fieldOf r 4 4)
  let k := w32 (fieldOf r 8 4)
  let cs := (List.range n).map (ruleCoef r)
  let ok := inRange 1 8 n && decide (fieldOf r 1 1 < 4) && fieldOf r 2 2 == 0 && fieldOf r 0xC 4 == 0 && fieldOf r 0x70 16 == 0 &&
    fieldOf r (0x10 + 12 * n) (96 - 12 * n) == 0 && finite32 eps && (Fp.zero false).lt (dec32 eps) && finite32 k &&
    cs.all (fun x => finite32 x.1 && finite32 x.2.1 && finite32 x.2.2)
  if ok then some { iters := n, nesterov := bitOf (fieldOf r 1 1) 0, masterStoch := bitOf (fieldOf r 1 1) 1, eps := eps, scaleK := k, coef := cs }
  else none

/-- UPD_RULE: it waits until every earlier UPD_APPLY has completed. -/
def execUpdRule (id : Nat) (s : State) : Out :=
  s.deant id 0x0504 updRuleFields (fun t c =>
    if t.before c 0x0502 none then t
    else
      let r := c.par 8 8
      match t.poisonOf [(c.allot, refHandle r, 64 * bitsOf r 32 32, 128)] with
      | some p => t.meetPoison c p
      | none => match ruleOf (leNat (t.readRef c.allot r 64 128)) with
        | none => t.reject id (badIn 0)
        | some x => (t.modAl c.allot (fun y => { y with upd := { y.upd with rules := put (c.par 0 1) x y.upd.rules } })).finishOk id 0)

/-! ## UPD_FREEZE (R193, R235) -/

def updFreezeFields (s : State) (c : Cmd) : List Fld :=
  let n := c.par 2 2
  let ref := c.par 8 8
  [c.ranged 0 1 0 1, ⟨2, 2, inRange 1 (if ref = 0 then 24 else 65535) n⟩, ⟨8, 8, ref == 0 || s.refOk c.allot ref 64 (4 * n)⟩] ++
  (List.range 24).map (fun i =>
    if ref = 0 ∧ i < n then ⟨0x10 + 4 * i, 4, s.nameable c.allot (c.par (0x10 + 4 * i) 4)⟩ else c.mustBe0 (0x10 + 4 * i) 4)

/-- The handles of an UPD_FREEZE. -/
def State.freezeHandles (s : State) (c : Cmd) : List Nat :=
  if c.par 8 8 = 0 then (List.range (c.par 2 2)).map (fun i => c.par (0x10 + 4 * i) 4)
  else (recordsOf 4 (s.readRef c.allot (c.par 8 8) 64 (4 * c.par 2 2))).map leNat

/-- A parameter is frozen or unfrozen; the residuals of its layers start again from +0. -/
def State.freezeOne (s : State) (a : Nat) (on : Bool) (h : Nat) : State :=
  (s.modAl a (fun x => { x with upd := { x.upd with frozen := if on then insertN h x.upd.frozen else without h x.upd.frozen } })).modLayers a
    (fun _ l => if l.wMaster = h then { l with residual := l.residual.map (fun _ => []) } else l)

/-- UPD_FREEZE: it waits until every earlier UPD_NORM and UPD_APPLY has completed. -/
def execUpdFreeze (id : Nat) (s : State) : Out :=
  s.deant id 0x0503 updFreezeFields (fun t c =>
    if t.before c 0x0501 none || t.before c 0x0502 none then t
    else
      let a := c.allot
      let r := c.par 8 8
      match if r = 0 then none else t.poisonOf [(a, refHandle r, 64 * bitsOf r 32 32, 4 * c.par 2 2)] with
      | some p => t.meetPoison c p
      | none =>
        let hs := t.freezeHandles c
        match hs.findIdx? (fun h => !t.nameable a h) with
        | some i => t.reject id (badIn i)
        | none =>
          let on := c.par 0 1 == 1
          let u := hs.foldl (fun (z : State × Nat) h =>
            if (z.1.al a).upd.frozen.contains h = on then z else (z.1.freezeOne a on h, z.2 + 1)) (t, 0)
          u.1.finishOk id u.2)

/-! ## The arithmetic of an update (R225, R227 to R230, R232) -/

/-- The exact quotient of two finite numbers with a sticky bit, and IEEE 754's other cases. -/
def Fp.div (x y : Fp) : Fp :=
  match x, y with
  | .nan _, _ => .nan false
  | _, .nan _ => .nan false
  | .inf _, .inf _ => .nan false
  | .inf s, .fin t _ _ => .inf (s ^^ t)
  | .fin s _ _, .inf t => .zero (s ^^ t)
  | .fin s m e, .fin t n f =>
    if n = 0 then (if m = 0 then .nan false else .inf (s ^^ t))
    else
      let k := 64 + Nat.log2 n
      sticky (s ^^ t) ((m <<< k) / n) (e - f - k) ((m <<< k) % n == 0)

def div32 (a b : W32) : W32 := enc32 ((dec32 a).div (dec32 b))

/-- FP32 1.0. -/
def one32 : W32 := 0x3F800000#32

/-- The negated word. -/
def neg32 (a : W32) : W32 := a ^^^ 0x80000000#32

/-- One momentum element before it is rounded once into MOM's format (R227); every NaN is canonical. -/
def momValue (mu m g : W32) : Fp :=
  let x := ((dec32 mu).mul (dec32 m)).add (dec32 g)
  if x.isNan then .nan false else x

/-- The stored momentum as FP32. -/
def momWord (fmt code : Nat) : W32 := if fmt = 4 then w32 (code * 65536) else w32 code

/-- bf16() of R229: a conversion by R94, saturating and unscaled. -/
def bf16 (x : W32) : Nat := (encCode 4 [] {} (dec32 x)).1

/-- A bfloat16 as an FP32 word. -/
def wideB16 (v : Nat) : W32 := w32 (v % 65536 * 65536)

/-- A bfloat16 matrix by rows. -/
abbrev Mat := List (List Nat)

/-- The columns of a matrix of n columns, as rows. -/
def columns {α : Type} [Inhabited α] (n : Nat) (x : List (List α)) : List (List α) :=
  (List.range n).map (fun k => x.map (fun r => r.getD k default))

/-- Contraction indices of one pass (log 28). -/
def passLines : Nat := 1 + Config.updLines % 64

/-- The sum of one pass: it starts with its first product (R108, R109). -/
def passSum : List W32 → W32
  | [] => 0
  | p :: r => r.foldl (fun a x => (accAdd a x).1) p

/-- A product of a row and a column: passes folded in pass order (R115). -/
def dotB16 (u v : List Nat) : W32 :=
  let ps := (u.zip v).map (fun e => (enterProduct ((decB16 e.1).mul (decB16 e.2))).1)
  passSum ((pieces passLines ps).map passSum)

/-- The product of x and the matrix whose columns are the rows of y. -/
def mulT (x y : Mat) : List (List W32) := x.map (fun r => y.map (fun c => dotB16 r c))

/-- One iteration of R229 on an n by m matrix. -/
def drawStep (n m : Nat) (x : Mat) (k : W32 × W32 × W32) : Mat :=
  let a := (mulT x x).map (fun r => r.map bf16)
  let aa := mulT a (columns n a)
  let b := (a.zip aa).map (fun e => (e.1.zip e.2).map (fun v => bf16 (add32 (mul32 k.2.1 (wideB16 v.1)) (mul32 k.2.2 v.2))))
  let bx := mulT b (columns m x)
  (x.zip bx).map (fun e => (e.1.zip e.2).map (fun v => bf16 (add32 (mul32 k.1 (wideB16 v.1)) v.2)))

/-- Drawn momentum of a rows by cols matrix d: the elements of X in d's own order, and alpha (R229). -/
def drawn (r : Rule) (rows cols : Nat) (lr : W32) (d : List W32) : List W32 × W32 :=
  let tall := decide (cols < rows)
  let n := min rows cols
  let m := max rows cols
  let s := sqrt32 (sumSquares d)
  let q := div32 one32 (add32 s r.eps)
  let d0 := pieces (max 1 cols) d
  let dm := if tall then columns cols d0 else d0
  let x0 : Mat := dm.map (fun w => w.map (fun v => bf16 (mul32 v q)))
  let x := (r.coef.take r.iters).foldl (drawStep n m) x0
  let back := if tall then columns rows x else x
  let ratio := div32 (enc32 (Fp.ofInt rows)) (enc32 (Fp.ofInt cols))
  let rho := mul32 r.scaleK (sqrt32 (if (dec32 ratio).lt fpOne then one32 else ratio))
  (back.flatten.map wideB16, mul32 lr rho)

/-- What the update engine writes into an object: the codes in element order, the flag byte of each 32-element unit (R190), and the
counts of the conversion. -/
structure UpdWrite where
  codes : List Nat := []
  flags : List Nat := []
  stats : SlotStats := {}

/-- One unit of values, from element number first on. -/
def UpdWrite.unit (x : UpdWrite) (fmt : Nat) (dr : Nat → Option Nat) (first : Nat) (vs : List Fp) : UpdWrite :=
  let r := convertBlock { fmt := fmt } (fun k => dr (first + k)) (vs.map CvIn.val ++ List.replicate (32 - vs.length) .pad)
  { codes := x.codes ++ r.codes.take vs.length, flags := x.flags ++ [r.flag], stats := x.stats.add r.stats }

/-- Values in element order converted for a tensor without scales (R91, R94, R95, R98, R227, R232). dr: the draw of each element in
stochastic mode. -/
def updConvert (t : Tensor) (dr : Nat → Option Nat) (xs : List Fp) : UpdWrite :=
  ((pieces (max 1 t.rowLen) xs).zipIdx).foldl (fun x row =>
    ((pieces 32 row.1).zipIdx).foldl (fun y u => y.unit t.fmt dr (row.2 * t.rowLen + 32 * u.2) u.1) x) {}

end Sys2Proof.Machine
end

