-- ==== Sys2Proof/Machine/Apply.lean ====
section
/-! DEFINITION. UPD_APPLY: storm and quench holds, the lag bound, the records, and the mirror tap (R154 to R156, R225 to R241, R381
to R385, R398). -/

namespace Sys2Proof.Machine

/-! ## Writes to mirrored tensors (R381 to R385) -/

/-- The 4,096-byte pages in which two states of an object differ. -/
def changedPages (old new : Obj) : List Nat :=
  (List.range (ceilDiv new.size 4096)).filter (fun p => decide (old.read (4096 * p) 4096 ≠ new.read (4096 * p) 4096))

/-- A group of at most 511 pages of an object as they stand enters the mirror log, and goes to the partner behind its map packet; SIG
of the packets holds the epoch (R383; log 67). -/
def State.logGroup (s : State) (a : Nat) (t : MirTensor) (ps : List Nat) : State :=
  let o := s.objD a t.handle
  let e := (s.temper a).step
  let n := lookN (pairKey 2 (pagesOn a)) s.fab.txSeq
  let es := (ps.zipIdx 2).map (fun p =>
    ({ allot := a, epoch := e, mirrorId := t.mirrorId, page := p.1, data := o.read (4096 * p.1) 4096, seq := (n + p.2) % 2 ^ 32 } : LogPage))
  ({ s with pair := { s.pair with log := s.pair.log ++ es } } : State).sendPair 2 (pagesOn a) a false
    ((0, w32 e, ps.flatMap (fun p => leBytes t.mirrorId 4 ++ leBytes p 4)) :: es.map (fun g => (0, w32 e, g.data)))

/-- Pages of an object as they stand enter the mirror log. -/
def State.logPages (s : State) (a : Nat) (t : MirTensor) (ps : List Nat) : State := (pieces 511 ps).foldl (fun u g => u.logGroup a t g) s

/-- A tapped write has left the mirror log with more than LOG_GIB: it waits until the log has room (R385, R400). s: before it. A write
that meets an empty log does not wait. -/
def State.logOver (s t : State) : Bool :=
  s.pair.bound && s.pair.log != [] && decide (s.pair.log.length < t.pair.log.length) && decide (s.pair.logGib * gib < 4096 * t.pair.log.length)

/-- Epoch s − LAG_STEPS of the allotment is committed, s its open step, and the log has room for a page; a module without a
partner has no bound (R377, R385). -/
def State.lagMet (s : State) (a : Nat) : Bool :=
  !s.pair.bound || ((s.al a).mir.epochs.all (fun e => decide ((s.temper a).step < e.id + s.pair.lagSteps)) &&
    decide (4096 * (s.pair.log.length + 1) ≤ s.pair.logGib * gib))

/-- A tapped write of object h waits now (R385, R398). -/
def State.tapWaits (s : State) (a tap h : Nat) : Bool :=
  match (s.al a).mirrored? h with
  | some t => t.tap == tap && t.inForce == 1 && !t.stale && s.pair.bound &&
      (s.pair.state == .quenching || (t.lagPolicy == 0 && !s.lagMet a))
  | none => false

/-- Object h, which was old before, has been written by the source tap (0 update engine, 1 all-gather): the changed pages of
its stream go to the log; another tensor becomes STALE. -/
def State.tapped (s : State) (a tap h : Nat) (old : Obj) : State :=
  match (s.al a).mirrored? h with
  | some t =>
    if t.tap ≠ tap then s.staleWrite a h
    else if t.inForce ≠ 1 ∨ t.stale = true ∨ s.pair.bound = false then s
    else
      let ps := changedPages old (s.objD a h)
      if t.lagPolicy = 1 ∧ (s.lagMet a = false ∨ s.pair.logGib * gib < 4096 * (s.pair.log.length + ps.length)) then s.staleWrite a h
      else
        (s.logPages a t ps).modAl a (fun x => x.modMir h (fun m => { m with pages := sortN (m.pages ++ ps) }))
  | none => s

/-! ## Fields and status bytes (R225, R237) -/

def updApplyFields (s : State) (c : Cmd) : List Fld :=
  [⟨0, 8, s.refOk c.allot (c.par 0 8) 64 (64 * c.par 8 4)⟩, c.ranged 8 4 1 65535, c.ranged 0xC 1 0 7, anyVal 0x10 4, anyVal 0x14 4,
   anyVal 0x18 4, anyVal 0x1C 4, anyVal 0x20 8, anyVal 0x28 4, ⟨0x30, 8, s.refOr0 c 0x30 (c.par 8 4)⟩]

/-- STORM_RELEASE and STORM_DISCARD in one command fail at OPFLAGS, packet offset 1 (R156). -/
def Cmd.bothStorm (c : Cmd) : Bool := c.opflag 0 && c.opflag 1

/-- Every status byte, or that of record j, becomes v. -/
def State.putStatuses (s : State) (c : Cmd) (v : Nat) : State := s.writeRef c 0x30 0 (List.replicate (c.par 8 4) (BitVec.ofNat 8 v))
def State.putStatus (s : State) (c : Cmd) (j v : Nat) : State := s.writeRef c 0x30 j [BitVec.ofNat 8 v]

/-- No earlier open command but a held UPD_APPLY is ordered with the write of the status bytes. -/
def State.statusClear (s : State) (c : Cmd) : Bool :=
  let h := refHandle (c.par 0x30 8)
  h == 0 || !(s.knownNames c.allot).any (fun k => decide (k.1 < c.id) &&
    ((s.cmd? k.1).map (·.phase)) != some .held &&
    (match k.2.2 with
     | none => true
     | some es => es.any (fun e => clashes k.2.1 c.opcode e (h, true))))

/-! ## The workspace (R231) -/

/-- The bytes and the hearth of the largest KIND 0 record. -/
def State.workNeed (s : State) (a : Nat) (ps : List Param) : Option (Nat × Nat) :=
  (ps.filter (fun p => p.kind == 0)).foldl (fun best p =>
    let n := min p.rows p.cols
    let b := 4 * n * max p.rows p.cols + 4 * n * n
    let o := s.objD a p.master
    match best with
    | some x => if x.1 < b then some (b, if o.tier < 2 then o.hearth else 0) else best
    | none => some (b, if o.tier < 2 then o.hearth else 0)) none

/-- The workspace is taken in tier 0, else in tier 1; none when neither pool holds it. -/
def State.takeWork (s : State) (c : Cmd) (ps : List Param) : Option State :=
  match s.workNeed c.allot ps with
  | none => some s
  | some (n, h) =>
    if s.fits c.allot h n then some (s.charge c.allot (.workspace c.id) h n)
    else if s.fits c.allot (2 + h) n then some (s.charge c.allot (.workspace c.id) (2 + h) n)
    else none

/-- UPD_APPLY DETAIL (R239). -/
def State.applyDetail (s : State) (c : Cmd) (skipped : Nat) (nonfinite : Bool) : W32 :=
  w32 (satTo 65535 skipped + 2 ^ 16 * b2n nonfinite +
    2 ^ 17 * b2n ((s.al c.allot).charges.any (fun k => k.kind == .workspace c.id && decide (2 ≤ k.pool))))

/-- The end of an UPD_APPLY: its workspace is released. -/
def State.endApply (s : State) (c : Cmd) (code : Code) (detail : W32) (result : Nat) : State :=
  (s.uncharge c.allot (.workspace c.id)).finish c.id code detail (w128 result)

/-! ## Holds (R154 to R156, R398) -/

/-- The command may end a storm hold. -/
def Cmd.endsHold (c : Cmd) : Bool := c.opflag 0 || c.opflag 1

def State.holdCmd (s : State) (c : Cmd) : State := s.modCmd c.id (fun d => { d with phase := .held })

/-- Held commands that no open hold holds any longer go on. -/
def State.resumeHeld (s : State) (a : Nat) : State :=
  { s with hg := { s.hg with cmds := s.hg.cmds.map (fun d =>
    if d.allot = a ∧ d.opcode = 0x0502 ∧ d.phase = .held ∧ ((s.temper a).holdOpen = false ∨ 2 ≤ d.stage) ∧ s.pair.holdOpen = false then
      { d with phase := .working }
    else d) } }

/-- Command c ends the storm hold: every held UPD_APPLY accepted before it completes without effect. -/
def State.endHold (s : State) (c : Cmd) : State :=
  let a := c.allot
  let held := s.hg.cmds.filter (fun d => d.allot == a && d.opcode == 0x0502 && d.open && decide (d.stage < 2) && decide (d.id < c.id) &&
    !(d.endsHold && d.phase != .held))
  let t := s.modTemper a (fun x => { x with holdOpen := false, released := x.released || c.opflag 0 })
  let u := held.foldl (fun z d =>
    let y := if d.stage = 0 ∧ z.refOr0 d 0x30 (d.par 8 4) = true then z.putStatuses d 4 else z
    if c.opflag 1 then y.discard d.id .discarded 0 4
    else (y.dropWork d.id).finish d.id .superseded (w32 (5 + a * 2 ^ 4 + c.queue * 2 ^ 8)) 0) t
  u.resumeHeld a

/-- The layers that request promotion on the counts that the TILE_RUNs accepted before number n gave the open step (R154). -/
def Temper.openRequests (x : Temper) (n : Nat) : List Nat :=
  (x.layers.filter (fun e => e.2.triggers (e.2.statsBefore n) != 0)).map (·.1)

/-- A storm is declared at an UPD_APPLY: a hold opens (R155). -/
def State.openHold (s : State) (c : Cmd) : State :=
  (s.modTemper c.allot (fun x => { x with holdOpen := true, holdInStep := true })).holdCmd c

/-- The allotment has mirrored tensors and a quench hold is open. -/
def State.quenchHeld (s : State) (a : Nat) : Bool := s.pair.holdOpen && (s.al a).mir.tensors != []

/-! ## The records (R227 to R233, R236 to R238, R241) -/

/-- Elements of two lists of codes that differ. -/
def diffCount (x y : List Nat) : Nat := ((x.zip y).filter (fun e => e.1 != e.2)).length

/-- Values written to object h by the update engine: codes and flag bytes; the tap follows, and the elements changed. -/
def State.putMaster (s : State) (c : Cmd) (h layer : Nat) (w : UpdWrite) : State × Nat :=
  let a := c.allot
  let old := s.objD a h
  let n := diffCount old.storedCodes w.codes
  let t := s.modObj a h (fun o => { o.putCodes w.codes with changeFrac := some (n * 10000 / max 1 w.codes.length) })
  let t1 := match old.flagMap with
    | some f => t.writeObj a f 0 (w.flags.map (BitVec.ofNat 8))
    | none => t
  let t2 := if old.t.fmt = 8 then t1 else t1.countConv c none (if layer = 0xFFFF then none else some layer) w.stats
  (t2.tapped a 0 h old, n)

/-- Bytes that a stage moves of the elements of an object. -/
def State.countElems (s : State) (c : Cmd) (o : Obj) (times : Nat) : State :=
  s.countBytes c o.tier (if o.tier < 2 then some o.hearth else none) (times * o.t.elemBytes)

/-- The hearth on whose anvils a record's products run (R230). -/
def State.recordHearth (s : State) (a : Nat) (p : Param) : Nat :=
  let o := s.objD a p.master
  if o.tier < 2 then o.hearth else 0

/-- The momentum stage of a record: the new momentum, and the values d. -/
def State.momentum (s : State) (c : Cmd) (p : Param) (r : Rule) (f : W32) : State × List W32 :=
  let a := c.allot
  let mu := w32 (c.par 0x18 4)
  let mo := s.objD a p.mom
  let g := (s.gradVals a p.grad).map (mul32 f)
  let w := updConvert mo.t (fun _ => none) ((mo.words.zip g).map (fun e => momValue mu e.1 e.2))
  let ms := w.codes.map (momWord mo.t.fmt)
  let d := if r.nesterov then (ms.zip g).map (fun e => fma32 mu e.1 e.2) else ms
  (((s.putMaster c p.mom p.layer w).1.countElems c (s.objD a p.grad) 1).countElems c mo 2, d)

/-- Multiply-accumulates of one iteration of R229 (R242). -/
def iterMacs (p : Param) : Nat :=
  let n := min p.rows p.cols
  2 * n * n * max p.rows p.cols + n * n * n

/-- The products of a matrix record in the counter events: their multiply-accumulates, each on the 16 billets of a bfloat16 pair. -/
def State.countMacs (s : State) (c : Cmd) (p : Param) (r : Rule) : State :=
  if p.kind = 0 then
    let h := some (s.recordHearth c.allot p)
    let l := if p.layer = 0xFFFF then none else some p.layer
    (s.countFor c 0x01 h l (r.iters * iterMacs p)).countFor c 0x02 h l (16 * (r.iters * iterMacs p))
  else s

/-- The write stage of record j: the master from the values d, then the working copy (R228, R229, R232, R233). -/
def State.writeStage (s : State) (c : Cmd) (j : Nat) (p : Param) (r : Rule) (d : List W32) : State :=
  let a := c.allot
  let lr := mul32 (w32 (c.par 0x10 4)) p.lrMult
  let wd := mul32 (w32 (c.par 0x14 4)) p.wdMult
  let k := sub32 one32 (mul32 lr wd)
  let x := if p.kind = 0 then drawn r p.rows p.cols lr d else (d, lr)
  let o := s.objD a p.master
  let w' := (o.words.zip x.1).map (fun e => dec32 (fma32 (neg32 x.2) e.2 (mul32 e.1 k)))
  let dr (i : Nat) : Option Nat := if r.masterStoch then some (draw (c.par 0x20 8) ((c.par 0x28 4 + j) % 2 ^ 32) i) else none
  let t := (s.countMacs c p r).putMaster c p.master p.layer (updConvert o.t dr w')
  let t1 := (t.1.countElems c o 2).countFor c 0x17 none (if p.layer = 0xFFFF then none else some p.layer) (p.rows * p.cols)
  if p.layer = 0xFFFF then t1
  else
    let t2 := t1.modLayer a p.layer (fun l => { l with changeFrac := some (t.2 * 10000 / (p.rows * p.cols)) })
    match t2.layer? a p.layer with
    | some l => if t2.hasCopy a l then t2.writeCopy c a p.layer else t2
    | none => t2

/-- What the write stage of a record reads: its master, and what its working copy takes besides. -/
def State.writeReads (s : State) (a : Nat) (p : Param) : Option (Nat × Nat × Nat × Nat) :=
  (s.poisonOf [s.planesOf a p.master]).orElse (fun _ =>
    match if p.layer = 0xFFFF then none else s.layer? a p.layer with
    | some l => if s.hasCopy a l then s.copyPoison a l else none
    | none => none)

/-! ## The run of the records (R230, R238) -/

/-- The run of command c changed by f. -/
def State.modRun (s : State) (c : Cmd) (f : ApplyRun → ApplyRun) : State :=
  s.modAl c.allot (fun x => { x with upd := { x.upd with runs := x.upd.runs.map (fun r => if r.cmd = c.id then f r else r) } })

def State.run? (s : State) (c : Cmd) : Option ApplyRun := (s.al c.allot).upd.runs.find? (fun r => r.cmd == c.id)

/-- The matrix products of the command hold a tile sequencer of hearth h. -/
def State.iterating (s : State) (c : Cmd) (h : Nat) : Bool := (s.he h).lists.any (fun l => l.cmd == c.id)

/-- The lowest sequencer of a hearth that is free. -/
def Hearth.freeSeq (x : Hearth) : Option Nat := (List.range 4).find? (fun q => !x.lists.any (fun l => l.seq == q))

/-- The products of a matrix record take a free sequencer of its hearth; without one they wait (R230). -/
def State.takeSeq (s : State) (c : Cmd) (h : Nat) : State :=
  match (s.he h).freeSeq with
  | none => s
  | some q => s.modHe h (fun x => { x with
      lists := x.lists ++ [{ cmd := c.id, allot := c.allot, seq := q, key := 0, base := 0, order := c.id, ops := [] }] })

/-- They give it back. -/
def State.dropSeq (s : State) (c : Cmd) (h : Nat) : State :=
  s.modHe h (fun x => { x with lists := x.lists.filter (fun l => l.cmd != c.id) })

/-- Frozen records before the next one to start are skipped (R236). ps: the records from that one on. -/
def State.skipFrozen (s : State) (c : Cmd) : List Param → State
  | [] => s
  | p :: r =>
    if (s.al c.allot).upd.frozen.contains p.master then
      let j := ((s.run? c).map (·.next)).getD 0
      ((s.putStatus c j 2).modRun c (fun x => { x with next := x.next + 1, skipped := x.skipped + 1 })).skipFrozen c r
    else s

/-- The next record starts: its status is INCOMPLETE, and its momentum is written (R237, R238). A write that the mirror stream taps waits
for the lag bound first. -/
def State.startRecord (s : State) (c : Cmd) (x : ApplyRun) (p : Param) : State :=
  let a := c.allot
  let r := (look p.rule (s.al a).upd.rules).getD {}
  if s.tapWaits a 0 p.mom then s
  else
    let s0 := s.putStatus c x.next 0x80
    match s0.poisonOf [s0.planesOf a p.grad, s0.planesOf a p.mom] with
    | some q => s0.meetPoison c q
    | none =>
      let m := s0.momentum c p r x.clip
      if s.logOver m.1 then s
      else (m.1.modRun c (fun y => { y with next := y.next + 1, work := y.work ++ [(x.next, m.2)] })).modCmd c.id (fun d => { d with wrote := true })

/-- The oldest record in progress writes its master and its working copy: it is applied. -/
def State.writeRecord (s : State) (c : Cmd) (j : Nat) (d : List W32) (p : Param) : State :=
  let a := c.allot
  let r := (look p.rule (s.al a).upd.rules).getD {}
  if s.tapWaits a 0 p.master then s
  else match s.writeReads a p with
    | some q => s.meetPoison { c with wrote := true } q
    | none =>
      let t := s.writeStage c j p r d
      if s.logOver t then s
      else ((t.putStatus c j 0).modRun c (fun y => { y with applied := y.applied + 1, work := y.work.drop 1 })).dropSeq c (s.recordHearth a p)

/-- When no record is left the command completes. -/
def State.applyEnds (s : State) (c : Cmd) : State :=
  match s.run? c with
  | none => s
  | some x =>
    if x.work = [] ∧ c.par 8 4 ≤ x.next then
      (s.modAl c.allot (fun y => { y with upd := { y.upd with runs := y.upd.runs.filter (fun r => r.cmd != c.id) } })).endApply c
        (if x.applied = 0 then .skippedFrozen else .ok) (s.applyDetail c x.skipped false) x.applied
    else s

/-- The next stage of the run. At most two records are in progress: a matrix record at its iterations, and the record after it, whose
momentum is written meanwhile (R238). -/
def State.applyStep (s : State) (c : Cmd) : State :=
  let ps := s.paramsOf c
  match s.run? c with
  | none => s
  | some x0 =>
    let t := s.skipFrozen c (ps.drop x0.next)
    match t.run? c with
    | none => t
    | some x =>
      let next := ps[x.next]?
      match x.work with
      | [] => (match next with
          | some p => t.startRecord c x p
          | none => t).applyEnds c
      | [(j, d)] => (match ps[j]?, next with
          | none, _ => t
          | some p, n =>
            let h := t.recordHearth c.allot p
            if p.kind = 0 ∧ t.iterating c h = false then t.takeSeq c h
            else match n with
              | some q => if p.kind = 0 then t.startRecord c x q else t.writeRecord c j d p
              | none => t.writeRecord c j d p).applyEnds c
      | (j, d) :: _ => (match ps[j]? with
          | some p => t.writeRecord c j d p
          | none => t).applyEnds c

/-- The records begin, with the clip factor f. -/
def State.applyRun (s : State) (c : Cmd) (f : W32) : State :=
  let t := s.modAl c.allot (fun x => { x with upd := { x.upd with runs := x.upd.runs ++ [{ cmd := c.id, clip := f }] } })
  (t.modCmd c.id (fun d => { d with stage := 3 })).applyStep { c with stage := 3 }

/-! ## UPD_APPLY -/

/-- NO_NORM. -/
def Cmd.noNorm (c : Cmd) : Bool := bitOf (c.par 0xC 1) 2

/-- The norm of the slot, and the update with it (R226). -/
def State.applyNorm (s : State) (c : Cmd) : State :=
  let a := c.allot
  if c.noNorm then s.applyRun c one32
  else match look (bitsOf (c.par 0xC 1) 0 2) (s.al a).upd.norms with
    | none => s.endApply c .badParam (badParam 0x1C 0).2 0
    | some n =>
      if finite32 n.n then
        let clip := w32 (c.par 0x1C 4)
        let f := if (Fp.zero false).lt (dec32 clip) && (dec32 clip).lt (dec32 n.n) then div32 clip n.n else one32
        s.applyRun c f
      else
        ((s.putStatuses c 1).modTemper a (fun x => { x with nonfinite := true })).steerAttn a |>.endApply c .okWithNote
          (s.applyDetail c 0 true) 0

/-- The command is past its holds: it waits for the commands before it, for conflicting tile ops (R240) and a quench hold, and applies. -/
def State.applyGo (s : State) (c : Cmd) : State :=
  let a := c.allot
  if s.quenchHeld a then s.holdCmd c
  else if !s.ready c || s.tilesAhead c (s.namesNow c) || s.before c 0x0504 none || (!c.noNorm && s.before c 0x0501 (some (bitsOf (c.par 0xC 1) 0 2))) then s
  else
    let ps := s.paramsOf c
    match s.badParamRec c ps with
    | some j => s.endApply c .badParam (badIn j).2 0
    | none => s.applyNorm c

/-- The test of an UPD_APPLY under STORM_HOLD: it waits for the TILE_RUNs accepted before it and tests on their counts. A storm
opens a hold, but not on a command that follows a release in its step (R154 to R156). -/
def State.applyTest (s : State) (c : Cmd) : State :=
  let x := s.temper c.allot
  let pass (t : State) : State := (t.modCmd c.id (fun d => { d with stage := 2 })).applyGo { c with stage := 2 }
  if x.stormHold && !s.standby then
    if s.before c 0x0301 none then s
    else
      let r := s.stormTest c.allot (x.openRequests c.acc)
      if r.2 && !x.released then r.1.openHold c else pass r.1
  else pass s

/-- The command meets the storm hold, or tests for a storm. -/
def State.applyHold (s : State) (c : Cmd) : State :=
  let x := s.temper c.allot
  if x.holdOpen then
    if c.opflag 1 then (s.endHold c).endApply c .ok 0 0
    else if c.opflag 0 then (s.endHold c).applyTest c
    else if (s.earlier c).any (fun d => d.opcode == 0x0502 && d.endsHold && d.phase != .held) then s
    else s.holdCmd c
  else if c.opflag 1 then s.endApply c .ok 0 0
  else s.applyTest c

/-- The inline parameters, and FLAGS, which must not hold both bits (R156). -/
def State.judgeApply (s : State) (c : Cmd) : Verdict :=
  if c.bothStorm then some (badParam 2 0) else s.judgeInline c (updApplyFields s c)

/-- The start of the command: its list is checked, its workspace taken and its status bytes set to 0x04 (R220, R231, R237). -/
def State.applyBegin (s : State) (c : Cmd) : State :=
  match s.judgeApply c with
  | some v => s.reject c.id v
  | none =>
    if !s.listReady c || !s.statusClear c then s
    else match s.poisonOf [listRange c] with
      | some p => s.meetPoison c p
      | none =>
        let ps := s.paramsOf c
        match s.badParamRec c ps with
        | some j => s.reject c.id (badIn j)
        | none => match s.reachable c (s.namesNow c) with
          | some v => s.reject c.id v
          | none => match (s.noteNames c (s.namesNow c)).takeWork c ps with
            | none => s.reject c.id (.noResource, 0)
            | some t => match t.poisonPartOf (refRange c 0x30 0 (c.par 8 4)) with
              | some p => t.meetPoison c p
              | none =>
                let u := (t.putStatuses c 4).modCmd c.id (fun d => { d with phase := .working, stage := 1 })
                u.applyHold { c with phase := .working, stage := 1 }

/-- UPD_APPLY as far as it can go now. -/
def State.updApply (s : State) (c : Cmd) : State :=
  if c.phase = .held then s
  else match c.stage with
    | 0 => s.applyBegin c
    | 1 => s.applyHold c
    | 2 => s.applyGo c
    | _ => s.applyStep c

/-- UPD_APPLY: issued again, it goes on from where it waits. -/
def execUpdApply (id : Nat) (s : State) : Out :=
  match s.started? id 0x0502 with
  | none => .next s
  | some c => .next (s.updApply c)

end Sys2Proof.Machine
end

