-- ==== Sys2Proof/Machine/Digests.lean ====
section
/-! DEFINITION. SHA-384, and the digests and bytes of manifests and epoch records (R393 to R395). -/

namespace Sys2Proof.Machine

/-! ## SHA-384 (R394, R395, R446). PRESUMED: FIPS 180-4 (log 32) -/

/-- The first n primes from k on, with fuel. -/
def primesFrom : Nat → Nat → Nat → List Nat
  | 0, _, _ => []
  | _, 0, _ => []
  | fuel + 1, n + 1, k =>
    if 2 ≤ k ∧ (List.range k).all (fun d => d < 2 || k % d != 0) then k :: primesFrom fuel n (k + 1) else primesFrom fuel (n + 1) (k + 1)

/-- The first 80 primes. -/
def shaPrimes : List Nat := primesFrom 420 80 2

/-- The largest r below 2^n with r^k ≤ v. -/
def rootDown (k v : Nat) : Nat → Nat → Nat
  | 0, r => r
  | n + 1, r => rootDown k v n (if (r + 2 ^ n) ^ k ≤ v then r + 2 ^ n else r)

/-- The first 64 bits of the fraction of the k-th root of v. -/
def rootFrac (k v : Nat) : Nat := rootDown k (v * 2 ^ (64 * k)) 70 0 % 2 ^ 64

def shaK : List W64 := shaPrimes.map (fun p => w64 (rootFrac 3 p))

def shaInit : List W64 := ((shaPrimes.drop 8).take 8).map (fun p => w64 (rootFrac 2 p))

def shaCh (x y z : W64) : W64 := (x &&& y) ^^^ (~~~x &&& z)
def shaMaj (x y z : W64) : W64 := (x &&& y) ^^^ (x &&& z) ^^^ (y &&& z)
def shaSum0 (x : W64) : W64 := x.rotateRight 28 ^^^ x.rotateRight 34 ^^^ x.rotateRight 39
def shaSum1 (x : W64) : W64 := x.rotateRight 14 ^^^ x.rotateRight 18 ^^^ x.rotateRight 41
def shaSig0 (x : W64) : W64 := x.rotateRight 1 ^^^ x.rotateRight 8 ^^^ (x >>> 7)
def shaSig1 (x : W64) : W64 := x.rotateRight 19 ^^^ x.rotateRight 61 ^^^ (x >>> 6)

/-- The message schedule, newest word first: n more words. -/
def shaSchedule : Nat → List W64 → List W64
  | 0, w => w
  | n + 1, w => shaSchedule n ((shaSig1 (w.getD 1 0) + w.getD 6 0 + shaSig0 (w.getD 14 0) + w.getD 15 0) :: w)

/-- One round on the eight working words. -/
def shaRound (v : List W64) (kw : W64 × W64) : List W64 :=
  match v with
  | [a, b, c, d, e, f, g, h] =>
    let t1 := h + shaSum1 e + shaCh e f g + kw.1 + kw.2
    let t2 := shaSum0 a + shaMaj a b c
    [t1 + t2, a, b, c, d + t1, e, f, g]
  | other => other

/-- One block of 128 bytes. -/
def shaBlock (h : List W64) (blk : List Byte) : List W64 :=
  let w := (shaSchedule 64 ((pieces 8 blk).map (fun b => w64 (beNat b))).reverse).reverse
  (h.zip ((shaK.zip w).foldl shaRound h)).map (fun e => e.1 + e.2)

/-- The message with its padding. -/
def shaPad (bs : List Byte) : List Byte :=
  let n := bs.length
  bs ++ [0x80#8] ++ zeros ((111 + 128 - n % 128) % 128) ++ beBytes (8 * n) 16

/-- SHA-384: 48 bytes. -/
def sha384 (bs : List Byte) : List Byte :=
  (((pieces 128 (shaPad bs)).foldl shaBlock shaInit).take 6).flatMap (fun w => beBytes w.toNat 8)

/-- The digest as a number. -/
def sha384N (bs : List Byte) : Nat := beNat (sha384 bs)

/-- An ECDSA P-384 signature of 96 bytes verifies: key, digest, signature (R441, R448, log 14). -/
def ecdsaValid (key digest sig : Nat) : Bool := sig == Config.ecdsaSign key digest % 2 ^ 768 || Config.ecdsaOther key digest sig

/-! ## Chunks and tensors (R394) -/

/-- The bytes of chunk k of a tensor of n bytes. -/
def chunkLen (n k : Nat) : Nat := min mib (n - k * mib)

def chunkCount (n : Nat) : Nat := ceilDiv n mib

def chunkBytes (data : Bytes) (n k : Nat) : List Byte := cellRead data (k * mib) (chunkLen n k)

/-- The chunk digests of a tensor of n bytes. -/
def chunkDigests (data : Bytes) (n : Nat) : List Nat := (List.range (chunkCount n)).map (fun k => crc64 (chunkBytes data n k))

/-- The tensor digest of its chunk digests. -/
def digestOf (chunks : List Nat) : Nat := crc64 (chunks.flatMap (fun d => leBytes d 8))

def tensorDigest (data : Bytes) (n : Nat) : Nat := digestOf (chunkDigests data n)

/-- The bytes that a mirrored object holds: the planes of a tensor, or its raw bytes. -/
def Obj.mirrorBytes (o : Obj) : Nat := if o.t.raw then o.size else o.t.size

/-! ## Manifests and epoch records (R393, R395) -/

/-- The COMMIT word. -/
def commitWord : Nat := 0xC0A517ED

/-- A manifest entry. -/
def StoredTensor.entry (t : StoredTensor) : List Byte :=
  leBytes t.mirrorId 4 ++ leBytes t.fmt 1 ++ leBytes t.smode 1 ++ leBytes t.method 1 ++ zeros 1 ++ leBytes t.bytes 8 ++
  leBytes t.copyStep 8 ++ leBytes t.digest 8

/-- The header with the DIGEST and COMMIT words given. -/
def Store.header (x : Store) (digest commit : Nat) : List Byte :=
  leBytes x.kind 1 ++ leBytes x.allot 1 ++ leBytes (b2n x.isSigned + 2 * b2n x.quenched) 2 ++ leBytes x.tensors.length 4 ++
  leBytes x.id 8 ++ leBytes x.step 8 ++ leBytes x.stale 4 ++ zeros 4 ++ leBytes digest 8 ++ zeros 20 ++ leBytes commit 4

/-- A temper record: a layer record and a scale history (R382). -/
def temperBytes (e : Nat × Nat × Nat) : List Byte := leBytes e.2.1 64 ++ leBytes e.2.2 1024

/-- The bytes of a store with its DIGEST and COMMIT words given; the signature, where it is asked for, stands between the entries
and the temper records. DEDUCED (log 31). -/
def Store.bytesWith (x : Store) (digest commit : Nat) (sig : Bool) : List Byte :=
  x.header digest commit ++ x.tensors.flatMap StoredTensor.entry ++
  (if sig && x.isSigned then beBytes x.signature 96 else []) ++ x.temper.flatMap temperBytes

/-- The manifest digest. -/
def Store.digestNow (x : Store) : Nat := crc64 (x.bytesWith 0 0 false)

/-- The SHA-384 digest that the security engine signs. -/
def Store.signedDigest (x : Store) : Nat := sha384N (x.bytesWith x.digest 0 false)

/-- The bytes of a committed store. -/
def Store.bytes (x : Store) : List Byte := x.bytesWith x.digest commitWord true

/-- The running image. -/
def State.runningImage (s : State) : Image := if s.dev.imageB then s.mgt.imageB else s.mgt.imageA

def State.otherImage (s : State) : Image := if s.dev.imageB then s.mgt.imageA else s.mgt.imageB

/-- The measurement of the running image: SHA-384 of its header bytes 0x000 to 0x0AF (R446, R447). -/
def State.measurement (s : State) : Nat := sha384N (padTo 0xB0 s.runningImage.bytes)

/-- A store is sealed: its entries' digests, its DIGEST and its signature are recorded, and the commit word is written last. -/
def State.seal (s : State) (x : Store) : Store :=
  let x1 : Store := { x with tensors := x.tensors.map (fun (t : StoredTensor) => 
    let ds := chunkDigests t.data t.bytes
    { t with digest := digestOf ds, chunks := ds }) }
  let x2 : Store := { x1 with digest := x1.digestNow }
  { x2 with signature := if x2.isSigned then Config.attestSign s.measurement x2.signedDigest else 0, committed := true }

/-! ## Reading a store's bytes (R393, R401) -/

/-- An entry read from 32 bytes. -/
def entryOf (bs : List Byte) : StoredTensor :=
  { mirrorId := bytesField bs 0 4, fmt := bytesField bs 4 1, smode := bytesField bs 5 1, method := bytesField bs 6 1,
    bytes := bytesField bs 8 8, copyStep := bytesField bs 0x10 8, digest := bytesField bs 0x18 8, data := [] }

/-- The store that a byte string spells, and whether its commit word stands. Entries are at most those that the string holds. -/
def storeOf (bs : List Byte) : Store :=
  let n := min (bytesField bs 4 4) ((bs.length - 64) / 32)
  let isSigned := bitOf (bytesField bs 2 2) 0
  let sigAt := 64 + 32 * n
  let recsAt := sigAt + (if isSigned then 96 else 0)
  let recs := if bytesField bs 0 1 = 1 then (pieces 1088 (bs.drop recsAt)).filter (fun r => r.length == 1088) else []
  { kind := bytesField bs 0 1, allot := bytesField bs 1 1, id := bytesField bs 8 8, step := bytesField bs 0x10 8,
    stale := bytesField bs 0x18 4, isSigned := isSigned, quenched := bitOf (bytesField bs 2 2) 1,
    committed := bytesField bs 0x3C 4 == commitWord,
    tensors := (pieces 32 ((bs.drop 64).take (32 * n))).map entryOf
    temper := recs.map (fun r => (bytesField r 0 2, bytesField r 0 64, bytesField r 64 1024))
    digest := bytesField bs 0x20 8
    signature := if isSigned then beNat ((bs.drop sigAt).take 96) else 0 }

/-! ## Temper records of an epoch (R131, R382, R386) -/

/-- The scale history of a layer: the 64 newest maxima of each slot in the order W, A, G, O. DEDUCED (log 33). -/
def Layer.historyBytes (l : Layer) : List Byte :=
  (List.range 4).flatMap (fun i => padTo 256 ((l.history.getD i []).flatMap (fun w => leBytes w.toNat 4)))

/-- The temper records of an allotment as they stand. -/
def State.temperRecords (s : State) (a : Nat) : List (Nat × Nat × Nat) :=
  let x := s.temper a
  x.layers.map (fun e => (e.1, leNat (x.layerBytes e.1 e.2), leNat e.2.historyBytes))

/-- The histories that 1,024 bytes hold; maxima of 0 at the old end are left out. -/
def historyOf (h : Nat) : List (List W32) :=
  (List.range 4).map (fun i =>
    (((List.range 64).map (fun k => w32 (fieldOf h (256 * i + 4 * k) 4))).reverse.dropWhile (· == 0#32)).reverse)

/-- A layer with a layer record and a scale history restored. The handles stay this module's own. DEDUCED (log 33). -/
def Layer.restored (l : Layer) (r h : Nat) : Layer :=
  let y := layerOf l r
  let st := fieldOf r 0x20 2
  { y with
    wMaster := l.wMaster, wScales := l.wScales, rung := fieldOf r 4 1
    boundHigh := bitOf st 0, dry := bitOf st 1, probing := bitOf st 2, storm := bitOf st 3, poolShort := bitOf st 4
    wouldPromote := bitOf st 5
    cleanCount := fieldOf r 0x24 2, dryCount := fieldOf r 0x26 2
    scales := (List.range 4).map (fun i => if fieldOf r (0x28 + i) 1 = 0 then l.code i else fieldOf r (0x28 + i) 1)
    pins := (List.range 4).map (fun i => bitOf (fieldOf r 0x2C 1) i)
    history := historyOf h }

/-- The temper records of a store take effect on allotment a. -/
def State.restoreTemper (s : State) (a : Nat) (recs : List (Nat × Nat × Nat)) : State :=
  (s.modTemper a (fun x => { x with
    layers := recs.foldl (fun ls e => put e.1 (((look e.1 ls).getD {}).restored e.2.1 e.2.2) ls) x.layers })).dropLayerCharges a

end Sys2Proof.Machine
end

