-- ==== Sys2Proof/Machine/Messages.lean ====
section
/-! DEFINITION. The bytes of contributions, results and SEND messages on the wire: a range of U units as the planes of a tensor of
U rows of 32 elements, with what its values carry beside them (R79, R183 to R187, R358, R360). The layout is the model's own
(log 38). -/

namespace Sys2Proof.Machine

/-- The form of a range on the wire. lifts: one lifted-value entry for each 64 units; carried: a mask and the bfloat16 values of a
side-bound source behind each unit. -/
structure WireFmt where
  fmt : Nat
  smode : Nat
  grid : List Nat := []
  lifts : Bool := false
  carried : Bool := false
  deriving DecidableEq, Repr

/-- The planes of u units. -/
def WireFmt.tensor (w : WireFmt) (u tscale : Nat) (data : Bytes) : Tensor :=
  { raw := false, fmt := w.fmt, smode := w.smode, rows := u, rowLen := 32, tscale := tscale, grid := w.grid, data := data }

/-- The bytes before the planes: the scale of a TENSOR format. -/
def WireFmt.head (w : WireFmt) : Nat := b2n (w.smode == 1)

/-- The length of a range of u units. -/
def WireFmt.len (w : WireFmt) (u : Nat) : Nat :=
  if u = 0 then 0
  else w.head + (w.tensor u 0 []).size + (if w.lifts then 4 * ceilDiv u 64 else 0) + (if w.carried then 68 * u else 0)

/-- A message as its tensor and what follows the planes. -/
def WireFmt.open (w : WireFmt) (u : Nat) (bs : List Byte) : Tensor × List Byte :=
  let body := bs.drop w.head
  let n := (w.tensor u 0 []).size
  (w.tensor u (if w.smode = 1 then bytesField bs 0 1 else 127) (cellsOf 0 (body.take n)), body.drop n)

/-- A message from its tensor and what follows. -/
def WireFmt.close (w : WireFmt) (u : Nat) (t : Tensor) (rest : List Byte) : List Byte :=
  if u = 0 then []
  else (if w.smode = 1 then leBytes t.tscale 1 else []) ++ cellRead t.data 0 (w.tensor u 0 []).size ++ rest

/-- The value that element i of a message carries beside its narrow code. -/
def WireFmt.beside (w : WireFmt) (rest : List Byte) (i : Nat) : Option Fp :=
  let u := i / 32
  if w.lifts then
    let e := bytesField rest (4 * (u / 64)) 4
    if bitOf e 27 ∧ bitsOf e 21 6 = u % 64 ∧ bitsOf e 16 5 = i % 32 then some (decB16 (bitsOf e 0 16)) else none
  else if w.carried then
    if bitOf (bytesField rest (68 * u) 4) (i % 32) then some (decB16 (bytesField rest (68 * u + 4 + 2 * (i % 32)) 2)) else none
  else none

/-- The values of a message, FP32 words or INT32 for integer formats (R114, R187, R358). -/
def WireFmt.words (w : WireFmt) (u : Nat) (bs : List Byte) : List W32 :=
  let m := w.open u bs
  (List.range (32 * u)).map (fun i =>
    if isIntFmt w.fmt then wrap32 (decInt w.fmt (m.1.code i)) else (sat32 ((w.beside m.2 i).getD (m.1.narrow i))).1)

/-- The block of a tensor that holds element i, as a conversion would give it. -/
def Tensor.blockAt (t : Tensor) (i : Nat) : CvOut :=
  { codes := (List.range (blockLen t.smode)).map (fun k => t.code (i + k)), scale := t.scaleAt i, marker := t.marked i }

/-- The blocks of a unit. -/
def unitBlocks (smode : Nat) : List Nat := (List.range (32 / blockLen smode)).map (· * blockLen smode)

/-- Units first to first + u − 1 of an object as they stand, with the values that a side object carries. -/
def State.packStored (s : State) (a : Nat) (o : Obj) (w : WireFmt) (first u : Nat) : List Byte :=
  let t := (List.range u).foldl (fun m k => (unitBlocks w.smode).foldl (fun n b => n.putBlock (32 * k + b) (o.t.blockAt (32 * (first + k) + b))) m)
    (w.tensor u o.t.tscale [])
  let beside (i : Nat) : Option Nat :=
    if (s.elemAt a o i) = o.t.narrow i then none else some (encB16 (s.elemAt a o i))
  let rest := if w.carried then (List.range u).flatMap (fun k =>
      let es := (List.range 32).map (fun j => beside (32 * (first + k) + j))
      leBytes (sumN ((es.zipIdx).map (fun e => if e.1.isSome then 2 ^ e.2 else 0))) 4 ++ es.flatMap (fun e => leBytes (e.getD 0) 2))
    else []
  w.close u t rest

/-- What packing by conversion keeps: the tensor, the lifted values by 64 units, the residuals, statistics and overflow. -/
structure Packed where
  t : Tensor
  lifted : List (Nat × Nat) := []
  /-- a residual for each element that is converted; padding has none (R191) -/
  res : List (Option Nat) := []
  stats : SlotStats := {}
  ovf : Bool := false

/-- One block converted into a message. given: the scale code that the conversion is given. -/
def Packed.block (p : Packed) (w : WireFmt) (given : Option Nat) (draws : Nat → Option Nat) (i : Nat) (xs : List CvIn) : Packed :=
  let g := i / 32 / 64
  let spec : CvSpec := { fmt := w.fmt, grid := w.grid, given := given, block := isBlock w.smode
                         spill := if w.lifts then some { perBlock := 2, gap := 2, free := if (look g p.lifted).isSome then 0 else 1 } else none }
  let r := convertBlock spec (fun k => draws (i + k)) xs
  { t := p.t.putBlock i r
    lifted := match r.lifted with
      | l :: _ => put g (LiftEntry.word ⟨i / 32 % 64, (i % 32 + l.1) % 32, l.2⟩) p.lifted
      | [] => p.lifted
    res := p.res ++ (xs.zipIdx).map (fun e => match e.1 with
      | .val y => some (residualOf y (r.value w.fmt w.grid e.2))
      | .pad => none
      | .spilled => some 0)
    stats := p.stats.add r.stats, ovf := p.ovf || r.ovf }

/-- Values converted into a message of u units; given tells the scale of the block at an element where it is given one. -/
def WireFmt.pack (w : WireFmt) (u tscale : Nat) (given draws : Nat → Option Nat) (xs : List CvIn) : Packed :=
  ((pieces (blockLen w.smode) xs).zipIdx).foldl (fun p e => p.block w (given (blockLen w.smode * e.2)) draws (blockLen w.smode * e.2) e.1)
    { t := w.tensor u tscale [] }

/-- The bytes of a packed message. -/
def Packed.bytes (p : Packed) (w : WireFmt) (u : Nat) : List Byte :=
  w.close u p.t (if w.lifts then (List.range (ceilDiv u 64)).flatMap (fun g => leBytes (lookN g p.lifted) 4) else [])

/-- The planes of unit k of a message copied into unit v of object h: codes, scales and zero markers. -/
def State.putUnit (s : State) (a h : Nat) (t : Tensor) (k v : Nat) : State :=
  (unitBlocks t.smode).foldl (fun u b => u.modObj a h (fun o =>
    let p := o.t.putBlock (32 * v + b) (t.blockAt (32 * k + b))
    { o with t := p })) s

end Sys2Proof.Machine
end

