-- ==== Sys2Proof/Machine/Collect.lean ====
section
/-! DEFINITION. The collective engine: matching, contributions, admission and tailwater, folding, results, and SEND and RECV
(R356 to R368). -/

namespace Sys2Proof.Machine

/-! ## Parameters of COLL_BEGIN (R356, R357) -/

def Cmd.cOp (c : Cmd) : Nat := c.par 0 1
def Cmd.cRed (c : Cmd) : Nat := bitsOf (c.par 1 1) 0 2
def Cmd.cComp (c : Cmd) : Bool := bitOf (c.par 1 1) 2
def Cmd.cStoch (c : Cmd) : Bool := bitOf (c.par 1 1) 3
def Cmd.cUnits (c : Cmd) : Nat := c.par 0x18 8 / 32
def Cmd.cSrc (c : Cmd) : Nat := c.par 8 4
def Cmd.cDst (c : Cmd) : Nat := c.par 0x10 4
def Cmd.compressed (c : Cmd) : Bool := c.par 0x28 1 != 0

/-- The units that rank r of n members owns of u: the first and their number. -/
def ownedUnits (u n r : Nat) : Nat × Nat := (r * u / n, (r + 1) * u / n - r * u / n)

def State.group (s : State) (g : Nat) : Group := (look g s.fab.groups).getD { allot := 0, members := [] }

def Group.rankOf (g : Group) (peer : Nat) : Nat := g.members.findIdx (fun m => m.1 == peer)

/-- The members of a group other than the module. -/
def State.others (s : State) (g : Group) : List Nat := (g.members.map (·.1)).filter (· != s.fab.self)

/-- The units that SRC and DST hold (Element ranges). -/
def State.srcUnits (s : State) (c : Cmd) (g : Group) : Nat :=
  match c.cOp with
  | 2 => (ownedUnits c.cUnits g.members.length (g.rankOf s.fab.self)).2
  | 4 => if g.rankOf s.fab.self = c.par 4 2 then c.cUnits else 0
  | 6 => 0
  | _ => c.cUnits

def State.dstUnits (s : State) (c : Cmd) (g : Group) : Nat :=
  match c.cOp with
  | 1 => (ownedUnits c.cUnits g.members.length (g.rankOf s.fab.self)).2
  | 5 => 0
  | _ => c.cUnits

/-- The region of a tensor: u units from the offset of the reference. -/
def State.unitsOk (s : State) (a ref u : Nat) : Bool :=
  s.nameable a (refHandle ref) && !(s.objD a (refHandle ref)).t.raw &&
    decide (32 * (bitsOf ref 32 32 + u) ≤ (s.objD a (refHandle ref)).t.elems)

/-- SRC and DST do not overlap, or are one region (R359). -/
def State.overlapOk (s : State) (c : Cmd) (g : Group) : Bool :=
  let su := s.srcUnits c g
  let du := s.dstUnits c g
  c.cSrc != c.cDst || su == 0 || du == 0 || (c.par 0xC 4 == c.par 0x14 4 && su == du) ||
    decide (c.par 0xC 4 + su ≤ c.par 0x14 4) || decide (c.par 0x14 4 + du ≤ c.par 0xC 4)

/-- The stream that a handle names (R355). -/
def State.stream? (s : State) (a h : Nat) : Option Stream :=
  match look (bitsOf h 0 17) s.fab.streams with
  | some x => if x.allot = a ∧ x.reuse = bitsOf h 17 15 ∧ x.gone = false then some x else none
  | none => none

/-- A residual: 0, or a bfloat16 object of n elements (R360). -/
def State.residualOk (s : State) (a h n : Nat) : Bool :=
  h == 0 || (s.countOk a h n && (s.objD a h).t.fmt == 4 && (s.objD a h).t.smode == 0)

def collBeginFields (s : State) (c : Cmd) : List Fld :=
  let op := c.cOp
  let a := c.allot
  let g := s.group (c.par 2 2)
  let n := g.members.length
  let coll := decide (op ≤ 4)
  let dst := s.objD a c.cDst
  let wf := c.par 0x28 1
  [⟨0, 1, decide (op ≤ 6)⟩, ⟨1, 1, c.cRed != 3 && decide (c.par 1 1 < 16)⟩,
   ⟨2, 2, if coll then s.groupOk a (c.par 2 2) else c.par 2 2 == 0⟩,
   ⟨4, 2, if op = 4 then decide (c.par 4 2 < n) else c.par 4 2 == 0⟩, anyVal 6 1, c.ranged 7 1 0 3,
   ⟨8, 8, s.srcUnits c g == 0 || s.unitsOk a (c.par 8 8) (s.srcUnits c g)⟩,
   ⟨0x10, 8, op == 5 || (s.unitsOk a (c.par 0x10 8) (s.dstUnits c g) && dst.val.isNone && dst.chan.isNone && s.overlapOk c g)⟩,
   ⟨0x18, 8, c.par 0x18 8 % (32 * (if op = 3 then max 1 n else 1)) == 0⟩,
   ⟨0x20, 4, decide (op ≤ 1) || c.par 0x20 4 == 0xFFFFFFFF⟩, anyVal 0x24 4,
   ⟨0x28, 1, wf == 0 || ((wf == 0x80 || wf == 0x81) && decide (op ≤ 1) && c.cRed == 0)⟩,
   c.ranged 0x29 1 0 7, ⟨0x2A, 2, !bitOf (c.par 0x29 1) 2 || s.steered a (c.par 0x2A 2)⟩,
   ⟨0x2C, 4, wf == 0 || s.residualOk a (c.par 0x2C 4) (32 * c.cUnits)⟩,
   ⟨0x30, 4, wf == 0 || op != 0 || s.residualOk a (c.par 0x30 4) (32 * (ownedUnits c.cUnits n (g.rankOf s.fab.self)).2)⟩,
   ⟨0x34, 4, if coll then c.par 0x34 4 == 0 else (s.stream? a (c.par 0x34 4)).isSome⟩, anyVal 0x38 8, anyVal 0x40 4]

/-! ## Wire forms (R358, R360) -/

/-- The form of contributions. -/
def State.inForm (s : State) (c : Cmd) : WireFmt :=
  if c.compressed then { fmt := bitsOf (c.par 0x28 1) 0 1, smode := 2, lifts := true
                         grid := if c.par 0x28 1 = 0x81 then (s.objD c.allot c.cDst).t.grid else [] }
  else
    let o := s.objD c.allot c.cSrc
    { fmt := o.t.fmt, smode := o.t.smode, grid := o.t.grid, carried := o.val.isSome || o.chan.isSome }

/-- The form of results. -/
def State.outForm (s : State) (c : Cmd) : WireFmt :=
  if c.compressed then s.inForm c
  else
    let t := (s.objD c.allot c.cDst).t
    { fmt := t.fmt, smode := t.smode, grid := t.grid }

/-- The collective signature: CRC-32C of OP, RED, WFMT, N, the DST format and scale mode and the group digest (R356). -/
def State.collSig (s : State) (c : Cmd) (g : Group) : W32 :=
  let t := (s.objD c.allot c.cDst).t
  w32 ((polyOf 2).check (leBytes (c.par 0 1) 1 ++ leBytes (c.par 1 1) 1 ++ leBytes (c.par 0x28 1) 1 ++ leBytes (c.par 0x18 8) 8 ++
    leBytes t.fmt 1 ++ leBytes t.smode 1 ++ leBytes g.digest.toNat 4))

/-- Statistics of a conversion of the collective enter its layer and slot (R360). -/
def State.collStats (s : State) (c : Cmd) (st : SlotStats) : State :=
  let l := c.par 0x2A 2
  if bitOf (c.par 0x29 1) 2 then (s.gather c.allot l (bitsOf (c.par 0x29 1) 0 2) st).countConv c none (some l) st
  else s.countConv c none none st

/-- Element k of a residual, as FP32. -/
def Obj.residualAt (o : Obj) (k : Nat) : W32 := wideB16 (o.t.code (o.t.place k))

/-- Residuals written from element k on; one of padding stays (R191). -/
def Obj.putResiduals (o : Obj) (k : Nat) (rs : List (Option Nat)) : Obj :=
  (rs.zipIdx).foldl (fun x e => match e.1 with
    | some r => x.write (2 * x.t.place (k + e.2)) (leBytes r 2)
    | none => x) o

/-- The inputs of n elements of SRC from element k of the collective on, with the residual where one is named (R191). -/
def State.srcInputs (s : State) (c : Cmd) (k n : Nat) : List CvIn :=
  let o := s.objD c.allot c.cSrc
  let r := s.objD c.allot (c.par 0x2C 4)
  (List.range n).map (fun j =>
    let i := 32 * c.par 0xC 4 + k + j
    if o.t.colOf i < o.t.rowLen then
      let x := (s.elem32 c.allot o i).1
      .val (dec32 (if c.par 0x2C 4 = 0 then x else add32 x (r.residualAt (k + j))))
    else .pad)

/-- The draw of element e at the stream index n of the command, with STOCH. -/
def Cmd.cDraw (c : Cmd) (n e : Nat) : Option Nat := if c.cStoch then some (draw (c.par 0x38 8) ((c.par 0x40 4 + n) % 2 ^ 32) e) else none

/-- What the making of contributions keeps. -/
structure Parts where
  s : State
  msgs : List (List Byte) := []
  ovf : Bool := false

/-- One range of the contribution: first unit in the collective and number of units. -/
def Parts.add (p : Parts) (c : Cmd) (r : Nat × Nat) : Parts :=
  let s := p.s
  let w := s.inForm c
  if c.compressed then
    let k := w.pack r.2 127 (fun _ => none) (fun i => c.cDraw 0 (32 * r.1 + i)) (s.srcInputs c (32 * r.1) (32 * r.2))
    let t := s.collStats c k.stats
    let u := if c.par 0x2C 4 = 0 then t else t.modObj c.allot (c.par 0x2C 4) (fun o => o.putResiduals (32 * r.1) k.res)
    { s := u, msgs := p.msgs ++ [k.bytes w r.2], ovf := p.ovf || k.ovf }
  else { p with msgs := p.msgs ++ [s.packStored c.allot (s.objD c.allot c.cSrc) w (c.par 0xC 4 + r.1) r.2] }

/-- The ranges of SRC that go to the members in rank order. -/
def State.partRanges (s : State) (c : Cmd) (g : Group) : List (Nat × Nat) :=
  let n := g.members.length
  let me := g.rankOf s.fab.self
  (List.range n).map (fun j =>
    match c.cOp with
    | 0 => ownedUnits c.cUnits n j
    | 1 => ownedUnits c.cUnits n j
    | 3 => ownedUnits c.cUnits n j
    | _ => if j = me then (0, s.srcUnits c g) else (0, 0))

/-! ## Messages of collectives (log 38) -/

/-- A message to a member on a stream of collective k of command id: an open with its number and length, then its data. -/
def State.sendMessage (s : State) (id : Nat) (g : Group) (peer stream index : Nat) (sig : W32) (bs : List Byte) : State :=
  s.sendOn peer stream g.allot (g.allotOf peer) sig ((3, leBytes index 8 ++ leBytes bs.length 8) :: (pieces 4096 bs).map (fun d => (0, d))) (some id)

def Msg.whole (m : Msg) : Bool := decide (m.bytes ≤ m.data.length)

/-- The message of collective index from a peer. -/
def State.msg? (s : State) (stream peer index : Nat) : Option Msg :=
  (s.fab.inbound.find? (fun x => x.stream == stream && x.peer == peer)).bind (fun x => x.msgs.find? (fun m => m.index == index))

/-- The message has arrived whole. -/
def State.arrived (s : State) (x : Coll) (phase peer : Nat) : Bool := ((s.msg? (collStream x.group x.index phase) peer x.index).map Msg.whole).getD false

def State.msgData (s : State) (x : Coll) (phase peer : Nat) : List Byte :=
  ((s.msg? (collStream x.group x.index phase) peer x.index).map (·.data)).getD []

/-- The messages of a collective that has ended are dropped; one that is still coming is dropped when it is whole. -/
def State.dropMsgs (s : State) (group index : Nat) : State :=
  { s with fab := { s.fab with inbound := s.fab.inbound.map (fun x =>
    if streamGroup x.stream = group then { x with msgs := x.msgs.filter (fun m => m.index != index || !m.whole) } else x) } }

def State.modColl (s : State) (id : Nat) (f : Coll → Coll) : State :=
  { s with fab := { s.fab with colls := s.fab.colls.map (fun x => if x.cmd = id then f x else x) } }

/-! ## Tailwater counts and held contributions (R365 to R368) -/

def State.modTail (s : State) (group rank : Nat) (f : TailCount → TailCount) : State :=
  let ts := s.fab.tails
  if ts.any (fun t => t.group == group && t.rank == rank) then
    { s with fab := { s.fab with tails := ts.map (fun t => if t.group = group ∧ t.rank = rank then f t else t) } }
  else { s with fab := { s.fab with tails := ts ++ [f { group := group, rank := rank }] } }

def TailCount.drop (t : TailCount) : TailCount := { t with dropped := t.dropped + 1 }

/-- A held contribution leaves with its charge. -/
def State.unhold (s : State) (a : Nat) (h : Held) : State :=
  ({ s with fab := { s.fab with held := s.fab.held.filter (fun x => !(x.group == h.group && x.peer == h.peer && x.index == h.index)) } } : State).uncharge
    a (.tailwater h.group h.peer h.index)

/-- A held contribution is dropped and counted. -/
def State.dropHeld (s : State) (h : Held) : State :=
  let g := s.group h.group
  (s.unhold g.allot h).modTail h.group (g.rankOf h.peer) TailCount.drop

/-- The held contributions that a starting collective of a group and slot folds: a signature that differs drops one. -/
def State.takeHeld (s : State) (x : Coll) : State × List (Nat × Nat × List Byte) :=
  let g := s.group x.group
  let hs := s.fab.held.filter (fun h => h.group == x.group && h.slot == x.slot && h.complete)
  hs.foldl (fun acc h =>
    if h.sig = x.sig then
      ((acc.1.unhold g.allot h).modTail h.group (g.rankOf h.peer) (fun t => { t with carried := t.carried + 1 }), acc.2 ++ [(h.peer, h.index, h.data)])
    else (acc.1.dropHeld h, acc.2)) (s, [])

/-- The contribution of a peer of n bytes was not admitted: counted, and held under add-next where the pool has room (R364 to
R367). -/
def State.lateOne (s : State) (c : Cmd) (x : Coll) (g : Group) (n peer : Nat) : State :=
  let r := g.rankOf peer
  let t := (s.modTail x.group r (fun t => { t with late := t.late + 1, lateBytes := t.lateBytes + n })).countFor c 0x16 none none 1
  let data := s.msgData x 0 peer
  if x.policy = 1 ∧ (x.lost.all (fun l => l.1 != peer)) ∧ s.fits x.allot 2 n then
    let u := t.charge x.allot (.tailwater x.group peer x.index) 2 n
    { u with fab := { u.fab with held := u.fab.held ++ [{ group := x.group, slot := x.slot, peer := peer, index := x.index, sig := x.sig
                                                          data := data, bytes := n, complete := false }] } }
  else t.modTail x.group r TailCount.drop

/-! ## Folding (R358) -/

/-- MAX and MIN of R211, on FP32 words or INT32. -/
def redWord (red : Nat) (int : Bool) (a b : W32) : W32 :=
  if int then (if (int32 a ≤ int32 b) = (red = 2) then a else b)
  else if red = 1 then enc32 ((dec32 a).max (dec32 b)) else enc32 ((dec32 a).min (dec32 b))

/-- The words of one element, in the order of the fold. -/
def foldWords (red : Nat) (comp int : Bool) : List W32 → W32
  | [] => 0
  | w :: ws =>
    if red = 0 then
      let r := ws.foldl (fun (x : Sum) v => if int then x.pushInt (int32 v) else x.push comp (v, 0, 0)) { s := w, any := true }
      if comp && !int then (accAdd r.s r.c).1 else r.s
    else ws.foldl (redWord red int) w

/-- Contributions folded element by element. -/
def foldAll (red : Nat) (comp int : Bool) (n : Nat) (parts : List (List W32)) : List W32 :=
  (List.range n).map (fun i => foldWords red comp int (parts.map (fun p => p.getD i 0)))

/-- SCALE applies where it is not 0. -/
def Cmd.cScaled (c : Cmd) : Bool := !(dec32 (w32 (c.par 0x24 4))).isZero

/-- A folded value with SCALE: from there on an FP32 word. -/
def Cmd.scaleWord (c : Cmd) (int : Bool) (w : W32) : W32 :=
  if !c.cScaled then w
  else enc32 ((if int then Fp.ofInt (int32 w) else dec32 w).mul (dec32 (w32 (c.par 0x24 4))))

/-- The folded values are INT32. -/
def State.intFold (s : State) (c : Cmd) : Bool := isIntFmt (s.inForm c).fmt && !c.cScaled

def valueOf (int : Bool) (w : W32) : Fp := if int then Fp.ofInt (int32 w) else dec32 w

/-- The peers whose contributions to this module's range come by the fabric, and the peers whose results do. -/
def State.contributors (s : State) (op : Nat) (g : Group) : List Nat := if op = 0 ∨ op = 1 ∨ op = 3 then s.others g else []

def State.owners (s : State) (c : Cmd) (g : Group) : List Nat :=
  match c.cOp with
  | 0 => s.others g
  | 2 => s.others g
  | 4 => (s.others g).filter (fun p => g.rankOf p == c.par 4 2)
  | _ => []

/-- The units of this module's own contribution. -/
def State.myUnits (s : State) (c : Cmd) (g : Group) : Nat :=
  match c.cOp with
  | 4 => s.srcUnits c g
  | _ => (ownedUnits c.cUnits g.members.length (g.rankOf s.fab.self)).2

/-- The first element of DST region's conversion counters for the values of this module. -/
def State.myFirst (s : State) (c : Cmd) (g : Group) : Nat :=
  match c.cOp with
  | 3 => 0
  | 4 => 0
  | _ => (ownedUnits c.cUnits g.members.length (g.rankOf s.fab.self)).1

/-- The values of this module's range, from the admitted and the held contributions. -/
def State.foldColl (s : State) (c : Cmd) (x : Coll) (g : Group) (from_ : List Nat) : List W32 :=
  let w := s.inForm c
  let u := s.myUnits c g
  let int := isIntFmt w.fmt
  let data (p : Nat) : List W32 := w.words u (if p = s.fab.self then x.own else s.msgData x 0 p)
  if c.cOp = 3 then (g.members.flatMap (fun m => data m.1)).map (c.scaleWord int)
  else
    let es := ((s.fab.self :: from_).map (fun p => (p, x.index, data p))) ++ x.heldIn.map (fun h => (h.1, h.2.1, w.words u h.2.2))
    (foldAll c.cRed c.cComp int (32 * u) ((sortBy (fun e => (e.1, e.2.1)) es).map (fun e => e.2.2))).map (c.scaleWord int)

/-! ## Results (R358, R360) -/

/-- The result of this module's range on the wire, with the residual of stage 3 and its statistics. -/
def State.makeResult (s : State) (c : Cmd) (g : Group) (vals : List W32) : State × List Byte × Bool :=
  let u := s.myUnits c g
  let int := s.intFold c
  let w := s.outForm c
  let a := c.allot
  if c.compressed then
    let r := s.objD a (c.par 0x30 4)
    let d := (s.objD a c.cDst).t
    let d0 := 32 * (c.par 0x14 4 + s.myFirst c g)
    let xs := (vals.zipIdx).map (fun e => if d.colOf (d0 + e.2) < d.rowLen then
      CvIn.val (dec32 (if c.par 0x30 4 = 0 then e.1 else add32 e.1 (r.residualAt e.2))) else .pad)
    let k := w.pack u 127 (fun _ => none) (fun _ => none) xs
    let t := s.collStats c k.stats
    (if c.par 0x30 4 = 0 then t else t.modObj a (c.par 0x30 4) (fun o => o.putResiduals 0 k.res), k.bytes w u, k.ovf)
  else
    let t := (s.objD a c.cDst).t
    let f := s.myFirst c g
    let at0 := 32 * (c.par 0x14 4 + f)
    let xs := (vals.zipIdx).map (fun e => if t.colOf (at0 + e.2) < t.rowLen then CvIn.val (valueOf int e.1) else .pad)
    let k := w.pack u t.tscale (fun i => t.givenScale { tscale := t.tscale } (at0 + i)) (fun i => c.cDraw 1 (32 * f + i)) xs
    (s, k.bytes w u, false)

/-- Values converted into u units of DST from unit v of its region on; e0 is the element index of the first. -/
def State.writeValues (s : State) (c : Cmd) (int : Bool) (v e0 : Nat) (vals : List W32) : State :=
  let t := (s.objD c.allot c.cDst).t
  let v0 := c.par 0x14 4 + v
  let xs := (pieces 32 vals).zipIdx.map (fun e => (v0 + e.2, (e.1.zipIdx).map (fun f =>
    if t.colOf (32 * (v0 + e.2) + f.2) < t.rowLen then CvIn.val (valueOf int f.1) else .pad)))
  let r := s.writeUnits c.allot c.cDst { tscale := t.tscale } (fun i => c.cDraw 1 (e0 + (i - 32 * v0))) xs
  r.s.collStats c r.stats

/-- A result message written into DST from unit v of its region on. -/
def State.writeMessage (s : State) (c : Cmd) (v u : Nat) (bs : List Byte) : State :=
  let w := s.outForm c
  if c.compressed then s.writeValues c false v (32 * v) (w.words u bs)
  else
    let m := (w.open u bs).1
    (List.range u).foldl (fun t k => t.putUnit c.allot c.cDst m k (c.par 0x14 4 + v + k)) s

/-- DST is written: this module's values, and the results of the other owners. -/
def State.writeDst (s : State) (c : Cmd) (x : Coll) (g : Group) : State :=
  let n := g.members.length
  let int := s.intFold c
  let me := ownedUnits c.cUnits n (g.rankOf s.fab.self)
  let results (t : State) (mine : State → State) : State := g.members.foldl (fun y m =>
    let r := ownedUnits c.cUnits n (g.rankOf m.1)
    if m.1 = s.fab.self then mine y else y.writeMessage c r.1 r.2 (s.msgData x 1 m.1)) t
  match c.cOp with
  | 0 => results s (fun y => if c.compressed then y.writeMessage c me.1 me.2 x.result else y.writeValues c int me.1 (32 * me.1) x.values)
  | 1 => s.writeValues c int 0 (32 * me.1) x.values
  | 2 => results s (fun y => y.writeValues c int me.1 (32 * me.1) x.values)
  | 3 => s.writeValues c int 0 0 x.values
  | _ =>
    if g.rankOf s.fab.self = c.par 4 2 then s.writeValues c int 0 0 x.values
    else match s.owners c g with
      | p :: _ => s.writeMessage c 0 c.cUnits (s.msgData x 1 p)
      | [] => s

/-! ## The end of a collective (R363) -/

/-- The collective leaves the engine. -/
def State.endColl (s : State) (x : Coll) : State :=
  ({ s with fab := { s.fab with colls := s.fab.colls.filter (fun y => y.cmd != x.cmd) } } : State).dropMsgs x.group x.index

/-- It completes FAULT_CONTAINED for a lost peer (R367). -/
def State.failColl (s : State) (x : Coll) (src : Nat) : State := (s.endColl x).finish x.cmd .faultContained (discardDetail src 0 false) 0

/-- It completes WRONG_STATE (R356). -/
def State.wrongColl (s : State) (x : Coll) : State := (s.endColl x).finish x.cmd .wrongState 0 0

/-- COLL_BEGIN DETAIL. -/
def Coll.detail (x : Coll) : W32 :=
  w32 (satTo 65535 x.late + 65536 * b2n x.selfLate + 131072 * b2n x.carried + 524288 * b2n x.spillOver)

/-- Elements of a region whose codes differ. -/
def changedElems (t1 t2 : Tensor) (first n : Nat) : Nat := ((List.range n).filter (fun k => decide (t1.code (first + k) ≠ t2.code (first + k)))).length

/-- The ranges of DST that the collective writes. -/
def State.dstRanges (s : State) (c : Cmd) (g : Group) : List Range :=
  (s.objD c.allot c.cDst).elemRanges c.allot c.cDst (32 * c.par 0x14 4) (32 * s.dstUnits c g)

/-- Every result is there: DST is written and the command completes; a tapped write waits for the lag bound (R385), and a block
poisoned in part stops the command (R417). -/
def State.finishColl (s : State) (c : Cmd) (x : Coll) (g : Group) : State :=
  let a := c.allot
  if c.cOp = 2 ∧ s.tapWaits a 1 c.cDst then s
  else match s.poisonPartOf (s.dstRanges c g) with
    | some p => s.meetPoison c p
    | none =>
      let old := s.objD a c.cDst
      let u := s.dstUnits c g
      let t := (s.dstRanges c g).foldl (fun y r => y.healRange r) (s.writeDst c x g)
      let t1 := t.countBytes c old.tier (some old.hearth) (u * unitBytes old.t.fmt)
      let t2 := if c.cOp = 2 then
          let n := changedElems old.t (t1.objD a c.cDst).t (32 * c.par 0x14 4) (32 * u)
          (t1.modObj a c.cDst (fun o => { o with changeFrac := some (n * 10000 / max 1 (o.t.rows * o.t.rowLen)) })).tapped a 1 c.cDst old
        else t1.staleWrite a c.cDst
      if s.logOver t2 then s
      else (t2.endColl x).finish c.id (if x.spillOver then .okWithNote else .ok) x.detail (w128 (32 * u % 2 ^ 32 + 2 ^ 32 * x.admitted))

/-! ## Admission (R364) -/

/-- Admission closes: contributions that have arrived whole are folded, the others are late; a deadline that passed gives each
contributor its verdict. The result goes to every member that needs it. -/
def State.closeColl (s : State) (c : Cmd) (x : Coll) (g : Group) (timed : Bool) : State :=
  let from_ := (s.contributors x.op g).filter (fun p => s.arrived x 0 p)
  let late := (s.contributors x.op g).filter (fun p => !s.arrived x 0 p)
  let need := (s.inForm c).len (s.myUnits c g)
  let vals := s.foldColl c x g from_
  let s1 := late.foldl (fun t p => t.lateOne c x g need p) s
  let s2 := if timed then ((s.contributors x.op g).filter (fun p => x.lost.all (fun l => l.1 != p))).foldl (fun t p =>
      t.sendOn p (collStream x.group x.index 1) x.allot (g.allotOf p) x.sig [(6, leBytes x.index 8 ++ leBytes (b2n (from_.contains p)) 1)] (some c.id)) s1
    else s1
  let gives := c.cOp == 0 || c.cOp == 2 || (c.cOp == 4 && g.rankOf s.fab.self == c.par 4 2)
  let (s3, bs, ovf) := if gives then s2.makeResult c g vals else (s2, [], false)
  let s4 := if gives then (s.others g).foldl (fun t p => t.sendMessage c.id g p (collStream x.group x.index 1) x.index x.sig bs) s3 else s3
  let mine := if c.cOp = 4 ∧ gives = false then 0 else 1
  s4.modColl c.id (fun y => { y with
    closed := true, late := late.length, carried := x.heldIn != [], values := vals, result := bs, spillOver := y.spillOver || ovf
    admitted := mine + from_.length + x.heldIn.length })

/-- Some packet of a message of the collective carries another signature (R356). -/
def State.sigDiffers (s : State) (x : Coll) : Bool :=
  s.fab.inbound.any (fun i => streamGroup i.stream == x.group && i.msgs.any (fun m => m.index == x.index && m.sigs.any (· != x.sig)))

/-- The contributions and results that a collective still waits for, closed or not. -/
def State.missing (s : State) (c : Cmd) (x : Coll) (g : Group) : List Nat :=
  if x.closed then (s.owners c g).filter (fun p => !s.arrived x 1 p) else (s.contributors x.op g).filter (fun p => !s.arrived x 0 p)

/-- The source that says that one of the peers is lost. -/
def Coll.lostOf (x : Coll) (ps : List Nat) : Option Nat := (x.lost.find? (fun l => ps.contains l.1)).map (·.2)

/-- A collective that is closed goes on to its end. -/
def State.collEnd (s : State) (id : Nat) : State :=
  match s.cmd? id, s.fab.colls.find? (fun x => x.cmd == id) with
  | some c, some x =>
    let g := s.group x.group
    if !x.closed then s
    else
      let ms := s.missing c x g
      match x.lostOf ms with
      | some src => s.failColl x src
      | none => if ms = [] then s.finishColl c x g else s
  | _, _ => s

/-- A collective as far as it can go now. -/
def State.collGo (s : State) (id : Nat) : State :=
  match s.cmd? id, s.fab.colls.find? (fun x => x.cmd == id) with
  | some c, some x =>
    let g := s.group x.group
    if s.sigDiffers x then (s.sendAborts x.group x.index 0).wrongColl x
    else if x.closed then s.collEnd id
    else
      let ms := s.missing c x g
      let gone := x.lost.map (·.1)
      match x.lostOf ms with
      | some src =>
        if x.deadline.isNone then s.failColl x src
        else if ms.all (fun p => gone.contains p) then (s.closeColl c x g false).collEnd id else s
      | none => if ms = [] then (s.closeColl c x g false).collEnd id else s
  | _, _ => s

/-! ## SEND and RECV (R362) -/

def State.modStream (s : State) (i : Nat) (f : Stream → Stream) : State := { s with fab := { s.fab with streams := upd i f s.fab.streams } }

/-- Data packets of a stream, numbered on from its last, that serve a command; kind 4 is the close. -/
def State.sendStream (s : State) (served : Option Nat) (i : Nat) (x : Stream) (ps : List (Nat × List Byte)) : State :=
  let g := s.group x.group
  let mk (e : (Nat × List Byte) × Nat) : Sent :=
    { vc := 1, peer := x.peer, own := i, allot := x.allot, far := g.allotOf x.peer, seq := (x.txSeq + 1 + e.2) % 2 ^ 32, kind := e.1.1, sig := g.digest
      data := e.1.2, served := served }
  (s.modStream i (fun y => { y with txSeq := (y.txSeq + ps.length) % 2 ^ 32 })).enqueue ((ps.zipIdx).map mk)

/-- The header of a SEND message: N, format, scale mode (log 38). -/
def sendHead (n : Nat) (t : Tensor) : List Byte := leBytes n 8 ++ leBytes t.fmt 1 ++ leBytes t.smode 1 ++ zeros 6

/-- SEND: the planes of SRC go out on its stream. -/
def State.sendBegin (s : State) (c : Cmd) : State :=
  let i := bitsOf (c.par 0x34 4) 0 17
  match look i s.fab.streams with
  | none => s
  | some x =>
    if x.closed then s.finish c.id .wrongState 0 0
    else
      let o := s.objD c.allot c.cSrc
      let bs := sendHead (c.par 0x18 8) o.t ++ s.packStored c.allot o { s.inForm c with carried := false } (c.par 0xC 4) c.cUnits
      let ps := (pieces 4096 bs).map (fun p => (0, p))
      let t := s.countBytes c o.tier (some o.hearth) (c.cUnits * unitBytes o.t.fmt)
      (t.goOn c.id [i, (x.txSeq + ps.length) % 2 ^ 32]).sendStream (some c.id) i x ps

/-- SEND completes when the peer has acknowledged every packet. -/
def State.sendGo (s : State) (c : Cmd) : State :=
  let i := c.aux.getD 0 0
  if s.fab.unacked.any (fun y => y.vc == 1 && y.own == i && y.kind == 0 && seqLe y.seq (c.aux.getD 1 0)) then s else s.finishOk c.id 0

/-- The bytes of the first message in an inbox, header apart: the planes of its units. -/
def messageBytes (b : List Byte) : Nat :=
  let w : WireFmt := { fmt := bytesField b 8 1, smode := bytesField b 9 1 }
  w.len (bytesField b 0 8 / 32)

/-- RECV takes the next message of its stream. -/
def State.recvGo (s : State) (c : Cmd) : State :=
  let i := c.aux.getD 0 0
  let first := !s.hg.cmds.any (fun d => d.opcode == 0x0610 && d.cOp == 6 && d.phase == .working && d.aux.getD 0 0 == i && decide (d.id < c.id))
  match look i s.fab.streams with
  | none => s
  | some x =>
    let b := x.inbox
    let n := messageBytes b
    if !first then s
    else if 16 ≤ b.length ∧ 16 + n ≤ b.length then
      let t := s.modStream i (fun y => { y with inbox := y.inbox.drop (16 + n) })
      let d := s.objD c.allot c.cDst
      if bytesField b 0 8 ≠ c.par 0x18 8 ∨ bytesField b 8 1 ≠ d.t.fmt ∨ bytesField b 9 1 ≠ d.t.smode then t.finish c.id .wrongState 0 0
      else
        let g := s.group x.group
        match s.poisonPartOf (s.dstRanges c g) with
        | some p => t.meetPoison c p
        | none =>
          let t1 := (s.dstRanges c g).foldl (fun y r => y.healRange r) (t.writeMessage c 0 c.cUnits ((b.drop 16).take n))
          ((t1.countBytes c d.tier (some d.hearth) (c.cUnits * unitBytes d.t.fmt)).staleWrite c.allot c.cDst).finishOk c.id (32 * c.cUnits % 2 ^ 32)
    else if x.closed then s.finish c.id .wrongState 0 0
    else s

/-- Every COLL_BEGIN at work goes on as far as it can, in the order of acceptance. -/
def State.fabricGo (s : State) : State :=
  (s.hg.cmds.filter (fun c => c.opcode == 0x0610 && c.phase == .working)).foldl (fun t c =>
    match c.cOp with
    | 5 => t.sendGo c
    | 6 => t.recvGo c
    | _ => t.collGo c.id) s

/-! ## Lost peers (R349, R350, R367) -/

/-- The commands in progress on the streams of a peer end FAULT_CONTAINED. -/
def State.failStreams (s : State) (peer : Nat) : State :=
  (s.hg.cmds.filter (fun c => c.opcode == 0x0610 && c.phase == .working && decide (5 ≤ c.cOp) &&
    ((look (c.aux.getD 0 0) s.fab.streams).map (·.peer)) == some peer)).foldl (fun t c =>
      t.finish c.id .faultContained (discardDetail 0x5300 0 false) 0) s

/-- The collectives in progress that have the peer as a member. -/
def State.collsWith (s : State) (peer : Nat) : List Coll := s.fab.colls.filter (fun x => (s.group x.group).members.any (fun m => m.1 == peer))

/-- Late contributions of a peer that still arrive never arrive whole: they are dropped and counted (R367). -/
def State.dropComing (s : State) (lost : Held → Bool) : State :=
  (s.fab.held.filter (fun h => !h.complete && lost h)).foldl (fun t h => t.dropHeld h) s

/-- The peer is lost for the collectives in progress, and for its contributions that still arrive. -/
def State.loseMember (s0 : State) (peer src : Nat) : State :=
  let s := (s0.dropComing (fun h => h.peer == peer)).loseNorms peer src
  ({ s with fab := { s.fab with colls := s.fab.colls.map (fun x =>
    if (s.group x.group).members.any (fun m => m.1 == peer) then { x with lost := x.lost ++ [(peer, src)] } else x) } } : State).fabricGo

/-- A peer goes down: the peer-lost source is raised (R349). -/
def State.peerLost (s : State) (peer : Nat) : State :=
  if s.fab.peersDown.contains peer then s
  else
    let t : State := { s with fab := { s.fab with peersDown := insertN peer s.fab.peersDown } }
    ((t.collect [{ source := 0x5300, peer := peer }]).failStreams peer).loseMember peer 0x5300

/-! ## COLL_BEGIN (R356) -/

/-- The deadline and the policy of a collective (R364, R365, R368). -/
def collDeadlineOf (c : Cmd) : Option Nat × Nat :=
  let p := if c.par 7 1 = 0 then c.tail else c.par 7 1
  let d := if c.par 0x20 4 = 0 then c.tailUs else c.par 0x20 4
  (if 1 < c.cOp ∨ p = 3 ∨ d = 0xFFFFFFFF then none else some d, p)

/-- The collective starts: its contributions go out, and it goes on as far as it can. -/
def State.collStart (s : State) (c : Cmd) : State :=
  let gid := c.par 2 2
  let g := s.group gid
  let k := nextNumber g.begun g.gone 0
  let sig := s.collSig c g
  let dp := collDeadlineOf c
  let p := (s.partRanges c g).foldl (fun x r => x.add c r) ({ s := s } : Parts)
  let o := s.objD c.allot c.cSrc
  let me := g.rankOf s.fab.self
  let x0 : Coll := { cmd := c.id, allot := c.allot, group := gid, index := k, op := c.cOp, started := c.tStart, sig := sig, deadline := dp.1
                     policy := dp.2, slot := c.par 6 1, own := p.msgs.getD me [], spillOver := p.ovf
                     selfLate := s.fab.refused.contains (gid, k) }
  let downs := ((s.others g).filter (fun q => s.fab.peersDown.contains q)).map (fun q => (q, 0x5300))
  let abs := s.fab.aborts.filter (fun e => e.1 == gid && e.2.1 == k)
  let gone := abs.map (fun e => (e.2.2.1, 0x5301))
  let (t, hs) := p.s.takeHeld x0
  let t1 : State := { t with fab := { t.fab with
    groups := upd gid (fun y => { y with begun := k, gone := y.gone.filter (fun n => decide (k < n)) }) t.fab.groups
    refused := t.fab.refused.filter (· != (gid, k))
    aborts := t.fab.aborts.filter (fun e => !(e.1 == gid && e.2.1 == k))
    colls := t.fab.colls ++ [{ x0 with heldIn := hs, lost := downs ++ gone }] } }
  let t2 := (s.contributors c.cOp g).foldl (fun u q => u.sendMessage c.id g q (collStream gid k 0) k sig (p.msgs.getD (g.rankOf q) [])) t1
  let t3 := (t2.countBytes c o.tier (some o.hearth) (s.srcUnits c g * unitBytes o.t.fmt)).goOn c.id []
  if abs.any (fun e => e.2.2.2 == 0) then t3.wrongColl x0 else t3.collGo c.id

/-- The ranges that the command reads at its start. -/
def State.collReads (s : State) (c : Cmd) (g : Group) : List Range :=
  let o := s.objD c.allot c.cSrc
  (if s.srcUnits c g = 0 then [] else o.elemRanges c.allot c.cSrc (32 * c.par 0xC 4) (32 * s.srcUnits c g)) ++
    (if c.compressed then [s.planesOf c.allot (c.par 0x2C 4), s.planesOf c.allot (c.par 0x30 4)] else [])

/-- COLL_BEGIN judged and begun. -/
def State.collBegin (s : State) (c : Cmd) : State :=
  let g := s.group (c.par 2 2)
  match s.poisonOf (s.collReads c g) with
  | some p => s.meetPoison c p
  | none =>
    match c.cOp with
    | 5 => (s.sendBegin c).fabricGo
    | 6 => (s.goOn c.id [bitsOf (c.par 0x34 4) 0 17]).fabricGo
    | _ => s.collStart c

/-- Streams of the table in use: those of STREAM_OPEN, one for each other member of each collective in progress, and one of the
mirror traffic (R353; log 38). -/
def State.streamsTaken (s : State) : Nat :=
  s.fab.streams.length + sumN (s.fab.colls.map (fun x => (s.group x.group).members.length - 1)) + b2n s.pair.bound

/-- The command waits: its group holds 16 collectives in progress, an earlier one has not begun (R356), or no streams are free for
it. -/
def State.collWaits (s : State) (c : Cmd) : Bool :=
  decide (c.cOp ≤ 4) &&
    (decide (131072 < s.streamsTaken + (s.group (c.par 2 2)).members.length - 1) || decide (16 ≤ (s.fab.colls.filter (fun x => x.group == c.par 2 2)).length) ||
     (s.earlier c).any (fun d => d.opcode == 0x0610 && decide (d.cOp ≤ 4) && d.par 2 2 == c.par 2 2 && d.phase == .started))

/-- COLL_BEGIN. -/
def execCollBegin (id : Nat) (s : State) : Out :=
  match s.fresh? id 0x0610 with
  | none => .next s
  | some c => if s.collWaits c then .next s else s.deant id 0x0610 collBeginFields State.collBegin

/-- COLL_DEADLINE: the deadline of the collective has passed (R364). -/
def execCollDeadline (id : Nat) (s : State) : Out :=
  match s.cmd? id, s.fab.colls.find? (fun x => x.cmd == id) with
  | some c, some x =>
    match x.deadline with
    | some d => if x.closed then .next s
      else
        let t := s.passTo (x.started + 1000 * d)
        .next ((t.closeColl c x (t.group x.group) true).collEnd id).settle
    | none => .next s
  | _, _ => .next s

/-- LAG_BOUND_RELEASE: an UPD_APPLY or a tapping COLL_BEGIN that waits at the lag bound goes on where the bound is met (R385). -/
def execLagBoundRelease (id : Nat) (s : State) : Out :=
  match s.cmd? id with
  | none => .next s
  | some c =>
    if c.phase ≠ .working then .next s
    else if c.opcode = 0x0502 then .next (s.updApply c)
    else if c.opcode = 0x0610 then .next (s.collGo id)
    else .next s

/-- TAIL_POLICY parameters (R368). -/
def tailPolicyFields (s : State) (c : Cmd) : List Fld :=
  let act := c.par 0 1
  let n := (s.group (c.par 2 2)).members.length
  [c.ranged 0 1 0 3, ⟨1, 1, if act = 0 then inRange 1 3 (c.par 1 1) else c.par 1 1 == 0⟩, ⟨2, 2, s.groupOk c.allot (c.par 2 2)⟩,
   ⟨4, 4, act == 0 || c.par 4 4 == 0⟩, ⟨8, 8, if act = 1 then s.rawRefOk c.allot (c.par 8 8) (32 * n) else c.par 8 8 == 0⟩,
   ⟨0x10, 1, act == 3 || c.par 0x10 1 == 0⟩]

/-- The counts of a member. -/
def TailCount.bytes (t : TailCount) : List Byte := leBytes t.late 8 ++ leBytes t.carried 8 ++ leBytes t.dropped 8 ++ leBytes t.lateBytes 8

def State.tailOf (s : State) (group rank : Nat) : TailCount :=
  (s.fab.tails.find? (fun t => t.group == group && t.rank == rank)).getD { group := group, rank := rank }

/-- TAIL_POLICY judged. -/
def State.tailPolicy (s : State) (c : Cmd) : State :=
  let gid := c.par 2 2
  match c.par 0 1 with
  | 0 => ({ s with fab := { s.fab with groups := upd gid (fun g => { g with tail := c.par 1 1, deadline := c.par 4 4 }) s.fab.groups } } : State).finishOk c.id 0
  | 1 =>
    let bs := (List.range (s.group gid).members.length).flatMap (fun r => (s.tailOf gid r).bytes)
    s.withDest c 8 bs (fun t => t.finishOk c.id 0)
  | 2 => ({ s with fab := { s.fab with tails := s.fab.tails.filter (fun t => t.group != gid) } } : State).finishOk c.id 0
  | _ => ((s.fab.held.filter (fun h => h.group == gid && h.slot == c.par 0x10 1)).foldl (fun t h => t.dropHeld h) s).finishOk c.id 0

def execTailPolicy (id : Nat) (s : State) : Out := s.deant id 0x0611 tailPolicyFields State.tailPolicy

end Sys2Proof.Machine
end

