-- ==== Sys2Proof/Machine/Pair.lean ====
section
/-! DEFINITION. The pair: binding, loss and unbinding, quenches, committed epochs and the orders of the partner (R274, R371 to
R378, R384, R398, R399). -/

namespace Sys2Proof.Machine

/-! ## Orders of masters other than allotments (R332) -/

/-- Numbers under which orders without an opcode of R313 stand in a round. -/
def opTier3 : Nat := 0xF001
def opReserve : Nat := 0xF002
def opUnbindOrder : Nat := 0xF003
def opKeys : Nat := 0xF004
def opFeedId : Nat := 0xF005
def opFlrVf : Nat := 0xF006
def opVfRemove : Nat := 0xF007
def opVTarget : Nat := 0xF008
def opTjLimit : Nat := 0xF009

/-- An order of a master without a command: a round of its own executes it where no order waits, else it is presented. DEDUCED
(log 34). -/
def State.lone (s : State) (m : Master) (op p : Nat) (body : State → Cmd → State) : State :=
  let c := { s.mgmtCmd op p with master := m }
  if m = .mgmt ∧ s.mgmtUp = false then s
  else if s.hg.arb = [] ∧ s.arbTakes op = true ∧ s.resetWaits c = false then body { s with hg := { s.hg with cmds := s.hg.cmds ++ [c], nextId := s.hg.nextId + 1 } } c
  else s.present c

/-! ## Port keys (R24, R346, R373) -/

/-- A key enters the port cipher of a bound long-reach port. dir 0 transmits. -/
def Port.setKey (x : Port) (dir key now : Nat) : Port :=
  if dir = 0 then { x with keyed := true, keyTx := key, invocTx := 0, keyTime := now }
  else { x with keyed := true, keyRx := key, invocRx := 0, keyTimeRx := now, tagRun := 0 }

/-- The key installation as the arbiter executes it: port, direction, key. -/
def State.keyOrder (s : State) (c : Cmd) : State :=
  let p := c.par 0 1
  if (s.port p).bound && (s.port p).isLong then (s.modPort p (fun x => x.setKey (c.par 1 1) (c.params / 65536) s.now)).finishOk c.id 0
  else s.reject c.id (.wrongState, 0)

def keyParams (port dir key : Nat) : Nat := port % 256 + 256 * (dir % 256) + 65536 * key

/-! ## Marks of the feeds (R374, R406) -/

/-- FEED_ID of both sides is compared while the pair is bound. -/
def State.feedMarks (s : State) : State :=
  if s.pair.bound then
    let x := s.mgt.feedInEffect
    let y := s.pair.partnerFeed
    let cm := x == y && x != 0
    let fu := x == 0 || y == 0
    let t : State := { s with pair := { s.pair with commonMode := cm, feedUnknown := fu } }
    let t1 := if cm then t.setCondAll .commonMode 1 else t.dropCondAll .commonMode
    if fu then t1.setCondAll .feedUnknown 1 else t1.dropCondAll .feedUnknown
  else s

/-- The pair is independent (R390). -/
def Pair.independent (p : Pair) : Bool := p.bound && !p.commonMode && !p.feedUnknown && !p.suspectFeed

/-! ## The lag (R383) -/

/-- Bytes of the log, map packets included. -/
def lagBytes (l : List LogPage) : Nat := 4104 * l.length

/-- Every stream tensor has a committed copy at the partner (R376). -/
def State.streamsCommitted (s : State) : Bool := s.allots.all (fun x => x.mir.tensors.all (fun t => t.inForce != 1 || t.committed))

/-- Every closed epoch of every allotment is committed. -/
def State.epochsDone (s : State) : Bool := s.allots.all (fun x => x.mir.epochs == [])

/-! ## Loss of the partner and unbinding (R276, R377, R378) -/

/-- Every tier-3 object is LOST. -/
def State.loseTier3 (s : State) : State :=
  let t := { s with allots := s.allots.map (fun x => { x with
    objs := x.objs.map (fun e => if e.2.tier = 3 then (e.1, { e.2 with lost := true }) else e) }) }
  allotNumbers.foldl (fun u a => if (u.al a).objs.any (fun e => e.2.lost) then u.setCond a .lostObjects 2 else u) t

/-- The ports are the pair's no longer, and their keys and the channels of the pair are gone (R333). -/
def Fabric.unbindPorts (f : Fabric) : Fabric :=
  { f with
    ports := f.ports.map (fun p => if p.bound then { p with bound := false, keyed := false, keyTx := 0, keyRx := 0 } else p)
    unacked := f.unacked.filter (fun x => decide (x.vc < 2))
    inbound := f.inbound.filter (fun x => decide (x.stream < 2 ^ 20))
    txSeq := f.txSeq.filter (fun e => decide (e.1 < 2 ^ 40)) }

/-- Every command held by the quench hold goes on where no storm hold holds it. -/
def State.resumeAll (s : State) : State := allotNumbers.foldl (fun t a => t.resumeHeld a) s

/-- The commands that need the partner are discarded with CAUSE 5 (R377). -/
def State.dropNeedy (s : State) (loss : Bool) : State :=
  let needy := s.hg.cmds.filter (fun c => c.phase == .working && (s.pair.quenchCmds.contains c.id ||
    (loss && (c.opcode == 0x0703 || c.opcode == 0x0711 || c.opcode == 0x0740))))
  needy.foldl (fun t c => t.discard c.id .discarded 0 5) s

/-- Moves into and out of tier 3 in progress: they have started and may touch their objects (R276). -/
def State.tier3Moves (s : State) : List Cmd :=
  s.hg.cmds.filter (fun c => c.master == .allot && c.opcode == 0x0203 && c.phase == .started && !c.waitSet && s.ready c &&
    (match s.obj? c.allot (c.par 0 4) with
     | some o => (o.tier == 3) != (bitsOf (c.par 4 1) 0 2 == 3)
     | none => false))

/-- Those moves end FAULT_CONTAINED, each object at its previous home. -/
def State.stopMoves (s : State) : State :=
  s.tier3Moves.foldl (fun t c => t.finish c.id .faultContained (discardDetail 0 5 false) 0) s

/-- The binding is removed. The copies of the other side stay in the mirror region. -/
def State.unbind (s : State) (loss : Bool) : State :=
  let owner := s.pair.partner
  let s1 := (((s.stopMoves).dropNeedy loss).uncharge 0 .mirrorLog).loseTier3
  let p := s1.pair
  let done := match p.cmd with
    | some i => s1.finishOk i 0
    | none => s1
  let s2 : State := { done with
    fab := done.fab.unbindPorts
    allots := done.allots.map (fun x => { x with mir := { x.mir with
      epochs := [], tensors := x.mir.tensors.map (fun t => { t with committed := false, todo := [] }) } })
    pair := { p with
      state := .unbound, before := .unbound, cmd := none, portA := 0, portB := 255, log := [], holdOpen := false, quenchCmds := []
      wantHold := false, syncStats := [], staged := [], expect := [], commonMode := false, feedUnknown := false, suspectFeed := false
      temperSync := false, partnerMirrorGib := 0, partnerUsed := 0, peerTier3 := 0, lostPartner := some owner
      partnerLosses := if loss then s.now :: p.partnerLosses else p.partnerLosses } }
  let s3 := (((s2.dropCondAll .commonMode).dropCondAll .feedUnknown).dropCondAll .suspectFeed).dropCondAll .suspended
  (if loss then s3.setCondAll .partnerLoss 2 else s3).resumeAll.settle

/-! ## Binding (R371 to R374) -/

/-- The port is one that can be bound (R372). -/
def State.bindable (s : State) (p : Nat) : Bool :=
  decide (p < if s.isX then 24 else 12) && (match (s.port p).mode with
    | .native => true
    | .longReach => true
    | .ethernet => false
    | .off => false)

def zeroOr (lo hi v : Nat) : Bool := v == 0 || inRange lo hi v

def pairBindFields (s : State) (c : Cmd) : List Fld :=
  [⟨0, 2, decide (c.par 0 2 < 16384)⟩, c.ranged 2 1 0 2, ⟨3, 1, c.late (s.bindable (c.par 3 1))⟩,
   ⟨4, 1, c.par 4 1 == 255 || (c.late (s.bindable (c.par 4 1)) && c.par 4 1 != c.par 3 1)⟩, c.ranged 5 1 0 3, c.ranged 6 1 0 8,
   c.ranged 8 4 0 512, ⟨0xC, 4, zeroOr 100 600000 (c.par 0xC 4)⟩, c.ranged 0x10 4 0 600000]

/-- PAIR_BIND: the pair waits for its match. -/
def State.pairBind (s : State) (c : Cmd) : State :=
  let n := orDefault (c.par 8 4) 256
  if s.pair.state ≠ .unbound then s.reject c.id (.wrongState, 0)
  else if s.fits 0 4 (n * gib) = false then s.reject c.id (.noResource, 0)
  else
    let t := s.charge 0 .mirrorLog 4 (n * gib)
    ({ t with pair := { t.pair with
      state := .binding, cmd := some c.id, partner := c.par 0 2, role := c.par 2 1, portA := c.par 3 1, portB := c.par 4 1
      temperSync := bitOf (c.par 5 1) 0, quenchHold := bitOf (c.par 5 1) 1, lagSteps := orDefault (c.par 6 1) 2, logGib := n
      pairTimeoutMs := orDefault (c.par 0xC 4) 10000, bindWaitMs := orDefault (c.par 0x10 4) 60000, since := t.now
      peerStores := [], peerReserved := [], staged := [], lostPartner := none } } : State).goOn c.id []

/-- PAIR_BIND, from allotment 0. -/
def execPairBind (id : Nat) (s : State) : Out := s.order (.cmd id) 0x0701 pairBindFields State.pairBind

/-- The waiting PAIR_BIND ends with a code, and the pair is UNBOUND. -/
def State.bindEnds (s : State) (code : Code) : State :=
  let t := match s.pair.cmd with
    | some i => s.finish i code 0 0
    | none => s
  { t.uncharge 0 .mirrorLog with pair := { t.pair with state := .unbound, cmd := none, portA := 0, portB := 255, temperSync := false } }

/-- BIND_WAIT_TIMEOUT: BIND_WAIT_MS have passed without a match (log 5). -/
def execBindWaitTimeout (s : State) : Out :=
  match s.pair.state with
  | .binding => .next ((s.passTo (s.pair.since + 1000000 * s.pair.bindWaitMs)).bindEnds .wrongState)
  | .unbound | .sync | .mirror | .suspended | .quenching | .quenched => .next s

/-- The partner's PAIR_BIND matches this module's (R371). -/
def State.matchesBind (s : State) (p : PartnerBind) : Bool :=
  let q := s.pair
  p.peer == q.partner && p.names == s.fab.self && orDefault p.lagSteps 2 == q.lagSteps && p.temperSync == q.temperSync &&
  ((p.role == 0 && q.role == 0) || (p.role == 1 && q.role == 2) || (p.role == 2 && q.role == 1))

/-- Port i is a bound port of the pair. -/
def Pair.hasPort (p : Pair) (i : Nat) : Bool := p.portA == i || (p.portB == i && p.portB != 255)

/-- A port enters the binding; a long-reach port gets the keys of both directions (R345, R373). dir 0 transmits. -/
def Port.bind (x : Port) : Port := { x with bound := true, keyed := false, tagRun := 0 }

/-- The keys of the bound long-reach ports, one for each direction, as orders of the management controller (R24). -/
def State.installKeys (s : State) (secret : Nat) : State :=
  ((List.range 24).filter (fun p => (s.port p).bound && (s.port p).isLong)).foldl (fun t p =>
    [0, 1].foldl (fun u dir => u.lone .mgmt opKeys (keyParams p dir (Config.portKey secret p dir)) State.keyOrder) t) s

/-- Pages of first epochs enter the log as far as it has room (R380, R400). -/
def State.fillTodo (s : State) (a : Nat) : State :=
  ((s.al a).mir.tensors.filter (fun m => m.todo != [])).foldl (fun u m =>
    let n := u.pair.logGib * gib / 4096 - u.pair.log.length
    (u.logPages a m (m.todo.take n)).modAl a (fun x => x.modMir m.handle (fun y => { y with todo := y.todo.drop n }))) s

/-- The same of every allotment. -/
def State.fillLog (s : State) : State := allotNumbers.foldl (fun t a => t.fillTodo a) s

/-- A tensor that enters the stream method sends all its pages (R380). -/
def State.sendAll (s : State) (a : Nat) (t : MirTensor) : State :=
  let n := ceilDiv (s.objD a t.handle).mirrorBytes 4096
  (s.modAl a (fun x => x.modMir t.handle (fun m => { m with committed := false, todo := List.range n }))).fillTodo a

/-- Every stream tensor of every allotment sends all its pages. -/
def State.sendStreams (s : State) : State :=
  allotNumbers.foldl (fun t a => ((t.al a).mir.tensors.filter (fun m => m.inForce == 1)).foldl (fun u m => u.sendAll a m) t) s

/-- The binding takes effect (R372, R373, R376). -/
def State.bindNow (s : State) (p : PartnerBind) : State :=
  let q := s.pair
  let s1 : State := { s with
    fab := { s.fab with ports := s.fab.ports.mapIdx (fun i x => if q.hasPort i then x.bind else x) }
    allots := s.allots.map (fun x => { x with mir := { x.mir with epochs := [], remote := none, remoteSnap := none } })
    pair := { q with
      state := .sync, cmd := none, since := s.now, partnerFeed := p.feedId, partnerVariant := p.variant, partnerMirrorGib := p.mirrorGib
      partnerRole := p.role, peerLogGib := orDefault p.logGib 256, log := [], acked := 0, syncStats := [], expect := []
      partnerUsed := 3 * sumN (s.allots.map Allot.mirroredBytes), suspectFeed := false, correlated := [], partnerLog := [] } }
  let s2 := (((s1.installKeys p.secret).dropCondAll .partnerLoss).feedMarks).sendStreams
  let res := p.feedId % 16 + 16 * b2n s2.pair.commonMode + 32 * b2n s2.pair.feedUnknown + (q.partner % 65536) * 2 ^ 8 + (p.variant % 256) * 2 ^ 24
  let s3 := match q.cmd with
    | some i => s2.finishOk i res
    | none => s2
  s3.pairPorts.settle

/-- MATCHING_PAIR_BIND: keys are established and the binding takes effect; a command that does not match changes nothing. -/
def execMatchingPairBind (p : PartnerBind) (s : State) : Out :=
  match s.pair.state with
  | .binding =>
    if s.matchesBind p then
      if p.mirrorGib * gib < s.pair.logGib * gib + 64 * mib then .next (s.bindEnds .noResource)
      else if p.keysOk then .next (s.bindNow p) else .next (s.bindEnds .authFailed)
    else .next s
  | .unbound | .sync | .mirror | .suspended | .quenching | .quenched => .next s

/-! ## Unbinding -/

def pairUnbindFields (_ : State) (c : Cmd) : List Fld := [c.ranged 0 1 0 1]

/-- An orderly unbind sends the partner its order once every closed epoch is committed, and ends when the partner is UNBOUND. aux: 1
once the order is sent. -/
def State.unbindGo (s : State) : State :=
  match s.pair.cmd with
  | none => s
  | some i =>
    if s.epochsDone && (s.cmd? i).any (fun c => c.opcode == 0x0702 && c.aux == []) then (s.goOn i [1]).sendMgmt 3 [] else s

/-- PAIR_UNBIND: at once, with the partner told, or once every closed epoch is committed and the partner is UNBOUND. -/
def State.pairUnbind (s : State) (c : Cmd) : State :=
  if s.pair.bound = false then s.reject c.id (.wrongState, 0)
  else if c.par 0 1 = 1 then ((s.sendMgmt 5 []).unbind false).finishOk c.id 0
  else (({ s with pair := { s.pair with cmd := some c.id } } : State).goOn c.id []).unbindGo

/-- PAIR_UNBIND, from allotment 0. -/
def execPairUnbind (id : Nat) (s : State) : Out := s.order (.cmd id) 0x0702 pairUnbindFields State.pairUnbind

/-- PAIR_TIMEOUT: PAIR_TIMEOUT_MS have passed in SUSPENDED with no port up (R376, log 5). -/
def execPairTimeout (s : State) : Out :=
  match s.pair.state with
  | .suspended => .next ((s.passTo (s.pair.since + 1000000 * s.pair.pairTimeoutMs)).unbind true)
  | .unbound | .binding | .sync | .mirror | .quenching | .quenched => .next s

/-- The partner's unbind order: the partner hears that this side is UNBOUND. -/
def State.unbindOrdered (s : State) (c : Cmd) : State :=
  if s.pair.bound then ((s.sendMgmt 4 []).unbind false).finishOk c.id 0 else s.reject c.id (.wrongState, 0)

/-- UNBIND_ORDER. -/
def execUnbindOrder (s : State) : Out := .next (s.lone .partner opUnbindOrder 0 State.unbindOrdered)

/-! ## Quenches (R398, R399) -/

/-- RESULT of a quench. -/
def State.quenchResult (s : State) (pushed us : Nat) : Nat :=
  (s.al 0).mir.epochCommitted % 2 ^ 64 + satTo (2 ^ 32 - 1) (pushed / mib) * 2 ^ 64 + satTo (2 ^ 32 - 1) us * 2 ^ 96

/-- The quench has committed: its state, attention and replies. -/
def State.quenchEnd (s : State) : State :=
  let p := s.pair
  let back : PairState := match p.before with
    | .suspended => .sync
    | .unbound | .binding | .sync | .mirror | .quenching | .quenched => p.before
  let t : State := { s with
    allots := s.allots.map (fun x => { x with mir := { x.mir with remote := x.mir.remote.map (fun r => s.seal { r with quenched := true }) } })
    pair := { p with
      state := if p.wantHold then .quenched else back
      holdOpen := p.holdOpen || p.wantHold, log := [], acked := p.acked + lagBytes p.log, quenchCmds := [], wantHold := false } }
  let res := t.quenchResult p.pushedBytes ((s.now - p.quenchAt) / 1000)
  (p.quenchCmds.foldl (fun u i => u.finishOk i res) (t.setCondAll .quenched 2)).settle

/-- The quench goes on as far as it can. -/
def State.quenchGo (s : State) : State :=
  match s.pair.state with
  | .quenching => if !s.pairPortUp then s.quenchFail.settle else if s.epochsDone then s.quenchEnd else s
  | .unbound | .binding | .sync | .mirror | .suspended | .quenched => s

/-- A snapshot transfer in progress is abandoned (R398). -/
def State.dropTransfers (s : State) : State :=
  { s with allots := s.allots.mapIdx (fun a x =>
      if s.hg.cmds.any (fun c => c.allot == a && c.opcode == 0x0711 && c.phase == .working) then { x with mir := { x.mir with snapOpen := none } }
      else x) }

/-- A quench for command id: it starts, joins one that runs, or finds the pair quenched. -/
def State.startQuench (s : State) (id : Nat) (hold : Bool) : State :=
  match s.pair.state with
  | .unbound | .binding => s.reject id (.wrongState, 0)
  | .quenched => s.finishOk id (s.quenchResult 0 0)
  | .quenching =>
    ({ s with pair := { s.pair with quenchCmds := s.pair.quenchCmds ++ [id], wantHold := s.pair.wantHold || hold } } : State).goOn id []
  | .sync | .mirror | .suspended =>
    let t := s.dropTransfers
    (({ t with pair := { t.pair with
      state := .quenching, before := t.pair.state, quenchCmds := [id], wantHold := hold, quenchAt := t.now
      pushedBytes := lagBytes t.pair.log } } : State).goOn id []).quenchGo

/-- QUENCH ACTION 1: the hold ends, and the pair is in SYNC or MIRROR again. -/
def State.releaseQuench (s : State) : State :=
  let t : State := { s with pair := { s.pair with
    holdOpen := false
    state := match s.pair.state with
      | .quenched => if s.streamsCommitted then .mirror else .sync
      | .unbound | .binding | .sync | .mirror | .suspended | .quenching => s.pair.state } }
  ((t.dropCondAll .quenched).pairPorts.resumeAll).settle

def quenchFields (_ : State) (c : Cmd) : List Fld := [c.ranged 0 1 0 1, c.ranged 1 1 0 1]

/-- A quench order. The hold of a SITE_ALARM_N quench is QUENCH_HOLD of PAIR_BIND. -/
def State.quench (s : State) (c : Cmd) : State :=
  if c.par 0 1 = 1 then
    if s.pair.bound then s.releaseQuench.finishOk c.id (s.quenchResult 0 0) else s.reject c.id (.wrongState, 0)
  else s.startQuench c.id (if c.master = .siteAlarm then s.pair.quenchHold else bitOf (c.par 1 1) 0)

/-- QUENCH, from allotment 0 or the management controller. -/
def execQuench (src : Src) (s : State) : Out := s.order src 0x0730 quenchFields State.quench

/-! ## Epochs (R382, R384) -/

/-- The temper records of closed epoch e stand: no STEP_MARK of the allotment is at work, or it closes a later epoch. -/
def State.markIdle (s : State) (a e : Nat) : Bool :=
  !s.hg.cmds.any (fun c => c.allot == a && c.opcode == 0x0410 && c.phase == .working) || decide (e < (s.temper a).step)

/-- What follows when an epoch commits at the partner: SYNC ends, a quench or an orderly unbind that waited goes on. -/
def State.afterEpoch (s : State) : State :=
  let t := match s.pair.state with
    | .sync => if s.streamsCommitted then { s with pair := { s.pair with state := .mirror } } else s
    | .unbound | .binding | .mirror | .suspended | .quenching | .quenched => s
  t.quenchGo.unbindGo

/-- The partner has committed epoch e of this module's allotment a. -/
def State.epochMine (s : State) (a e : Nat) : State :=
  match (s.al a).mir.epochs with
  | [] => s
  | x :: r =>
    if x.id = e then
      let y := s.seal { x with quenched := s.pair.state == .quenching && r == [] }
      let gone := s.pair.log.filter (fun p => p.allot == a && decide (p.epoch ≤ e))
      let t := s.modAl a (fun z => { z with mir := { z.mir with
        epochs := r, epochCommitted := e, remote := some y
        tensors := z.mir.tensors.map (fun m =>
          if y.tensors.any (fun d => d.mirrorId == m.mirrorId && d.method == 1 && d.copyStep == e) then
            { m with committed := true, copyStep := e }
          else m) } })
      ({ t with pair := { t.pair with
        log := t.pair.log.filter (fun p => !(p.allot == a && decide (p.epoch ≤ e))), acked := t.pair.acked + lagBytes gone } } : State).afterEpoch
    else s

/-- The partner's store of a kind and allotment in the mirror region. -/
def Pair.peerStore (p : Pair) (kind a : Nat) : Option Store := p.peerStores.find? (fun x => x.kind == kind && x.allot == a)

/-- The bytes of a tensor in a store. -/
def Store.dataOf (x : Option Store) (mirrorId : Nat) : Bytes :=
  match x with
  | some y => match y.tensors.find? (fun t => t.mirrorId == mirrorId) with
    | some t => t.data
    | none => []
  | none => []

/-- The copy of a tensor of the partner after the staged pages of epochs up to the store's step are applied (R384, R389). chunks: those
that came with a snapshot, with their MIRROR_ID and number. -/
def Pair.appliedCopy (p : Pair) (x : Store) (chunks : List (Nat × Nat × List Byte)) (t : StoredTensor) : Bytes :=
  let base := Store.dataOf (p.peerStore (if t.method = 1 then 1 else 0) x.allot) t.mirrorId
  let d := (p.staged.filter (fun g => g.allot == x.allot && g.mirrorId == t.mirrorId && decide (g.epoch ≤ x.step))).foldl
    (fun d g => cellWrite d (4096 * g.page) g.data) base
  (chunks.filter (fun e => e.1 == t.mirrorId)).foldl (fun d e => cellWrite d (mib * e.2.1) e.2.2) d

/-- A store of the partner can be committed: every page of its epoch and of the earlier ones that a map packet announced has arrived,
and it is later than the one that stands (R384). -/
def State.canCommit (s : State) (x : Store) : Bool :=
  s.pair.expect.all (fun e => !(e.1 == x.allot && decide (e.2.1 ≤ x.id))) &&
    (s.pair.peerStore x.kind x.allot).all (fun y => decide (y.id < x.id))

/-- The partner's record x is written and committed, the partner hears of it, and the staged pages are applied; a standby takes its
temper records. -/
def State.epochTheirs (s : State) (x : Store) (chunks : List (Nat × Nat × List Byte)) : State :=
  let p := s.pair
  let y : Store := { x with committed := true, tensors := x.tensors.map (fun t =>
    let d := p.appliedCopy x chunks t
    { t with data := d, chunks := chunkDigests d t.bytes }) }
  let t : State := { s with pair := { p with
    peerStores := p.peerStores.filter (fun z => !(z.kind == x.kind && z.allot == x.allot)) ++ [y]
    staged := if x.kind = 1 then p.staged.filter (fun g => !(g.allot == x.allot && decide (g.epoch ≤ x.step))) else p.staged } }
  let u := if p.role = 2 ∧ x.kind = 1 ∧ (t.al x.allot).live = true then t.restoreTemper x.allot x.temper else t
  u.sendMgmt 2 (leBytes x.kind 1 ++ leBytes x.allot 1 ++ zeros 5 ++ leBytes x.id 8)

/-- EPOCH_COMMIT: of an epoch of this module, or, with its record, of one of the partner's. -/
def execEpochCommit (mine : Bool) (allot epoch : Nat) (record : Wire) (s : State) : Out :=
  if s.pair.bound ∧ s.pairPortUp then
    if mine then
      if s.markIdle allot epoch then .next (s.epochMine allot epoch) else .next s
    else
      let x := storeOf record
      if x.allot = allot ∧ x.id = epoch ∧ allot < 16 ∧ s.canCommit x = true then .next (s.epochTheirs x [])
      else .next s
  else .next s

/-! ## Orders of the partner (R274, R379) -/

/-- n more bytes fit in the mirror region. -/
def State.mirrorRoom (s : State) (n : Nat) : Bool := decide (s.mirrorHeld + n ≤ s.dev.mirrorGib * gib)

/-- A tier-3 allocation of the partner. -/
def State.tier3Order (s : State) (c : Cmd) : State :=
  let n := c.params
  if s.pair.bound = false then s.reject c.id (.wrongState, 0)
  else if s.mirrorRoom n then ({ s with pair := { s.pair with peerTier3 := s.pair.peerTier3 + n } } : State).finishOk c.id 0
  else s.reject c.id (.noResource, 0)

/-- TIER3_ALLOCATION. -/
def execTier3Allocation (bytes : Nat) (s : State) : Out := .next (s.lone .partner opTier3 bytes State.tier3Order)

/-- Allotment, MIRROR_ID and bytes of a reservation order. -/
def reserveParams (allot mirrorId bytes : Nat) : Nat := allot % 2 ^ 32 + (mirrorId % 2 ^ 32) * 2 ^ 32 + bytes * 2 ^ 64

/-- A reservation of three times a tensor's size; 0 bytes gives it back. -/
def State.reserveOrder (s : State) (c : Cmd) : State :=
  let key := c.params % 2 ^ 64
  let n := 3 * (c.params / 2 ^ 64)
  let old := lookN key s.pair.peerReserved
  if s.pair.bound = false then s.reject c.id (.wrongState, 0)
  else if n ≤ old ∨ s.mirrorRoom (n - old) = true then
    ({ s with pair := { s.pair with peerReserved := putN key n s.pair.peerReserved } } : State).finishOk c.id 0
  else s.reject c.id (.noResource, 0)

/-- MIRROR_RESERVATION. -/
def execMirrorReservation (allot mirrorId bytes : Nat) (s : State) : Out :=
  .next (s.lone .partner opReserve (reserveParams allot mirrorId bytes) State.reserveOrder)

end Sys2Proof.Machine
end

