-- ==== Sys2Proof/Machine/Ports.lean ====
section
/-! DEFINITION. Lanes and G-ports, PEER_MAP and ROUTE_REWRITE, streams, port keys, and the comparison of brown-out logs (R339,
R340, R345 to R355, R375). -/

namespace Sys2Proof.Machine

/-! ## Lanes (R339) -/

def portCount (s : State) : Nat := if s.isX then 24 else 12

/-- The first lane of a port. -/
def firstLane (p : Nat) : Nat := if p < 12 then 4 * p else 52 + 4 * (p - 12)

def lanesOf (p : Nat) : List Nat := (List.range 4).map (firstLane p + ·)

/-- The spare lanes of a port's lane group. -/
def sparesOf (p : Nat) : List Nat := (List.range 4).map ((if p < 12 then 48 else 100) + ·)

/-- A lane that failed or is fenced. -/
def State.laneOut (s : State) (l : Nat) : Bool := s.fab.lanesFailed.contains l || s.flt.lanesFenced.contains l

/-- A lane of a port works, or a spare works in its place. -/
def State.laneServed (s : State) (l : Nat) : Bool := !s.laneOut l || s.fab.spareUse.any (fun e => e.2 == l && !s.laneOut e.1)

/-- The lanes of a port in service. -/
def State.lanesUp (s : State) (p : Nat) : Nat := ((lanesOf p).filter s.laneServed).length

/-- A lane that is out takes the lowest free spare of its group. -/
def State.spareOne (s : State) (p l : Nat) : State :=
  if s.laneServed l then s
  else match (sparesOf p).find? (fun x => !s.laneOut x && (look x s.fab.spareUse).isNone) with
    | some x => { s with fab := { s.fab with spareUse := put x l s.fab.spareUse } }
    | none => s

/-- Spares whose lane is back in service, or that are out themselves, serve no lane. -/
def State.freeSpares (s : State) : State :=
  { s with fab := { s.fab with spareUse := s.fab.spareUse.filter (fun e => !s.laneOut e.1 && s.laneOut e.2) } }

/-- The lanes of port p that are out get spares (R339). -/
def State.spareLanes (s : State) (p : Nat) : State := (lanesOf p).foldl (fun u l => u.spareOne p l) s.freeSpares

/-! ## Training (R340, R342) -/

/-- Port p retrains: its paths are unusable until it returns. -/
def State.retrain (s : State) (p : Nat) : State :=
  s.modPort p (fun x => { x with up := false, training := true, trainAt := s.now, replay := [], waiting := [], assembling := [] })

/-- Port p comes up: counters restart, and packets that waited go out (R342, R370). -/
def State.portUp (s : State) (p : Nat) : State :=
  ((s.modPort p (fun x => { x with
    up := true, training := false, replay := [], waiting := [], txSeq := 0, rxSeq := 0, nak := false, assembling := [], broken := false, tagRun := 0
    aliveTx := [0, 0], aliveRx := [0, 0] })).pairPorts).pump

/-- PORT_TRAINED: the lanes that failed get spares; the port comes up with three lanes or four. DEDUCED (log 39). -/
def execPortTrained (port : Nat) (failedLanes : List Nat) (s : State) : Out :=
  let x := s.port port
  if !x.training || s.flt.portsFenced.contains port then .next s
  else
    let bad := (sortN failedLanes).filter (fun l => ((lanesOf port).contains l || (sparesOf port).contains l) && !s.fab.lanesFailed.contains l)
    let s1 : State := { s with fab := { s.fab with lanesFailed := sortN (s.fab.lanesFailed ++ bad) } }
    let s2 := (bad.foldl (fun t l => t.unitFails (laneUnit l) (0x5000 + 312 + l)) s1).spareLanes port
    if 3 ≤ s2.lanesUp port then .next ((s2.portUp port).fabricGo.settle) else .next s2

/-- REPLAY_LIMIT: a frame was sent 16 times without acknowledgement, and the port retrains. -/
def execReplayLimit (port : Nat) (s : State) : Out :=
  if (s.port port).up && (s.port port).replay.any (fun f => decide (16 ≤ f.sends)) then
    .next ((s.retrain port).raise (0x5000 + 0x200 + 8 * port + 2)).settle
  else .next s

/-- PORT_RETRAIN_TIMEOUT: the port has not returned within 100 ms and is down. -/
def execPortRetrainTimeout (port : Nat) (s : State) : Out :=
  let x := s.port port
  if x.training then
    .next (((s.passTo (x.trainAt + 100000000)).portDown port).raise (0x5000 + 0x200 + 8 * port)).settle
  else .next s

/-! ## Groups and routes (R347, R351, R352) -/

/-- A path word (R347): fields, reserved bits, a port that the part has; a native port has a fabric address of 24 bits. -/
def State.pathOk (s : State) (w : Nat) : Bool :=
  bitsOf w 6 2 == 0 && bitsOf w 56 8 == 0 && decide (bitsOf w 0 5 < portCount s) &&
    ((s.port (bitsOf w 0 5)).isEthernet || bitsOf w 32 24 == 0)

def pathOf (w : Nat) : Path := { port := bitsOf w 0 5, valid := bitOf w 5, addr := bitsOf w 8 48 }

def Path.word (p : Path) : Nat := p.port + 32 * b2n p.valid + 256 * p.addr

/-- A route entry of 32 bytes, as a number. -/
def routeOf (e epoch : Nat) : Route :=
  { valid := fieldOf e 0 1 == 1, npath := fieldOf e 1 1, epoch := epoch, paths := (List.range 3).map (fun i => pathOf (fieldOf e (8 + 8 * i) 8)) }

def State.routeOk (s : State) (e : Nat) : Bool :=
  decide (fieldOf e 0 1 ≤ 1) && (if fieldOf e 0 1 = 1 then inRange 1 3 (fieldOf e 1 1) else decide (fieldOf e 1 1 ≤ 3)) &&
    fieldOf e 2 2 == 0 && fieldOf e 4 4 == 0 && (List.range 3).all (fun i => s.pathOk (fieldOf e (8 + 8 * i) 8))

def Route.bytes (r : Route) : List Byte :=
  leBytes (b2n r.valid) 1 ++ leBytes r.npath 1 ++ zeros 2 ++ leBytes r.epoch 4 ++ (List.range 3).flatMap (fun i => leBytes ((r.paths.getD i {}).word) 8)

def State.route (s : State) (p : Nat) : Route := (look p s.fab.routes).getD {}

/-- The routing entry is valid. -/
def State.routeValid (s : State) (p : Nat) : Bool := (s.route p).valid

/-- An open stream goes to the peer. -/
def State.streamTo (s : State) (p : Nat) : Bool := s.fab.streams.any (fun e => e.2.peer == p && !e.2.gone)

/-- Member entries of a list (R351). -/
def memberOf (b : List Byte) : Nat × Nat := (bitsOf (leNat b) 0 14, bitsOf (leNat b) 14 4)

/-- The index of the first member entry that R351 does not allow, or the length where the module is not named. -/
def State.badMember (s : State) (bs : List Byte) : Option Nat :=
  let es := recordsOf 4 bs
  let ms := es.map memberOf
  let bad := (es.zipIdx).find? (fun e =>
    let m := memberOf e.1
    bitsOf (leNat e.1) 18 14 != 0 || ((ms.take e.2).any (fun x => x.1 == m.1)) || (m.1 != s.fab.self && !s.routeValid m.1))
  match bad with
  | some e => some e.2
  | none => if ms.any (fun m => m.1 == s.fab.self) then none else some (es.length - 1)

/-- A group has a collective or a stream in progress. -/
def State.groupBusy (s : State) (g : Nat) : Bool :=
  s.fab.colls.any (fun x => x.group == g) || s.fab.streams.any (fun e => e.2.group == g && !e.2.gone)

/-- A group leaves, with its held contributions, counts and collective streams (R366). -/
def State.dropGroup (s : State) (g : Nat) : State :=
  let t := (s.fab.held.filter (fun h => h.group == g)).foldl (fun u h => u.dropHeld h) s
  let mine (n : Nat) : Bool := streamGroup n == g
  { t with fab := { t.fab with
    groups := del g t.fab.groups
    tails := t.fab.tails.filter (fun x => x.group != g)
    opens := t.fab.opens.filter (fun x => x.1 != g)
    aborts := t.fab.aborts.filter (fun x => x.1 != g)
    refused := t.fab.refused.filter (fun x => x.1 != g)
    unacked := t.fab.unacked.filter (fun x => !(x.vc == 0 && mine x.own))
    inbound := t.fab.inbound.filter (fun x => !mine x.stream)
    txSeq := t.fab.txSeq.filter (fun e => !mine (e.1 % 131072)) } }

/-! ## PEER_MAP (R352) -/

def peerMapFields (s : State) (c : Cmd) : List Fld :=
  let kind := c.par 0 1
  let what := c.par 0x10 1
  let port := c.par 0x10 1
  let raw (n : Nat) : Fld := ⟨8, 8, c.late (s.rawRefOk c.allot (c.par 8 8) n)⟩
  let refZero : Fld := ⟨8, 8, c.par 8 8 == 0⟩
  c.ranged 0 1 0 5 ::
  (match kind with
   | 0 => [refZero, ⟨0x10, 2, decide (c.par 0x10 2 < 16384)⟩, anyVal 0x12 2, c.ranged 0x14 1 1 64, c.ranged 0x16 2 1 10000, c.ranged 0x18 2 1 10000,
           anyVal 0x1A 2]
   | 1 => [raw (32 * c.par 0x12 2), ⟨0x10, 2, decide (c.par 0x10 2 < 16384)⟩, ⟨0x12, 2, decide (c.par 0x10 2 + c.par 0x12 2 ≤ 16384)⟩]
   | 2 =>
     let n := c.par 0x14 2
     let adds := n != 0
     [if adds then raw (4 * n) else anyVal 8 8, c.ranged 0x10 2 1 4095, ⟨0x12, 1, !adds || (decide (c.par 0x12 1 < 16) && c.late (s.al (c.par 0x12 1)).live)⟩,
      ⟨0x14, 2, n == 0 || inRange 2 16384 n⟩, ⟨0x16, 1, !adds || inRange 1 3 (c.par 0x16 1)⟩, anyVal 0x18 4]
   | 3 => refZero :: (List.range 5).map (fun k =>
       let w := c.par (0x10 + 2 * k) 2
       ⟨0x10 + 2 * k, 2, bitsOf w 9 7 == 0 && (if k = 2 ∨ k = 3 then inRange 1 127 (bitsOf w 2 7) else bitsOf w 2 7 == 0)⟩)
   | 4 => [refZero, ⟨0x10, 1, decide (port < portCount s)⟩, c.ranged 0x11 1 0 3, c.ranged 0x12 1 0 2, c.ranged 0x13 1 0 2]
   | _ =>
     let n := if what = 0 then 32 * c.par 0x14 2 else 16 * 24
     [raw n, c.ranged 0x10 1 0 1, ⟨0x12, 2, what != 0 || decide (c.par 0x12 2 < 16384)⟩,
      ⟨0x14, 2, what != 0 || decide (c.par 0x12 2 + c.par 0x14 2 ≤ 16384)⟩])

/-- KIND 1: route entries. -/
def State.mapRoutes (s : State) (c : Cmd) : State :=
  let es := (recordsOf 32 (s.readRef c.allot (c.par 8 8) 1 (32 * c.par 0x12 2))).map leNat
  let first := c.par 0x10 2
  match (es.zipIdx).find? (fun e => !s.routeOk e.1) with
  | some e => s.reject c.id (badIn e.2)
  | none =>
    let new (i e : Nat) : Route := routeOf e (s.route (first + i)).epoch
    if (es.zipIdx).any (fun e => s.routeValid (first + e.2) && s.streamTo (first + e.2) && new e.2 e.1 != s.route (first + e.2)) then
      s.reject c.id (.wrongState, 0)
    else
      (({ s with fab := { s.fab with routes := (es.zipIdx).foldl (fun m e => put (first + e.2) (new e.2 e.1) m) s.fab.routes } } : State).pump).finishOk c.id 0

/-- KIND 2: a group is defined, or removed with SIZE 0. -/
def State.mapGroup (s : State) (c : Cmd) : State :=
  let gid := c.par 0x10 2
  let n := c.par 0x14 2
  let bs := s.readRef c.allot (c.par 8 8) 1 (4 * n)
  let others := s.fab.groups.filter (fun e => e.1 != gid)
  if n = 0 then (if s.groupBusy gid then s.reject c.id (.wrongState, 0) else (s.dropGroup gid).finishOk c.id 0)
  else match s.badMember bs with
    | some i => s.reject c.id (badIn i)
    | none =>
      if 1048576 < sumN (others.map (fun e => e.2.members.length)) + n then s.reject c.id (.noResource, 0)
      else if s.groupBusy gid then s.reject c.id (.wrongState, 0)
      else
        let t := s.dropGroup gid
        let g : Group := { allot := c.par 0x12 1, members := (recordsOf 4 bs).map memberOf, tail := c.par 0x16 1, deadline := c.par 0x18 4
                           digest := w32 ((polyOf 2).check bs) }
        ({ t with fab := { t.fab with groups := put gid g t.fab.groups } } : State).finishOk c.id 0

/-- KIND 4: a port's mode; the port retrains (R340, R345). -/
def State.mapPort (s : State) (c : Cmd) : State :=
  let p := c.par 0x10 1
  let x := s.port p
  let mode : PortMode := match c.par 0x11 1 with
    | 0 => .native
    | 1 => .longReach
    | 2 => .ethernet
    | _ => .off
  let longs := ((List.range 24).filter (fun q => q != p && (s.port q).isLong)).length
  let takes := mode == .longReach && !x.isLong
  if x.bound then s.reject c.id (.wrongState, 0)
  else if takes && (decide (4 ≤ longs) || !s.reservesMetWithout 2 (256 * mib)) then s.reject c.id (.noResource, 0)
  else
    let t := s.modPort p (fun y => { y with mode := mode, phy := c.par 0x12 1, medium := c.par 0x13 1 })
    let u : State := { t with dev := { t.dev with lrWindows := longs + b2n (mode == .longReach) } }
    let v := if mode = .off then u.modPort p (fun y => { y with up := false, training := false, replay := [], waiting := [], assembling := [] }) else u.retrain p
    v.finishOk c.id 0

/-- The status record of a port: one 32-bit word and three counts. -/
def State.portRecord (s : State) (p : Nat) : List Byte :=
  let x := s.port p
  let m := match x.mode with
    | .native => 0
    | .longReach => 1
    | .ethernet => 2
    | .off => 3
  leBytes (m + 4 * b2n x.up + 8 * b2n x.bound + 16 * (if p < portCount s then s.lanesUp p else 0)) 4 ++ leBytes x.framesLost 4 ++ leBytes x.misdirected 4 ++ leBytes x.checkFails 4

/-- PEER_MAP as the arbiter executes it. -/
def State.peerMap (s : State) (c : Cmd) : State :=
  match c.par 0 1 with
  | 0 =>
    if s.fab.streams != [] || s.fab.groups != [] then s.reject c.id (.wrongState, 0)
    else ({ s with fab := { s.fab with
      self := c.par 0x10 2, domain := c.par 0x12 2, retryLimit := c.par 0x14 1, peerTimeoutMs := c.par 0x16 2, lrTimeoutMs := c.par 0x18 2
      ethertype := c.par 0x1A 2 } } : State).finishOk c.id 0
  | 1 => s.mapRoutes c
  | 2 => s.mapGroup c
  | 3 => ({ s with fab := { s.fab with classes := (List.range 5).map (fun k =>
      { poly := bitsOf (c.par (0x10 + 2 * k) 2) 0 2, window := bitsOf (c.par (0x10 + 2 * k) 2) 2 7 }) } } : State).finishOk c.id 0
  | 4 => s.mapPort c
  | _ =>
    let bs := if c.par 0x10 1 = 0 then (List.range (c.par 0x14 2)).flatMap (fun i => (s.route (c.par 0x12 2 + i)).bytes)
      else (List.range 24).flatMap s.portRecord
    s.withDest c 8 bs (fun t => t.finishOk c.id 0)

/-- A list that the order reads meets poison, or the order is executed. -/
def State.peerMapRead (s : State) (c : Cmd) : State :=
  let n := match c.par 0 1 with
    | 1 => 32 * c.par 0x12 2
    | 2 => 4 * c.par 0x14 2
    | _ => 0
  match s.poisonOf (if n = 0 then [] else [(c.allot, refHandle (c.par 8 8), bitsOf (c.par 8 8) 32 32, n)]) with
  | some p => s.meetPoison c p
  | none => s.peerMap c

def execPeerMap (id : Nat) (s : State) : Out := s.orderReady (.cmd id) 0x0601 peerMapFields State.peerMapRead

/-! ## ROUTE_REWRITE (R350) -/

def routeRewriteFields (s : State) (c : Cmd) : List Fld :=
  [⟨0, 2, decide (c.par 0 2 < 16384) && c.late (c.par 0 2 != s.fab.self)⟩, ⟨8, 1, c.par 8 1 == 1⟩, c.ranged 9 1 1 3, c.mustBe0 0xC 4] ++
  (List.range 3).map (fun i => ⟨0x10 + 8 * i, 8, c.late (s.pathOk (c.par (0x10 + 8 * i) 8))⟩)

/-- A stream leaves the table; its index is used again under another reuse count. -/
def State.freeStream (s : State) (i : Nat) : State :=
  { s with fab := { s.fab with
    streams := del i s.fab.streams, rtts := s.fab.rtts.filter (fun e => e.1 % 524288 != i + 131072), streamReuse := putN i ((lookN i s.fab.streamReuse + 1) % 2 ^ 15) s.fab.streamReuse } }

/-- Every stream to a peer is reset: the packets in both directions, the matches that wait and the numbers (R350). -/
def State.resetPeer (s : State) (p : Nat) : State :=
  let mine := (s.fab.streams.filter (fun e => e.2.peer == p)).map (·.1)
  let t := mine.foldl (fun u i => u.freeStream i) (s.failStreams p)
  { t with fab := { t.fab with
    unacked := t.fab.unacked.filter (fun x => x.peer != p || decide (2 ≤ x.vc))
    opens := t.fab.opens.filter (fun o => ((t.group o.1).members.getD o.2.1 (p, 0)).1 != p)
    inbound := (t.fab.inbound.filter (fun x => x.peer != p || decide (2 ^ 20 ≤ x.stream) || x.msgs.any Msg.whole)).map (fun x =>
      if x.peer = p ∧ x.stream < 2 ^ 20 then { x with rxSeq := 0, early := [], msgs := x.msgs.filter Msg.whole } else x)
    txSeq := t.fab.txSeq.filter (fun e => e.1 / 131072 != p)
    rtts := t.fab.rtts.filter (fun e => e.1 / 524288 != p)
    refused := t.fab.refused.filter (fun e => !(t.group e.1).members.any (fun m => m.1 == p))
    aborts := t.fab.aborts.filter (fun e => e.2.2.1 != p)
    peersDown := without p t.fab.peersDown } }

/-- ROUTE_REWRITE as the arbiter executes it. -/
def State.routeRewrite (s : State) (c : Cmd) : State :=
  let p := c.par 0 2
  let n := (s.fab.streams.filter (fun e => e.2.peer == p && !e.2.gone)).length
  let k := (s.collsWith p).length + (s.normsWith p).length
  let r := routeOf (c.par 8 32) ((s.route p).epoch + 1)
  let t : State := { s with fab := { s.fab with routes := put p r s.fab.routes } }
  (((t.resetPeer p).loseMember p 0x5300).pump).finishOk c.id (n + k * 2 ^ 32)

def execRouteRewrite (id : Nat) (s : State) : Out := s.order (.cmd id) 0x0602 routeRewriteFields State.routeRewrite

/-! ## Streams (R355) -/

/-- The peer of a rank. -/
def Group.peerAt (g : Group) (r : Nat) : Nat := (g.members.getD r (16384, 0)).1

def streamOpenFields (s : State) (c : Cmd) : List Fld :=
  let g := s.group (c.par 0 2)
  [⟨0, 2, s.groupOk c.allot (c.par 0 2)⟩, ⟨2, 2, decide (c.par 2 2 < g.members.length) && g.peerAt (c.par 2 2) != s.fab.self⟩,
   ⟨4, 4, !s.fab.streams.any (fun e => e.2.group == c.par 0 2 && e.2.rank == c.par 2 2 && e.2.channel == c.par 4 4 && !e.2.gone)⟩]

/-- Stream indices in use: of streams, and of closed ones whose packets are not acknowledged yet. -/
def Fabric.streamsUsed (f : Fabric) : List Nat := f.streams.map (·.1) ++ (f.unacked.filter (fun x => x.vc == 1)).map (·.own)

/-- The stream index that the module assigns. -/
def Fabric.newStream (f : Fabric) : Nat := pickFree 2 0 131071 f.streamsUsed

/-- The data of an open or of the close of a stream without a match: GROUP, RANK, CHANNEL, the sender's index (log 38). -/
def openData (group rank channel index : Nat) : List Byte := leBytes group 2 ++ leBytes rank 2 ++ leBytes channel 4 ++ leBytes index 4

/-- STREAM_OPEN judged: the stream exists, and the member is told. -/
def State.streamOpen (s : State) (c : Cmd) (i : Nat) : State :=
  let gid := c.par 0 2
  let g := s.group gid
  let r := c.par 2 2
  let ch := c.par 4 4
  let peer := g.peerAt r
  let reuse := lookN i s.fab.streamReuse
  let far := (s.fab.opens.find? (fun o => o.1 == gid && o.2.1 == r && o.2.2.1 == ch)).map (fun o => o.2.2.2)
  let x : Stream := { reuse := reuse, allot := c.allot, group := gid, rank := r, peer := peer, channel := ch, far := far }
  let t : State := { s with fab := { s.fab with
    streams := put i x s.fab.streams
    opens := s.fab.opens.filter (fun o => !(o.1 == gid && o.2.1 == r && o.2.2.1 == ch)) } }
  (t.enqueue [{ vc := 1, peer := peer, own := i, allot := c.allot, far := g.allotOf peer, seq := 0, kind := 3, sig := g.digest
                data := openData gid r ch i, served := some c.id }]).finishOk c.id (i + reuse * 2 ^ 17)

/-- STREAM_OPEN. The index is the module's own pick (R32): the row's operand has no effect. -/
def execStreamOpen (id _index : Nat) (s : State) : Out :=
  s.deant id 0x0620 streamOpenFields (fun t c => if t.streamsTaken < 131072 then t.streamOpen c t.fab.newStream else t.reject id (.noResource, 0))

def streamCloseFields (s : State) (c : Cmd) : List Fld := [⟨0, 4, (s.stream? c.allot (c.par 0 4)).isSome⟩]

/-- A SEND or RECV on the stream, accepted before the command, has not completed. -/
def State.streamBusy (s : State) (c : Cmd) : Bool :=
  (s.earlier c).any (fun d => d.opcode == 0x0610 && decide (5 ≤ d.cOp) && d.par 0x34 4 == c.par 0 4)

/-- The stream is closed on this side by a command: the member is told. -/
def State.closeStream (s : State) (served : Option Nat) (i : Nat) : State :=
  match look i s.fab.streams with
  | none => s
  | some x => (s.modStream i (fun y => { y with gone := true })).sendStream served i x [(4, if x.far.isSome then [] else openData x.group x.rank x.channel i)]

def execStreamClose (id : Nat) (s : State) : Out :=
  match s.fresh? id 0x0621 with
  | none => .next s
  | some c => if s.streamBusy c then .next s
    else s.deant id 0x0621 streamCloseFields (fun t d => (t.closeStream (some id) (bitsOf (d.par 0 4) 0 17)).finishOk id 0)

/-! ## Port keys (R24, R346, R373) -/

/-- KEY_INSTALLATION: the security engine's key crosses as an order of the management controller. -/
def execKeyInstallation (port dir key : Nat) (s : State) : Out := .next (s.lone .mgmt opKeys (keyParams port dir key) State.keyOrder)

/-- KEY_ROTATION: after 2^40 invocations or 24 hours a new key is derived and installed. -/
def execKeyRotation (port dir secret : Nat) (s : State) : Out :=
  let x := s.port port
  if !(x.bound && x.isLong && x.keyed) then .next s
  else
    let n := if dir = 0 then x.invocTx else x.invocRx
    let t := if 2 ^ 40 ≤ n then s else s.passTo ((if dir = 0 then x.keyTime else x.keyTimeRx) + 24 * 3600 * 1000000000)
    .next (t.lone .mgmt opKeys (keyParams port dir (Config.portKey secret port dir)) State.keyOrder)

/-! ## Comparison of brown-out logs (R375) -/

/-- The local times of the module's brown-outs that lie within 20 ms of one of the partner's. -/
def State.correlates (s : State) (log : List BrownOut) : List Nat :=
  let off := ((look s.pair.partner s.fab.offsets).getD {}).offset
  let theirs := (log.filter (fun e => e.kind != 2)).map (fun e => (e.time : Int) - off)
  ((s.mgt.brownLog.filter (fun e => e.kind != 2)).map (·.time)).filter (fun t => theirs.any (fun x => decide ((x - t).natAbs ≤ 20000000)))

/-- BROWN_OUT_LOG_EXCHANGE: two correlated events within 30 days mark the pair SUSPECT_FEED. -/
def execBrownOutLogExchange (log : List BrownOut) (s : State) : Out :=
  if s.pair.bound then
    let cs := s.correlates log
    let all := sortN (s.pair.correlated ++ cs)
    let new := cs.filter (fun t => !s.pair.correlated.contains t)
    let marks := new.any (fun t => all.any (fun u => u != t && decide ((max t u) - (min t u) ≤ 30 * 86400 * 1000000000)))
    let u : State := { s with pair := { s.pair with partnerLog := log, correlated := all, suspectFeed := s.pair.suspectFeed || marks } }
    .next (if marks then u.setCondAll .suspectFeed 1 else u).settle
  else .next s

end Sys2Proof.Machine
end

