-- ==== Sys2Proof/Machine/Snap.lean ====
section
/-! DEFINITION. Mirrored tensors, snapshots and the snapshot interval (R379 to R381, R388 to R392). -/

namespace Sys2Proof.Machine

/-! ## The snapshot interval (R390, R391) -/

/-- A positive FP32 number as a fraction. -/
def fracOf32 (w : W32) : Nat × Nat :=
  match dec32 w with
  | .fin _ m e => if 0 ≤ e then (m * 2 ^ e.toNat, 1) else (m, 2 ^ (-e).toNat)
  | .inf _ => (0, 1)
  | .nan _ => (0, 1)

/-- T in nanoseconds: the power-on time, at most 720 hours. -/
def State.windowNs (s : State) : Nat := min s.now (720 * 3600 * 1000000000)

/-- n: contained and fatal faults of this module and losses of its partner within T. -/
def State.lossCount (s : State) : Nat :=
  ((s.flt.losses ++ s.pair.partnerLosses).filter (fun t => decide (s.now ≤ t + s.windowNs))).length

/-- M in seconds, as a fraction: 3,600 / (λ + n / T). -/
def State.meanTime (s : State) : Nat × Nat :=
  let l := fracOf32 s.pair.fleetRate
  let t := s.windowNs
  let hour := 3600 * 1000000000
  (3600 * l.2 * t, l.1 * t + s.lossCount * hour * l.2)

/-- M where no time has passed yet: λ alone. -/
def State.meanFrac (s : State) : Nat × Nat :=
  if s.windowNs = 0 ∧ s.lossCount = 0 then let l := fracOf32 s.pair.fleetRate; (3600 * l.2, l.1) else s.meanTime

/-- c in microseconds, as a fraction: the last measured cost, or the size of the mirrored tensors at 768 GB/s. -/
def State.costFrac (s : State) (a : Nat) : Nat × Nat :=
  match (s.al a).mir.snapCostUs with
  | some c => (c, 1)
  | none => (sumN ((s.al a).mir.tensors.map (fun t => (s.objD a t.handle).mirrorBytes)), 768000)

/-- τ of an allotment in whole seconds. DEDUCED: every quotient exact, rounded down once (log 35). -/
def State.tau (s : State) (a : Nat) : Nat :=
  let x := (s.al a).mir
  let c := s.costFrac a
  let m := s.meanFrac
  if s.pair.independent && x.tensors.all (fun t => t.inForce == 1 && !t.stale) then x.tauMax
  else max x.tauMin (min x.tauMax (Nat.sqrt (2 * c.1 * m.1 / (c.2 * 1000000 * m.2))))

/-! ## Mirror records (R379, R380) -/

def mrHandle (b : Nat) : Nat := fieldOf b 0 4
def mrId (b : Nat) : Nat := fieldOf b 4 4
def mrMethod (b : Nat) : Nat := fieldOf b 8 1
def mrTap (b : Nat) : Nat := fieldOf b 9 1
def mrLag (b : Nat) : Nat := fieldOf b 0xA 1

/-- The MIRROR_ID that removes. -/
def mirRemove : Nat := 0xFFFFFFFF

/-- The mirrored tensors after a record. -/
def mirApply (ts : List MirTensor) (b : Nat) : List MirTensor :=
  if mrId b = mirRemove then ts.filter (fun t => t.handle != mrHandle b)
  else if ts.any (fun t => t.handle == mrHandle b) then
    ts.map (fun t => if t.handle = mrHandle b then
      { t with mirrorId := mrId b, method := mrMethod b, tap := mrTap b, lagPolicy := mrLag b } else t)
  else ts ++ [{ handle := mrHandle b, mirrorId := mrId b, method := mrMethod b, tap := mrTap b, lagPolicy := mrLag b }]

/-- The mirrored tensors once every accepted record has taken effect. -/
def Allot.mirSoon (x : Allot) : List MirTensor :=
  x.temper.recs.foldl (fun ts r => match r.2 with
    | .mirror b => mirApply ts b
    | .layer _ | .ladder _ | .policy _ | .spill _ | .scale _ | .mirrorPolicy _ => ts) x.mir.tensors

/-- The TAP source can write the object: the update engine a master or a momentum, an all-gather a tensor (R219, R241, R359). -/
def State.tappable (s : State) (a h tap : Nat) : Bool :=
  let t := (s.objD a h).t
  !t.raw && (tap == 1 || ((t.fmt == 4 || t.fmt == 5 || t.fmt == 8) && t.smode == 0))

/-- A tensor record meets R379 and R380. -/
def State.mirRecOk (s : State) (a : Nat) (ts : List MirTensor) (b : Nat) : Bool :=
  let h := mrHandle b
  s.nameable a h && fieldOf b 0xB 21 == 0 && decide (mrMethod b ≤ 2) && decide (mrTap b ≤ 1) && decide (mrLag b ≤ 1) &&
  (if mrId b = mirRemove then ts.any (fun t => t.handle == h)
   else mrId b != 0 && !ts.any (fun t => t.mirrorId == mrId b && t.handle != h) && (mrMethod b != 1 || s.tappable a h (mrTap b)))

/-- The first record that fails. -/
def State.badMirRec (s : State) (a : Nat) : List Nat → List MirTensor → Nat → Option Nat
  | [], _, _ => none
  | b :: r, ts, i => if s.mirRecOk a ts b then s.badMirRec a r (mirApply ts b) (i + 1) else some i

/-- A policy record meets R379. -/
def mirPolicyOk (b : Nat) : Bool :=
  decide (fieldOf b 6 1 < 4) && fieldOf b 7 1 == 0 && decide (fieldOf b 8 4 ≤ fieldOf b 0xC 4) && fieldOf b 0x10 48 == 0

def AllotMirror.setPolicy (m : AllotMirror) (b : Nat) : AllotMirror :=
  { m with sizeMib := fieldOf b 0 4, changeBp := fieldOf b 4 2, autoSnap := bitOf b 48, sign := bitOf b 49
           tauMin := fieldOf b 8 4, tauMax := fieldOf b 0xC 4 }

/-- The method that R380 chooses, with the change fraction at the last snapshot. -/
def State.methodOf (s : State) (a : Nat) (t : MirTensor) : Nat :=
  let m := (s.al a).mir
  if t.method ≠ 0 then t.method
  else if s.tappable a t.handle t.tap &&
      (decide ((s.objD a t.handle).charged ≤ m.sizeMib * mib) || (match t.frac with | some f => decide (m.changeBp ≤ f) | none => false)) then 1
  else 2

/-- The methods of the tensors of these handles are chosen; a tensor that enters the stream sends all its pages, and MIRROR ends. -/
def State.chooseMethods (s : State) (a : Nat) (handles : List Nat) : State :=
  ((s.al a).mir.tensors.filter (fun t => handles.contains t.handle)).foldl (fun u t =>
    let n := u.methodOf a t
    let v := u.modAl a (fun x => x.modMir t.handle (fun m => { m with inForce := n }))
    if n = 1 ∧ t.inForce ≠ 1 ∧ v.pair.bound = true then
      let w := v.sendAll a { t with inForce := 1 }
      match w.pair.state with
      | .mirror => { w with pair := { w.pair with state := .sync } }
      | .unbound | .binding | .sync | .suspended | .quenching | .quenched => w
    else v) s

/-- Mirror records of a STEP_MARK take effect (R379), and the methods of the tensors that they name are chosen; what a removal frees at the partner is given back. -/
def State.applyMirror (s : State) (a : Nat) (rs : List PendRec) : State :=
  let t := rs.foldl (fun u r => match r with
    | .mirror b => u.modAl a (fun x => { x with mir := { x.mir with tensors := mirApply x.mir.tensors b } })
    | .mirrorPolicy b => u.modAl a (fun x => { x with mir := x.mir.setPolicy b })
    | .layer _ | .ladder _ | .policy _ | .spill _ | .scale _ => u) s
  let used : State := if t.pair.bound then { t with pair := { t.pair with partnerUsed := 3 * sumN (t.allots.map Allot.mirroredBytes) } } else t
  used.chooseMethods a (rs.filterMap (fun r => match r with
    | .mirror b => some (mrHandle b)
    | .mirrorPolicy _ | .layer _ | .ladder _ | .policy _ | .spill _ | .scale _ => none))

/-! ## MIRROR_SET (R379) -/

def mirrorSetFields (s : State) (c : Cmd) : List Fld :=
  let k := c.par 0 1
  let n := c.par 2 2
  [c.ranged 0 1 0 2, ⟨1, 1, decide (c.par 1 1 < 2)⟩, ⟨2, 2, k != 0 || inRange 1 4096 n⟩,
   ⟨8, 8, s.rawRefOk c.allot (c.par 8 8)
     (if k = 0 then 32 * n else if k = 1 then 64 else 64 + 16 * (s.al c.allot).mir.tensors.length)⟩]

/-- The number of a pair state (R376). -/
def PairState.num : PairState → Nat
  | .unbound => 0
  | .binding => 1
  | .sync => 2
  | .mirror => 3
  | .suspended => 4
  | .quenching => 5
  | .quenched => 6

/-- The status record and tensor entries of KIND 2 (log 29). -/
def State.mirrorStatusBytes (s : State) (a : Nat) : List Byte :=
  let x := (s.al a).mir
  let p := s.pair
  let m := s.meanFrac
  let snap := match x.snapDone with
    | some y => [y.id, y.step]
    | none => [0, 0]
  let st := Config.mirrorStatus ([p.state.num, b2n p.commonMode, b2n p.feedUnknown, b2n p.suspectFeed, x.epochCommitted, lagBytes p.log] ++
    snap ++ [s.tau a, m.1 / m.2, x.snapCostUs.getD 0])
  leBytes st 64 ++ x.tensors.flatMap (fun t => leBytes (Config.mirrorEntry [t.mirrorId, t.inForce, b2n t.stale, t.copyStep]) 16)

/-- CLEAR: the sticky conditions that a read clears (R406). -/
def State.clearPairMarks (s : State) : State :=
  let t := (({ s with pair := { s.pair with suspectFeed := false } } : State).dropCondAll .suspectFeed).dropCondAll .partnerLoss
  (if t.pair.holdOpen then t else t.dropCondAll .quenched).settle

/-- KIND 0: the records are checked, their space reserved on both sides, and they are kept for the next STEP_MARK. -/
def State.mirrorRecs (s : State) (c : Cmd) : State :=
  let a := c.allot
  let rs := (recordsOf 32 (s.readRef a (c.par 8 8) 1 (32 * c.par 2 2))).map leNat
  if s.pair.bound = false ∨ s.pair.role = 2 then s.reject c.id (.wrongState, 0)
  else match s.badMirRec a rs (s.al a).mirSoon 0 with
    | some i => s.reject c.id (badIn i)
    | none =>
      let t := s.addRecs c (rs.map .mirror)
      let u : State := { t with pair := { t.pair with partnerUsed := max t.pair.partnerUsed (3 * sumN (t.allots.map Allot.mirroredBytes)) } }
      if u.totalUse 5 + u.partnerHeld ≤ u.pair.partnerMirrorGib * gib ∧ u.ckptHeld ≤ u.dev.ckptGib * gib then u.finishOk c.id 0
      else s.reject c.id (.noResource, 0)

/-- KIND 1. -/
def State.mirrorPolicy (s : State) (c : Cmd) : State :=
  let b := leNat (s.readRef c.allot (c.par 8 8) 1 64)
  if mirPolicyOk b then (s.addRecs c [.mirrorPolicy b]).finishOk c.id 0 else s.reject c.id (badIn 0)

/-- MIRROR_SET. -/
def State.mirrorSet (s : State) (c : Cmd) : State :=
  let ref := c.par 8 8
  match if c.par 0 1 = 2 then none
        else s.poisonOf [(c.allot, refHandle ref, bitsOf ref 32 32, if c.par 0 1 = 0 then 32 * c.par 2 2 else 64)] with
  | some p => s.meetPoison c p
  | none =>
    match c.par 0 1 with
    | 0 => s.mirrorRecs c
    | 1 => s.mirrorPolicy c
    | _ =>
      s.withDest c 8 (s.mirrorStatusBytes c.allot) (fun t => (if bitOf (c.par 1 1) 0 then t.clearPairMarks else t).finishOk c.id 0)

def execMirrorSet (id : Nat) (s : State) : Out := s.deant id 0x0703 mirrorSetFields State.mirrorSet

/-! ## Snapshots (R388 to R390) -/

/-- The copy of a mirrored tensor as it stands. -/
def State.copyNow (s : State) (a step : Nat) (t : MirTensor) : StoredTensor :=
  let o := s.objD a t.handle
  let n := o.mirrorBytes
  { mirrorId := t.mirrorId, fmt := if o.t.raw then 0 else o.t.fmt, smode := if o.t.raw then 0 else o.t.smode, method := t.inForce
    bytes := n, copyStep := step, data := o.t.data.filter (fun e => decide (e.1 < n)) }

/-- The mirrored tensors whose objects live, in increasing MIRROR_ID. -/
def State.mirTensors (s : State) (a : Nat) : List MirTensor :=
  sortBy (fun t => (t.mirrorId, 0)) ((s.al a).mir.tensors.filter (fun t => (s.obj? a t.handle).isSome))

/-- The snapshot of an allotment at its step. -/
def State.snapStore (s : State) (a : Nat) : Store :=
  let step := (s.temper a).step
  { kind := 0, allot := a, id := (s.al a).mir.snapNext, step := step, isSigned := (s.al a).mir.sign
    tensors := (s.mirTensors a).map (fun t => s.copyNow a step t) }

/-- The chunks of a tensor that the committed snapshot does not hold: their lengths. -/
def changedChunks (old : Option Store) (t : StoredTensor) : List Nat :=
  let prev := match old with
    | some y => match y.tensors.find? (fun (d : StoredTensor) => d.mirrorId == t.mirrorId) with
      | some d => chunkDigests d.data d.bytes
      | none => []
    | none => []
  ((chunkDigests t.data t.bytes).zipIdx.filter (fun e => prev[e.2]? != some e.1)).map (fun e => chunkLen t.bytes e.2)

/-- The local phase: the state with the snapshot taken and not committed, and the lengths of the chunks copied. -/
def State.snapBegin (s : State) (a : Nat) : State × List Nat :=
  let x := s.snapStore a
  let copied := x.tensors.flatMap (changedChunks (s.al a).mir.snapDone)
  (s.modAl a (fun z => { z with mir := { z.mir with snapOpen := some x, snapNext := z.mir.snapNext + 1, snapOpenAt := s.now } }), copied)

/-- The bytes of every mirrored tensor. -/
def State.mirRanges (s : State) (a : Nat) : List Range := (s.mirTensors a).map (fun t => (a, t.handle, 0, (s.objD a t.handle).mirrorBytes))

/-- The byte events of the local phase: every tensor is read, and the copied chunks enter tier 2. -/
def State.snapCount (s : State) (c : Cmd) (copied : List Nat) : State :=
  ((s.mirTensors c.allot).foldl (fun u t => let o := s.objD c.allot t.handle
    u.countBytes c o.tier (if o.tier < 2 then some o.hearth else none) o.mirrorBytes) s).countBytes c 2 none (sumN copied)

/-- SNAP_TAKE: costUs is the time C that its local phase took. -/
def execSnapTake (id costUs : Nat) (s : State) : Out :=
  s.deant id 0x0710 (fun _ _ => []) (fun t c =>
    if t.earlier c ≠ [] then t
    else match t.poisonOf (t.mirRanges c.allot) with
      | some p => t.meetPoison c p
      | none =>
        let x := t.snapStore c.allot
        let r := t.snapBegin c.allot
        let u := (r.1.snapCount c r.2).modAl c.allot (fun z => { z with mir := { z.mir with snapCostUs := some (satTo (2 ^ 32 - 1) costUs) } })
        u.finishOk id (x.id % 2 ^ 32 + (x.step % 2 ^ 32) * 2 ^ 32 + (r.2.length % 2 ^ 32) * 2 ^ 64 + satTo (2 ^ 32 - 1) costUs * 2 ^ 96))

/-- The numbers of the messages of the mirror channel (log 68): statistics have the step, epoch records and snapshots the ID above these
bases. -/
def recordBase : Nat := 2 ^ 62
def snapBase : Nat := 2 ^ 63

/-- A snapshot as it goes to the partner: its manifest, then the chunks of snapshot-method tensors that differ from the snapshot before,
each behind its MIRROR_ID and number (R389; log 68). -/
def snapMessage (y : Store) (old : Option Store) : List Byte :=
  let keep (t : StoredTensor) : List Nat := match old with
    | some z => match z.tensors.find? (fun (d : StoredTensor) => d.mirrorId == t.mirrorId) with
      | some d => d.chunks
      | none => []
    | none => []
  leBytes y.bytes.length 8 ++ y.bytes ++ (y.tensors.filter (fun t => t.method != 1)).flatMap (fun t =>
    (t.chunks.zipIdx).flatMap (fun e => if (keep t)[e.2]? = some e.1 then []
      else leBytes t.mirrorId 4 ++ leBytes e.2 4 ++ chunkBytes t.data t.bytes e.2))

/-- The open snapshot of allotment a is committed on this side, and goes to the partner of a bound module; STALE clears and the methods
are chosen anew (R380, R381, R389). -/
def State.snapFinish (s : State) (a : Nat) : State :=
  match (s.al a).mir.snapOpen with
  | none => s
  | some x =>
    let y := s.seal x
    let t := s.modAl a (fun z => { z with mir := { z.mir with
      snapOpen := none, snapDone := some y, snapBegan := z.mir.snapOpenAt
      tensors := z.mir.tensors.map (fun m => { m with
        stale := false, copyStep := if m.inForce = 1 ∧ m.stale = false then m.copyStep else y.step
        frac := (s.objD a m.handle).changeFrac }) } })
    let u := t.sendPairMsg a (snapBase + y.id) false (snapMessage y (s.al a).mir.remoteSnap)
    ((u.dropCond a .staleTensor).chooseMethods a ((u.al a).mir.tensors.map (·.handle))).settle

/-- The partner has committed the manifest of snapshot id of allotment a: a SNAP_COMMIT that waited for it completes. aux: 1, the
SNAP_ID and RESULT (R389). -/
def State.snapAcked (s : State) (a id : Nat) : State :=
  let t := s.modAl a (fun z => { z with mir := { z.mir with
    remoteSnap := if z.mir.snapDone.any (fun y => y.id == id) then z.mir.snapDone else z.mir.remoteSnap } })
  (t.hg.cmds.filter (fun c => c.allot == a && c.opcode == 0x0711 && c.phase == .working && c.aux.take 2 == [1, id])).foldl
    (fun u c => u.finishOk c.id (c.aux.getD 2 0)) t

/-- The chunk keys and digests of a store. -/
def Store.chunkTable (x : Store) : List (Nat × Nat) :=
  x.tensors.flatMap (fun t => (chunkDigests t.data t.bytes).zipIdx.map (fun e => (t.mirrorId * 2 ^ 32 + e.2, e.1)))

/-- The bytes that an export moves: the manifest, then the chunks changed since the last export, in manifest order. -/
def exportBytes (x : Store) (old : List (Nat × Nat)) : List Byte :=
  x.bytes ++ x.tensors.flatMap (fun t => ((chunkDigests t.data t.bytes).zipIdx).flatMap (fun e =>
    if look (t.mirrorId * 2 ^ 32 + e.2) old = some e.1 then [] else chunkBytes t.data t.bytes e.2))

/-- The command completes with RESULT res, once the partner's manifest is committed too: it waits for that while the module is bound. -/
def State.snapEnds (s : State) (c : Cmd) (id res : Nat) : State :=
  if s.pair.bound && !((s.al c.allot).mir.remoteSnap.any (fun y => y.id == id)) then s.goOn c.id [1, id, res] else s.finishOk c.id res

/-- Part PART of the committed snapshot goes to host memory. -/
def State.snapExport (s : State) (c : Cmd) (x : Store) : State :=
  let len := c.par 0x10 8
  let k := c.par 0x18 4
  let all := exportBytes x (s.al c.allot).mir.exported
  let part := (all.drop (k * len)).take len
  let parts := ceilDiv all.length len
  let left := parts - (k + 1)
  let ha := c.par 8 8
  let n := part.length
  let m := min n (s.hostGood ha (roundUp n 64))
  let t := ({ s with host := { s.host with bytes := cellWrite s.host.bytes ha (part.take m) } } : State).countBytes c 2 none m
  if m < n then t.hostFailed c m
  else
    let u := t.modAl c.allot (fun z => { z with mir :=
      if left = 0 then { z.mir with exported := sortBy (fun e => (e.1, 0)) x.chunkTable, exporting := none } else { z.mir with exporting := some x.id } })
    u.snapEnds c x.id (n % 2 ^ 32 + (left % 2 ^ 32) * 2 ^ 32)

def snapCommitFields (_ : State) (c : Cmd) : List Fld :=
  [anyVal 0 4, c.ranged 4 1 0 1, anyVal 8 8, ⟨0x10, 8, c.par 0x10 8 % 64 == 0⟩, anyVal 0x18 4]

/-- The partner's side cannot be reached now, or a quench comes first (R376, R398). -/
def State.transferWaits (s : State) : Bool := s.pair.bound && (!s.pairPortUp || s.pair.state == .quenching)

/-- The committed snapshot of which a SNAP_COMMIT with EXPORT names a further part; none where it names no such part. DEDUCED (log 70). -/
def State.exportMore (s : State) (c : Cmd) : Option Store :=
  let m := (s.al c.allot).mir
  if bitOf (c.par 4 1) 0 ∧ m.snapOpen = none then
    m.snapDone.filter (fun y => m.exporting == some y.id && y.id % 2 ^ 32 == c.par 0 4)
  else none

/-- SNAP_COMMIT as far as it can go. -/
def State.snapCommit (s : State) (c : Cmd) : State :=
  match s.exportMore c with
  | some y => s.snapExport c y
  | none =>
    match (s.al c.allot).mir.snapOpen with
    | none => s.reject c.id (.wrongState, 0)
    | some x =>
      if x.id % 2 ^ 32 ≠ c.par 0 4 then s.reject c.id (.wrongState, 0)
      else if s.transferWaits then s.goOn c.id []
      else
        let t := s.snapFinish c.allot
        if bitOf (c.par 4 1) 0 then
          match (t.al c.allot).mir.snapDone with
          | some y => t.snapExport c y
          | none => t
        else t.snapEnds c x.id 0

/-- SNAP_COMMIT: issued again, it goes on from where it waits. -/
def execSnapCommit (id : Nat) (s : State) : Out :=
  match s.started? id 0x0711 with
  | none => .next s
  | some c => if c.aux.take 1 = [1] then .next s else .next (s.judged c (snapCommitFields s c) (s.snapCommit c))

/-- AUTO_SNAPSHOT, between steps 8 and 9 of a STEP_MARK: taken and committed where τ has passed since the last committed snapshot
began and the partner can be reached. -/
def State.autoSnap (s : State) (c : Cmd) : State :=
  let a := c.allot
  let x := (s.al a).mir
  if x.autoSnap && x.tensors != [] && !s.transferWaits && decide (x.snapBegan + 1000000000 * s.tau a ≤ s.now) then
    match s.poisonOf (s.mirRanges a) with
    | some p => s.collect [{ source := p.2.2.2, owner := some a, handle := p.2.1, offset64 := p.2.2.1 }]
    | none =>
      let r := s.snapBegin a
      ((r.1.snapCount c r.2).modAl a (fun z => { z with mir := { z.mir with
        snapCostUs := some (satTo (2 ^ 32 - 1) (Config.snapCost a x.snapNext)) } })).snapFinish a
  else s

/-! ## FLEET_RATE (R391) -/

def fleetRateFields (_ : State) (c : Cmd) : List Fld :=
  let w := w32 (c.par 4 4)
  [c.ranged 0 1 0 1, ⟨4, 4, c.par 0 1 == 1 || (finite32 w && decide (0 < w.toNat) && decide (w.toNat < 2 ^ 31))⟩]

/-- FLEET_RATE: the rate is set or left, and τ, M, C and n are reported. -/
def State.setFleetRate (s : State) (c : Cmd) : State :=
  let t : State := if c.par 0 1 = 0 then { s with pair := { s.pair with fleetRate := w32 (c.par 4 4) } } else s
  let m := t.meanFrac
  let f (n : Nat) : Nat := satTo (2 ^ 32 - 1) n
  t.finishOk c.id (f (t.tau 0) + f (m.1 / m.2) * 2 ^ 32 + f (((t.al 0).mir.snapCostUs).getD 0) * 2 ^ 64 + f t.lossCount * 2 ^ 96)

def execFleetRate (id : Nat) (s : State) : Out := s.order (.cmd id) 0x0750 fleetRateFields State.setFleetRate

end Sys2Proof.Machine
end

