-- ==== Sys2Proof/Machine/StepMark.lean ====
section
/-! DEFINITION. STEP_MARK: its wait, the epoch that it closes, its steps in order and its result, and the partner's statistics
(R150, R168, R382, R386, R387, R390, R500). -/

namespace Sys2Proof.Machine

/-! ## Step 1 (R150, R382, R499) -/

/-- Commands that a STEP_MARK waits for at step 1: the work of the step. -/
def markWaitsFor (op : Nat) : Bool := op == 0x0301 || op == 0x0311 || op == 0x0501 || op == 0x0502 || op == 0x0610

/-- Commands that it waits for at step 3: those whose records take effect (R499). -/
def markTakes (op : Nat) : Bool := op == 0x0401 || op == 0x0404 || op == 0x0406 || op == 0x0703

/-- Every record accepted before the STEP_MARK has been judged. -/
def State.recordsJudged (s : State) (c : Cmd) : Bool := !(s.earlier c).any (fun d => markTakes d.opcode)

/-- The STEP_MARK may close its step. -/
def State.markReady (s : State) (c : Cmd) : Bool :=
  !(s.earlier c).any (fun d => markWaitsFor d.opcode) && !(s.temper c.allot).holdOpen

/-- The entry of a mirrored tensor in the record of epoch e: its copy as it stands where the stream carries it, else the copy that
the partner holds. -/
def State.epochEntry (s : State) (a e : Nat) (t : MirTensor) : Option StoredTensor :=
  if t.inForce = 1 ∧ t.stale = false ∧ t.todo = [] then some (s.copyNow a e t)
  else
    let held (x : Option Store) : Option StoredTensor := x.bind (fun y => y.tensors.find? (fun (d : StoredTensor) => d.mirrorId == t.mirrorId))
    match held (s.al a).mir.remoteSnap with
    | some d => some { d with method := 2 }
    | none => (held (s.al a).mir.remote).map (fun d => { d with method := 2 })

/-- The record of epoch e as it closes; its temper records follow at step 9. -/
def State.epochStore (s : State) (a e : Nat) : Store :=
  let es := (s.mirTensors a).map (fun t => (t, s.epochEntry a e t))
  { kind := 1, allot := a, id := e, step := e, isSigned := (s.al a).mir.sign
    stale := (es.filter (fun x => (x.1.inForce != 1 || x.1.stale || x.1.todo != []) && (match x.2 with
      | some d => decide (d.copyStep < e)
      | none => true))).length
    tensors := es.filterMap (·.2) }

/-- The open step's epoch closes, where the module mirrors the allotment. -/
def State.closeEpoch (s : State) (a : Nat) : State :=
  let x := s.al a
  if s.pair.bound && s.pair.role != 2 && (x.mir.tensors != [] || x.temper.layers != []) then
    s.modAl a (fun z => { z with mir := { z.mir with
      epochClosed := x.temper.step, epochs := z.mir.epochs ++ [s.epochStore a x.temper.step] } })
  else s

/-! ## The wait for the partner (R386, R387) -/

/-- The partner's statistics of the step that closes have arrived. -/
def State.syncArrived (s : State) (a : Nat) : Bool :=
  s.pair.syncStats.any (fun e => e.1 == a && e.2.1 == (s.temper a).step)

/-- The STEP_MARK waits at step 4. -/
def State.syncWaits (s : State) (a : Nat) : Bool := s.temperSynced && (s.temper a).layers != [] && !s.syncArrived a

/-! ## Step 9 (R150, R168, R379, R382) -/

/-- The status bits that FLAGGED counts. -/
def Layer.flagBits (l : Layer) : Nat := b2n l.boundHigh + 2 * b2n l.poolShort + 4 * b2n l.dry

/-- Layers that newly set one of them since before. -/
def State.flagged (s : State) (a : Nat) (before : List (Nat × Layer)) : Nat :=
  ((s.temper a).layers.filter (fun e =>
    let old := ((look e.1 before).map Layer.flagBits).getD 0
    e.2.flagBits &&& (old ^^^ 7) != 0)).length

/-- RESULT of a STEP_MARK. -/
def markResult (step promoted demoted flagged : Nat) (storm hold : Bool) : W128 :=
  w128 (step % 2 ^ 64 + (promoted % 2 ^ 16) * 2 ^ 64 + (demoted % 2 ^ 16) * 2 ^ 80 + (flagged % 2 ^ 16) * 2 ^ 96 +
    (b2n storm + 2 * b2n hold) * 2 ^ 112)

/-- The temper records of the closed epoch, as they stand after the STEP_MARK; the record goes to the partner behind the SEQ of the last
page of its allotment (R382; log 68). -/
def State.fillEpoch (s : State) (a e : Nat) : State :=
  let recs := s.temperRecords a
  let t := s.modAl a (fun z => { z with mir := { z.mir with
    epochs := z.mir.epochs.map (fun x => if x.id = e then { x with temper := recs } else x) } })
  match (t.al a).mir.epochs.find? (fun x => x.id == e) with
  | some x => t.sendPairMsg a (recordBase + e) false (leBytes (lookN (pairKey 2 (pagesOn a)) t.fab.txSeq) 4 ++ (t.seal x).bytes)
  | none => t

/-- The module's closed-step statistics of an allotment as bytes: for each slot the layer, the slot, the maximum, nine counts, and the
channel maxima behind their number (log 68). -/
def syncBytes (xs : List SyncSlot) : List Byte :=
  xs.flatMap (fun x => leBytes x.layer 2 ++ leBytes x.slot 2 ++ leBytes x.runMax.toNat 4 ++ (List.range 9).flatMap (fun i => leBytes (x.counts.getD i 0) 8) ++
    leBytes x.chans.length 4 ++ x.chans.flatMap (fun e => leBytes e.1 3 ++ leBytes e.2 1))

/-- Such bytes read; fuel: their number. -/
def syncOf : Nat → List Byte → List SyncSlot
  | 0, _ => []
  | n + 1, b =>
    if b.length < 84 then []
    else
      let k := bytesField b 80 4
      { layer := bytesField b 0 2, slot := bytesField b 2 2, runMax := w32 (bytesField b 4 4)
        counts := (List.range 9).map (fun i => bytesField b (8 + 8 * i) 8)
        chans := (recordsOf 4 ((b.drop 84).take (4 * k))).map (fun e => (bytesField e 0 3, bytesField e 3 1)) } :: syncOf n (b.drop (84 + 4 * k))

/-- The statistics of closed step n of an allotment go to the partner, ahead of the pages that wait (R387). -/
def State.sendSync (s : State) (a n : Nat) (xs : List SyncSlot) : State := s.sendPairMsg a n true (syncBytes xs)

/-- Step 2 sends them for each steered allotment of an active-active pair with TEMPER_SYNC. -/
def State.sendOwnSync (s : State) (a : Nat) : State :=
  let x := s.temper a
  if s.temperSynced ∧ x.layers ≠ [] then s.sendSync a x.step (x.layers.flatMap (fun e => e.2.closedStats.toPartner e.1)) else s

/-- The new step opens. -/
def State.openStep (s : State) (c : Cmd) : State :=
  let a := c.allot
  let rs := (s.temper a).recsBefore c.acc
  let e := (s.temper a).step
  let t := (s.fillEpoch a e).modTemper a (fun x => { x with
    step := x.step + 1, steeredAtOpen := x.layers.length, stormInStep := false, holdInStep := false, released := false
    recs := x.recs.filter (fun r => !decide (r.1 < c.acc)) })
  let u := ((t.applyMirror a rs).steerAttn a).traceAt 0 0xC (some a) c.acc (e + 1)
  { u with pair := { u.pair with syncStats := u.pair.syncStats.filter (fun x => !(x.1 == a && decide (x.2.1 ≤ e))) } }

/-! ## The sequence -/

/-- Steps 4 to 9. A command that step 8 has discarded still opens the new step, and carries its RESULT (R500). -/
def State.markJudge (s : State) (c : Cmd) : State :=
  let a := c.allot
  if s.syncWaits a then s
  else
    let before := (s.temper a).layers
    let j := s.judgeAll a c.aux
    let st := j.1.stormTest a ((j.2.filter (·.requests)).map (·.layer))
    let r := st.1.moveRungs c j.2
    let z := if s.standby then (r.s, []) else r.s.setScales a ((r.s.temper a).recsBefore c.acc)
    let w := z.1.writeCopies c (sortN (r.made ++ z.2))
    let cut := (w.cmd? c.id).all (fun d => d.phase == .done)
    let v := if cut then w else w.autoSnap c
    let x := v.temper a
    let res := markResult (x.step + 1) r.promoted r.demoted (v.flagged a before) x.stormInStep x.holdInStep
    let o := v.openStep c
    if cut then o.modCmd c.id (fun d => { d with result := res }) else o.finish c.id .ok 0 res

/-- Step 3 once every record has been judged, then as far as the wait of step 4 lets it. -/
def State.markRecords (s : State) (c : Cmd) : State :=
  if s.recordsJudged c then
    let rs := (s.temper c.allot).recsBefore c.acc
    let c1 := { c with stage := 2, aux := placedBy rs }
    ((s.applyRecords c rs).modCmd c.id (fun d => { d with stage := 2, aux := c1.aux })).markJudge c1
  else s

/-- Step 2, then as far as the waits let it. -/
def State.markBegin (s : State) (c : Cmd) : State :=
  let t := ((s.closeEpoch c.allot).closeStep c.allot).sendOwnSync c.allot
  (t.modCmd c.id (fun d => { d with phase := .working, stage := 1 })).markRecords { c with phase := .working, stage := 1 }

/-- STEP_MARK: issued again, it goes on from where it waits. -/
def execStepMark (id : Nat) (s : State) : Out :=
  match s.started? id 0x0410 with
  | none => .next s
  | some c =>
    if c.phase = .started then
      if s.markReady c then .next (s.judged c [] (s.markBegin c)) else .next s
    else if c.stage = 1 then .next (s.markRecords c)
    else .next (s.markJudge c)

/-- The partner's statistics arrive, and a STEP_MARK that waited for them goes on; for an allotment that does not exist or steers no
layer the partner gets empty ones (R387). -/
def State.syncIn (s : State) (allot step : Nat) (stats : List SyncSlot) : State :=
  if s.pair.bound ∧ s.pair.temperSync = true ∧ allot < 16 then
    let s1 := if s.temperSynced ∧ stats ≠ [] ∧ ((s.al allot).live = false ∨ (s.temper allot).layers = []) then s.sendSync allot step [] else s
    let t : State := { s1 with pair := { s1.pair with
      syncStats := s1.pair.syncStats.filter (fun e => !(e.1 == allot && e.2.1 == step)) ++ [(allot, step, stats)] } }
    match t.hg.cmds.find? (fun c => c.allot == allot && c.opcode == 0x0410 && c.phase == .working && c.stage == 2) with
    | some c => t.markJudge c
    | none => t
  else s

/-- TEMPER_SYNC_STATS. -/
def execTemperSyncStats (allot step : Nat) (stats : List SyncSlot) (s : State) : Out := .next (s.syncIn allot step stats)

end Sys2Proof.Machine
end

