-- ==== Sys2Proof/Machine/Links.lean ====
section
/-! DEFINITION. Frames and transport packets as they arrive: link retry, check values, alive counters, streams, collective and
mirror traffic, and the timers of streams and peers (R341 to R349, R353 to R356, R369, R370, R383). -/

namespace Sys2Proof.Machine

/-! ## Acknowledgements (R354) -/

/-- The packet is acknowledged: cumulatively up to ack, or selectively as packet sel. -/
def Sent.ackedBy (x : Sent) (peer vc own ack : Nat) (sel : Option Nat) : Bool :=
  x.peer == peer && x.vc == vc && x.own == own && (seqLe x.seq ack || some x.seq == sel)

/-- The number of a stream in the table of round trips. -/
def Sent.stream (x : Sent) : Nat := x.own + 131072 * (x.vc + 4 * x.peer)

/-- A packet that was sent once and is acknowledged now gives a sample of the round trip of its stream (R354; log 64). -/
def State.sampleRtt (s : State) (x : Sent) : State :=
  if x.sends = 1 then { s with fab := { s.fab with
    rtts := put x.stream (Config.smoothRtt (look x.stream s.fab.rtts) (s.now - x.since)) s.fab.rtts } }
  else s

/-- Streams closed on this side whose close is acknowledged leave the table. -/
def State.reapStreams (s : State) : State :=
  (s.fab.streams.filter (fun e => e.2.gone && !s.fab.unacked.any (fun x => x.vc == 1 && x.own == e.1))).foldl (fun t e => t.freeStream e.1) s

/-- An acknowledgement takes effect. -/
def State.takeAck (s : State) (peer vc own ack : Nat) (sel : Option Nat) : State :=
  let t := (s.fab.unacked.filter (fun x => x.ackedBy peer vc own ack sel)).foldl State.sampleRtt s
  ({ t with fab := { t.fab with unacked := t.fab.unacked.filter (fun x => !x.ackedBy peer vc own ack sel) } } : State).reapStreams

/-! ## Streams (R354, R355, R362) -/

/-- A packet of a stream in SEQ order: data, or the member's close. -/
def Stream.deliver (x : Stream) (kind : Nat) (data : List Byte) : Stream :=
  let y := { x with rxSeq := seqNext x.rxSeq }
  if kind = 4 then { y with closed := true } else { y with inbox := y.inbox ++ data }

/-- Packets that were ahead of a gap and now follow. fuel: their number. -/
def Stream.drainEarly : Nat → Stream → Stream
  | 0, x => x
  | n + 1, x => match x.early.find? (fun e => e.1 == seqNext x.rxSeq) with
    | some e => Stream.drainEarly n { x.deliver e.2.1 e.2.2 with early := x.early.filter (fun f => f.1 != e.1) }
    | none => x

/-- Counter event 0x14 for data delivered to an allotment, and to the command that takes it where one is at work. -/
def State.countRx (s : State) (a : Nat) (served : Option Nat) (n : Nat) : State := s.count 0x14 none (some a) none served (ceilDiv n 64)

/-- The command at work that takes what arrives on stream i: the first RECV. -/
def State.receiver (s : State) (i : Nat) : Option Nat :=
  (s.hg.cmds.find? (fun d => d.opcode == 0x0610 && d.cOp == 6 && d.phase == .working && d.aux.getD 0 0 == i)).map (·.id)

/-- The command at work that takes what arrives on a collective stream. -/
def State.collector (s : State) (stream : Nat) : Option Nat :=
  (s.fab.colls.find? (fun x => collStream x.group x.index 0 == stream || collStream x.group x.index 1 == stream)).map (·.cmd)

/-- A data or close packet for stream i (R354). -/
def State.streamPacket (s : State) (i : Nat) (x : Stream) (seq kind : Nat) (data : List Byte) : State :=
  let g := s.group x.group
  let ack (t : State) (sel : Bool) : State := t.sendAck x.peer 1 i (x.far.getD 0x1FFFF) (g.allotOf x.peer) seq g.digest sel
  if seqLe seq x.rxSeq then ack s false
  else if seq = seqNext x.rxSeq then
    let t := (s.modStream i (fun y => Stream.drainEarly y.early.length (y.deliver kind data))).countRx x.allot (s.receiver i) data.length
    ack t false
  else if x.early.any (fun e => e.1 == seq) then ack s true
  else ack ((s.modStream i (fun y => { y with early := y.early ++ [(seq, kind, data)] })).countRx x.allot (s.receiver i) data.length) true

/-- A member's open, or the close of a stream that found no match (R355). -/
def State.openPacket (s : State) (src : Nat) (kind : Nat) (sig : W32) (data : List Byte) : State :=
  let gid := bytesField data 0 2
  let rank := bytesField data 2 2
  let ch := bytesField data 4 4
  let i := bytesField data 8 4
  match look gid s.fab.groups with
  | none => s
  | some g =>
    if g.digest ≠ sig ∨ g.peerAt rank ≠ s.fab.self ∨ !(g.members.any (fun m => m.1 == src)) then s
    else
      let r := g.rankOf src
      let t : State :=
        if kind = 4 then { s with fab := { s.fab with opens := s.fab.opens.filter (fun o => o != (gid, r, ch, i)) } }
        else match s.fab.streams.find? (fun e => e.2.group == gid && e.2.rank == r && e.2.channel == ch && !e.2.gone) with
          | some e => s.modStream e.1 (fun y => { y with far := some i })
          | none => if s.fab.opens.contains (gid, r, ch, i) then s else { s with fab := { s.fab with opens := s.fab.opens ++ [(gid, r, ch, i)] } }
      match t.portFor src 1 i 0 with
      | some p =>
        let n := if kind = 4 then bytesField data 12 4 else 0
        t.putPacket p { port := p, dst := src, vc := 1, stream := i, allot := g.allotOf src, kind := 2, sig := g.digest, seq := n }
      | none => t

/-! ## Collective traffic (R356, R364, R366) -/

/-- The collective of a number is over on this module, or its admission is closed. -/
def State.collOver (s : State) (group index phase : Nat) : Bool :=
  s.collPast group index && !s.fab.colls.any (fun x => x.group == group && x.index == index && (phase == 1 || !x.closed))

/-- A message that is whole and belongs to no open collective: a held contribution is complete, another message is dropped. -/
def State.settleMsg (s : State) (stream peer : Nat) (m : Msg) : State :=
  let g := streamGroup stream
  if m.whole && s.collOver g m.index (streamPhase stream) then
    let t : State := { s with fab := { s.fab with
      inbound := s.fab.inbound.map (fun x => if x.stream = stream ∧ x.peer = peer then { x with msgs := x.msgs.filter (fun n => n.index != m.index) } else x) } }
    if streamPhase stream = 0 then
      { t with fab := { t.fab with held := t.fab.held.map (fun h =>
        if h.group = g ∧ h.peer = peer ∧ h.index = m.index then { h with data := m.data, complete := true } else h) } }
    else t
  else s

/-- A packet of a collective stream in SEQ order: an open begins a message, data goes to the last one, an abort or a verdict takes
effect. -/
def Inbound.deliver (x : Inbound) (kind : Nat) (sig : W32) (data : List Byte) : Inbound :=
  let y := { x with rxSeq := seqNext x.rxSeq }
  if rawStream x.stream then { y with control := y.control ++ [(kind, sig, data)] }
  else if kind = 3 then { y with msgs := y.msgs ++ [{ index := bytesField data 0 8, sigs := [sig], bytes := bytesField data 8 8 }] }
  else if kind = 5 ∨ kind = 6 then { y with control := y.control ++ [(kind, sig, data)] }
  else match y.msgs.getLast? with
    | some m => { y with msgs := y.msgs.dropLast ++ [{ m with data := m.data ++ data, sigs := if m.sigs.contains sig then m.sigs else m.sigs ++ [sig] }] }
    | none => y

def Inbound.drainEarly : Nat → Inbound → Inbound
  | 0, x => x
  | n + 1, x => match x.early.find? (fun e => e.1 == seqNext x.rxSeq) with
    | some e => Inbound.drainEarly n { x.deliver e.2.1 e.2.2.1 e.2.2.2 with early := x.early.filter (fun f => f.1 != e.1) }
    | none => x

/-- An abort (R356, R363): the collective ends for a signature that differs, or the peer is lost for it; for a collective that the
module has not begun it is kept. -/
def State.abortPacket (s : State) (src gid : Nat) (data : List Byte) : State :=
  let k := bytesField data 0 8
  let why := bytesField data 8 1
  let t := if why = 1 then (s.dropComing (fun h => h.group == gid && h.index == k && h.peer == src)).collect [{ source := 0x5301, peer := src }] else s
  match t.fab.colls.find? (fun x => x.group == gid && x.index == k) with
  | some x => if why = 0 then t.wrongColl x else t.modColl x.cmd (fun y => { y with lost := y.lost ++ [(src, 0x5301)] })
  | none =>
    if t.collPast gid k = true ∨ t.fab.aborts.contains (gid, k, src, why) then t
    else { t with fab := { t.fab with aborts := t.fab.aborts ++ [(gid, k, src, why)] } }

/-- A verdict (R364): one that says not admitted sets SELF_LATE; for a collective that the module has not begun it is kept. -/
def State.verdictPacket (s : State) (gid : Nat) (data : List Byte) : State :=
  let k := bytesField data 0 8
  if bytesField data 8 1 ≠ 0 then s
  else match s.fab.colls.find? (fun x => x.group == gid && x.index == k) with
    | some x => s.modColl x.cmd (fun y => { y with selfLate := true })
    | none =>
      if s.collPast gid k = true ∨ s.fab.refused.contains (gid, k) then s
      else { s with fab := { s.fab with refused := s.fab.refused ++ [(gid, k)] } }

/-- A data, open, abort or verdict packet of a collective stream (R354). -/
def State.collPacket (s : State) (g : Group) (src stream seq kind : Nat) (sig : W32) (data : List Byte) : State :=
  let gid := streamGroup stream
  let old := (s.fab.inbound.find? (fun x => x.stream == stream && x.peer == src)).getD { stream := stream, peer := src }
  let save (x : Inbound) : State := { s with fab := { s.fab with
    inbound := s.fab.inbound.filter (fun y => !(y.stream == stream && y.peer == src)) ++ [x] } }
  let ack (t : State) (sel : Bool) : State := t.sendAck src 0 stream stream (g.allotOf src) seq g.digest sel
  if seqLe seq old.rxSeq then ack s false
  else if seq = seqNext old.rxSeq then
    let x := Inbound.drainEarly old.early.length (old.deliver kind sig data)
    let t := (save { x with control := [] }).countRx g.allot (s.collector stream) data.length
    let u := x.msgs.foldl (fun y m => y.settleMsg stream src m) t
    ack (x.control.foldl (fun y e => if e.1 = 5 then y.abortPacket src gid e.2.2 else y.verdictPacket gid e.2.2) u) false
  else if old.early.any (fun e => e.1 == seq) then ack s true
  else ack ((save { old with early := old.early ++ [(seq, kind, sig, data)] }).countRx g.allot (s.collector stream) data.length) true

/-! ## The channels of the pair (R370, R383, R384, R387, R389; logs 67 and 68) -/

/-- The epoch of a SIG: the first number from the last committed one on that has these low bits. -/
def State.epochOfSig (s : State) (allot : Nat) (sig : W32) : Nat :=
  let base := ((s.pair.peerStore 1 allot).map (·.id)).getD 0
  base + (sig.toNat + 2 ^ 32 - base % 2 ^ 32) % 2 ^ 32

/-- A packet of the mirror channel: a page of 4,096 bytes for the next address of the map, or a map packet. -/
def State.mirrorPacket (s : State) (allot : Nat) (sig : W32) (data : List Byte) : State :=
  let q := s.pair
  match q.expect.find? (fun e => e.1 == allot) with
  | some e =>
    if data.length = 4096 then
      let g : LogPage := { allot := allot, epoch := e.2.1, mirrorId := e.2.2.1, page := e.2.2.2, data := data }
      { s with pair := { q with
        expect := q.expect.erase e
        staged := q.staged.filter (fun y => !(y.allot == allot && y.epoch == g.epoch && y.mirrorId == g.mirrorId && y.page == g.page)) ++ [g] } }
    else s
  | none =>
    let ep := s.epochOfSig allot sig
    { s with pair := { q with expect := q.expect ++ (recordsOf 8 data).map (fun r => (allot, ep, bytesField r 0 4, bytesField r 4 4)) } }

/-- A message of the management channel (log 68). -/
def State.mgmtPacket (s : State) (data : List Byte) : State :=
  match bytesField data 0 1 with
  | 1 => ({ s with pair := { s.pair with partnerFeed := bytesField data 1 1 % 16 } } : State).feedMarks
  | 2 =>
    let a := bytesField data 2 1
    let id := bytesField data 8 8
    if bytesField data 1 1 = 1 then (if s.markIdle a id then s.epochMine a id else s) else s.snapAcked a id
  | 3 => s.lone .partner opUnbindOrder 0 State.unbindOrdered
  | 4 =>
    match s.pair.cmd with
    | some i => if (s.cmd? i).any (fun c => c.opcode == 0x0702 && c.aux == [1]) then s.unbind false else s
    | none => s
  | 5 => s.unbind true
  | _ => s

/-- The chunks behind a manifest: MIRROR_ID, number, bytes. fuel: their number. -/
def chunksBehind (x : Store) : Nat → List Byte → List (Nat × Nat × List Byte)
  | 0, _ => []
  | n + 1, b =>
    if b.length < 8 then []
    else
      let m := bytesField b 0 4
      let k := bytesField b 4 4
      let len := match x.tensors.find? (fun t => t.mirrorId == m) with
        | some t => chunkLen t.bytes k
        | none => 0
      (m, k, (b.drop 8).take len) :: chunksBehind x n (b.drop (8 + len))

/-- A whole message of the mirror channel takes effect; whether it can do so now. -/
def State.pairMsg (s : State) (allot : Nat) (m : Msg) : State × Bool :=
  if m.index < recordBase then (s.syncIn allot m.index (syncOf m.data.length m.data), true)
  else if m.index < snapBase then
    let x := storeOf (m.data.drop 4)
    let last := ((s.fab.inbound.find? (fun i => i.stream == pairStream 2 (pagesOn allot) && i.peer == s.pair.partner)).map (·.rxSeq)).getD 0
    if ((s.pair.peerStore 1 allot).all (fun y => decide (y.id < x.id))) = false then (s, true)
    else if seqLe (bytesField m.data 0 4) last && s.canCommit x then (s.epochTheirs x [], true) else (s, false)
  else
    let n := bytesField m.data 0 8
    let x := storeOf ((m.data.drop 8).take n)
    if (s.pair.peerStore 0 allot).all (fun y => decide (y.id < x.id)) then (s.epochTheirs x (chunksBehind x m.data.length (m.data.drop (8 + n))), true)
    else (s, true)

/-- The whole messages of an allotment take effect in order, as far as they can. -/
def State.pairMsgs (s : State) (allot : Nat) : State :=
  let n := pairStream 2 (messagesOn allot)
  let mine (i : Inbound) : Bool := i.stream == n && i.peer == s.pair.partner
  let ms := ((s.fab.inbound.find? mine).map (·.msgs)).getD []
  ms.foldl (fun t m =>
    if m.whole then
      let r := t.pairMsg allot m
      if r.2 then { r.1 with fab := { r.1.fab with inbound := r.1.fab.inbound.map (fun i =>
        if mine i then { i with msgs := i.msgs.filter (fun y => y.index != m.index) } else i) } } else t
    else t) s

/-- A packet of a channel of the pair, with data, in SEQ order (R354). -/
def State.pairPacket (s : State) (vc own allot seq kind : Nat) (sig : W32) (data : List Byte) : State :=
  let n := pairStream vc own
  let src := s.pair.partner
  let old := (s.fab.inbound.find? (fun x => x.stream == n && x.peer == src)).getD { stream := n, peer := src }
  let save (x : Inbound) : State := ({ s with fab := { s.fab with
    inbound := s.fab.inbound.filter (fun y => !(y.stream == n && y.peer == src)) ++ [x] } } : State).count 0x14 none none none none (ceilDiv data.length 64)
  let ack (t : State) (sel : Bool) : State := t.sendAck src vc own own allot seq 0 sel
  if seqLe seq old.rxSeq then ack s false
  else if seq = seqNext old.rxSeq then
    let x := Inbound.drainEarly old.early.length (old.deliver kind sig data)
    let t := ack (save { x with control := [] }) false
    (x.control.foldl (fun y e => if vc = 2 then y.mirrorPacket allot e.2.1 e.2.2 else y.mgmtPacket e.2.2) t).pairMsgs allot
  else if old.early.any (fun e => e.1 == seq) then ack s true
  else ack (save { old with early := old.early ++ [(seq, kind, sig, data)] }) true

/-- Pages whose packets the partner has acknowledged leave the log, and pages of first epochs take their room (R383). -/
def State.trimLog (s : State) : State :=
  let waits (g : LogPage) : Bool := s.fab.unacked.any (fun x => x.vc == 2 && x.own == pagesOn g.allot && x.seq == g.seq)
  let gone := s.pair.log.filter (fun g => !waits g)
  if gone = [] then s
  else ({ s with pair := { s.pair with log := s.pair.log.filter waits, acked := s.pair.acked + lagBytes gone } } : State).fillLog

/-! ## Transport packets (R347, R353, R354, R370) -/

/-- The fields of a transport header (R353). -/
structure Header where
  dst : Nat
  src : Nat
  domain : Nat
  vc : Nat
  alive : Nat
  stream : Nat
  allot : Nat
  seq : Nat
  ack : Nat
  kind : Nat
  len : Nat
  sig : W32

def headerOf (b : List Byte) : Header :=
  { dst := bitsOf (bytesField b 0 2) 0 14, src := bitsOf (bytesField b 2 2) 0 14, domain := bytesField b 4 2, vc := bytesField b 6 1
    alive := bytesField b 7 1, stream := bitsOf (bytesField b 8 4) 0 17, allot := bitsOf (bytesField b 8 4) 17 4, seq := bytesField b 0xC 4
    ack := bytesField b 0x10 4, kind := bytesField b 0x14 1, len := bytesField b 0x16 2, sig := w32 (bytesField b 0x18 4) }

/-- The allotment that the module expects behind a stream number. -/
def State.expectedAllot (s : State) (h : Header) : Nat :=
  if h.vc = 0 then ((look (streamGroup h.stream) s.fab.groups).map (·.allot)).getD h.allot
  else ((look h.stream s.fab.streams).map (·.allot)).getD h.allot

/-- The check of a packet passes. -/
def State.checkOk (s : State) (h : Header) (b : List Byte) : Bool :=
  let p := s.classPoly h.vc
  let body := b.take (32 + h.len)
  let fold := if h.vc < 2 then foldBlock s.fab.self (s.expectedAllot h) h.stream h.seq else []
  decide (h.vc < 4) && decide (h.len ≤ 4096) && b.length == 32 + h.len + p.bytes &&
    p.check (body ++ fold) == bytesField b (32 + h.len) p.bytes

/-- The alive counter of an alive class is accepted. -/
def State.aliveOk (s : State) (port : Nat) (h : Header) : Bool :=
  h.vc < 2 || inRange 1 (s.fab.classes.getD h.vc { poly := 2 }).window ((h.alive + 256 - (s.port port).aliveRx.getD (h.vc - 2) 0) % 256)

/-- A packet that fails its check or its alive counter is dropped, counted and recorded. -/
def State.rejectPacket (s : State) (port : Nat) : State :=
  (s.modPort port (fun x => { x with checkFails := (x.checkFails + 1) % 2 ^ 32 })).raise (0x5000 + 208 + firstLane port)

/-- A misdirected packet is dropped and counted; 1,000 within 1 s are an event (R347, R409). -/
def State.misdirect (s : State) (port : Nat) : State :=
  let ts := (s.now :: (s.port port).misTimes).filter (fun t => decide (s.now ≤ t + 1000000000))
  let full := decide (1000 ≤ ts.length)
  let t := s.modPort port (fun x => { x with misdirected := (x.misdirected + 1) % 2 ^ 32, misTimes := if full then [] else ts })
  if full then t.raise (0x5000 + 0x200 + 8 * port + 4) else t

/-- A packet is accepted from a peer: the peer is heard, and comes up where it was down (R349). -/
def State.hear (s : State) (peer : Nat) : State :=
  { s with fab := { s.fab with
    heard := put peer s.now s.fab.heard, peersDown := without peer s.fab.peersDown
    unacked := if s.fab.peersDown.contains peer then s.fab.unacked.map (fun x => if x.peer = peer ∧ x.sends ≠ 0 then { x with sends := 1 } else x)
               else s.fab.unacked } }

/-- A packet of the collective channel; an acknowledgement of a group with another digest is refused (R351). -/
def State.collChannel (s : State) (h : Header) (data : List Byte) : State :=
  let gid := streamGroup h.stream
  match look gid s.fab.groups with
  | none => s
  | some g =>
    if !(g.members.any (fun m => m.1 == h.src)) || g.allot != h.allot then s
    else match h.kind with
      | 1 => if h.sig = g.digest then s.takeAck h.src 0 h.stream h.ack none else s
      | 2 => if h.sig = g.digest then s.takeAck h.src 0 h.stream h.ack (some h.seq) else s
      | 4 => s
      | k => if k ≤ 6 then (s.takeAck h.src 0 h.stream h.ack none).collPacket g h.src h.stream h.seq k h.sig data else s

/-- A packet of the stream channel; one of a group with another digest is refused (R351). -/
def State.streamChannel (s : State) (h : Header) (data : List Byte) : State :=
  if (h.kind = 3 ∨ h.kind = 4) ∧ h.stream = 0x1FFFF ∧ 12 ≤ data.length then s.openPacket h.src h.kind h.sig (data ++ leBytes h.seq 4)
  else match look h.stream s.fab.streams with
    | none => s
    | some x =>
      if x.peer ≠ h.src ∨ x.allot ≠ h.allot ∨ (s.group x.group).digest ≠ h.sig then s
      else match h.kind with
        | 0 => (s.takeAck h.src 1 h.stream h.ack none).streamPacket h.stream x h.seq 0 data
        | 4 => (s.takeAck h.src 1 h.stream h.ack none).streamPacket h.stream x h.seq 4 data
        | 1 => s.takeAck h.src 1 h.stream h.ack none
        | 2 => s.takeAck h.src 1 h.stream h.ack (some h.seq)
        | _ => s

/-- A packet of the mirror or the management channel. -/
def State.pairChannel (s : State) (h : Header) (data : List Byte) : State :=
  match h.kind with
  | 0 => ((s.takeAck h.src h.vc h.stream h.ack none).trimLog).pairPacket h.vc h.stream h.allot h.seq 0 h.sig data
  | 3 => ((s.takeAck h.src h.vc h.stream h.ack none).trimLog).pairPacket h.vc h.stream h.allot h.seq 3 h.sig data
  | 1 => (s.takeAck h.src h.vc h.stream h.ack none).trimLog
  | 2 => (s.takeAck h.src h.vc h.stream h.ack (some h.seq)).trimLog
  | _ => s

/-- A transport packet, opened, at port p. A bound port carries no collective and no stream packets (R348). -/
def State.transport (s : State) (port : Nat) (b : List Byte) : State :=
  let h := headerOf b
  if b.length < 32 then s.rejectPacket port
  else if h.dst ≠ s.fab.self ∨ h.domain ≠ s.fab.domain then s.misdirect port
  else if !s.checkOk h b || !s.aliveOk port h then s.rejectPacket port
  else if (s.port port).bound = true ∧ h.vc < 2 then s
  else
    let data := (b.drop 32).take h.len
    let t := (if h.vc < 2 then s else s.modPort port (fun x => { x with aliveRx := x.aliveRx.set (h.vc - 2) h.alive })).hear h.src
    match h.vc with
    | 0 => (((t.collChannel h data).pump).fabricGo).normsGo
    | 1 => ((t.streamChannel h data).pump).fabricGo
    | _ => if t.pair.bound && t.pair.hasPort port && h.src == t.pair.partner then (t.pairChannel h data).pump else t

/-- The invocation under which a received packet opens: one of the 16 that follow the last, since packets may have been lost (log
63), and the plain bytes. -/
def Port.opened (x : Port) (p : Nat) (b : List Byte) : Option (Nat × List Byte) :=
  let up := decide (bitsOf (bytesField b 0 2) 0 14 < bitsOf (bytesField b 2 2) 0 14)
  ((List.range 16).map (x.invocRx + 1 + ·)).findSome? (fun n => (gcmOpen x.keyRx (ivOf p up n) (b.take 8) (b.drop 8)).map (fun d => (n, b.take 8 ++ d)))

/-- A sealed packet is opened: on a tag failure it is dropped and counted, and the sixteenth in a row takes the port down. -/
def State.openSealed (s : State) (port : Nat) (b : List Byte) : State :=
  let x := s.port port
  match x.opened port b with
  | some (n, plain) => (s.modPort port (fun y => { y with invocRx := n, tagRun := 0 })).transport port plain
  | none =>
    let u := s.modPort port (fun y => { y with tagRun := y.tagRun + 1, checkFails := (y.checkFails + 1) % 2 ^ 32 })
    if 16 ≤ x.tagRun + 1 then (u.portDown port).raise (0x5000 + 0x200 + 8 * port + 1) else u

/-- The transport packet of an Ethernet frame b, FCS apart: the destination is the port's own MAC address, the EtherType that of the
module, behind one tag at most (R343, R344); none where the frame is dropped. Padding behind the packet is cut off. -/
def State.etherBody (s : State) (port : Nat) (b : List Byte) : Option (List Byte) :=
  let tagged := beNat ((b.drop 12).take 2) == 0x8100
  let at0 := if tagged then 16 else 12
  let body := b.drop (at0 + 2)
  let h := headerOf body
  if beNat (b.take 6) = (s.config.macBase + port) % 2 ^ 48 ∧ beNat ((b.drop at0).take 2) = s.fab.ethertype then
    some (body.take (32 + h.len + (s.classPoly h.vc).bytes)) else none

/-- An Ethernet frame: one whose FCS fails, or that is longer than 9,216 bytes, is lost; one for another address or of another type is
dropped and counted (R343, R344; log 66). -/
def State.etherIn (s : State) (port : Nat) (f : List Byte) : State :=
  let b := f.take (f.length - 4)
  if f.length < 4 ∨ 9216 < f.length ∨ fcsOf b ≠ f.drop (f.length - 4) then s.modPort port (fun x => { x with framesLost := (x.framesLost + 1) % 2 ^ 32 })
  else match s.etherBody port b with
    | some body => s.transport port body
    | none => s.modPort port (fun x => { x with misdirected := (x.misdirected + 1) % 2 ^ 32 })

/-- What leaves the link at port p: a packet in native mode, a sealed packet in long-reach mode, an Ethernet frame. -/
def State.packetIn (s : State) (port : Nat) (b : List Byte) : State :=
  match (s.port port).mode with
  | .native => s.transport port b
  | .longReach => s.openSealed port b
  | .ethernet => s.etherIn port b
  | .off => s

/-- PACKET_RECEIVE. -/
def execPacketReceive (port : Nat) (packet : Wire) (s : State) : Out :=
  if s.portUsable port then .next (s.packetIn port packet).settle else .next s

/-! ## Frames (R341, R342) -/

/-- The frame check: CRC-32C over bytes 0x00 to 0x0B and the payload. -/
def frameOk (f : List Byte) : Bool :=
  f.length == 256 && (polyOf 2).check (f.take 12 ++ f.drop 16) == bytesField f 0xC 4

/-- a lies in the 2,048 numbers up to b, modulo 4,096. -/
def seqUpTo (a b : Nat) : Bool := decide ((b + 4096 - a) % 4096 < 2048)

/-- The link acknowledgement of a frame: acknowledged frames leave the replay buffer; a NAK sends the others again in order. -/
def Port.takeLinkAck (x : Port) (ack : Nat) (nak : Bool) : Port :=
  let y := { x with replay := x.replay.filter (fun f => !seqUpTo f.seq ack) }
  let z := if nak then y.resend else y
  Port.flush z.waiting z

/-- A frame was lost: NAK goes out with the last sequence received in order. Long-reach mode has no link retry: the gap that the next
frame shows loses the packet that was being put together. -/
def Port.loseFrame (x : Port) : Port :=
  ({ x with framesLost := (x.framesLost + 1) % 2 ^ 32, nak := !x.isLong } : Port).controlOut

/-- FRAME_RECEIVE: a native frame arrives. -/
def execFrameReceive (port : Nat) (frame : Wire) (s : State) : Out :=
  let x := s.port port
  let native := match x.mode with
    | .native | .longReach => true
    | .ethernet | .off => false
  if !s.portUsable port || !native then .next s
  else if !frameOk frame then .next (s.modPort port Port.loseFrame)
  else
    let typ := bytesField frame 0 1
    let seq := bitsOf (bytesField frame 2 2) 0 12
    let ackw := bytesField frame 4 2
    let s1 := (if x.isLong then s else s.modPort port (fun y => y.takeLinkAck (bitsOf ackw 0 12) (bitOf ackw 12))).pump
    if typ ≠ 0 then .next s1
    else if x.isLong && seqUpTo seq x.rxSeq then .next s1
    else if seq = (x.rxSeq + 1) % 4096 ∨ x.isLong = true then
      let gap := decide (seq ≠ (x.rxSeq + 1) % 4096)
      let first := bitOf (bytesField frame 7 1) 0
      let last := bitOf (bytesField frame 7 1) 1
      let body := (frame.drop 16).take (min 240 (bytesField frame 6 1))
      let broken := !first && (gap || x.broken)
      let asm := (if first then [] else x.assembling) ++ body
      let s2 := s1.modPort port (fun y => ({ y with
        rxSeq := seq, nak := false, assembling := if last || broken then [] else asm, broken := broken && !last
        framesLost := if gap then (y.framesLost + 1) % 2 ^ 32 else y.framesLost } : Port).controlOut)
      .next (if last && !broken then (s2.packetIn port asm).settle else s2)
    else if seqUpTo seq x.rxSeq then .next (s1.modPort port Port.controlOut)
    else .next (s1.modPort port Port.loseFrame)

/-! ## Timers (R349, R354) -/

/-- RTO_MIN of a port, in ns. -/
def Port.rtoMin (x : Port) : Nat :=
  match x.mode with
  | .native => 8000
  | .ethernet => 50000
  | .longReach => 2500000
  | .off => 8000

/-- The time after which a packet is sent again: max(RTO_MIN, 2 × smoothed round trip). -/
def State.rto (s : State) (x : Sent) : Nat := max (s.port x.port).rtoMin (2 * lookN x.stream s.fab.rtts)

/-- RETRANSMIT_TIMEOUT: the packet is sent again; after RETRY_LIMIT retransmissions its peer is down. -/
def execRetransmitTimeout (vc peer own seq : Nat) (s : State) : Out :=
  match s.fab.unacked.find? (fun x => x.vc == vc && x.peer == peer && x.own == own && x.seq == seq) with
  | none => .next s
  | some x =>
    if x.sends = 0 ∨ s.fab.peersDown.contains peer then .next s
    else
      let t := s.passTo (x.since + s.rto x)
      if s.fab.retryLimit < x.sends then .next (t.peerLost peer).settle else .next (t.sendNow x true)

/-- PEER_TIMEOUT of a peer in ns: the longer where a path of its entry is long-reach. -/
def State.peerTimeout (s : State) (peer : Nat) : Nat :=
  1000000 * (if (s.route peer).paths.any (fun p => p.valid && (s.port p.port).isLong) then s.fab.lrTimeoutMs else s.fab.peerTimeoutMs)

/-- PEER_TIMEOUT: nothing has arrived from the peer while packets to it are outstanding. -/
def execPeerTimeout (peer : Nat) (s : State) : Out :=
  match s.fab.unacked.filter (fun x => x.peer == peer) with
  | [] => .next s
  | x :: r =>
    if s.fab.peersDown.contains peer then .next s
    else
      let from_ := max (lookN peer s.fab.heard) (r.foldl (fun m y => min m y.since) x.since)
      .next ((s.passTo (from_ + s.peerTimeout peer)).peerLost peer).settle

end Sys2Proof.Machine
end

