-- ==== Sys2Proof/Machine/Anvils.lean ====
section
/-! DEFINITION. Spare anvils, the patrol, SELFTEST and entry checks (R68 to R74, R329). -/

namespace Sys2Proof.Machine

/-- Some op of a list has gone to anvil a. -/
def TileList.served (l : TileList) (a : Nat) : Bool := l.ops.any (fun o => o.phase != .waiting && o.anvil == a)

/-- Anvil a stands at a command boundary (R71): it is idle, and no command that it serves has an op to give it. -/
def Hearth.boundary (x : Hearth) (a : Nat) : Bool :=
  x.idle a && !x.lists.any (fun l => l.served a && l.ops.any (fun o => o.phase == .waiting))

/-- The anvil that the patrol tests next: one that a SELFTEST named, else the next in turn that is not out of service. -/
def Hearth.nextTarget (x : Hearth) : Option Nat :=
  match x.requests with
  | r :: _ => some r.1
  | [] => ((List.range 72).map (fun i => (x.nextPatrol + i) % 72)).find? (fun a => (x.anvil a).role != .failed && !(x.anvil a).entry && !(x.anvil a).leaving && !(x.anvil a).failing)

/-- A target is chosen and its test has not ended. -/
def Hearth.busyPatrol (x : Hearth) : Bool := x.anvils.any (fun v => v.target)

/-- A free spare takes the place of anvil a: it becomes active and takes new ops at once (R69 step 1). -/
def Hearth.standIn (x : Hearth) (a spare : Nat) : Hearth :=
  (x.modAnvil spare (fun v => { v with role := .active, pos := (x.anvil a).pos })).modAnvil a (fun v => { v with relieved := true })

/-- PATROL_ROTATION; spare: the free spare that the patrol takes for an active target. -/
def execPatrolRotation (hearth spare : Nat) (s : State) : Out :=
  let x := s.he hearth
  if hearth < 2 ∧ s.hearthUp hearth ∧ (s.mgt.patrolMin ≠ 0 ∨ x.requests ≠ []) ∧ x.busyPatrol = false then
    match x.nextTarget with
    | none => .next s
    | some a =>
      let v := x.anvil a
      let y := x.modAnvil a (fun w => { w with target := true })
      let z := { y with nextPatrol := if x.requests = [] then (a + 1) % 72 else x.nextPatrol }
      if v.role = .active ∧ x.freeSpare.isSome then
        if (x.anvil spare).free ∧ spare < 72 then .next (s.setHe hearth (z.standIn a spare)) else .next s
      else if v.entry then .next s
      else .next (s.setHe hearth z)
  else .next s

/-- ANVIL_TEST_START: the target that a spare relieved is idle, one that none relieved stands at a command boundary, a spare is free; its
test begins (R69, R71). -/
def execAnvilTestStart (hearth anvil : Nat) (s : State) : Out :=
  let x := s.he hearth
  let v := x.anvil anvil
  if hearth < 2 ∧ anvil < 72 ∧ v.target ∧ v.testing = false ∧ v.entry = false ∧ (if v.relieved then x.idle anvil else x.boundary anvil) = true then
    .next (s.setHe hearth (x.modAnvil anvil (fun w => { w with
      testing := true, testStart := s.now, relieved := false, pos := if w.role = .active ∧ w.relieved = false then w.pos else 64
      role := if w.role = .failed then .failed else .underTest })).noteShort)
  else .next s

/-- SELFTEST commands that asked for an anvil complete with its outcome (R329). DESIGN CHOICE (log 49): one that names an anvil whose
test already runs completes with the outcome of that test. -/
def State.selftestDone (s : State) (h a : Nat) (pass : Bool) (testUs : Nat) : State :=
  let rs := (s.he h).requests.filter (fun r => r.1 == a)
  let st := ((s.he h).anvil a).shown
  let t := s.modHe h (fun x => { x with requests := x.requests.filter (fun r => r.1 != a) })
  rs.foldl (fun u r => u.finishOk r.2 (b2n (!pass) + 256 * st + 2 ^ 32 * s.mgt.patrolMin + 2 ^ 64 * (testUs % 2 ^ 32))) t

/-- An anvil's own fault source of a failed test or entry check (R409). -/
def anvilTestSource (h a : Nat) : Nat := 16 * (72 * h + a) + 15

/-- The anvil passed: it is a free spare; an active one that no spare stood in for serves its position again. DEDUCED (log 40). -/
def Hearth.testPassed (x : Hearth) (a : Nat) : Hearth :=
  let back := decide ((x.anvil a).pos < 64)
  ((x.modAnvil a (fun w => { w with
    target := false, testing := false, role := if w.role = .failed then .failed else if back then .active else .spare })).fillPositions).checkShort

/-- ANVIL_TEST_COMPLETE. -/
def execAnvilTestComplete (hearth anvil : Nat) (pass : Bool) (testUs : Nat) (s : State) : Out :=
  let x := s.he hearth
  let v := x.anvil anvil
  if hearth < 2 ∧ anvil < 72 ∧ v.testing then
    let t := (s.passTo (v.testStart + 1000 * testUs)).count 0x41 none none none none 1
    let u := if pass then t.setHe hearth (x.testPassed anvil)
      else if v.role = .failed then t.setHe hearth (x.modAnvil anvil (fun w => { w with target := false, testing := false }))
      else t.raise (anvilTestSource hearth anvil)
    .next (u.selftestDone hearth anvil pass testUs).settle
  else .next s

/-- ENTRY_CHECK_COMPLETE: the spare becomes active, or is marked failed and the next free spare is taken (R73). -/
def execEntryCheckComplete (hearth anvil : Nat) (pass : Bool) (s : State) : Out :=
  let x := s.he hearth
  let v := x.anvil anvil
  if hearth < 2 ∧ anvil < 72 ∧ v.entry then
    if pass then .next (s.setHe hearth (x.modAnvil anvil (fun w => { w with entry := false, role := .active })))
    else .next (s.raise (anvilTestSource hearth anvil)).settle
  else .next s

/-! ## SELFTEST (R329) -/

def selftestFields (_ : State) (c : Cmd) : List Fld :=
  let act := c.par 0 1
  let period := c.par 4 2
  [c.ranged 0 1 0 2, ⟨1, 1, if act = 0 then decide (c.par 1 1 < 2) else c.par 1 1 == 0⟩,
   ⟨2, 1, if act = 0 then decide (c.par 2 1 < 72) else c.par 2 1 == 0⟩, ⟨4, 2, if act = 1 then zeroOr 5 1440 period else period == 0⟩]

/-- SELFTEST as the arbiter executes it. -/
def State.selftest (s : State) (c : Cmd) : State :=
  match c.par 0 1 with
  | 0 =>
    let h := c.par 1 1
    if s.hearthUp h then (s.modHe h (fun x => { x with requests := x.requests ++ [(c.par 2 1, c.id)] })).goOn c.id []
    else s.reject c.id (.noResource, 0)
  | 1 => ({ s with mgt := { s.mgt with patrolMin := c.par 4 2 } } : State).finishOk c.id (2 ^ 32 * c.par 4 2)
  | _ => s.finishOk c.id (2 ^ 32 * s.mgt.patrolMin)

def execSelftest (src : Src) (s : State) : Out := s.order src 0x0920 selftestFields State.selftest

end Sys2Proof.Machine
end

