-- ==== Sys2Proof/Machine/FaultOps.lean ====
section
/-! DEFINITION. The events of the fault collector and the fault commands: FAULT_READ, FAULT_CLEAR, FAULT_SEVERITY and FAULT_FORCE
(R409, R414, R416, R419, R426 to R429). -/

namespace Sys2Proof.Machine

/-! ## Events -/

/-- The sensor whose warning a source is: 0 to 167 the junction sensors, 168 the coolant inlet (R409, R478). -/
def warnSensor (src : Nat) : Option Nat :=
  if src = 0xC200 then some 168
  else if 0xC000 ≤ src ∧ src < 0xC150 ∧ src % 2 = 0 then some ((src - 0xC000) / 2) else none

/-- A warning of a sensor that has not re-armed is not raised again (R478). -/
def State.rearmed (s : State) (d : Detected) : Bool :=
  match warnSensor d.source with
  | some t => !s.flt.warned.contains t
  | none => true

/-- The source is the overflow of a clock crossing: of a stack, a capacity controller, a G-port or the host port (R31, R409). -/
def isCrossing (src : Nat) : Bool :=
  let i := bitsOf src 0 12
  match bitsOf src 12 4 with
  | 3 => decide (0xE00 ≤ i) && i % 4 == 2
  | 4 => decide (0x200 ≤ i) && i % 2 == 1
  | 5 => decide (0x200 ≤ i) && decide (i < 0x2C0) && i % 8 == 3
  | 9 => i == 0x102
  | _ => false

/-- A crossing that was full dropped its newest item and counts it for its gap marker (R31, R282). DEDUCED (log 45). -/
def Faults.dropItem (f : Faults) (src : Nat) : Faults :=
  if isCrossing src then { f with crossGaps := addN src 1 f.crossGaps } else f

/-- The gap marker that stands in a crossing at the place of the dropped items (R284). -/
def Faults.crossMarker (f : Faults) (src : Nat) : Nat := gapMarker 3 (lookN src f.crossGaps) 0

/-- FAULT_EVENT: a collector round of the detected events and those that are forced. -/
def execFaultEvent (events : List Detected) (s : State) : Out :=
  let evs := events.filter s.rearmed
  let f := evs.foldl (fun x d => x.dropItem d.source) s.flt
  let t : State := { s with flt := { f with warned := sortN (f.warned ++ evs.filterMap (fun d => warnSensor d.source)) } }
  .next (t.collect evs).settle

/-- REMAP_COMPLETE: the copy of a fenced bank or channel is complete. -/
def execRemapComplete (unit : Nat) (s : State) : Out :=
  let h := unitHearth unit
  .next (s.modHe h (fun x => { x with remapping := x.remapping.filter (fun r => r.1 != unit) }))

/-- The limit source of the unit whose corrected source, kind 0, is src. -/
def limitSource (src : Nat) : Option Nat :=
  let i := bitsOf src 0 12
  match bitsOf src 12 4 with
  | 1 => if i < 132 then some (src + 396) else none
  | 3 => if i < 512 then some (src + 1536) else none
  | _ => none

/-- CORRECTED_EVENT_LIMIT: 64 corrected events of a unit within 3,600 s. -/
def execCorrectedEventLimit (source : Nat) (s : State) : Out :=
  match limitSource source with
  | some lim =>
    if 64 ≤ ((look source s.flt.corrected).getD []).length then
      .next (({ s with flt := { s.flt with corrected := del source s.flt.corrected } } : State).raise lim).settle
    else .next s
  | none => .next s

/-- The source is a handshake watchdog: of an anvil, a tile sequencer, a vector engine or the update engine (R409). -/
def isWatchdog (src : Nat) : Bool :=
  let i := bitsOf src 0 12
  match bitsOf src 12 4 with
  | 0 => (decide (i < 0x900) && i % 16 == 14) || (inRange 0x900 0x91F i && i % 4 == 2)
  | 7 => inRange 384 447 i
  | 8 => i == 2
  | _ => false

/-- HANDSHAKE_WATCHDOG: a stage stays unacknowledged for 1 ms; served: the command that the unit serves. -/
def execHandshakeWatchdog (source : Nat) (served : Option Nat) (s : State) : Out :=
  if isWatchdog source then .next (s.collect [{ source := source, served := served }]).settle else .next s

/-! ## First-error records (R419) -/

/-- The STATE byte of a record. -/
def Fer.stateByte (r : Fer) : Nat := b2n r.valid + 2 * b2n r.overflow + 4 * b2n r.forced

/-- The 64 bytes of a record. -/
def Fer.bytes (r : Fer) : List Byte :=
  if r.valid then
    leBytes r.stateByte 1 ++ leBytes r.cls 1 ++ leBytes r.source 2 ++ leBytes r.actions 1 ++ leBytes (r.maxClass + 4 * r.maxModule) 1 ++
    leBytes r.scope 2 ++ leBytes r.time 8 ++ leBytes r.unit 4 ++ leBytes r.owner 1 ++ zeros 3 ++ leBytes (r.handle + r.offset64 * 2 ^ 32) 8 ++
    leBytes r.discards 4 ++ zeros 4 ++ leBytes r.syndrome 8 ++ zeros 16
  else zeros 64

/-! ## FAULT_READ (R426) -/

def faultReadSize (c : Cmd) : Nat :=
  match c.par 0 1 with
  | 2 => 2 * c.par 2 2
  | 3 => c.par 2 2
  | 4 => 192
  | _ => 64

def faultReadFields (s : State) (c : Cmd) : List Fld :=
  let list := c.par 0 1 == 2 || c.par 0 1 == 3
  [c.ranged 0 1 0 4, ⟨2, 2, !list || inRange 1 4096 (c.par 2 2)⟩, anyVal 4 2, s.destOk c 8 (faultReadSize c)]

/-- KIND 3: the setting of a source. -/
def State.settingByte (s : State) (src : Nat) : Nat :=
  if s.srcPresent src then
    s.srcClass src + 4 * (((srcInfo src).map (·.floor)).getD 0) + 16 + 32 * b2n (s.flt.force.any (fun e => e.1 == src))
  else 0

/-- Bits of a map of n bytes. -/
def bitMap (n : Nat) (p : Nat → Bool) : List Byte :=
  leBytes (sumN ((List.range (8 * n)).map (fun i => if p i then 2 ^ i else 0))) n

/-- ANVIL_MAP: 2 bits per anvil (0 active, 1 spare, 2 under test, 3 failed). -/
def Hearth.anvilMap (x : Hearth) : List Byte :=
  leBytes (sumN ((x.anvils.zipIdx).map (fun e => e.1.shown * 4 ^ e.2))) 18

/-- The block of a hearth in the fence map. -/
def Hearth.fenceBlock (x : Hearth) : List Byte :=
  x.anvilMap ++ bitMap 4 (fun i => (x.engines.getD i {}).fenced) ++ bitMap 9 (fun i => x.banksFenced.contains i) ++
    bitMap 32 (fun i => x.pcsFenced.contains i) ++ zeros 1

/-- The 192 bytes of the fence map. -/
def State.fenceMap (s : State) : List Byte :=
  (s.he 0).fenceBlock ++ (s.he 1).fenceBlock ++ bitMap 13 (fun l => s.flt.lanesFenced.contains l) ++ bitMap 3 (fun p => s.flt.portsFenced.contains p) ++
    bitMap 2 (fun a => (s.al a).fenced) ++ zeros 46

def State.faultBytes (s : State) (c : Cmd) : List Byte :=
  match c.par 0 1 with
  | 0 => (s.flt.own.getD c.allot {}).bytes
  | 1 => s.flt.device.bytes
  | 2 => (List.range (c.par 2 2)).flatMap (fun i => leBytes (lookN (c.par 4 2 + i) s.flt.counts) 2)
  | 3 => (List.range (c.par 2 2)).flatMap (fun i => leBytes (s.settingByte (c.par 4 2 + i)) 1)
  | _ => s.fenceMap

def execFaultRead (id : Nat) (s : State) : Out :=
  s.deant id 0x0901 faultReadFields (fun t c => t.withDest c 8 (t.faultBytes c) (fun u => u.finishOk id (faultReadSize c)))

/-! ## FAULT_CLEAR (R427) -/

def faultClearFields (_ : State) (c : Cmd) : List Fld :=
  let own := c.master == .allot
  [⟨0, 1, decide (c.par 0 1 ≤ 2) && (own || c.par 0 1 != 0)⟩, anyVal 1 1, anyVal 8 8]

/-- The record matches what host software read. -/
def Fer.matched (r : Fer) (c : Cmd) : Bool := c.par 8 8 == 0 || (r.stateByte == c.par 1 1 && r.time == c.par 8 8)

def State.faultClear (s : State) (c : Cmd) : State :=
  match c.par 0 1 with
  | 0 =>
    if (s.flt.own.getD c.allot {}).matched c then
      (({ s with flt := { s.flt with own := s.flt.own.set c.allot {} } } : State).settle).finishOk c.id 0
    else s.reject c.id (.wrongState, 0)
  | 1 =>
    if s.flt.device.matched c then (({ s with flt := { s.flt with device := {} } } : State).settle).finishOk c.id 0
    else s.reject c.id (.wrongState, 0)
  | _ => ({ s with flt := { s.flt with counts := [] } } : State).finishOk c.id 0

/-- FAULT_CLEAR: of allotments' commands KIND 1 passes the arbiter, of the management controller every order (R23, R427). -/
def execFaultClear (src : Src) (s : State) : Out :=
  match src with
  | .mgmt _ => s.order src 0x0902 faultClearFields State.faultClear
  | .cmd id => match s.cmd? id with
    | some c => if c.par 0 1 = 1 then s.order src 0x0902 faultClearFields State.faultClear
                else s.deant id 0x0902 faultClearFields State.faultClear
    | none => .next s

/-! ## FAULT_SEVERITY (R428) -/

def faultSeverityFields (_ : State) (c : Cmd) : List Fld :=
  let sets := c.par 0 1 == 0
  [c.ranged 0 1 0 1, ⟨1, 1, if sets then decide (c.par 1 1 ≤ 3) else c.par 1 1 == 0⟩, anyVal 2 2,
   ⟨4, 2, if sets then inRange 1 4096 (c.par 4 2) else c.par 4 2 == 0⟩]

/-- The sources of the range that are present, with their positions. -/
def State.severityRange (s : State) (c : Cmd) : List (Nat × Nat) :=
  ((List.range (c.par 4 2)).map (fun i => (c.par 2 2 + i, i))).filter (fun e => s.srcPresent e.1)

def State.faultSeverity (s : State) (c : Cmd) : State :=
  if c.par 0 1 = 1 then s.finishOk c.id (s.srcClass (c.par 2 2))
  else
    let cls := c.par 1 1
    let rs := s.severityRange c
    match rs.find? (fun e => decide (cls < ((srcInfo e.1).map (·.floor)).getD 0)) with
    | some e => s.reject c.id (badParam 17 e.2)
    | none => ({ s with flt := { s.flt with severity := rs.foldl (fun m e => put e.1 cls m) s.flt.severity } } : State).finishOk c.id 0

def execFaultSeverity (src : Src) (s : State) : Out := s.order src 0x0903 faultSeverityFields State.faultSeverity

/-! ## FAULT_FORCE (R429) -/

def faultForceFields (s : State) (c : Cmd) : List Fld := [⟨0, 2, s.srcPresent (c.par 0 2)⟩, anyVal 8 8]

def State.faultForce (s : State) (c : Cmd) : State :=
  let src := c.par 0 2
  if s.flt.force.any (fun e => e.1 == src) then s.finish c.id .ok 1 0
  else ({ s with flt := { s.flt with force := put src (c.par 8 8) s.flt.force } } : State).finishOk c.id 0

def execFaultForce (id : Nat) (s : State) : Out := s.order (.cmd id) 0x0904 faultForceFields State.faultForce

end Sys2Proof.Machine
end

