-- ==== Sys2Proof/Machine/Boot.lean ====
section
/-! DEFINITION. The ten start-up steps with the boot journal and secure boot (R430 to R444). -/

namespace Sys2Proof.Machine

/-! ## Firmware images (R441, R442) -/

/-- The image that a byte string holds: its header fields, and the revoke requests that it carries (log 41). -/
def fwImageOf (bs : List Byte) : Image :=
  { bytes := bs, version := bytesField bs 4 4, svn := bytesField bs 8 4, keySlot := bytesField bs 0xC 1
    revokes := Config.revokeRequest (sha384N (padTo 0xB0 bs)) % 16 }

/-- The bytes of an image pass: MAGIC, LEN, BODY_HASH and SIGNATURE. -/
def imageBytesOk (bs : List Byte) : Bool :=
  let n := bytesField bs 0x10 4
  let body := (bs.drop 0x1000).take n
  bytesField bs 0 4 == 0x505A3846 && inRange 1 29356032 n && decide (0x1000 + n ≤ bs.length) && bytesField bs 8 4 ≤ 64 &&
    beNat ((bs.drop 0x20).take 48) == sha384N body && ecdsaValid (bytesField bs 0xC 1) (sha384N (bs.take 0x50)) (beNat ((bs.drop 0x50).take 96))

/-- The image is authentic under the fuses. The bytes of the image that the module carried from manufacture are not given
(log 2). -/
def Image.authentic (im : Image) (f : Fuses) : Bool :=
  decide (im.keySlot < 4) && !f.revoked.testBit im.keySlot && decide (f.svn ≤ im.svn) && (if im.bytes = [] then im.valid else imageBytesOk im.bytes)

def fwTrialB (f : Nat) : Bool := f.testBit 0
def fwTried (f : Nat) : Bool := f.testBit 1
def fwConfirming (f : Nat) : Bool := f.testBit 2

/-- FWCTL as written in one configuration write (R439). -/
def State.setFwctl (s : State) (trialB tried confirming : Bool) : State :=
  s.writeConfig (fun c => { c with fwctl := b2n trialB + 2 * b2n tried + 4 * b2n confirming })

/-- A KIND 5 record of a firmware event (log 41). -/
def State.firmwareRecord (s : State) (ev : Nat) : State := s.journal { emptyRec 5 with reason := Config.firmwareEvent ev % 2 ^ 32 }

/-- The fuses after the confirmation of an image: the fused SVN rises to the image's, and its revoke requests take effect on keys other
than its own (R442). -/
def Fuses.confirm (f : Fuses) (im : Image) : Fuses :=
  { f with svn := max f.svn im.svn, revoked := f.revoked ||| (im.revokes &&& (15 ^^^ (2 ^ im.keySlot))) }

/-- Stages 2 to 4 of a confirmation (R444): image B is copied into image A and authenticated, fuses are blown, and FWCTL clears. The copy
into image A is a staging that sets its FAILS to 0 (R433). -/
def State.finishConfirm (s : State) : State :=
  let b := s.mgt.imageB
  if b.authentic s.fuse then
    (({ s with mgt := { s.mgt with imageA := { b with valid := true }, stagedOk := false }, fuse := s.fuse.confirm b } : State).setUnit 0
      (unitByte 0 (ubSkipped (s.unitByteOf 0)) 0)).setFwctl false false false
  else s.setFwctl false false false

/-! ## One unit in one start (R433) -/

/-- What became of a unit: its byte, the way that serves it (0 normal; none: left out), and whether its normal way failed in this start. -/
structure Tried where
  byte : Nat
  way : Option Nat
  failed : Bool
  deriving DecidableEq, Repr

/-- The first of the alternatives 1 to alts that works. -/
def firstWay (works : Nat → Bool) (alts : Nat) : Option Nat := ((List.range alts).map (· + 1)).find? works

/-- The unit with byte b as this start treats it. -/
def tryUnit (b : Nat) (works : Nat → Bool) (alts : Nat) (optional : Bool) : Tried :=
  let f := ubFails b
  if f = 0 ∨ (f = 1 ∧ ubSkipped b) then
    if works 0 then ⟨0, some 0, false⟩ else ⟨unitByte (min 2 (f + 1)) false 0, firstWay works alts, true⟩
  else if optional then ⟨unitByte f true 0, none, false⟩
  else match firstWay works alts with
    | some w => ⟨unitByte f true 0, some w, false⟩
    | none => if works 0 then ⟨0, some 0, false⟩ else ⟨unitByte (min 2 (f + 1)) false 0, none, true⟩

/-- The ways of unit u that work in this trial. Unit 15 stands for the link of hearth 0 and 264 for the self-test of the management
controller's ROM, which the journal does not govern. -/
def wayWorks (t : Trial) (u way : Nat) : Bool := decide (lookN u t.fails ≤ way)

/-- GRADE of a way: 3 where the unit is left out. -/
def gradeOf (way : Option Nat) : Nat := way.getD 3

/-- The unit is tried and its byte recorded; graded units keep their grade in it. -/
def State.tryOne (s : State) (t : Trial) (u alts : Nat) (optional graded : Bool) : State × Tried :=
  let r := tryUnit (s.unitByteOf u) (wayWorks t u) alts optional
  (s.setUnit u (r.byte + (if graded then 16 * gradeOf r.way else 0)), r)

/-! ## A step -/

/-- A step's end: RESULT, REASON and STEP_DATA of its end record (R437). -/
structure StepOut where
  st : State
  result : Nat := 0
  reason : Nat := 0
  data : List Nat := []

/-- The step left nothing out, or took an alternative. -/
def altResult (b : Bool) : Nat := b2n b

/-- Step 1: the rails. -/
def State.bootRails (s : State) (t : Trial) : StepOut :=
  if t.railBad then { st := s, result := 3 } else { st := { s with dev := { s.dev with mainRails := true } } }

/-- Step 2: the self-test, and the values that the configuration store holds (R439). -/
def State.bootManagement (s : State) (t : Trial) : StepOut :=
  if wayWorks t 264 0 then
    let c := s.config
    { st := { s with
        dev := { s.dev with ckptGib := c.ckptGib, mirrorGib := c.mirrorGib }
        mgt := { s.mgt with capW := c.capW, patrolMin := c.patrolMin } } }
  else { st := s, result := 3 }

/-- An image runs. -/
def State.runImage (s : State) (b : Bool) : State :=
  { s with dev := { s.dev with imageB := b, fwVersion := (if b then s.mgt.imageB else s.mgt.imageA).version } }

/-- Step 3: the preferred image, else the other (R441, R444). other: steps 3 to 9 run again with the image that is not running. -/
def State.bootImage (s : State) (other : Bool) : StepOut :=
  if other then { st := s.runImage (!s.dev.imageB), result := 1 }
  else
    let s1 := if fwConfirming s.config.fwctl then s.finishConfirm else s
    let f := s1.config.fwctl
    if fwTrialB f && !fwTried f then
      let s2 := s1.setFwctl true true false
      if s2.mgt.imageB.authentic s2.fuse then { st := s2.runImage true }
      else if s2.mgt.imageA.authentic s2.fuse then { st := s2.runImage false, result := 1 }
      else { st := s2, result := 3 }
    else
      let s2 := if fwTrialB f then s1.firmwareRecord 6 else s1
      let r := tryUnit (s2.unitByteOf 0) (fun w => if w = 0 then s2.mgt.imageA.authentic s2.fuse else s2.mgt.imageB.authentic s2.fuse) 1 false
      let s3 := s2.setUnit 0 r.byte
      match r.way with
      | some w => { st := s3.runImage (w == 1), result := altResult (w == 1) }
      | none => { st := s3, result := 3 }

/-- A hearth as start-up leaves it out. -/
def State.leaveOut (s : State) (h : Nat) : State :=
  ({ s with dev := { s.dev with solo := h == 1 && s.isX } } : State).modHe h (fun x => { x with
    present := false, anvils := x.anvils.map (fun v => { ({} : Anvil) with fenced := v.fenced }) })

/-- Step 4: the links (R4, R440). A fenced hearth 1 stays out. -/
def State.bootLinks (s : State) (t : Trial) : StepOut :=
  if !wayWorks t 15 0 then { st := s, result := 3 }
  else
    let s1 := ({ s with dev := { s.dev with solo := false } } : State).modHe 0 (fun x => { x with present := true })
    if !s.isX then { st := s1.modHe 1 (fun x => { x with present := false }) }
    else if s.flt.hearth1Fenced then { st := s1.leaveOut 1, result := 1 }
    else
      let r := s1.tryOne t 1 0 true false
      if r.2.way = some 0 then { st := r.1.modHe 1 (fun x => { x with present := true }) }
      else { st := r.1.leaveOut 1, result := 1, reason := if r.2.failed then 0x6006 else 0 }

/-- What a fold over units gathers: the state, the units that did not take the normal way, the first that failed, and the grades. -/
structure Gathered where
  st : State
  alt : Bool := false
  failed : Option Nat := none
  grades : List Nat := []

/-- A unit of a step with its number of alternatives. -/
def Gathered.one (g : Gathered) (t : Trial) (alts : Nat) (optional graded : Bool) (u : Nat) : Gathered :=
  let r := g.st.tryOne t u alts optional graded
  { st := r.1, alt := g.alt || r.2.way != some 0, failed := if r.2.failed && g.failed.isNone then some u else g.failed
    grades := g.grades ++ [gradeOf r.2.way] }

/-- Stacks of the hearths that step 4 left in. -/
def State.bootStacks (s : State) : Nat := if (s.he 1).present then 8 else 4

/-- Step 5: the stacks. -/
def State.bootHbm (s : State) (t : Trial) : StepOut :=
  let n := s.bootStacks
  let g : Gathered := ((List.range n).map (· + 2)).foldl (fun (x : Gathered) u => x.one t 2 true true u) { st := s }
  let gr := g.grades ++ List.replicate (8 - n) 3
  let reason := match g.failed with
    | some u => 0x3E00 + 4 * (u - 2)
    | none => 0
  let s1 : State := { g.st with hearths := g.st.hearths.mapIdx (fun h x => { x with stackGrade := (gr.drop (4 * h)).take 4 }) }
  if (gr.take 4).all (· == 3) then { st := s1, result := 3, reason := reason, data := gr }
  else if n = 8 ∧ (gr.drop 4).all (· == 3) = true then { st := s1.leaveOut 1, result := 1, reason := reason, data := gr }
  else { st := s1, result := altResult g.alt, reason := reason, data := gr }

/-- The contents of the regions of tier 2 are lost (R431). -/
def State.loseRegions (s : State) : State :=
  { s with
    allots := s.allots.map (fun x => { x with mir := { x.mir with snapOpen := none, snapDone := none } })
    pair := { s.pair with peerStores := [], peerReserved := [], staged := [], peerTier3 := 0, lostPartner := none } }

/-- Step 6: the LPDDR6 controllers. A change of the set that is trained loses the regions. -/
def State.bootLpddr (s : State) (t : Trial) : StepOut :=
  let n := if s.isX then 4 else 2
  let g : Gathered := ((List.range n).map (· + 10)).foldl (fun (x : Gathered) u => x.one t 1 true true u) { st := s }
  let gr := g.grades ++ List.replicate (4 - n) 3
  let same := gr.map (· == 3) == s.dev.ctrlGrade.map (· == 3)
  let s1 : State := { g.st with dev := { g.st.dev with ctrlGrade := gr } }
  { st := if same then s1 else s1.loseRegions, result := altResult g.alt, data := gr
    reason := match g.failed with
      | some u => 0x4200 + 2 * (u - 10)
      | none => 0 }

/-- The spare map of anvils that passed: the 64 lowest are active, the others spare; the rest are failed. -/
def spareMap (fenced : List Bool) (good : List Nat) : List Anvil :=
  (List.range 72).map (fun a =>
    let i := good.findIdx (· == a)
    { ({} : Anvil) with
      fenced := fenced.getD a false
      role := if !good.contains a then .failed else if i < 64 then .active else .spare
      pos := if good.contains a && decide (i < 64) then i else 64 })

/-- Step 7 on one hearth: anvils that are fenced stay out untested. -/
def Gathered.anvils (g : Gathered) (t : Trial) (h : Nat) : Gathered :=
  let x := g.st.he h
  if !x.present then g
  else
    let free := (List.range 72).filter (fun a => !(x.anvil a).fenced)
    let r : Gathered := free.foldl (fun (y : Gathered) a => y.one t 0 true false (anvilUnit h a)) { g with grades := [] }
    let good := ((free.zip r.grades).filter (fun e => e.2 == 0)).map (·.1)
    { r with
      st := r.st.modHe h (fun y => { y with
        anvils := spareMap (y.anvils.map (·.fenced)) good, nextPatrol := 0, requests := [], raised924 := false })
      alt := r.alt || decide (free.length < 72), grades := [] }

/-- Step 7: anvil self-test and spare map; the pace word is not VALID until its next window (R29). -/
def State.bootAnvils (s : State) (t : Trial) : StepOut :=
  let g := (({ st := s } : Gathered).anvils t 0).anvils t 1
  { st := { g.st with clk := { g.st.clk with pace := g.st.clk.pace &&& 0x7FFFFFFF#32 } }
    result := altResult g.alt
    reason := match g.failed with
      | some u => anvilTestSource ((u - 16) / 72) ((u - 16) % 72)
      | none => 0
    data := [0, 1].flatMap (fun h => if (g.st.he h).present then ((g.st.he h).anvilMap).map (·.toNat) else List.replicate 18 0) }

/-- The lanes of the variant. -/
def laneCount (s : State) : Nat := if s.isX then 104 else 52

/-- Spare lanes in the order of SPARE_USE. -/
def spareLaneList : List Nat := [48, 49, 50, 51, 100, 101, 102, 103]

/-- A port with three lanes or four comes up where it is not off or fenced (log 39). -/
def State.bootPort (s : State) (p : Nat) : State :=
  let t := s.spareLanes p
  if 3 ≤ t.lanesUp p ∧ (t.port p).mode ≠ .off ∧ t.flt.portsFenced.contains p = false then t.portUp p
  else t.modPort p (fun x => { x with up := false, training := false })

/-- Step 8: the lanes. -/
def State.bootLanes (s : State) (t : Trial) : StepOut :=
  let free := (List.range (laneCount s)).filter (fun l => !s.flt.lanesFenced.contains l)
  let g : Gathered := free.foldl (fun (x : Gathered) l => x.one t 0 true false (laneUnit l)) { st := s }
  let bad := ((free.zip g.grades).filter (fun e => e.2 != 0)).map (·.1)
  let s1 : State := { g.st with fab := { g.st.fab with lanesFailed := bad, spareUse := [] } }
  let s2 := (List.range (portCount s)).foldl (fun u p => u.bootPort p) s1
  { st := s2, result := altResult (g.alt || decide (free.length < laneCount s))
    reason := match g.failed with
      | some u => 0x5000 + 312 + (u - 160)
      | none => 0
    data := (bitMap 13 (fun l => bad.contains l)).map (·.toNat) ++ spareLaneList.map (fun l => (look l s2.fab.spareUse).getD 0xFF) }

/-- The pools of allotment 0 at start-up (R266). -/
def State.startPools (s : State) : List Pool := poolNumbers.map (fun p => { quota := s.usable p / mib })

/-- The source that left hearth 1 out (R440). -/
def State.soloSource (s : State) : Nat := if ubFails (s.unitByteOf 1) = 0 then 0x3E1C else 0x6006

/-- Allotment 0 exists; what start-up found is reported. full: steps 4 and 5 belong to this start. -/
def State.bootAllot (s : State) (full : Bool) : State :=
  let s1 := s.modAl 0 (fun x => { x with live := true, pools := s.startPools, evictOff := false, compat := false })
  let s2 := if full && s1.dev.solo && !s1.flt.hearth1Fenced then s1.raiseOne { ev := event s1.soloSource, once := true } else s1
  let s3 := if s2.mgt.torn then ({ s2 with mgt := { s2.mgt with torn := false } } : State).raise 0xE002 else s2
  (s3.collect []).settle

/-- Step 9: the running image's Headgate firmware loads, or the other image is due. -/
def State.bootHeadgate (s : State) (t : Trial) (full other : Bool) : StepOut × Bool :=
  let way := b2n other
  if wayWorks t 0 way then ({ st := s.bootAllot full }, false)
  else
    let s1 := if s.dev.imageB then s else s.setUnit 0 (unitByte (min 2 (ubFails (s.unitByteOf 0) + 1)) false 0)
    if !other && s1.otherImage.authentic s1.fuse then ({ st := s1, result := 2 }, true) else ({ st := s1, result := 3 }, false)

/-- Step 10: the host link. -/
def State.bootHostLink (s : State) (t : Trial) : StepOut :=
  let r := s.tryOne t 14 2 false true
  match r.2.way with
  | some w => { st := { r.1 with dev := { r.1.dev with linkUp := true, linkGrade := w, linkWaits := false } }, result := altResult (w != 0) }
  | none => { st := { r.1 with dev := { r.1.dev with linkUp := false, linkWaits := true } }, result := 2 }

/-! ## A run of steps (R432, R436) -/

/-- The units that step n governs (R437). -/
def State.stepUnits (s : State) (n : Nat) : List Nat :=
  let h1 := s.isX && ubFails (s.unitByteOf 1) == 0 && !s.flt.hearth1Fenced && !((List.range 4).all (fun i => bitsOf (s.unitByteOf (6 + i)) 4 2 == 3))
  match n with
  | 3 => [0]
  | 4 => if s.isX then [1] else []
  | 5 => (List.range (if s.isX && ubFails (s.unitByteOf 1) == 0 && !s.flt.hearth1Fenced then 8 else 4)).map (· + 2)
  | 6 => (List.range (if s.isX then 4 else 2)).map (· + 10)
  | 7 => (List.range (if h1 then 144 else 72)).map (· + 16)
  | 8 => (List.range (laneCount s)).map (· + 160)
  | 9 => [0]
  | 10 => [14]
  | _ => []

/-- The PROGRESS field with the STARTED and FINISHED bits of these units programmed. -/
def progress (started finished : List Nat) : List Nat :=
  (List.range 66).map (fun i =>
    255 - sumN ((List.range 4).map (fun k => (if started.contains (4 * i + k) then 4 ^ k else 0) + (if finished.contains (4 * i + k) then 2 * 4 ^ k else 0))))

/-- The begin record of step n. -/
def beginRecord (n : Nat) : JRec := { emptyRec 0 with step := n, stepData := if 3 ≤ n then progress [] [] else [] }

/-- PROGRESS of the begin record SEQ is programmed. -/
def State.program (s : State) (seq : Nat) (started finished : List Nat) : State :=
  { s with mgt := { s.mgt with journal := s.mgt.journal.map (fun r =>
      if r.seq = seq ∧ r.kind = 0 ∧ 3 ≤ r.step then { r with stepData := progress started finished } else r) } }

/-- The bit of a unit in a PROGRESS field: k 0 STARTED, 1 FINISHED; true while erased. -/
def erased (data : List Nat) (u k : Nat) : Bool := (data.getD (u / 4) 255).testBit (2 * (u % 4) + k)

/-- A start-up step that never wrote its end record counts a failure of the units that it left unfinished (R433). -/
def State.countCrash (s : State) : State :=
  match (s.mgt.journal.filter (fun r => r.kind == 0 || r.kind == 1)).getLast? with
  | some r =>
    if r.kind = 0 ∧ 3 ≤ r.step then
      let us := s.stepUnits r.step
      let open_ := us.filter (fun u => !erased r.stepData u 0 && erased r.stepData u 1)
      let bad := if open_ = [] then us.filter (fun u => erased r.stepData u 1) else open_
      bad.foldl (fun t u => t.setUnit u (failedByte (t.unitByteOf u))) s
    else s
  | none => s

/-- Power is gone in a start-up step. -/
def State.cutOff (s : State) (c : CutShort) (seq : Nat) : State :=
  let t := s.program seq c.started c.finished
  { t with
    dev := { t.dev with inputUp := false, standby := false, mainRails := false, bootState := 0 }
    mgt := { t.mgt with torn := t.mgt.torn || c.torn } }

/-- The work of step n. -/
def State.bootStepOf (s : State) (n : Nat) (t : Trial) (full other : Bool) : StepOut × Bool :=
  match n with
  | 1 => (s.bootRails t, false)
  | 2 => (s.bootManagement t, false)
  | 3 => (s.bootImage other, false)
  | 4 => (s.bootLinks t, false)
  | 5 => (s.bootHbm t, false)
  | 6 => (s.bootLpddr t, false)
  | 7 => (s.bootAnvils t, false)
  | 8 => (s.bootLanes t, false)
  | 9 => s.bootHeadgate t full other
  | _ => (s.bootHostLink t, false)

/-- The module halts in step n. -/
def State.bootHalt (s : State) (n : Nat) : State := { s with dev := { s.dev with bootState := 2, failedStep := n } }

/-- The last step of the run is complete: STATE is 1 where the host link stands. -/
def State.bootDone (s : State) : State :=
  if s.dev.linkUp then { s with dev := { s.dev with bootStep := 10, bootState := 1 } } else { s with dev := { s.dev with linkWaits := true } }

/-- What follows a step: the next one, the end of the run, or steps 3 to 9 with the other image. -/
inductive AfterStep where
  | next | stop | redo
  deriving DecidableEq, Repr

/-- What a run carries besides the state: full, steps 4 and 5 belong to this start; other, it runs with the other image. -/
structure BootRun where
  trial : Trial
  full : Bool
  other : Bool := false
  /-- the unit table at the beginning of the start, from which a second run of steps 3 to 9 begins -/
  units : List (Nat × Nat)
  deriving DecidableEq, Repr

/-- Step n with its begin and end records. -/
def State.oneStep (s : State) (n : Nat) (b : BootRun) : State × AfterStep :=
  let seq := s.mgt.nextSeq
  let us := s.stepUnits n
  let s1 := s.journal (beginRecord n)
  match b.trial.cut.filter (fun c => c.step == n) with
  | some c => (s1.cutOff c seq, .stop)
  | none =>
    let r := s1.bootStepOf n b.trial b.full b.other
    let o := r.1
    let s2 := (if 3 ≤ n then o.st.program seq us us else o.st).journal
      { emptyRec 1 with step := n, result := o.result, reason := o.reason, stepData := o.data }
    if o.result = 3 then (s2.bootHalt n, .stop)
    else if r.2 then ({ s2 with dev := { s2.dev with degraded := true } }, .redo)
    else if o.result = 2 then (s2, .stop)
    else ({ s2 with dev := { s2.dev with bootStep := n, degraded := s2.dev.degraded || o.result == 1 } }, .next)

/-- Steps from n to last, with fuel. PWR_FAIL_N pauses the run before a journal record (R473), and step 10 waits for PERST_N (R487). -/
def State.runSteps : Nat → State → Nat → Nat → BootRun → State
  | 0, s, _, _, _ => s
  | fuel + 1, s, n, last, b =>
    if last < n then s.bootDone
    else if s.dev.pwrFail then { s with dev := { s.dev with paused := some (n, last) } }
    else if n = 10 ∧ s.dev.perst = true then { s with dev := { s.dev with linkWaits := true } }
    else
      let r := s.oneStep n b
      match r.2 with
      | .next => State.runSteps fuel r.1 (n + 1) last b
      | .stop => r.1
      | .redo =>
        State.runSteps fuel { r.1 with mgt := { r.1.mgt with units := putN 0 (r.1.unitByteOf 0) b.units } } 3 last { b with full := true, other := true }

/-- A run from step n to last begins or goes on. -/
def State.boot (s : State) (n last : Nat) (t : Trial) : State :=
  s.runSteps 20 n last { trial := t, full := decide (n ≤ 4), units := s.mgt.units }

/-- A start: it is counted, and what a step cut short left behind (R433, R437). -/
def State.beginStart (s : State) (first : Nat) : State :=
  let t := s.countCrash
  { t with dev := { t.dev with
      starts := t.dev.starts + 1, bootStep := first - 1, bootState := 0, failedStep := 0, paused := none
      degraded := t.dev.degraded && decide (4 < first) } }

end Sys2Proof.Machine
end

