-- ==== Sys2Proof/Machine/Resets.lean ====
section
/-! DEFINITION. Resets: ALLOT_RESET, ALLOT_DESTROY, ALLOT_CREATE, DEV_RESET, Function Level Resets, the removal and enabling of VFs,
PERST_N and loss of the host link (R303, R308, R309, R326, R335 to R338, R430, R431). -/

namespace Sys2Proof.Machine

/-! ## Replies of a reset (R308, R335 steps 2 and 3) -/

/-- Orders that R333 makes invalid, with the SUPERSEDED detail of each. -/
abbrev Superseded := List (Nat × W32)

/-- A command that a reset ends: SUPERSEDED where R333 made it invalid, else DISCARDED with the cause; what is complete stays so. -/
def State.endCommand (s : State) (c : Cmd) (cause : Nat) (sup : Superseded) : State :=
  match look c.id sup with
  | some d => if c.open then ((s.dropWork c.id).markDiscarded c).finish c.id .superseded d 0 else s
  | none => s.discard c.id .discarded 0 cause

/-- The reply of command id. -/
def State.replyOf (s : State) (id : Nat) : State :=
  match s.cmd? id with
  | some c => s.reply c
  | none => s

/-- The commands ids are ended, and then their replies are written, in the order of acceptance. -/
def State.endCommands (s : State) (cs : List Cmd) (cause : Nat) (sup : Superseded) : State :=
  let t := cs.foldl (fun u c => u.endCommand c cause sup) s
  cs.foldl (fun u c => u.replyOf c.id) t.settle

/-- The commands of allotment a that have no reply, but for one. -/
def State.commandsOf (s : State) (a : Nat) (but : Option Nat) : List Cmd :=
  s.hg.cmds.filter (fun c => c.master == .allot && c.allot == a && some c.id != but)

/-! ## The state of an allotment (R335 steps 4 and 5) -/

/-- What a reset keeps of an allotment's mirroring: the checkpoint region, the epochs and the partner's copies (R431). -/
def AllotMirror.afterReset (x : AllotMirror) : AllotMirror :=
  { snapNext := x.snapNext, snapDone := x.snapDone, snapBegan := x.snapBegan, snapCostUs := x.snapCostUs, exported := x.exported
    epochClosed := x.epochClosed, epochCommitted := x.epochCommitted, epochs := x.epochs, remote := x.remote, remoteSnap := x.remoteSnap }

/-- The allotment after steps 4 and 5: pool settings, REUSE counts and fence state stay, and every internal
allocation is released (R264, R267, R335, R453). -/
def Allot.afterReset (x : Allot) : Allot :=
  { x with
    gen := x.gen + 1
    accNext := 1
    tokens := [], dbErr := {}, objs := []
    charges := []
    temper := {}, upd := {}, progs := []
    ctr := { x.ctr with sel := [], prog := [], fixed := [0, 0, 0, 0], windowQ := none, lastWindow := none }
    mir := x.mir.afterReset }

/-- The condition's cause lies outside the allotment and is still active (R335). -/
def State.outside (s : State) (n : CondName) : Bool :=
  match n with
  | .power | .holdover | .trace | .commonMode | .feedUnknown | .suspectFeed | .suspended => true
  | .quenched => s.pair.holdOpen
  | .steering2 | .steering1 | .queueGap | .doorbell | .staleTensor | .partnerLoss | .lostObjects => false

/-- Streams of the allotment close, and its held contributions are dropped (R355, R366). -/
def State.closeStreams (s : State) (a : Nat) : State :=
  let mine := (s.fab.streams.filter (fun e => e.2.allot == a && !e.2.gone)).map (·.1)
  let t := mine.foldl (fun u i => u.closeStream none i) s
  (t.fab.held.filter (fun h => (t.group h.group).allot == a)).foldl (fun u h => u.dropHeld h) t

/-- Steps 1 to 5 of ALLOT_RESET on allotment a; issuer: the command that asked, which keeps its reply for step 6. -/
def State.resetAllot (s : State) (a cause : Nat) (issuer : Option Nat) (sup : Superseded) : State :=
  let t := (s.endCommands (s.commandsOf a issuer) cause sup).closeStreams a
  let u := t.modAl a Allot.afterReset
  ({ u with
    conds := u.conds.filter (fun c => c.allot != a || u.outside c.name)
    flt := { u.flt with own := u.flt.own.set a {} } } : State).settle

/-- Step 7: every queue of the allotment is destroyed, and ADMIN_UP clears. -/
def State.dropQueues (s : State) (a : Nat) : State :=
  ({ s with hg := { s.hg with cache := s.hg.cache.filter (fun e => e.1 != a) } } : State).modAl a (fun x => { x with
    queues := [], lastServed := none, adminClosing := false, ctr := { x.ctr with sets := [] } })

/-- Steps 6 and 7: the reset completes OK; an allotment that reset itself gets the reply on its own ring. -/
def State.endReset (s : State) (a : Nat) (c : Cmd) : State :=
  let t := s.finishOk c.id 0
  if c.master = .allot ∧ c.allot = a then (t.replyOf c.id).dropQueues a else t.dropQueues a

/-! ## ALLOT_RESET and ALLOT_DESTROY (R335, R336) -/

/-- ALLOT at offset 0 names an allotment that exists. -/
def allotResetFields (s : State) (c : Cmd) : List Fld := [⟨0, 1, decide (c.par 0 1 < 16) && c.late (s.al (c.par 0 1)).live⟩]

/-- An ALLOT_RESET that the arbiter executes. -/
def State.allotReset (sup : Superseded) (s : State) (c : Cmd) : State :=
  (s.resetAllot (c.par 0 1) 1 (some c.id) sup).endReset (c.par 0 1) c

def execAllotReset (src : Src) (s : State) : Out := s.order src 0x0A40 allotResetFields (State.allotReset [])

def allotDestroyFields (s : State) (c : Cmd) : List Fld := [⟨0, 1, inRange 1 15 (c.par 0 1) && c.late (s.al (c.par 0 1)).live⟩]

/-- The allotment stops existing: its pools and its fence end with it (R336, R423). -/
def Allot.removed (x : Allot) : Allot :=
  { x with live := false, fenced := false, stopFetch := false, pools := List.replicate 6 {}, evictOff := false, compat := false }

/-- An ALLOT_DESTROY that the arbiter executes. -/
def State.allotDestroy (sup : Superseded) (s : State) (c : Cmd) : State :=
  let a := c.par 0 1
  ((s.resetAllot a 2 (some c.id) sup).endReset a c).modAl a Allot.removed

def execAllotDestroy (id : Nat) (s : State) : Out := s.order (.cmd id) 0x0111 allotDestroyFields (State.allotDestroy [])

/-! ## ALLOT_CREATE (R303, R309, R326) -/

def allotCreateFields (s : State) (c : Cmd) : List Fld := [⟨0, 1, inRange 1 15 (c.par 0 1) && c.late (!(s.al (c.par 0 1)).live)⟩]

/-- VF a is enabled. -/
def State.vfOn (s : State) (a : Nat) : Bool := s.dev.vfEnable && decide (a ≤ s.dev.numVfs)

/-- The new allotment: no queues, no objects, token cells at 0, the pools of R266. -/
def Allot.created (x : Allot) : Allot :=
  { x.removed with live := true, gen := x.gen + 1, accNext := 1, tokens := [], queues := [], objs := [], charges := [], lastServed := none }

def State.allotCreate (s : State) (c : Cmd) : State :=
  let a := c.par 0 1
  if s.vfOn a then (s.modAl a Allot.created).finishOk c.id (((s.al a).gen + 1).toNat)
  else s.reject c.id (.noResource, 0)

def execAllotCreate (id : Nat) (s : State) : Out := s.order (.cmd id) 0x0110 allotCreateFields State.allotCreate

/-! ## What a device reset leaves (R431) -/

/-- A hearth: fences stay, and all else of the data plane is as at its reset; start-up builds the spare map. -/
def Hearth.afterReset (x : Hearth) : Hearth :=
  { x with
    anvils := x.anvils.map (fun v => { ({} : Anvil) with fenced := v.fenced })
    nextPatrol := 0, requests := [], lists := []
    engines := x.engines.map (fun e => { ({} : Engine) with fenced := e.fenced })
    runs := [], remapping := [], trace := {}, raised924 := false }

/-- An allotment: GEN rose in step 4; only REUSE counts, GEN and what the regions hold stay, and for allotment 0 its fence. -/
def Allot.wiped (x : Allot) (first : Bool) : Allot :=
  { ({} : Allot) with gen := x.gen, reuse := x.reuse, mir := x.mir.afterReset, fenced := x.fenced && first }

/-- The pair: what the mirror region holds of a partner stays. -/
def Pair.afterReset (p : Pair) : Pair :=
  { ({} : Pair) with
    peerStores := p.peerStores, peerReserved := p.peerReserved, peerLogGib := p.peerLogGib, peerTier3 := p.peerTier3
    lostPartner := p.lostPartner, partnerLosses := p.partnerLosses }

/-- The collector: the device-wide record is copied into the journal where it is VALID, and the records and counts are cleared. -/
def State.wipeRecords (s : State) : State :=
  let t := if s.flt.device.valid then s.journal { emptyRec 3 with fault := s.flt.device } else s
  { t with flt := { t.flt with
    device := {}, own := List.replicate 16 {}, counts := [], crossGaps := [], portsLeaving := [], hearth1Leaving := false } }

/-- The control plane and the data plane after steps 2 and 3 of a DEV_RESET. -/
def State.wipe (s0 : State) : State :=
  let s1 := if s0.pair.bound then s0.unbind true else s0
  let s := s1.wipeRecords
  { s with
    dev := { s.dev with lrWindows := 0 }
    hg := { s.hg with cmds := [], arb := [], lastAllot := 15, cache := [], readData := 0, tsLatch := [] }
    allots := s.allots.mapIdx (fun a x => x.wiped (a == 0))
    conds := s.conds.filter (fun c => c.name == .power || c.name == .holdover || c.name == .partnerLoss)
    hearths := s.hearths.map Hearth.afterReset
    fab := { ({} : Fabric) with wire := s.fab.wire }
    pair := s.pair.afterReset }

/-! ## DEV_RESET (R337) -/

/-- Commands of the management controller and the partner are answered as the device resets. -/
def State.answerMasters (s : State) (but : Option Nat) (sup : Superseded) : State :=
  s.endCommands (s.hg.cmds.filter (fun c => c.master != .allot && some c.id != but)) 3 sup

/-- Step 2, on allotments in their order. -/
def State.resetAll (s : State) (issuer : Option Nat) (sup : Superseded) : State :=
  allotNumbers.foldl (fun t a => t.resetAllot a 3 issuer sup) (s.answerMasters issuer sup)

/-- No ring can be reached: every command is removed without a reply (R308). -/
def State.dropAllCommands (s : State) : State :=
  let t := s.hg.cmds.foldl (fun u c => u.dropWork c.id) s
  { t with hg := { t.hg with cmds := [], arb := [] } }

/-- Steps 4 and 5: start-up runs from step 7 (KIND 0) or step 3 (KIND 1). -/
def State.restart (s : State) (kind : Nat) (t : Trial) : State :=
  let u := s.wipe
  if kind = 0 then (u.beginStart 7).boot 7 9 t
  else
    let v := { u with dev := { u.dev with linkUp := false } }
    (v.beginStart 3).boot 3 10 t

def devResetFields (_ : State) (c : Cmd) : List Fld := [c.ranged 0 1 0 1]

/-- A DEV_RESET that the arbiter executes: its reply is the last before the rings are removed. -/
def State.devReset (t : Trial) (sup : Superseded) (s : State) (c : Cmd) : State :=
  ((((s.resetAll (some c.id) sup).finishOk c.id 0).replyOf c.id).restart (c.par 0 1) t).settle

def execDevReset (src : Src) (trial : Trial) (s : State) : Out := s.order src 0x0A41 devResetFields (State.devReset trial [])

/-- A reset that reaches no ring: PERST_N or loss of the host link (R308, R337). -/
def State.silentReset (s : State) (t : Trial) : State :=
  ((allotNumbers.foldl (fun u a => u.resetAllot a 3 none []) s.dropAllCommands).restart 1 t).settle

/-! ## Function Level Resets and VFs (R303, R332) -/

/-- The order of a Function Level Reset of a VF. -/
def State.flrOrder (sup : Superseded) (s : State) (c : Cmd) : State :=
  let a := c.par 0 1
  if (s.al a).live then (s.resetAllot a 1 none sup).endReset a c else s.reject c.id (badParam 16 0)

/-- FUNCTION_LEVEL_RESET_VF. -/
def execFunctionLevelResetVf (vf : Nat) (s : State) : Out :=
  if s.reaches vf ∧ 1 ≤ vf ∧ vf ≤ 15 then .next (s.lone (.noQueue vf) opFlrVf vf (State.flrOrder [])) else .next s

/-- FUNCTION_LEVEL_RESET_PF: a warm DEV_RESET (R430). -/
def execFunctionLevelResetPf (trial : Trial) (s : State) : Out :=
  if s.dev.linkUp then .next (s.lone (.noQueue 0) 0x0A41 0 (State.devReset trial [])) else .next s

/-- The order that a removed VF gives. -/
def State.vfOrder (sup : Superseded) (s : State) (c : Cmd) : State :=
  let a := c.par 0 1
  if (s.al a).live then ((s.resetAllot a 2 none sup).endReset a c).modAl a Allot.removed else s.reject c.id (badParam 16 0)

/-- The number of VFs enabled. -/
def vfCount (on : Bool) (n : Nat) : Nat := if on then n else 0

/-- VF_REMOVAL: fewer VFs are enabled; each allotment whose VF is gone is destroyed, in increasing number. -/
def execVfRemoval (vfEnable : Bool) (numVfs : Nat) (s : State) : Out :=
  let n := vfCount vfEnable numVfs
  if s.dev.linkUp ∧ numVfs ≤ totalVfs ∧ n < vfCount s.dev.vfEnable s.dev.numVfs then
    let t : State := { s with dev := { s.dev with vfEnable := vfEnable, numVfs := numVfs } }
    .next ((allotNumbers.filter (fun a => decide (n < a) && (t.al a).live)).foldl
      (fun u a => u.lone (.noQueue a) opVfRemove a (State.vfOrder [])) t)
  else .next s

/-- VF_ENABLE: VF Enable is set, or NumVFs raised. -/
def execVfEnable (numVfs : Nat) (s : State) : Out :=
  if s.dev.linkUp ∧ numVfs ≤ totalVfs ∧ vfCount s.dev.vfEnable s.dev.numVfs ≤ numVfs then
    .next { s with dev := { s.dev with vfEnable := true, numVfs := numVfs } }
  else .next s

/-! ## PERST_N, the host link and REFCLK_PCIE (R308, R430, R481, R487) -/

/-- PERST_N_ASSERT. -/
def execPerstNAssert (trial : Trial) (s : State) : Out :=
  if s.dev.perst then .next s
  else
    let t : State := { s with dev := { s.dev with perst := true } }
    .next (if s.dev.mainRails then t.silentReset trial else t)

/-- PERST_N_DEASSERT: step 10 trains the host link where it waits. -/
def execPerstNDeassert (trial : Trial) (s : State) : Out :=
  if s.dev.perst then
    let t : State := { s with dev := { s.dev with perst := false } }
    .next (if s.dev.linkWaits ∧ s.dev.bootStep = 9 ∧ s.dev.bootState = 0 ∧ s.dev.mainRails = true then t.boot 10 10 trial else t)
  else .next s

/-- HOST_LINK_LOSS. -/
def execHostLinkLoss (trial : Trial) (s : State) : Out := if s.dev.linkUp then .next (s.silentReset trial) else .next s

/-- REFCLK_PCIE_LOSS: the host link goes down. -/
def execRefclkPcieLoss (trial : Trial) (s : State) : Out := if s.dev.linkUp then .next (s.silentReset trial) else .next s

end Sys2Proof.Machine
end

