-- ==== Sys2Proof/Machine/Power.lean ====
section
/-! DEFINITION. Power, the bellows, the time base and the pins of the standby island (R26, R29, R330, R430, R464, R465, R471 to R478,
R481, R490 to R492). -/

namespace Sys2Proof.Machine

/-! ## The power/thermal condition (R477) -/

/-- PACE field of hearth h in the pace word. -/
def State.paceField (s : State) (h : Nat) : Nat := bitsOf s.clk.pace.toNat (12 * h) 12

/-- The level that the limits of hearth h give: 2 while one holds the rail at 0.62 V, 1 while one holds it below V_TARGET and the PACE
field reads below 1,900 MHs. -/
def State.railLevel (s : State) (h : Nat) : Nat :=
  let x := s.he h
  let lim := min s.mgt.vPower x.vThermal
  if !x.present || decide (s.mgt.vTarget ≤ lim) || decide (s.mgt.vTarget ≤ x.railMv) then 0
  else if lim ≤ 620 ∧ x.railMv = 620 then 2
  else if s.clk.pace.toNat.testBit 31 ∧ s.paceField h < 1900 then 1 else 0

/-- The level of the power/thermal condition. -/
def State.powerLevel (s : State) : Nat := max (b2n s.mgt.brownHold) (max (s.railLevel 0) (s.railLevel 1))

/-- The condition follows its level on every allotment. -/
def State.powerCond (s : State) : State :=
  let n := s.powerLevel
  if n = s.mgt.powerLimit then s
  else
    let t : State := { s with mgt := { s.mgt with powerLimit := n } }
    (if n = 0 then t.dropCondAll .power else t.setCondAll .power n).settle

/-! ## The pace word (R29, R460) -/

/-- The trace's PACE record of hearth h, when its field differs by 1 % or more from the one last recorded. -/
def State.tracePace (s : State) (h : Nat) : State :=
  let n := s.paceField h
  let old := (s.he h).trace.lastPace
  let d := (n - old) + (old - n)
  if n ≠ old ∧ old ≤ 100 * d ∧ s.glob.trc.keeps 9 none = true ∧ ((s.he h).trace.state = .armed ∨ (s.he h).trace.state = .post) then
    (s.traceAt h 9 none 0 s.clk.pace.toNat).modHe h (fun x => { x with trace := { x.trace with lastPace := n } })
  else s

/-- A PACE field of a hearth in service lies below PACE_MIN. -/
def State.paceLow (s : State) : Bool :=
  [0, 1].any (fun h => (s.he h).present && decide (s.paceField h < s.glob.trc.paceMin))

/-- A PACE field of a hearth in service reads below 1,900 MHs (counter event 0x43). The monitor is a unit of the base: a window counts
once, under no hearth (log 71). -/
def State.slowWindow (s : State) : Bool := [0, 1].any (fun h => (s.he h).present && decide (s.paceField h < 1900))

/-- PACE_WINDOW: the mean pace of each hearth in MHs over the window that ends. -/
def execPaceWindow (mhs0 mhs1 : Nat) (s : State) : Out :=
  if s.dev.mainRails then
    let t := s.passTo (s.clk.lastPace + 10000)
    let sq := (bitsOf s.clk.pace.toNat 24 7 + 1) % 128
    let valid := s.clk.pace.toNat.testBit 31 || decide (7 ≤ s.dev.bootStep)
    let h1 := if (s.he 1).present then satTo 0xFFF mhs1 else 0
    let u : State := { t with clk := { t.clk with
      pace := w32 (satTo 0xFFF mhs0 + h1 * 2 ^ 12 + sq * 2 ^ 24 + b2n valid * 2 ^ 31), lastPace := t.now } }
    let v := if valid && u.slowWindow then u.count 0x43 none none none none 1 else u
    .next (((((v.tracePace 0).tracePace 1).settleWith (if valid && u.paceLow then 16 else 0) 0).powerCond))
  else .next s

/-! ## The bellows (R475) -/

/-- A limit one step of 5 mV lower or higher, within 0.62 V to 0.85 V. -/
def stepDown (v : Nat) : Nat := max 620 (v - 5)
def stepUp (v : Nat) : Nat := min 850 (v + 5)

/-- V_POWER after a tick, with the milliseconds since it fell. -/
def powerStep (v since cap avg1 avg10 : Nat) : Nat × Nat :=
  if cap < avg1 then (stepDown v, 0)
  else (if 100 * avg10 ≤ 98 * cap ∧ 10 ≤ since + 1 then stepUp v else v, since + 1)

/-- V_THERMAL after a tick. -/
def thermalStep (v limit tj : Nat) : Nat := if limit < tj then stepDown v else if tj + 2 ≤ limit then stepUp v else v

/-- The rail moves one step toward its target. -/
def railStep (v target : Nat) : Nat := if target < v then max target (v - 5) else min target (v + 5)

/-- The rail and the thermal limit of a hearth after a tick. -/
def Hearth.tick (x : Hearth) (vTarget vPower limit tj : Nat) : Hearth :=
  let vt := thermalStep x.vThermal limit tj
  { x with vThermal := vt, tj := tj, railMv := railStep x.railMv (max 620 (min vTarget (min vPower vt))) }

/-- BELLOWS_TICK: the averages of the input power over 1 ms and 10 ms in W, the hottest anvil sensor of each hearth, and the sensors that
have fallen to where their warning re-arms. The management controller holds the rails while it restarts. -/
def execBellowsTick (avg1 avg10 : Nat) (tj0 tj1 : Nat) (cooled : List Nat) (s : State) : Out :=
  if s.dev.mainRails ∧ s.mgt.restarting = false then
    let t := s.passTo (s.clk.lastTick + 1000000)
    let p := powerStep s.mgt.vPower s.mgt.sinceFall s.mgt.capW avg1 avg10
    let u : State := { t with
      clk := { t.clk with lastTick := t.now }
      mgt := { t.mgt with vPower := p.1, sinceFall := p.2, inputW := avg10 }
      flt := { t.flt with warned := t.flt.warned.filter (fun w => !cooled.contains w) }
      hearths := t.hearths.mapIdx (fun h x => x.tick t.mgt.vTarget p.1 t.mgt.tjLimit (if h = 0 then tj0 else tj1)) }
    .next u.powerCond
  else .next s

/-! ## The input (R471, R472, R477) -/

/-- An event of a kind begins at this time; attention stands till 10 s after its end. -/
def State.openBrown (s : State) (kind : Nat) : State :=
  { s with mgt := { s.mgt with
    brownOpen := if (look kind s.mgt.brownOpen).isSome then s.mgt.brownOpen else put kind s.now s.mgt.brownOpen
    brownHold := s.mgt.brownHold || kind != 2 } }

/-- BROWN_OUT; vext: the lowest input voltage in units of 10 mV. -/
def execBrownOut (vext : Nat) (s : State) : Out :=
  if s.dev.standby ∧ 4000 ≤ vext ∧ vext < 4800 then .next (((s.openBrown 0).powerCond).raise 0xB080).settle else .next s

/-- An entry of the log, which is a ring of 1,024. -/
def pushBrown (l : List BrownOut) (e : BrownOut) : List BrownOut := (l ++ [e]).drop (l.length + 1 - 1024)

/-- SAG_END: an event that began ends, and its entry is written. A PWR_FAIL_N assertion ends with its deassertion. -/
def execSagEnd (kind durUs vext : Nat) (s : State) : Out :=
  match look kind s.mgt.brownOpen with
  | none => .next s
  | some t0 =>
    if s.dev.standby ∧ (kind ≠ 1 ∨ s.dev.pwrFail = false) then
      let t := s.passTo (t0 + 1000 * durUs)
      .next { t with mgt := { t.mgt with
        brownOpen := del kind t.mgt.brownOpen
        brownLog := pushBrown t.mgt.brownLog { time := t0, durUs := satTo (2 ^ 32 - 1) durUs, vext := vext, kind := kind } } }
    else .next s

/-- The end of an entry's event. -/
def BrownOut.ends (e : BrownOut) : Nat := e.time + 1000 * e.durUs

/-- POWER_ATTENTION_EXPIRY: 10 s have passed since the last sag or PWR_FAIL_N assertion ended. -/
def execPowerAttentionExpiry (s : State) : Out :=
  if s.mgt.brownHold ∧ s.mgt.brownOpen.all (fun e => e.1 == 2) = true ∧ s.dev.pwrFail = false then
    let ended := maxN ((s.mgt.brownLog.filter (fun e => e.kind != 2)).map BrownOut.ends)
    let t := s.passTo (ended + 10000000000)
    .next ({ t with mgt := { t.mgt with brownHold := false } } : State).powerCond
  else .next s

/-- The main rails are off: the control plane and the data plane are gone. -/
def State.railsOff (s : State) : State :=
  let t := s.dropAllCommands
  { t with dev := { t.dev with mainRails := false, linkUp := false } }

/-- MAIN_RAILS_OFF; rail: the rail that first leaves regulation. -/
def execMainRailsOff (rail : Nat) (s : State) : Out :=
  if s.dev.mainRails ∧ rail < 24 then
    .next ((((s.openBrown 0).dropAllCommands).raise (0xB000 + 2 * rail)).railsOff).powerCond
  else .next s

/-- STANDBY_RAIL_OFF: the input has fallen below 36 V. -/
def execStandbyRailOff (s : State) : Out :=
  .next { s.railsOff with dev := { s.railsOff.dev with standby := false, inputUp := false } }

/-- INPUT_OVERVOLTAGE; vext: the highest input voltage. Above 64 V every rail is disconnected. -/
def execInputOvervoltage (vext : Nat) (s : State) : Out :=
  if s.dev.standby ∧ 6000 < vext then
    let t := ((s.openBrown 2).raise 0xB081).settle
    .next (if 6400 < vext then { t.railsOff with dev := { t.railsOff.dev with standby := false, inputUp := false } } else t)
  else .next s

/-! ## Power-on (R431, R439, R471) -/

/-- What the flash of the management controller keeps without power: the slots, the journal and the images. A record or slot that
PWR_FAIL_N delayed is lost. -/
def Mgmt.flash (m : Mgmt) (seq : Nat) : Mgmt :=
  { slots := m.slotsOld.getD m.slots, journal := m.journal, nextSeq := seq + 1
    units := (m.journal.getLast?.map (·.units)).getD m.units
    imageA := m.imageA, imageB := m.imageB, stagedOk := m.stagedOk, torn := m.torn }

/-- The FEED_ID value in effect: the override where it is enabled, else the straps (R491). -/
def feedValue (feed straps : Nat) : Nat := if feed.testBit 4 then feed % 16 else straps

/-- The management controller as a power-on finds it: kept where the standby rail stayed up (R471). -/
def State.coldMgmt (s : State) (keep : Bool) : Mgmt :=
  let m := if keep then { s.mgt with debugUnlocked := false, vPower := 850, sinceFall := 10 }
    else { s.mgt.flash s.newestSeq with gpioLevel := s.mgt.gpioLevel, brownHold := s.dev.pwrFail
                                        brownOpen := if s.dev.pwrFail then [(1, 0)] else [] }
  { m with powerLimit := 0, feedInEffect := feedValue s.config.feed m.feedStraps }

/-- The module as a power-on finds it: what the flash, the fuses and the host hold, and the pins. -/
def State.cold (s : State) (keep : Bool) : State :=
  { State.reset with
    dev := { ({} : Dev) with
      variant := s.dev.variant, serial := s.dev.serial, starts := s.dev.starts, perst := s.dev.perst, pwrFail := s.dev.pwrFail
      inputUp := true, standby := true }
    clk := { ({} : Clock) with
      ts := if keep then s.clk.ts else 0, present := s.clk.present, holdover := !s.clk.present
      lastPace := if keep then s.now else 0, lastTick := if keep then s.now else 0 }
    hg := { ({} : Headgate) with nextId := s.hg.nextId, responses := if keep then s.hg.responses else [] }
    host := s.host
    mgt := s.coldMgmt keep
    fuse := s.fuse
    pending := s.pending }

/-- A power-on: all ten steps run. -/
def State.startUp (s : State) (keep : Bool) (t : Trial) : State :=
  let u := s.cold keep
  let v := if u.clk.holdover then u.setCondAll .holdover 1 else u
  (((v.powerCond).beginStart 1).boot 1 10 t).settle

/-- POWER_ON: the input rises into its range. -/
def execPowerOn (trial : Trial) (s : State) : Out := if s.dev.inputUp then .next s else .next (s.startUp false trial)

/-- POWER_RESTART: after the main rails turned off the input has stayed in range for 100 ms. -/
def execPowerRestart (trial : Trial) (s : State) : Out :=
  if s.dev.starts ≠ 0 ∧ s.dev.mainRails = false then .next (s.startUp s.dev.standby trial) else .next s

/-! ## PWR_FAIL_N (R473) -/

/-- PWR_FAIL_N_ASSERT. -/
def execPwrFailNAssert (s : State) : Out :=
  if s.dev.pwrFail then .next s
  else
    let t : State := { s with dev := { s.dev with pwrFail := true } }
    .next (if s.dev.standby then (t.openBrown 1).powerCond else t)

/-- PWR_FAIL_N_DEASSERT: delayed records are written, and a start-up that paused goes on. -/
def execPwrFailNDeassert (trial : Trial) (s : State) : Out :=
  if s.dev.pwrFail then
    let t := ({ s with dev := { s.dev with pwrFail := false } } : State).flushDelayed
    .next (match t.dev.paused with
      | some (n, last) => (({ t with dev := { t.dev with paused := none } } : State).boot n last trial).settle
      | none => t)
  else .next s

/-! ## SITE_ALARM_N (R399, R490) -/

/-- SITE_ALARM_N: an assertion edge. -/
def execSiteAlarmN (s : State) : Out :=
  if s.arbUp then (if s.pair.bound then .next (s.lone .siteAlarm 0x0730 0 State.quench).settle else .next s)
  else .next { s with pair := { s.pair with alarmWaits := s.dev.standby } }

/-! ## FEED_ID (R374, R491) -/

/-- The value in effect follows the straps and the override; a change repeats the comparison. -/
def State.feedChanges (s : State) : State :=
  let v := feedValue s.config.feed s.mgt.feedStraps
  if v = s.mgt.feedInEffect then s
  else (({ s with mgt := { s.mgt with feedInEffect := v } } : State).feedMarks.sendMgmt 1 (leBytes v 1)).settle

/-- FEED_ID_SAMPLE: once per second. -/
def execFeedIdSample (straps : Nat) (s : State) : Out :=
  if s.dev.standby ∧ s.mgt.restarting = false ∧ straps < 16 then
    let l := (straps :: s.mgt.feedSamples).take 3
    let agree := decide (l.length = 3) && l.all (· == straps)
    .next ({ s with mgt := { s.mgt with feedSamples := l, feedStraps := if agree then straps else s.mgt.feedStraps } } : State).feedChanges
  else .next s

/-- The order that sets or clears the override. -/
def State.feedOrder (s : State) (c : Cmd) : State :=
  ((s.writeConfig (fun r => { r with feed := c.par 0 1 })).feedChanges).finishOk c.id 0

/-- FEED_ID_OVERRIDE. -/
def execFeedIdOverride (enable : Bool) (value : Nat) (s : State) : Out :=
  .next (s.lone .mgmt opFeedId (value % 16 + 16 * b2n enable) State.feedOrder)

/-! ## The limits that the management controller sets (R23, R26, R330, R474, R475) -/

/-- V_TARGET in mV. -/
def State.vTargetOrder (s : State) (c : Cmd) : State :=
  let v := c.par 0 2
  if inRange 620 850 v then (({ s with mgt := { s.mgt with vTarget := v } } : State).powerCond).finishOk c.id 0 else s.reject c.id (badParam 16 0)

def execVTarget (mv : Nat) (s : State) : Out := .next (s.lone .mgmt opVTarget mv State.vTargetOrder)

/-- TJ_LIMIT in degrees. -/
def State.tjLimitOrder (s : State) (c : Cmd) : State :=
  let v := c.par 0 2
  if inRange 85 100 v then ({ s with mgt := { s.mgt with tjLimit := v } } : State).finishOk c.id 0 else s.reject c.id (badParam 16 0)

def execTjLimit (celsius : Nat) (s : State) : Out := .next (s.lone .mgmt opTjLimit celsius State.tjLimitOrder)

/-- The range of POWER_CAP. -/
def State.capRange (s : State) : Nat × Nat := if s.isX then (900, 1600) else (500, 900)

/-- The lowest PACE field among the hearths in service. -/
def State.lowestPace (s : State) : Nat := if s.hearthUp 1 then min (s.paceField 0) (s.paceField 1) else s.paceField 0

def powerCapFields (_ : State) (c : Cmd) : List Fld := [c.ranged 0 1 0 1, anyVal 2 2]

def State.capResult (s : State) : Nat := s.mgt.capW % 2 ^ 16 + (s.mgt.inputW % 2 ^ 16) * 2 ^ 16 + s.lowestPace * 2 ^ 32

/-- POWER_CAP as the arbiter executes it. -/
def State.powerCap (s : State) (c : Cmd) : State :=
  if c.par 0 1 = 1 then s.finishOk c.id s.capResult
  else
    let w := c.par 2 2
    let v := max s.capRange.1 (min s.capRange.2 w)
    let t : State := { s with mgt := { s.mgt with capW := v } }
    if v = w then t.finishOk c.id t.capResult else t.finish c.id .okWithNote 1 (w128 t.capResult)

def execPowerCap (src : Src) (s : State) : Out := s.order src 0x0A01 powerCapFields State.powerCap

/-! ## References and the time base (R342, R465, R481) -/

/-- TIMEBASE_LOSS: TIMEBASE_IN has shown no edge for 1 µs. -/
def execTimebaseLoss (s : State) : Out :=
  if s.clk.present then
    .next (({ s with clk := { s.clk with present := false, holdover := true } } : State).setCondAll .holdover 1).settle
  else .next s

/-- TIMEBASE_RETURN: 1 ms after TIMEBASE_IN returned. -/
def execTimebaseReturn (s : State) : Out :=
  if s.clk.present then .next s
  else
    let t := s.passTo (s.now + 1000000)
    .next (({ t with clk := { t.clk with present := true, holdover := false } } : State).dropCondAll .holdover).settle

/-- REFCLK_SERDES_LOSS: every G-port retrains, and none returns within 100 ms (R342). -/
def execRefclkSerdesLoss (s : State) : Out :=
  let ps := (List.range (portCount s)).filter (fun p => (s.port p).up || (s.port p).training)
  if ps = [] then .next s
  else
    let t := (ps.foldl (fun u p => u.retrain p) s).passTo (s.now + 100000000)
    .next ((ps.foldl (fun u p => u.portDown p) t).collect (ps.map (fun p => event (0x5200 + 8 * p)))).settle

/-! ## The management controller (R430, R485, R492) -/

/-- MGMT_RESTART: the management island alone restarts. -/
def execMgmtRestart (s : State) : Out :=
  if s.dev.standby then .next { s with mgt := { s.mgt with restarting := true } } else .next s

/-- MANAGEMENT_CONTROLLER_RESUMES. -/
def execManagementControllerResumes (s : State) : Out := .next { s with mgt := { s.mgt with restarting := false } }

/-- GPIO_EFFECTER: drive some b sets an open-drain output low (b false) or released; level is what the outside puts on the pin. -/
def execGpioEffecter (pin : Nat) (drive : Option Bool) (level : Nat) (s : State) : Out :=
  if s.mgmtUp ∧ pin < 4 ∧ level < 2 then
    let d := match drive with
      | some b => some b
      | none => s.mgt.gpio.getD pin none
    let v := if d = some false then 0 else level
    .next { s with mgt := { s.mgt with gpio := s.mgt.gpio.set pin d, gpioLevel := s.mgt.gpioLevel.set pin v, gpioRead := v } }
  else .next s

end Sys2Proof.Machine
end

