-- ==== Sys2Proof/Machine/DeviceOps.lean ====
section
/-! DEFINITION. DEV_INFO, JOURNAL_READ, FW_STAGE and the PLDM firmware update (R331, R437, R438, R443 to R445). -/

namespace Sys2Proof.Machine

/-! ## DEV_INFO (R331) -/

/-- The bytes of a page; 0 for a page that does not exist. -/
def pageSize (p : Nat) : Nat :=
  match p with
  | 0 => 64
  | 1 => 64
  | 2 => 64
  | 3 => 768
  | _ => 0

/-- Spare banks that are not in use. -/
def Hearth.freeBanks (x : Hearth) : Nat :=
  ([64, 65].filter (fun b => !x.banksFenced.contains b && !x.bankSpares.any (fun e => e.2 == b))).length

/-- The 32 bytes of the Anvil record. -/
def Hearth.record (x : Hearth) (patrol : Nat) : List Byte :=
  let n (k : Nat) : Nat := (x.anvils.filter (fun v => v.shown == k)).length
  leBytes (n 0) 1 ++ leBytes ((x.anvils.filter (fun v => v.shown == 1 && v.free)).length) 1 ++ leBytes (n 3) 1 ++ leBytes (n 2) 1 ++ leBytes patrol 2 ++
    leBytes (64 - x.lostBanks) 1 ++ leBytes x.freeBanks 1 ++ x.anvilMap ++ zeros 6

/-- Page 0. -/
def State.identPage (s : State) : List Byte :=
  leBytes s.devIdent 8 ++ leBytes s.bootStatus 4 ++ leBytes (b2n s.fuse.sealed) 1 ++ leBytes (s.mgt.feedInEffect % 16) 1 ++ zeros 2 ++
    leBytes s.dev.serial 8 ++ zeros 40

/-- Page 1. -/
def State.anvilPage (s : State) : List Byte :=
  [0, 1].flatMap (fun h => if s.hearthUp h then (s.he h).record s.mgt.patrolMin else zeros 32)

/-- Page 2. -/
def State.poolPage (s : State) : List Byte :=
  poolNumbers.flatMap (fun p => leBytes (s.usable p) 8) ++ leBytes s.dev.ckptGib 4 ++ leBytes s.dev.mirrorGib 4 ++ zeros 8

/-- Page 3, as allotment a reads it (R280). -/
def State.usePage (s : State) (a : Nat) : List Byte :=
  allotNumbers.flatMap (fun b => poolNumbers.flatMap (fun p => leBytes (if a = 0 ∨ a = b then (s.al b).use p else 0) 8))

def State.page (s : State) (c : Cmd) : List Byte :=
  match c.par 0 1 with
  | 0 => s.identPage
  | 1 => s.anvilPage
  | 2 => s.poolPage
  | _ => s.usePage c.allot

def devInfoFields (s : State) (c : Cmd) : List Fld := [c.ranged 0 1 0 3, s.destOk c 8 (pageSize (c.par 0 1))]

def execDevInfo (id : Nat) (s : State) : Out :=
  s.deant id 0x0A10 devInfoFields (fun t c => t.withDest c 8 (t.page c) (fun u => u.finishOk id (pageSize (c.par 0 1))))

/-! ## The boot journal (R437, R438) -/

/-- Bytes 0x000 to 0xFEF of a record; erased: the PROGRESS field of a begin record reads as all ones. -/
def JRec.body (r : JRec) (erased_ : Bool) : List Byte :=
  let data := if erased_ ∧ r.kind = 0 ∧ 3 ≤ r.step then progress [] [] else r.stepData
  leBytes r.seq 8 ++ leBytes r.start 4 ++ leBytes r.kind 1 ++ leBytes r.step 1 ++ leBytes r.result 1 ++ leBytes r.image 1 ++ leBytes r.time 8 ++
    leBytes r.reason 4 ++ zeros 4 ++ r.fault.bytes ++ (List.range 512).flatMap (fun u => leBytes (lookN u r.units) 1) ++
    padTo 3472 (data.flatMap (fun d => leBytes d 1))

/-- The 4,096 bytes of a committed record. -/
def JRec.bytes (r : JRec) : List Byte := r.body false ++ leBytes (crc64 (r.body true)) 8 ++ zeros 4 ++ leBytes 0xC0A517ED 4

def journalReadFields (s : State) (c : Cmd) : List Fld :=
  let reads := c.par 0 1 == 0
  [c.ranged 0 1 0 1, c.ranged 2 2 1 (if reads then 256 else 264), ⟨8, 8, reads || c.par 8 8 == 0⟩,
   ⟨0x10, 8, s.rawRefOk c.allot (c.par 0x10 8) (if reads then 0 else 2 * c.par 2 2)⟩, ⟨0x18, 8, !reads || c.par 0x18 8 == 0⟩]

/-- ACTION 0: the records that the destination has room for, oldest first. -/
def State.journalCopy (s : State) (c : Cmd) : State :=
  let room := (s.objD c.allot (refHandle (c.par 0x10 8))).size - bitsOf (c.par 0x10 8) 32 32
  let rs := (s.mgt.journal.filter (fun r => decide (c.par 8 8 ≤ r.seq))).take (min (c.par 2 2) (room / 4096))
  s.withDest c 0x10 (rs.flatMap JRec.bytes) (fun t => t.finishOk c.id (rs.length + s.newestSeq * 2 ^ 32))

/-- FAILS and DECONFIG of a unit are cleared. -/
def clearedByte (b : Nat) : Nat := unitByte 0 (ubSkipped b) (ubGrade b)

/-- ACTION 1: listed units are cleared, in one KIND 4 record. -/
def State.journalClear (s : State) (c : Cmd) : State :=
  let n := c.par 2 2
  let ref := c.par 0x10 8
  match s.poisonOf [(c.allot, refHandle ref, bitsOf ref 32 32, 2 * n)] with
  | some p => s.meetPoison c p
  | none =>
    let us := (recordsOf 2 (s.readRef c.allot ref 1 (2 * n))).map leNat
    match us.findIdx? (fun u => !isJournalUnit u) with
    | some i => s.reject c.id (badIn i)
    | none =>
      if c.par 0x18 8 ≠ s.newestSeq then s.reject c.id (.wrongState, 0)
      else
        let t := us.foldl (fun v u => v.setUnit u (clearedByte (v.unitByteOf u))) s
        (t.journal (emptyRec 4)).finishOk c.id n

def execJournalRead (id : Nat) (s : State) : Out :=
  s.deant id 0x0A20 journalReadFields (fun t c => if c.par 0 1 = 0 then t.journalCopy c else t.journalClear c)

/-! ## Staging (R443) -/

/-- A trial runs that is not confirmed. -/
def State.trialRuns (s : State) : Bool := s.dev.imageB && fwTrialB s.config.fwctl && fwTried s.config.fwctl

/-- The slot that is not running holds this image. -/
def State.setOther (s : State) (im : Image) : State :=
  if s.dev.imageB then { s with mgt := { s.mgt with imageA := im } } else { s with mgt := { s.mgt with imageB := im } }

/-- An image is written into the slot that is not running, and authenticated. The second part tells whether it passed. -/
def State.stageImage (s : State) (bs : List Byte) : State × Bool :=
  let im := fwImageOf bs
  if im.authentic s.fuse ∧ bs ≠ [] then
    let t := s.setOther { im with valid := true }
    let u : State := { t with mgt := { t.mgt with stagedOk := true } }
    ((if s.dev.imageB then u.setUnit 0 (clearedByte (u.unitByteOf 0)) else u).firmwareRecord 0, true)
  else
    let t := s.setOther {}
    ((({ t with mgt := { t.mgt with stagedOk := false } } : State).firmwareRecord 1).raise 0xD000, false)

/-- RESULT: VERSION, SVN and state of the slot that is not running. -/
def State.stageResult (s : State) : Nat :=
  let o := s.otherImage
  let armed := !s.dev.imageB && fwTrialB s.config.fwctl && !fwTried s.config.fwctl
  o.version % 2 ^ 32 + (o.svn % 2 ^ 32) * 2 ^ 32 + (if !o.valid then 0 else if armed then 2 else 1) * 2 ^ 64

/-- ACTION 1 on a valid staged image: a trial of image B is armed; image A runs by R441 at the next start. -/
def State.activate (s : State) : State :=
  (if s.dev.imageB then s else s.setFwctl true false (fwConfirming s.config.fwctl)).firmwareRecord 2

/-- The slot that is not running holds a valid staged image. -/
def State.staged (s : State) : Bool := s.mgt.stagedOk && s.otherImage.valid

def fwStageFields (s : State) (c : Cmd) : List Fld :=
  let stages := c.par 0 1 == 0
  [c.ranged 0 1 0 4, ⟨8, 8, if stages then c.late (s.rawRefOk c.allot (c.par 8 8) (c.par 0x10 4)) else c.par 8 8 == 0⟩,
   ⟨0x10, 4, if stages then inRange 4097 29360128 (c.par 0x10 4) else c.par 0x10 4 == 0⟩]

/-- ACTION 0. -/
def State.fwStageImage (s : State) (c : Cmd) : State :=
  let ref := c.par 8 8
  let n := c.par 0x10 4
  if s.trialRuns then s.reject c.id (.wrongState, 0)
  else match s.poisonOf [(c.allot, refHandle ref, bitsOf ref 32 32, n)] with
    | some p => s.meetPoison c p
    | none =>
      let r := s.stageImage (s.readRef c.allot ref 1 n)
      if r.2 then r.1.finishOk c.id r.1.stageResult else r.1.reject c.id (.authFailed, 0)

/-- The actions of FW_STAGE. -/
def State.fwAction (s : State) (c : Cmd) : State :=
  if s.mgt.staging then s.reject c.id (.wrongState, 0)
  else match c.par 0 1 with
    | 0 => s.fwStageImage c
    | 1 =>
      if s.staged then (let t := s.activate; t.finishOk c.id t.stageResult) else s.reject c.id (.wrongState, 0)
    | 2 =>
      if s.trialRuns then
        let t := ((s.setFwctl true true true).finishConfirm).firmwareRecord 3
        t.finishOk c.id t.stageResult
      else s.reject c.id (.wrongState, 0)
    | 3 =>
      let f := s.config.fwctl
      let t := (s.setFwctl false (fwTried f) (fwConfirming f)).firmwareRecord 4
      t.finishOk c.id t.stageResult
    | _ => let t := s.firmwareRecord 5; t.finishOk c.id t.stageResult

/-- FW_STAGE as the arbiter executes it: while PWR_FAIL_N is asserted, no program or erase begins (R473). -/
def State.fwStage (s : State) (c : Cmd) : State :=
  if s.dev.pwrFail ∧ c.par 0 1 ≠ 4 then s.goOn c.id [] else s.fwAction c

def execFwStage (id : Nat) (s : State) : Out :=
  match s.working? id 0x0A30 with
  | some c => if s.dev.pwrFail then .next s else .next (s.fwAction c)
  | none => s.orderReady (.cmd id) 0x0A30 fwStageFields State.fwStage

/-! ## PLDM for firmware update (R445): one component, in the order of the DSP0267 phases (log 42) -/

/-- The numbers of the management controller's orders that stage and activate. -/
def opPldmStage : Nat := 0xF00A
def opPldmActivate : Nat := 0xF00B

def State.modPldm (s : State) (f : Pldm → Pldm) : State := { s with mgt := { s.mgt with pldm := f s.mgt.pldm } }

/-- A request that the PZ8 does not support, or that comes out of order. -/
def State.pldmRefuse (s : State) : State := s.modPldm (fun p => { p with refused := true })

/-- The phase is as expected, and the management controller answers. -/
def State.pldmAt (s : State) (p : PldmPhase) : Bool := s.mgmtUp && s.mgt.pldm.phase == p

/-- A request in phase p that is allowed goes on with f. -/
def State.pldmStep (s : State) (p : PldmPhase) (ok : Bool) (f : Pldm → Pldm) : State :=
  if !s.mgmtUp then s
  else if s.mgt.pldm.phase == p && ok then s.modPldm (fun x => { f x with refused := false }) else s.pldmRefuse

/-- RequestUpdate: the number of components. -/
def execRequestUpdate (components : Nat) (s : State) : Out :=
  let ok := components == 1 && !s.mgt.staging && !s.trialRuns
  let t := s.pldmStep .idle ok (fun _ => { phase := .learn })
  .next (if s.pldmAt .idle && ok then { t with mgt := { t.mgt with staging := true } } else t)

/-- PassComponentTable. -/
def execPassComponentTable (components : Nat) (s : State) : Out :=
  .next (s.pldmStep .learn (components == 1) (fun p => { p with phase := .ready }))

/-- UpdateComponent: the length of the image with its header. -/
def execUpdateComponent (length : Nat) (s : State) : Out :=
  .next (s.pldmStep .ready (inRange 4097 29360128 length) (fun p => { p with phase := .download, length := length, received := [] }))

/-- RequestFirmwareData: the data that the update agent returned at an offset. -/
def execRequestFirmwareData (offset : Nat) (data : Wire) (s : State) : Out :=
  let p := s.mgt.pldm
  .next (s.pldmStep .download (offset == p.received.length && decide (offset + data.length ≤ p.length)) (fun x => { x with received := x.received ++ data }))

/-- TransferComplete. -/
def execTransferComplete (s : State) : Out :=
  .next (s.pldmStep .download (s.mgt.pldm.received.length == s.mgt.pldm.length) (fun p => { p with phase := .verify }))

/-- The update ends. -/
def State.pldmEnd (s : State) : State := { s with mgt := { s.mgt with staging := false, pldm := { ({} : Pldm) with refused := s.mgt.pldm.refused } } }

/-- The order that stages the image (ACTION 0). -/
def State.pldmStage (s : State) (c : Cmd) : State :=
  let r := s.stageImage s.mgt.pldm.received
  if r.2 then ((r.1.modPldm (fun p => { p with phase := .apply, received := [], refused := false })).finishOk c.id r.1.stageResult)
  else (r.1.pldmRefuse.pldmEnd).reject c.id (.authFailed, 0)

/-- VerifyComplete: the image is authenticated as ACTION 0 does. -/
def execVerifyComplete (s : State) : Out :=
  if s.pldmAt .verify then (if s.dev.pwrFail then .next s else .next (s.lone .mgmt opPldmStage 0 State.pldmStage).settle)
  else .next (if s.mgmtUp then s.pldmRefuse else s)

/-- ApplyComplete. -/
def execApplyComplete (s : State) : Out := .next (s.pldmStep .apply true (fun p => { p with phase := .activate }))

/-- The order that activates the image (ACTION 1). -/
def State.pldmActivate (s : State) (c : Cmd) : State :=
  if s.staged then (let t := s.activate.pldmEnd; t.finishOk c.id t.stageResult) else s.reject c.id (.wrongState, 0)

/-- ActivateFirmware: a self-contained activation is not supported. -/
def execActivateFirmware (selfContained : Bool) (s : State) : Out :=
  if s.pldmAt .activate && !selfContained then .next (s.lone .mgmt opPldmActivate 0 State.pldmActivate)
  else .next (if s.mgmtUp then s.pldmRefuse else s)

end Sys2Proof.Machine
end

