-- ==== Sys2Proof/Machine/Security.lean ====
section
/-! DEFINITION. Identity, measurements, SPDM, debug access, the seal fuse and the IEEE 1149.1 port (R446 to R449). -/

namespace Sys2Proof.Machine

/-! ## Measurements (R447) -/

/-- The 2 bytes of measurement 5. -/
def State.securityState (s : State) : Nat :=
  b2n s.fuse.sealed + 2 * b2n s.mgt.debugUnlocked + 4 * b2n s.dev.imageB + 8 * b2n s.dev.solo + 16 * (s.fuse.svn % 256) + 4096 * (s.fuse.revoked % 16)

/-- The bytes of a configuration slot (R439). -/
def Config.bytes (c : Config) : List Byte :=
  leBytes c.seq 8 ++ leBytes c.ckptGib 4 ++ leBytes c.mirrorGib 4 ++ leBytes c.capW 2 ++ leBytes c.feed 1 ++ leBytes c.fwctl 1 ++
    leBytes c.macBase 8 ++ leBytes c.patrolMin 2 ++ zeros 2014 ++ (if c.committed then leBytes 0xC0A517ED 4 else zeros 4)

/-- SEQ and DIGEST of the newest committed journal record, 0 where there is none. -/
def State.newestMark (s : State) : Nat :=
  match s.mgt.journal.getLast? with
  | some r => r.seq + crc64 (r.body true) * 2 ^ 64
  | none => 0

/-- A measurement block, by index. -/
def State.measure5 (s : State) (i : Nat) : Nat :=
  match i with
  | 1 => Config.romDigest
  | 2 => s.measurement
  | 3 => if s.otherImage.valid then sha384N (padTo 0xB0 s.otherImage.bytes) else 0
  | 4 => sha384N s.config.bytes
  | 5 => s.securityState
  | _ => s.newestMark

/-! ## SPDM 1.3 (R447; the order of the requests: log 15) -/

def State.modSpdm (s : State) (f : Spdm → Spdm) : State := { s with mgt := { s.mgt with spdm := f s.mgt.spdm } }

/-- An ERROR response. -/
def State.spdmError (s : State) : State := s.modSpdm (fun x => { x with response := [], error := true })

/-- A request that is answered where ok holds. -/
def State.spdm (s : State) (ok : Bool) (f : Spdm → Spdm) : Out :=
  if !s.mgmtUp then .next s
  else .next (if ok then s.modSpdm (fun x => { f x with error := false }) else s.spdmError)

/-- Algorithms are agreed on. -/
def Spdm.ready (x : Spdm) : Bool := x.phase == .algorithms || x.phase == .exchanging || x.phase == .session

/-- A random value is drawn for a response. -/
def State.drawn (s : State) (used : Bool) : State := if used then { s with mgt := { s.mgt with draws := s.mgt.draws + 1 } } else s

/-- The random value of the next response. -/
def State.nonceNow (s : State) : Nat := Config.nonce (2 * s.mgt.draws)

/-- GET_VERSION begins a connection: SPDM 1.3. -/
def execGetVersion (s : State) : Out := s.spdm true (fun x => { x with phase := .version, response := [0x13] })

def execGetCapabilities (s : State) : Out := s.spdm (s.mgt.spdm.phase == .version) (fun x => { x with phase := .capabilities, response := [] })

/-- The algorithms by number: 0 ECDSA P-384, 1 SHA-384, 2 ECDHE on P-384, 3 AES-256-GCM; no other is supported. -/
def spdmAlgorithms : List Nat := [0, 1, 2, 3]

def execNegotiateAlgorithms (algorithms : List Nat) (s : State) : Out :=
  s.spdm (s.mgt.spdm.phase == .capabilities && spdmAlgorithms.all algorithms.contains) (fun x => { x with phase := .algorithms, response := spdmAlgorithms })

/-- The certificate chain of slot 0 (R446). -/
def State.chain (s : State) : List Byte :=
  let x := Config.certChain s.dev.serial s.measurement
  x.1 :: x.2

def execGetDigests (s : State) : Out := s.spdm s.mgt.spdm.ready (fun x => { x with response := [sha384N s.chain] })

/-- GET_CERTIFICATE: slot 0 only. -/
def execGetCertificate (slot offset length : Nat) (s : State) : Out :=
  s.spdm (s.mgt.spdm.ready && slot == 0 && decide (offset < s.chain.length)) (fun x =>
    { x with response := ((s.chain.drop offset).take length).map (·.toNat) })

/-- A response that the attestation key signs: its parts and the signature over their digest. -/
def State.signedParts (s : State) (parts : List Nat) : List Nat :=
  parts ++ [Config.attestSign s.measurement (sha384N (parts.flatMap (fun p => leBytes p 48)))]

/-- CHALLENGE: the chain's digest, both nonces and the signature. -/
def execChallenge (nonce : Nat) (s : State) : Out :=
  let ok := s.mgt.spdm.ready
  (s.drawn (ok && s.mgmtUp)).spdm ok (fun x => { x with response := s.signedParts [sha384N s.chain, nonce, s.nonceNow] })

/-- GET_MEASUREMENTS: index 0 asks for the number of blocks, 0xFF for all; signed. -/
def execGetMeasurements (index nonce : Nat) (s : State) : Out :=
  let ok := s.mgt.spdm.ready && (decide (index ≤ 6) || index == 0xFF)
  let blocks := if index = 0 then [6] else if index = 0xFF then [1, 2, 3, 4, 5, 6].map s.measure5 else [s.measure5 index]
  (s.drawn (ok && s.mgmtUp)).spdm ok (fun x => { x with response := s.signedParts (blocks ++ [nonce, s.nonceNow]) })

/-- KEY_EXCHANGE: the responder's share. -/
def execKeyExchange (share : Nat) (s : State) : Out :=
  s.spdm (s.mgt.spdm.phase == .algorithms) (fun x =>
    { x with phase := .exchanging, sessions := x.sessions + 1, response := s.signedParts [share, Config.spdmShare x.sessions] })

/-- FINISH: authentic: the requester's authentication and the session's check value hold; a session that fails raises 0xD003. -/
def execFinish (authentic : Bool) (s : State) : Out :=
  if s.mgmtUp && s.mgt.spdm.phase == .exchanging && !authentic then
    .next ((s.spdmError.modSpdm (fun x => { x with phase := .algorithms })).raise 0xD003).settle
  else s.spdm (s.mgt.spdm.phase == .exchanging) (fun x => { x with phase := .session, response := [] })

def execHeartbeat (s : State) : Out := s.spdm (s.mgt.spdm.phase == .session) (fun x => { x with response := [] })

def execKeyUpdate (s : State) : Out := s.spdm (s.mgt.spdm.phase == .session) (fun x => { x with keyUpdates := x.keyUpdates + 1, response := [] })

def execEndSession (s : State) : Out := s.spdm (s.mgt.spdm.phase == .session) (fun x => { x with phase := .algorithms, response := [] })

/-! ## Debug access and the seal fuse (R448, R449) -/

/-- The outstanding debug challenge, of 32 bytes. -/
def State.debugAsk (s : State) : Nat := Config.nonce (2 * s.mgt.debugChallenge + 1) % 2 ^ 256

/-- The digest that a debug token signs: the challenge and the serial number. -/
def State.tokenDigest (s : State) : Nat := sha384N (leBytes s.debugAsk 32 ++ leBytes s.dev.serial 8)

/-- The token grants internal debug; key 4 is the debug key. -/
def State.tokenOk (s : State) (t : DebugToken) : Bool :=
  !s.fuse.sealed && t.challenge == s.debugAsk && ecdsaValid 4 s.tokenDigest t.signature && (s.dev.bootState == 0 || s.dev.bootState == 2)

/-- Session and port keys are zeroised. -/
def State.zeroise (s : State) : State :=
  { s with
    fab := { s.fab with ports := s.fab.ports.map (fun p => { p with keyed := false, keyTx := 0, keyRx := 0 }) }
    mgt := { s.mgt with spdm := { s.mgt.spdm with phase := .none, response := [] } } }

/-- DEBUG_UNLOCK: a challenge is answered once. -/
def execDebugUnlock (token : DebugToken) (s : State) : Out :=
  if s.dev.standby = false then .next s
  else
    let used : State := { s with mgt := { s.mgt with debugChallenge := s.mgt.debugChallenge + 1 } }
    if s.tokenOk token then
      let t := if used.pair.bound then used.unbind true else used
      let u := t.zeroise
      .next (({ u with mgt := { u.mgt with debugUnlocked := true } } : State).journal (emptyRec 6)).settle
    else .next used

/-- SEAL_FUSE: within an SPDM session and with the module's serial number, in about 200 ms. -/
def execSealFuse (inSession : Bool) (serial : Nat) (s : State) : Out :=
  if s.mgmtUp ∧ inSession = true ∧ s.mgt.spdm.phase = .session ∧ serial = s.dev.serial then
    let t := s.passTo (s.now + 200000000)
    .next { t with fuse := { t.fuse with sealed := true } }
  else .next s

/-! ## The IEEE 1149.1 port (R448) -/

/-- An instruction enters the port. -/
def State.jtag (s : State) (ir : JtagIr) (dr : Nat) (driven floated : Bool) : State :=
  { s with mgt := { s.mgt with jtag := { s.mgt.jtag with ir := ir, dr := dr, driven := driven, floated := floated } } }

def execBypass (s : State) : Out := .next (s.jtag .bypass 0 false false)

def execIdcode (s : State) : Out := .next (s.jtag .idcode (Config.idcode % 2 ^ 32) false false)

/-- SAMPLE/PRELOAD: the pins enter the boundary cells. -/
def execSamplePreload (pins : Nat) (s : State) : Out :=
  let t := s.jtag .samplePreload pins false false
  .next { t with mgt := { t.mgt with jtag := { t.mgt.jtag with boundary := pins } } }

/-- EXTEST: the boundary cells drive the pins, while PERST_N is asserted. -/
def execExtest (s : State) : Out := .next (if s.dev.perst then s.jtag .extest s.mgt.jtag.boundary true false else s)

/-- CLAMP: the boundary cells drive the pins and the port bypasses, while PERST_N is asserted. -/
def execClamp (s : State) : Out := .next (if s.dev.perst then s.jtag .clamp 0 true false else s)

/-- HIGHZ: the pins float and the port bypasses, while PERST_N is asserted. -/
def execHighz (s : State) : Out := .next (if s.dev.perst then s.jtag .highz 0 false true else s)

/-- INTERNAL_DEBUG_ACCESS: on a sealed module it acts as BYPASS and raises 0xD004; without a grant it has no effect. -/
def execInternalDebugAccess (s : State) : Out :=
  if s.fuse.sealed then .next ((s.jtag .bypass 0 false false).raise 0xD004).settle
  else if s.mgt.debugUnlocked then .refused .internalDebug
  else .next s

end Sys2Proof.Machine
end

