-- ==== Sys2Proof/Machine/FenceOps.lean ====
section
/-! DEFINITION. FENCE and UNFENCE (R339, R422 to R425, R433, R434, R440). -/

namespace Sys2Proof.Machine

/-! ## Units -/

/-- The unit is fenced (R422). A hearth that start-up left out counts as fenced. -/
def State.unitFenced (s : State) (u : Nat) : Bool :=
  let h := unitHearth u
  let i := unitIndex u
  match unitType u with
  | 0 => ((s.he h).anvil i).fenced
  | 1 => ((s.he h).engines.getD i {}).fenced
  | 2 => (s.he h).banksFenced.contains i
  | 3 => (s.he h).pcsFenced.contains (i % 256)
  | 4 => s.flt.lanesFenced.contains i
  | 5 => s.flt.portsFenced.contains i
  | 6 => s.flt.hearth1Fenced || !(s.he 1).present
  | _ => (s.al i).fenced

/-- The unit is failed though not fenced: an anvil, a lane (R424). -/
def State.unitFailed (s : State) (u : Nat) : Bool :=
  match unitType u with
  | 0 => ((s.he (unitHearth u)).anvil (unitIndex u)).role == .failed
  | 4 => s.fab.lanesFailed.contains (unitIndex u)
  | _ => false

/-- The port that a lane serves; a spare lane serves that of the lane it replaces. -/
def State.lanePort (s : State) (l : Nat) : Option Nat :=
  let m := if (sparesOf 0).contains l || (sparesOf 12).contains l then look l s.fab.spareUse else some l
  m.map (fun x => if x < 52 then x / 4 else 12 + (x - 52) / 4)

/-- The port of a lane retrains, with spares in place of the lanes that are out (R339). -/
def State.retrainLane (s : State) (port : Option Nat) : State :=
  match port with
  | some p => if (s.port p).mode = .off ∨ s.flt.portsFenced.contains p = true then s.spareLanes p else ((s.retrain p).spareLanes p).pairPorts
  | none => s.freeSpares

/-! ## FENCE (R423) -/

/-- The unit word at offset 0 names a unit of the part. -/
def State.unitFld (s : State) (c : Cmd) (more : Bool) : Fld :=
  ⟨0, 4, s.unitExists (c.par 0 4) && bitsOf (c.par 0 4) 5 3 == 0 && bitsOf (c.par 0 4) 24 8 == 0 && more⟩

/-- FENCE: not of allotment 0 by itself. -/
def fenceFields (s : State) (c : Cmd) : List Fld :=
  let u := c.par 0 4
  [s.unitFld c !(unitType u == 7 && unitIndex u == 0 && c.master == .allot && c.allot == 0), c.ranged 4 1 0 1]

/-- A command accepted before the FENCE has work on hearth 1. -/
def State.busyHearth1 (s : State) (c : Cmd) : Bool :=
  s.inFlight.any (fun d => decide (d.id < c.id) &&
    (s.inScope .hearth1 none d || (d.opcode == 0x0301 && d.par 0xC 1 == 1) || (d.opcode == 0x0311 && d.par 2 1 == 1)))

/-- Every packet that port p sent is acknowledged or handed to another path. -/
def State.portQuiet (s : State) (p : Nat) : Bool := !s.fab.unacked.any (fun x => x.port == p && x.sends != 0)

/-- The unit of a graceful fence has done its issued work. -/
def State.unitIdle (s : State) (c : Cmd) (u : Nat) : Bool :=
  let h := unitHearth u
  let i := unitIndex u
  match unitType u with
  | 0 => (s.he h).idle i
  | 1 => ((s.he h).engines.getD i {}).fenced
  | 2 => !(s.he h).remapping.any (fun r => r.1 == u)
  | 3 => !(s.he h).remapping.any (fun r => r.1 == u)
  | 5 => s.portQuiet i
  | 6 => !s.busyHearth1 c
  | 7 => !s.inFlight.any (fun d => d.allot == i && d.id != c.id)
  | _ => true

/-- A unit that is idle leaves service. An allotment whose destruction ended the fence stays as it is. -/
def State.leave (s : State) (u : Nat) : State :=
  let h := unitHearth u
  let i := unitIndex u
  match unitType u with
  | 0 => if ((s.he h).anvil i).fenced then s else (s.modHe h (fun x => x.failAnvil i)).raiseShort
  | 5 => if s.flt.portsFenced.contains i then s else (s.fenceUnit u).1
  | 6 => (s.fenceUnit u).1
  | 7 => if (s.al i).stopFetch then s.modAl i (fun x => { x with fenced := true, stopFetch := false }) else s
  | _ => s

/-- A graceful fence goes on: it completes when the unit is out of service. -/
def State.fenceGo (s : State) (c : Cmd) (u : Nat) : State :=
  if s.unitFenced u ∧ unitType u ≠ 2 ∧ unitType u ≠ 3 then s.finishOk c.id 0
  else if s.unitIdle c u then (s.leave u).finishOk c.id 0
  else s

/-- What a graceful fence begins with, type by type. -/
def State.fenceBegin (s : State) (u : Nat) : State :=
  let h := unitHearth u
  let i := unitIndex u
  match unitType u with
  | 0 =>
    let x := s.he h
    let y := x.modAnvil i (fun v => { v with leaving := true })
    match x.freeSpare with
    | some sp => if (x.anvil i).role = .active ∧ sp ≠ i then s.setHe h (y.standIn i sp) else s.setHe h y
    | none => s.setHe h y
  | 1 => s.modHe h (fun x => { x with engines := modAt i (fun e =>
      if e.run.isSome then { e with draining := true } else { e with fenced := true }) x.engines })
  | 4 => ((s.fenceUnit u).1).retrainLane (s.lanePort i)
  | 5 => { s with flt := { s.flt with portsLeaving := insertN i s.flt.portsLeaving } }
  | 6 => { s with flt := { s.flt with hearth1Leaving := true } }
  | 7 => s.modAl i (fun x => { x with stopFetch := true })
  | _ => (s.fenceUnit u).1

/-- The commands that an immediate fence discarded. -/
def State.fenceHits (s : State) (before : List Cmd) : Nat :=
  (before.filter (fun c => (s.cmd? c.id).any (fun d => d.phase == .done && bitsOf d.detail.toNat 0 16 == 0xF011))).length

/-- FENCE as the arbiter executes it. -/
def State.fence (s : State) (c : Cmd) : State :=
  let u := c.par 0 4
  if s.unitFenced u then s.finish c.id .ok 1 0
  else if c.par 4 1 = 1 then
    let t := s.collect [{ source := 0xF011, syndrome := u }]
    let v := (if unitType u = 4 then t.retrainLane (s.lanePort (unitIndex u)) else t).settle
    if (v.cmd? c.id).any Cmd.open then v.finishOk c.id (v.fenceHits s.inFlight) else v
  else
    let t := (((s.goOn c.id []).collect [{ source := 0xF010, syndrome := u }]).fenceBegin u).settle
    if (t.cmd? c.id).any Cmd.open then t.fenceGo c u else t

/-- FENCE, from allotment 0 or the management controller; issued again, it goes on from where it waits. -/
def execFence (src : Src) (s : State) : Out :=
  match src with
  | .mgmt _ => s.order src 0x0910 fenceFields State.fence
  | .cmd id =>
    match s.working? id 0x0910 with
    | some c => .next (s.fenceGo c (c.par 0 4)).settle
    | none => s.order src 0x0910 fenceFields State.fence

/-! ## UNFENCE (R424) -/

def unfenceFields (s : State) (c : Cmd) : List Fld := [s.unitFld c true]

/-- The journal unit of a unit word, where it has one. -/
def journalUnit (u : Nat) : Option Nat :=
  match unitType u with
  | 0 => some (anvilUnit (unitHearth u) (unitIndex u))
  | 4 => some (laneUnit (unitIndex u))
  | 6 => some 1
  | _ => none

/-- The source that stands for a failed test in the journal. -/
def testSource (u : Nat) : Nat :=
  match unitType u with
  | 0 => anvilTestSource (unitHearth u) (unitIndex u)
  | 4 => 0x5000 + 312 + unitIndex u
  | _ => 0x6006

/-- The spare map of a hearth that returns: its anvils that are neither fenced nor deconfigured (R440). -/
def State.returnHearth (s : State) (h : Nat) : Hearth :=
  let x := s.he h
  let good := (List.range 72).filter (fun a => !(x.anvil a).fenced && !ubDeconfig (s.unitByteOf (anvilUnit h a)))
  { x with present := true, anvils := spareMap (x.anvils.map (·.fenced)) good, nextPatrol := 0, raised924 := false }

/-- The unit is back in service. -/
def State.unitBack (s : State) (u : Nat) : State :=
  let h := unitHearth u
  let i := unitIndex u
  match unitType u with
  | 0 =>
    if (s.he h).present then
      s.modHe h (fun x => ((x.modAnvil i (fun _ => { role := .spare, pos := 64 })).fillPositions).checkShort)
    else s.modHe h (fun x => x.modAnvil i (fun v => { v with fenced := false }))
  | 1 => s.modHe h (fun x => { x with engines := modAt i (fun e => { e with fenced := false, draining := false }) x.engines })
  | 2 => s.modHe h (fun x => { x with
      banksFenced := without i x.banksFenced, bankSpares := x.bankSpares.filter (fun e => e.1 != i)
      remapping := x.remapping.filter (fun r => r.1 != u) })
  | 3 => s.modHe h (fun x => { x with
      pcsFenced := without (i % 256) x.pcsFenced, pcsRemapped := without (i % 256) x.pcsRemapped, reserveShort := false
      remapping := x.remapping.filter (fun r => r.1 != u) })
  | 4 =>
    let t : State := { s with
      flt := { s.flt with lanesFenced := without i s.flt.lanesFenced }
      fab := { s.fab with lanesFailed := without i s.fab.lanesFailed } }
    match t.lanePort i with
    | some p => t.spareLanes p
    | none => t
  | 5 =>
    let t : State := { s with flt := { s.flt with portsFenced := without i s.flt.portsFenced } }
    if (t.port i).mode = .off then t else (t.portUp i).fabricGo
  | 6 =>
    let t := s.setHe 1 (s.returnHearth 1)
    { t with dev := { t.dev with solo := false }, flt := { t.flt with hearth1Fenced := false, hearth1Leaving := false } }
  | _ => s.modAl i (fun x => { x with fenced := false, stopFetch := false })

/-- UNFENCE as the arbiter executes it; pass: the unit's test passes. -/
def State.unfence (pass : Bool) (s : State) (c : Cmd) : State :=
  let u := c.par 0 4
  let j := journalUnit u
  if !s.unitFenced u && !s.unitFailed u then s.finish c.id .ok 1 0
  else if j.any (fun n => ubDeconfig (s.unitByteOf n)) then s.reject c.id (.wrongState, 2)
  else if !pass && unitType u != 7 then
    let t := match j with
      | some n => s.unitFails n (testSource u)
      | none => s
    t.reject c.id (.wrongState, 2)
  else
    let t := s.unitBack u
    let v := match j with
      | some n => t.unitPasses n
      | none => t
    (v.finishOk c.id 0).settle

def execUnfence (src : Src) (pass : Bool) (s : State) : Out := s.order src 0x0911 unfenceFields (State.unfence pass)

end Sys2Proof.Machine
end

