-- ==== Sys2Proof/Machine/Fills.lean ====
section
/-! DEFINITION. Fills and the verification of restore points (R396, R397, R401 to R405). -/

namespace Sys2Proof.Machine

/-! ## The stores of this module (R396, R397, R401) -/

/-- The committed stores of one allotment of a number, 0 for any: the epoch and the snapshot. -/
def committedStores (l : List Store) (a id : Nat) : Option Store × Option Store :=
  let c := l.filter (fun x => x.allot == a && x.committed && (id == 0 || x.id == id))
  (c.find? (fun x => x.kind == 1), c.find? (fun x => x.kind == 0))

/-- The restore point of a number among the stores of one allotment; 0 selects the latest committed: the epoch where it is consistent,
else the snapshot (R396). DEDUCED (log 36). -/
def pickStore (l : List Store) (a id : Nat) : Option Store :=
  let c := committedStores l a id
  match c.1 with
  | some e => if e.stale = 0 then some e else c.2
  | none => c.2

/-- The committed store of the checkpoint region. -/
def State.ckptStore (s : State) (a id : Nat) : Option Store := pickStore ((s.al a).mir.snapDone.toList) a id

/-- A committed store of the partner's copies in the mirror region. -/
def State.regionStore (s : State) (a id : Nat) : Option Store := pickStore s.pair.peerStores a id

/-- A store of the source that a grant or a local fill names: 0 and 3 the mirror region, 1 and 4 the checkpoint region. -/
def State.sourceStore (s : State) (source a id : Nat) : Option Store :=
  if source = 0 ∨ source = 3 then s.regionStore a id else s.ckptStore a id

/-! ## Chunks of a fill (R402) -/

/-- Chunks are numbered through the tensors in manifest order: the tensor and the chunk in it. -/
def locateChunk : List FillTensor → Nat → Option (FillTensor × Nat)
  | [], _ => none
  | t :: r, k => if k < chunkCount t.bytes then some (t, k) else locateChunk r (k - chunkCount t.bytes)

def Fill.total (f : Fill) : Nat := sumN (f.tensors.map (fun t => chunkCount t.bytes))

/-- Chunk k is verified; a chunk of a tensor that is not mapped needs nothing. -/
def Fill.has (f : Fill) (k : Nat) : Bool :=
  f.verified.contains k || (match locateChunk f.tensors k with
    | some (t, _) => t.handle == 0
    | none => true)

/-- The leading chunks verified. -/
def Fill.cursor (f : Fill) : Nat := ((List.range f.total).takeWhile f.has).length

def Fill.mark (f : Fill) (k : Nat) : Fill := { f with verified := insertN k f.verified }

/-- Chunk k of the store with its bytes. -/
def Store.chunk (x : Store) (k : Nat) : List Byte :=
  let rec go : List StoredTensor → Nat → List Byte
    | [], _ => []
    | t :: r, j => if j < chunkCount t.bytes then chunkBytes t.data t.bytes j else go r (j - chunkCount t.bytes)
  go x.tensors k

/-- The tensors of a manifest as a fill sees them; chunks: their chunk digests in chunk order, or none known. -/
def fillTensors : List StoredTensor → List Nat → List FillTensor
  | [], _ => []
  | t :: r, ds =>
    let n := chunkCount t.bytes
    { mirrorId := t.mirrorId, fmt := t.fmt, smode := t.smode, method := t.method, bytes := t.bytes, copyStep := t.copyStep, digest := t.digest,
      chunks := if ds.length < n then [] else ds.take n } :: fillTensors r (ds.drop n)

/-- What is known of the bytes of a range of chunks. -/
structure ChunkSrc where
  /-- chunk number, first read, second read -/
  wire : List (Nat × Wire × Wire) := []
  /-- the host address of the first chunk of the range (SOURCE 2) -/
  host : Nat := 0
  first : Nat := 0

/-- How a range of chunks ended. -/
inductive FillEnd where
  | ok
  | waits
  | lost
  | hostError
  | bad (chunk : Nat)
  deriving DecidableEq, Repr

/-- Chunk j of the target object stands there with the manifest's chunk digest. -/
def State.chunkPresent (s : State) (f : Fill) (t : FillTensor) (j : Nat) : Bool :=
  let o := s.objD f.allot t.handle
  let off := j * mib
  match t.chunks[j]? with
  | some d => (o.poisonIn off (chunkLen t.bytes j)).isNone && crc64 (o.read off (chunkLen t.bytes j)) == d
  | none => false

/-- Chunk j of tensor t is written into its object. -/
def State.writeChunk (s : State) (f : Fill) (t : FillTensor) (j : Nat) (bs : List Byte) : State :=
  ((s.dropShadow f.allot t.handle).writeObj f.allot t.handle (j * mib) bs).staleWrite f.allot t.handle

/-- The host address of chunk k when the chunks of the range lie one after another from its first (SOURCE 2). DEDUCED (log 37). -/
def Fill.hostAt (f : Fill) (src : ChunkSrc) (k : Nat) : Nat :=
  src.host + sumN ((List.range (k - src.first)).map (fun i => match locateChunk f.tensors (src.first + i) with
    | some (t, j) => chunkLen t.bytes j
    | none => 0))

/-- The two reads of chunk k, or how the range ends without them. -/
def State.chunkReads (s : State) (f : Fill) (src : ChunkSrc) (k n : Nat) : Except FillEnd (List Byte × List Byte) :=
  match f.source with
  | 2 => match s.hostRead (f.hostAt src k) n with
    | some bs => .ok (bs, bs)
    | none => .error .hostError
  | 0 | 1 => if s.fab.peersDown.contains f.peer then .error .lost
    else match src.wire.find? (fun e => e.1 == k) with
      | some e => .ok (e.2.1, e.2.2)
      | none => .error .waits
  | _ => match f.store with
    | some x => .ok (x.chunk k, x.chunk k)
    | none => .error .waits

/-- A read has the length of the chunk and its digest, where one is known. -/
def chunkGood (t : FillTensor) (j : Nat) (bs : List Byte) : Bool :=
  bs.length == chunkLen t.bytes j && (match t.chunks[j]? with
    | some d => crc64 bs == d
    | none => true)

/-- The state with the fill changed. -/
def State.setFill (s : State) (f : Fill) : State := { s with pair := { s.pair with fill := some f } }

/-- Chunk k of the range: skipped, found in place, or read, checked and written (R402). -/
def State.fillOne (s : State) (f : Fill) (src : ChunkSrc) (k : Nat) : State × Fill × FillEnd :=
  match locateChunk f.tensors k with
  | none => (s, f, .ok)
  | some (t, j) =>
    if f.has k then (s, f, .ok)
    else if s.chunkPresent f t j then (s, f.mark k, .ok)
    else match s.chunkReads f src k (chunkLen t.bytes j) with
      | .error e => (s, f, e)
      | .ok (x, y) =>
        if chunkGood t j x then (s.writeChunk f t j x, f.mark k, .ok)
        else if chunkGood t j y then (s.writeChunk f t j y, f.mark k, .ok)
        else (s, f, .bad k)

/-- The chunks of a range, until one ends it. -/
def State.fillRange (s : State) (f : Fill) (src : ChunkSrc) : List Nat → State × Fill × FillEnd
  | [] => (s, f, .ok)
  | k :: r =>
    let x := s.fillOne f src k
    match x.2.2 with
    | .ok => x.1.fillRange x.2.1 src r
    | .waits | .lost | .hostError | .bad _ => x

/-- The command ends as its range did: RESULT on success is res. A range that waits leaves the state as it was. -/
def State.fillDone (s0 : State) (c : Cmd) (x : State × Fill × FillEnd) (res : Fill → Nat) : State :=
  let t := x.1.setFill x.2.1
  match x.2.2 with
  | .ok => t.finishOk c.id (res x.2.1)
  | .waits => s0
  | .lost => (t.modCmd c.id (fun d => { d with wrote := true })).discard c.id .faultContained 0x5300 0
  | .hostError => t.hostFailed c 0
  | .bad k => t.finish c.id .authFailed 0 (w128 k)

/-! ## FILL_BEGIN (R401, R405) -/

def fillBeginFields (s : State) (c : Cmd) : List Fld :=
  let target := c.par 4 1 == 0
  [⟨0, 4, c.par 0 4 != 0⟩, c.ranged 4 1 0 1, ⟨5, 1, decide (c.par 5 1 ≤ if target then 4 else 1)⟩,
   ⟨6, 2, decide (c.par 6 2 < 16384) || (target && decide (2 ≤ c.par 5 1))⟩, anyVal 8 8, anyVal 0x10 4, anyVal 0x14 4,
   ⟨0x18, 8, !target || (c.par 0x20 4 == 0 && c.par 0x18 8 == 0) || c.late (s.rawRefOk c.allot (c.par 0x18 8) (8 * c.par 0x20 4))⟩, anyVal 0x20 4,
   c.ranged 0x24 1 0 1, anyVal 0x28 8]

/-- ROLE 1: the grant. RESULT reports the cursor of a grant of the same FILL_ID that it ends. DEDUCED (log 37). -/
def State.fillGrant (s : State) (c : Cmd) : State :=
  let i := c.par 0 4
  let old := s.pair.grants.find? (fun (g : Grant) => g.fillId == i)
  let rest := s.pair.grants.filter (fun g => g.fillId != i)
  match s.sourceStore (c.par 5 1) c.allot (c.par 8 8) with
  | none => s.reject c.id (.wrongState, 0)
  | some x =>
    if 8 ≤ rest.length then s.reject c.id (.noResource, 0)
    else
      let g : Grant := { fillId := i, target := c.par 6 2, source := c.par 5 1, kind := x.kind, storeId := x.id, made := s.now }
      ({ s with pair := { s.pair with grants := rest ++ [g] } } : State).finishOk c.id ((old.map (·.cursor)).getD 0)

/-- The manifest that the fill reads: its bytes, its chunk digests and the local store. -/
structure FillManifest where
  bytes : List Byte
  digests : List Nat := []
  store : Option Store := none

/-- The host memory's manifest at HOST_ADDR: its header, then its entries and signature. -/
def State.hostManifest (s : State) (ha : Nat) : Except FillEnd FillManifest :=
  match s.hostRead ha 64 with
  | none => .error .hostError
  | some h =>
    let n := 64 + 32 * bytesField h 4 4 + (if bitOf (bytesField h 2 2) 0 then 96 else 0)
    match s.hostRead ha n with
    | some bs => .ok { bytes := bs }
    | none => .error .hostError

/-- A remote manifest as it arrives: chunk digests stand behind it, 8 bytes each. -/
def wireManifest (w : Wire) : FillManifest :=
  let m := sumN ((storeOf w).tensors.map (fun t => chunkCount t.bytes))
  let n := w.length - 8 * m
  { bytes := w.take n, digests := (pieces 8 (w.drop n)).map leNat }

/-- The manifest of a local store. -/
def localManifest (x : Store) : FillManifest :=
  { bytes := x.bytes, digests := x.tensors.flatMap (fun t => t.chunks), store := some x }

/-- The manifest of a ROLE 0 FILL_BEGIN. -/
def State.fillManifest (s : State) (c : Cmd) (w : Wire) : Except FillEnd (Option FillManifest) :=
  match c.par 5 1 with
  | 2 => (s.hostManifest (c.par 0x28 8)).map some
  | 3 => .ok (if c.par 0x10 4 = s.pair.lostPartner.getD s.pair.partner then (s.regionStore c.allot (c.par 8 8)).map localManifest else none)
  | 4 => .ok ((s.ckptStore c.allot (c.par 8 8)).map localManifest)
  | _ => if s.fab.peersDown.contains (c.par 6 2) then .error .lost else if w = [] then .error .waits else .ok (some (wireManifest w))

/-- Pair i of the map fits its manifest entry. -/
def State.mapOk (s : State) (c : Cmd) (ts : List FillTensor) (p : Nat × Nat) : Bool :=
  let o := s.objD c.allot p.2
  match ts.find? (fun t => t.mirrorId == p.1) with
  | some t => s.nameable c.allot p.2 && (if o.t.raw then t.fmt == 0 && t.smode == 0 else o.t.fmt == t.fmt && o.t.smode == t.smode) &&
      o.mirrorBytes == t.bytes
  | none => false

/-- ROLE 0: the fill opens and takes the chunks before RESUME. -/
def State.fillOpen (s : State) (c : Cmd) (w : Wire) (chunks : List (Nat × Wire × Wire)) : State :=
  let busy := match s.pair.fill with
    | some f => !f.committed && f.fillId != c.par 0 4
    | none => false
  if busy then s.reject c.id (.wrongState, 0)
  else match s.fillManifest c w with
    | .error .waits => s
    | .error .hostError => s.hostFailed c 0
    | .error _ => s.discard c.id .faultContained 0x5300 0
    | .ok none => s.reject c.id (.wrongState, 0)
    | .ok (some m) =>
      let x := storeOf m.bytes
      let map := (recordsOf 8 (s.readRef c.allot (c.par 0x18 8) 1 (8 * c.par 0x20 4))).map (fun b => (bytesField b 0 4, bytesField b 4 4))
      let ts := fillTensors x.tensors m.digests
      if x.committed = false ∨ (c.par 8 8 ≠ 0 ∧ x.id ≠ c.par 8 8) then s.reject c.id (.wrongState, 0)
      else match map.findIdx? (fun p => !s.mapOk c ts p) with
        | some i => s.reject c.id (badIn i)
        | none =>
          let f : Fill := { fillId := c.par 0 4, allot := c.allot, source := c.par 5 1, peer := c.par 6 2, temper := bitOf (c.par 0x24 1) 0
                            storeId := x.id, step := x.step, layers := x.temper, manifest := m.bytes, store := m.store
                            tensors := ts.map (fun t => { t with handle := ((map.find? (fun p => p.1 == t.mirrorId)).map (·.2)).getD 0 }) }
          let r := if c.par 5 1 = 2 then [] else List.range (min (c.par 0x14 4) f.total)
          s.fillDone c ((s.setFill f).fillRange f { wire := chunks } r) (fun _ => 0)

/-- FILL_BEGIN. -/
def State.fillBegin (s : State) (c : Cmd) (w : Wire) (chunks : List (Nat × Wire × Wire)) : State :=
  if c.par 4 1 = 1 then s.fillGrant c
  else match if c.par 0x18 8 = 0 then none else s.poisonOf [(c.allot, refHandle (c.par 0x18 8), bitsOf (c.par 0x18 8) 32 32, 8 * c.par 0x20 4)] with
    | some p => s.meetPoison c p
    | none => s.fillOpen c w chunks

/-- A FILL_BEGIN of this target that still needs bytes from its source stays presented. -/
def State.fillNeeds (s : State) (c : Cmd) (w : Wire) : Bool :=
  c.par 4 1 == 0 && decide (c.par 5 1 ≤ 1) && !s.fab.peersDown.contains (c.par 6 2) && w == []

def execFillBegin (id : Nat) (manifest : Wire) (chunks : List (Nat × Wire × Wire)) (s : State) : Out :=
  match s.fresh? id 0x0720 with
  | none => .next s
  | some c =>
    if s.fillNeeds c manifest then .next s
    else s.orderReady (.cmd id) 0x0720 fillBeginFields (fun t d => t.fillBegin d manifest chunks)

/-- FILL_GRANT_EXPIRY: 24 hours have passed (log 5). -/
def execFillGrantExpiry (fillId : Nat) (s : State) : Out :=
  match s.pair.grants.find? (fun (g : Grant) => g.fillId == fillId) with
  | none => .next s
  | some g =>
    let t := s.passTo (g.made + 24 * 3600 * 1000000000)
    .next { t with pair := { t.pair with grants := t.pair.grants.filter (fun x => x.fillId != fillId) } }

/-- FILL_READ: a granted read is served; the grant's cursor counts the leading chunks served. -/
def execFillRead (fillId chunk : Nat) (s : State) : Out :=
  match s.pair.grants.find? (fun (g : Grant) => g.fillId == fillId) with
  | none => .next s
  | some g =>
    let l := if g.source = 0 then s.pair.peerStores else s.allots.filterMap (fun x => x.mir.snapDone)
    match l.find? (fun x => x.allot == 0 && x.kind == g.kind && x.id == g.storeId) with
    | none => .next s
    | some x =>
      .next { s with pair := { s.pair with
        served := [(fillId, chunk, x.chunk chunk)]
        grants := s.pair.grants.map (fun y => if y.fillId = fillId ∧ y.cursor = chunk then { y with cursor := chunk + 1 } else y) } }

/-! ## FILL_CHUNK (R402) -/

def fillChunkFields (_ : State) (_ : Cmd) : List Fld := [anyVal 0 4, anyVal 4 4, anyVal 8 4, anyVal 0x10 8]

/-- FILL_CHUNK over its range. -/
def State.fillChunk (s : State) (c : Cmd) (chunks : List (Nat × Wire × Wire)) : State :=
  match s.pair.fill with
  | none => s.reject c.id (.wrongState, 0)
  | some f =>
    if f.committed ∨ f.fillId ≠ c.par 0 4 then s.reject c.id (.wrongState, 0)
    else
      let first := c.par 4 4
      let r := (List.range (min (c.par 8 4) (f.total - first))).map (fun i => first + i)
      s.fillDone c (s.fillRange f { wire := chunks, host := c.par 0x10 8, first := first } r) Fill.cursor

def execFillChunk (id : Nat) (chunks : List (Nat × Wire × Wire)) (s : State) : Out :=
  s.deant id 0x0721 fillChunkFields (fun t c =>
    let u := t.fillChunk c chunks
    if (u.cmd? id).all (fun d => d.phase == .done) then u else s)

/-! ## FILL_COMMIT (R403) -/

def fillCommitFields (_ : State) (_ : Cmd) : List Fld := [anyVal 0 4]

/-- The mapped tensors and the manifest match their digests. -/
def State.fillSound (s : State) (f : Fill) : Bool :=
  let x := storeOf f.manifest
  x.digestNow == x.digest && f.tensors.all (fun t => t.handle == 0 || tensorDigest (s.objD f.allot t.handle).t.data t.bytes == t.digest)

/-- Residuals of the filled W masters are cleared and their working copies rewritten. -/
def State.refreshMasters (s : State) (c : Cmd) (hs : List Nat) : State :=
  let a := c.allot
  let t := s.modLayers a (fun _ l => if hs.contains l.wMaster && l.wMaster != 0 then { l with residual := l.residual.map (fun _ => []) } else l)
  (t.temper a).layers.foldl (fun u e =>
    if hs.contains e.2.wMaster && e.2.wMaster != 0 && u.hasCopy a e.2 then u.copyFrom c a e.1 else u) t

/-- Steps 1 to 5 of R403. -/
def State.fillEffect (s : State) (c : Cmd) (f : Fill) : State :=
  let hs := (f.tensors.map (·.handle)).filter (· != 0)
  let t := s.refreshMasters c hs
  let t1 := if f.temper then t.restoreTemper f.allot f.layers else t
  let t2 := hs.foldl (fun u h => u.staleWrite f.allot h) t1
  (t2.setFill { f with committed := true }).finishOk c.id (f.step % 2 ^ 64 + (f.storeId % 2 ^ 64) * 2 ^ 64)

/-- FILL_COMMIT. The grant of the fill on this module, where there is one, ends. -/
def State.fillCommit (s : State) (c : Cmd) : State :=
  match s.pair.fill with
  | none => s.reject c.id (.wrongState, 0)
  | some f =>
    if f.committed ∨ f.fillId ≠ c.par 0 4 then s.reject c.id (.wrongState, 0)
    else if f.cursor < f.total then s.finish c.id .wrongState 0 (w128 f.cursor)
    else match s.poisonOf ((f.tensors.filter (fun t => t.handle != 0)).map (fun t => (f.allot, t.handle, 0, t.bytes))) with
      | some p => s.meetPoison c p
      | none =>
        if s.fillSound f then
          let t := s.fillEffect c f
          { t with pair := { t.pair with grants := t.pair.grants.filter (fun g => g.fillId != f.fillId) } }
        else s.finish c.id .authFailed 0 0

def execFillCommit (id : Nat) (s : State) : Out := s.order (.cmd id) 0x0722 fillCommitFields State.fillCommit

/-! ## RESTORE_VERIFY (R397) -/

/-- An entry to verify: the recorded digest, the chunk digests known of it, and the digests of what stands there now. -/
structure Checked where
  digest : Nat
  known : List Nat := []
  now : List Nat

/-- The first chunk of an entry that does not match, counted in the entry. -/
def Checked.badChunk (x : Checked) : Option Nat :=
  if digestOf x.now = x.digest then none
  else some (((x.now.zipIdx).findIdx? (fun e => x.known[e.2]?.any (· != e.1))).getD 0)

/-- The first entry that does not match: its index and chunk number. -/
def firstWrong : List Checked → Nat → Nat → Option (Nat × Nat)
  | [], _, _ => none
  | x :: r, i, base => match x.badChunk with
    | some k => some (i, base + k)
    | none => firstWrong r (i + 1) (base + x.now.length)

/-- The signature stands: under the running image's attestation key, or under another module's. -/
def State.signedOk (s : State) (x : Store) : Bool :=
  !x.isSigned || x.signature == Config.attestSign s.measurement x.signedDigest || ecdsaValid 16 x.signedDigest x.signature

/-- The entries of a store checked against its own bytes. -/
def Store.checks (x : Store) : List Checked := x.tensors.map (fun t => { digest := t.digest, known := t.chunks, now := chunkDigests t.data t.bytes })

/-- The entries of a store checked against objects: handles by MIRROR_ID. -/
def State.checksOf (s : State) (a : Nat) (x : Store) (handle : Nat → Nat) : List Checked :=
  x.tensors.map (fun t => { digest := t.digest, known := t.chunks
                            now := chunkDigests (s.objD a (handle t.mirrorId)).t.data t.bytes })

/-- The store that ID names for SOURCE 2: the manifest of the fill, else one of the checkpoint or the mirror region. DEDUCED
(log 37). -/
def State.anyManifest (s : State) (a id : Nat) : Option Store :=
  let fromFill := match s.pair.fill with
    | some f =>
      let x := storeOf f.manifest
      let ds (m : Nat) : List Nat := ((f.tensors.find? (fun y => y.mirrorId == m)).map (·.chunks)).getD []
      if f.allot = a ∧ (id = 0 ∨ f.storeId = id) then some { x with tensors := x.tensors.map (fun t => { t with chunks := ds t.mirrorId }) } else none
    | none => none
  match fromFill with
  | some x => some x
  | none => match s.ckptStore a id with
    | some x => some x
    | none => s.regionStore a id

/-- The store that a RESTORE_VERIFY checks. -/
def State.verifyStore (s : State) (c : Cmd) : Option Store :=
  let id := c.par 8 8
  match c.par 0 1 with
  | 0 => s.ckptStore c.allot id
  | 1 => match s.regionStore c.allot id with
    | some x => some x
    | none => (committedStores s.pair.peerStores c.allot id).1
  | 2 => s.anyManifest c.allot id
  | _ => if s.pair.bound then (s.al c.allot).mir.remote.filter (fun x => x.committed && (id == 0 || x.id == id)) else none

def restoreVerifyFields (s : State) (c : Cmd) : List Fld :=
  let n := match s.anyManifest c.allot (c.par 8 8) with
    | some x => x.tensors.length
    | none => 0
  [c.ranged 0 1 0 3, anyVal 8 8, ⟨0x10, 8, c.par 0 1 != 2 || n == 0 || s.rawRefOk c.allot (c.par 0x10 8) (8 * n)⟩]

/-- The handle that the check reads for a MIRROR_ID. -/
def State.verifyHandle (s : State) (c : Cmd) (x : Store) (m : Nat) : Nat :=
  if c.par 0 1 = 2 then
    let map := (recordsOf 8 (s.readRef c.allot (c.par 0x10 8) 1 (8 * x.tensors.length))).map (fun b => (bytesField b 0 4, bytesField b 4 4))
    ((map.find? (fun p => p.1 == m)).map (·.2)).getD 0
  else (((s.al c.allot).mir.tensors.find? (fun t => t.mirrorId == m)).map (·.handle)).getD 0

/-- RESTORE_VERIFY as far as it can go: SOURCE 3 needs the partner. -/
def State.restoreVerify (s : State) (c : Cmd) : State :=
  if c.par 0 1 = 3 ∧ s.pair.bound = true ∧ s.pairPortUp = false then s.goOn c.id []
  else match s.verifyStore c with
    | none => s.reject c.id (.wrongState, 0)
    | some x =>
      let h := s.verifyHandle c x
      let objs := decide (2 ≤ c.par 0 1)
      match if objs then s.poisonOf (x.tensors.map (fun t => (c.allot, h t.mirrorId, 0, t.bytes))) else none with
      | some p => s.meetPoison c p
      | none =>
        let cs := if objs then s.checksOf c.allot x h else x.checks
        match firstWrong cs 0 0 with
        | some (i, k) => s.finish c.id .authFailed (badIn i).2 (w128 k)
        | none =>
          if x.digestNow = x.digest ∧ s.signedOk x = true then s.finishOk c.id 0
          else s.finish c.id .authFailed (badIn x.tensors.length).2 0

/-- RESTORE_VERIFY: issued again, it goes on from where it waits. -/
def execRestoreVerify (id : Nat) (s : State) : Out :=
  match s.started? id 0x0740 with
  | none => .next s
  | some c => if s.ready c then .next (s.judged c (restoreVerifyFields s c) (s.restoreVerify c)) else .next s

end Sys2Proof.Machine
end

