-- ==== Sys2Proof/Machine/Arbiter.lean ====
section
/-! DEFINITION. The state arbiter: precedence, state objects and supersession, and a round of several orders (R316, R318, R332 to
R334). -/

namespace Sys2Proof.Machine

/-! ## Precedence (R332) -/

/-- The precedence of an order. -/
def Cmd.precedence (c : Cmd) : Nat :=
  match c.master with
  | .siteAlarm => 0
  | .mgmt => 1
  | .partner => 2
  | .noQueue _ => 3
  | .allot => if c.allot = 0 then 3 else 4

/-- The place of an order within a round: its precedence, then for allotments the allotment and the queue; an order without a queue
before the queued orders of allotment 0. -/
def Cmd.place (c : Cmd) : Nat :=
  c.precedence * 2 ^ 48 + (match c.master with
    | .siteAlarm => 0
    | .mgmt => 0
    | .partner => 0
    | .noQueue a => a
    | .allot => (c.allot + 1) * 2 ^ 32 + c.queue)

/-- The orders that wait, in the order of the round. -/
def State.roundOrders (s : State) : List Nat :=
  (sortBy (fun c => (c.place, c.id)) (s.hg.arb.filterMap s.cmd?)).map (·.id)

/-- Supersession DETAIL with this order as the winner (R318). -/
def Cmd.winner (c : Cmd) : W32 :=
  match c.master with
  | .siteAlarm => w32 0
  | .mgmt => w32 1
  | .partner => w32 2
  | .noQueue _ => w32 (3 + 8)
  | .allot => w32 (c.precedence + c.allot * 16 + c.queue * 256)

/-! ## State objects (R333) -/

/-- A state object: its row of the table and its number within the row. -/
abbrev StateObj := Nat × Nat

/-- The keys of the pair's bound ports. -/
def State.keyObjs (s : State) : List StateObj :=
  ((s.fab.ports.zipIdx).filter (fun e => e.1.bound)).flatMap (fun e => [(11, 2 * e.2), (11, 2 * e.2 + 1)])

/-- The state objects that an order sets. -/
def Cmd.sets (c : Cmd) : List StateObj :=
  match c.opcode with
  | 0x0110 => [(1, c.par 0 1)]
  | 0x0A40 => [(1, c.par 0 1)]
  | 0xF006 => [(1, c.par 0 1)]
  | 0x0210 => if c.par 0 1 = 0 then [(1, c.par 1 1)] else [(2, 0)]
  | 0x0A01 => if c.par 0 1 = 0 then [(3, 0)] else []
  | 0x0910 => [(4, c.par 0 4)]
  | 0x0911 => [(4, c.par 0 4)]
  | 0x0920 => match c.par 0 1 with
    | 0 => [(6, 72 * c.par 1 1 + c.par 2 1)]
    | 1 => [(5, 0)]
    | _ => []
  | 0x0903 => if c.par 0 1 = 0 then (List.range (c.par 4 2)).map (fun i => (7, c.par 2 2 + i)) else []
  | 0x0902 => if c.par 0 1 = 1 then [(8, 0)] else []
  | 0x0904 => [(9, c.par 0 2)]
  | 0x0701 => [(10, 0)]
  | 0xF004 => [(11, 2 * c.par 0 1 + c.par 1 1)]
  | 0x0730 => [(12, 0)]
  | 0x0750 => if c.par 0 1 = 0 then [(13, 0)] else []
  | 0x0601 => if c.par 0 1 = 1 then (List.range (c.par 0x12 2)).map (fun i => (14, c.par 0x10 2 + i)) else []
  | 0x0602 => [(14, c.par 0 2)]
  | 0x0720 => [(15, c.par 0 4)]
  | 0x0A30 => if c.par 0 1 = 4 then [] else [(16, 0)]
  | 0xF00A => [(16, 0)]
  | 0xF00B => [(16, 0)]
  | 0x0801 => [(17, 0)]
  | 0x0810 => [(18, 0)]
  | 0x0820 => [(19, 0)]
  | 0xF005 => [(20, 0)]
  | _ => []

/-- The state objects that an order removes. -/
def State.removes (s : State) (c : Cmd) : List StateObj :=
  match c.opcode with
  | 0x0111 => [(1, c.par 0 1)]
  | 0xF007 => [(1, c.par 0 1)]
  | 0x0702 => (10, 0) :: s.keyObjs
  | 0xF003 => (10, 0) :: s.keyObjs
  | 0x0722 => [(15, c.par 0 4)]
  | _ => []

/-- The allotment that an order names without setting it: in the unit word of a FENCE or an UNFENCE, or as the owner of a group
(PEER_MAP KIND 2). -/
def Cmd.namedAllot (c : Cmd) : List StateObj :=
  if (c.opcode = 0x0910 ∨ c.opcode = 0x0911) ∧ unitType (c.par 0 4) = 7 then [(1, unitIndex (c.par 0 4))]
  else if c.opcode = 0x0601 ∧ c.par 0 1 = 2 then [(1, c.par 0x12 1)]
  else []

/-- What the earlier orders of a round set and removed, each with its winner, and the DEV_RESET among them. -/
structure RoundMem where
  sets : List (StateObj × W32) := []
  removed : List (StateObj × W32) := []
  device : Option W32 := none
  deriving DecidableEq, Repr

/-- The first winner over some object of a list. -/
def winnerOver (m : List (StateObj × W32)) (l : List StateObj) : Option W32 := (m.find? (fun e => l.contains e.1)).map (·.2)

/-- The winner that makes an order invalid: a DEV_RESET, the removal of an object that the order names, or the setting of one that
it sets. -/
def State.invalid (s : State) (m : RoundMem) (c : Cmd) : Option W32 :=
  match m.device with
  | some d => some d
  | none =>
    match winnerOver m.removed (c.sets ++ s.removes c ++ c.namedAllot) with
    | some d => some d
    | none => winnerOver m.sets c.sets

/-- An order that the arbiter executes enters the round's memory. -/
def State.remember (s : State) (m : RoundMem) (c : Cmd) : RoundMem :=
  { sets := m.sets ++ c.sets.map (fun o => (o, c.winner))
    removed := m.removed ++ (s.removes c).map (fun o => (o, c.winner))
    device := if c.opcode = 0x0A41 then some c.winner else m.device }

/-! ## Executing one order -/

/-- The fields that an order is judged by. -/
def State.orderFields (s : State) (c : Cmd) : List Fld :=
  match c.opcode with
  | 0x0110 => allotCreateFields s c
  | 0x0111 => allotDestroyFields s c
  | 0x0210 => poolSetFields s c
  | 0x0601 => peerMapFields s c
  | 0x0602 => routeRewriteFields s c
  | 0x0701 => pairBindFields s c
  | 0x0702 => pairUnbindFields s c
  | 0x0720 => fillBeginFields s c
  | 0x0722 => fillCommitFields s c
  | 0x0730 => quenchFields s c
  | 0x0750 => fleetRateFields s c
  | 0x0801 => ctrConfigFields s c
  | 0x0810 => traceConfigFields s c
  | 0x0820 => timeMeasureFields s c
  | 0x0902 => faultClearFields s c
  | 0x0903 => faultSeverityFields s c
  | 0x0904 => faultForceFields s c
  | 0x0910 => fenceFields s c
  | 0x0911 => unfenceFields s c
  | 0x0920 => selftestFields s c
  | 0x0A01 => powerCapFields s c
  | 0x0A30 => fwStageFields s c
  | 0x0A40 => allotResetFields s c
  | 0x0A41 => devResetFields s c
  | _ => [anyVal 0 112]

/-- The effect of an order, by its opcode. -/
def State.orderBody (s : State) (out : Outside) (sup : Superseded) (c : Cmd) : State :=
  match c.opcode with
  | 0x0110 => s.allotCreate c
  | 0x0111 => s.allotDestroy sup c
  | 0x0210 => s.poolSet c
  | 0x0601 => s.peerMapRead c
  | 0x0602 => s.routeRewrite c
  | 0x0701 => s.pairBind c
  | 0x0702 => s.pairUnbind c
  | 0x0720 => s.fillBegin c [] []
  | 0x0722 => s.fillCommit c
  | 0x0730 => s.quench c
  | 0x0750 => s.setFleetRate c
  | 0x0801 => s.ctrConfig c
  | 0x0810 => s.traceConfig c
  | 0x0820 => s.measureRange c out.timing
  | 0x0902 => s.faultClear c
  | 0x0903 => s.faultSeverity c
  | 0x0904 => s.faultForce c
  | 0x0910 => s.fence c
  | 0x0911 => s.unfence (!out.testFails.contains (c.par 0 4)) c
  | 0x0920 => s.selftest c
  | 0x0A01 => s.powerCap c
  | 0x0A30 => s.fwStage c
  | 0x0A40 => s.allotReset sup c
  | 0x0A41 => s.devReset out.trial sup c
  | 0xF001 => s.tier3Order c
  | 0xF002 => s.reserveOrder c
  | 0xF003 => s.unbindOrdered c
  | 0xF004 => s.keyOrder c
  | 0xF005 => s.feedOrder c
  | 0xF006 => s.flrOrder sup c
  | 0xF007 => s.vfOrder sup c
  | 0xF008 => s.vTargetOrder c
  | 0xF009 => s.tjLimitOrder c
  | 0xF00A => s.pldmStage c
  | 0xF00B => s.pldmActivate c
  | _ => s.reject c.id (.badOpcode, 0)

/-- The order can be executed in this round: the arbiter takes it, its lists may be read, and it needs no bytes from a remote
source. -/
def State.takes (s : State) (c : Cmd) : Bool :=
  s.arbTakes c.opcode && c.phase == .started && s.hg.arb.contains c.id &&
  (c.master != .allot || s.ready c) && !s.resetWaits c && !(c.opcode == 0x0720 && s.fillNeeds c [])

/-- The order was executed with its effect: it completed with no code of 0x10 or above (R333). -/
def State.effective (s : State) (id : Nat) : Bool :=
  match s.cmd? id with
  | some c => c.phase != .done || decide (c.code.num < 0x10)
  | none => true

/-- The later orders that would be invalid after this memory, with their details. -/
def State.supersededBy (s : State) (m : RoundMem) (rest : List Nat) : Superseded :=
  rest.filterMap (fun i => match s.cmd? i with
    | some d => (s.invalid m d).map (fun w => (i, w))
    | none => none)

/-- The orders of a round, one after the other. -/
def State.roundGo (out : Outside) : List Nat → State → RoundMem → State
  | [], s, _ => s
  | id :: rest, s, m =>
    match s.cmd? id with
    | none => State.roundGo out rest s m
    | some c =>
      if s.takes c then
        let t := s.takeOrder id
        match t.invalid m c with
        | some d => State.roundGo out rest (t.finish id .superseded d 0) m
        | none =>
          let m1 := t.remember m c
          let u := t.judged c (t.orderFields c) ((t.noteNames c (t.namesNow c)).orderBody out (t.supersededBy m1 rest) c)
          State.roundGo out rest u (if u.effective id then m1 else m)
      else State.roundGo out rest s m

/-- An edge of SITE_ALARM_N that no arbiter could take is taken up when one runs (R490). -/
def State.takeAlarm (s : State) : State :=
  if s.pair.alarmWaits ∧ s.arbUp = true then
    let t : State := { s with pair := { s.pair with alarmWaits := false } }
    if t.pair.bound then t.present { t.mgmtCmd 0x0730 0 with master := .siteAlarm } else t
  else s

/-- ARBITER_ROUND: every order presented is executed or completes SUPERSEDED. -/
def execArbiterRound (out : Outside) (s : State) : Out :=
  let t := s.takeAlarm
  .next (t.roundGo out t.roundOrders {}).settle

end Sys2Proof.Machine
end

