-- ==== Sys2Proof/Machine/Headgate.lean ====
section
/-! DEFINITION. The life of a Deant command in the Headgate: fetching and acceptance with the tests of R314, the start, and the
reply (R286 to R296, R306, R307, R314, R315, R319, R453 to R455). -/

namespace Sys2Proof.Machine

/-! ## The packet at a fetch pointer (R294) -/

/-- The n slots at the fetch pointer of a ring; none where an access completes with an error. -/
def State.slotsAt (s : State) (d : QDesc) (n : Nat) : Option (List Byte) :=
  (List.range n).foldl (fun acc i => match acc, s.hostRead (d.base.toNat + 128 * ((d.devPtr + i) % 2 ^ d.log2)) 128 with
    | some bs, some more => some (bs ++ more)
    | _, _ => none) (some [])

/-- What stands at the fetch pointer: nothing published, a part of a packet, an access that fails, or the slots of a packet. -/
inductive AtHead where
  | empty | part | broken
  | packet (bytes : List Byte)
  deriving DecidableEq, Repr

/-- The head of a ring. -/
def State.atHead (s : State) (d : QDesc) : AtHead :=
  if d.count = 0 then .empty
  else match s.slotsAt d 1 with
    | none => .broken
    | some h =>
      let n := bytesField h 2 1 % 4 + 1
      if d.count < n then .part
      else match s.slotsAt d n with
        | none => .broken
        | some bs => .packet bs

/-- PARAM_LEN as far as the packet goes. -/
def paramLen (bs : List Byte) : Nat := min (bytesField bs 0xC 2) (bs.length - 16)

/-- The command of a packet, as yet without identity. Parameter bytes beyond PARAM_LEN read as 0. -/
def cmdOf (a q rq : Nat) (bs : List Byte) : Cmd :=
  { id := 0, allot := a, queue := q, replyQ := rq, opcode := bytesField bs 0 2, flags := bytesField bs 2 2, tag := w32 (bytesField bs 4 4)
    dep := bytesField bs 8 4, plen := paramLen bs, params := bytesField bs 0x10 (paramLen bs) }

/-! ## The tests of R314 -/

/-- The offsets of the slot fields that break a rule (R14, R294, R295, R319). -/
def badSlot (bs : List Byte) : List Nat :=
  let flags := bytesField bs 2 2
  let op := bytesField bs 0 2
  let dep := bytesField bs 8 4
  (if bitsOf flags 3 5 != 0 || bitsOf flags (if op = 0x0502 then 10 else 8) 8 != 0 then [2] else []) ++
  (if bytesField bs 4 4 = 0xFFFFFFFF then [4] else []) ++
  (if dep ≠ 0 ∧ tokCell dep = 0 then [8] else []) ++
  (if bs.length - 16 < bytesField bs 0xC 2 then [0xC] else []) ++
  (if bytesField bs 0xE 2 = 0 then [] else [0xE])

/-- Test 3. -/
def slotOk (bs : List Byte) : Verdict :=
  match badSlot bs with
  | [] => none
  | o :: _ => some (badParam o 0)

/-- The fields that the inline parameters of a command are judged by. -/
def State.fieldsOf (s : State) (c : Cmd) : List Fld :=
  match c.opcode with
  | 0x0100 => nopFields s c
  | 0x0101 => qCreateFields s c
  | 0x0102 => qDestroyFields s c
  | 0x0103 => flushFields s c
  | 0x0120 => watchFields s c
  | 0x0201 => objCreateFields s c
  | 0x0202 => objFreeFields s c
  | 0x0203 => objMoveFields s c
  | 0x0204 => objPinFields s c
  | 0x0205 => objCopyFields s c
  | 0x0301 => tileRunFields s c
  | 0x0310 => progLoadFields s c
  | 0x0311 => progRunFields s c
  | 0x0320 => barrierFields s c
  | 0x0321 => tokenWaitFields s c
  | 0x0401 => temperSetFields s c
  | 0x0402 => temperReadFields s c
  | 0x0403 => statsReadFields s c
  | 0x0404 => scaleSetFields s c
  | 0x0405 => gridLoadFields s c
  | 0x0406 => spillSetFields s c
  | 0x0410 => []
  | 0x0501 => updNormFields s c
  | 0x0502 => updApplyFields s c
  | 0x0503 => updFreezeFields s c
  | 0x0504 => updRuleFields s c
  | 0x0610 => collBeginFields s c
  | 0x0611 => tailPolicyFields s c
  | 0x0620 => streamOpenFields s c
  | 0x0621 => streamCloseFields s c
  | 0x0703 => mirrorSetFields s c
  | 0x0710 => []
  | 0x0711 => snapCommitFields s c
  | 0x0721 => fillChunkFields s c
  | 0x0740 => restoreVerifyFields s c
  | 0x0802 => ctrReadFields s c
  | 0x0811 => traceReadFields s c
  | 0x0901 => faultReadFields s c
  | 0x0A10 => devInfoFields s c
  | 0x0A20 => journalReadFields s c
  | _ => s.orderFields c

/-- Test 4 of a command: its inline parameters, and for UPD_APPLY its two storm flags (R156). -/
def State.judgeParams (s : State) (c : Cmd) : Verdict :=
  if c.opcode = 0x0502 then s.judgeApply c else s.judgeInline c (s.fieldsOf c)

/-- Open WATCH commands of an allotment, this one left out. -/
def State.openWatches (s : State) (c : Cmd) : Nat :=
  (s.hg.cmds.filter (fun d => d.master == .allot && d.allot == c.allot && d.opcode == 0x0120 && d.open && d.id != c.id)).length

/-- The tests of R314 at acceptance. -/
def State.judge (s : State) (c : Cmd) (bs : List Byte) : Verdict :=
  firstBad [need (s.opExists c.opcode) (.badOpcode, 0), need c.permitted (.notPermitted, 0), slotOk bs, s.judgeParams c,
    need (!(c.opcode == 0x0120 && decide (16 ≤ s.openWatches c))) (.noResource, 0)]

/-! ## Acceptance (R289, R295, R296) -/

/-- The rings of an allotment fetch: it exists, its fence lets it, and no graceful fence has begun (R423). -/
def Allot.fetches (x : Allot) : Bool := x.live && !x.fenced && !x.stopFetch

/-- The queue engine fetches: the host link is up and the device is not halted (R308). -/
def State.fetching (s : State) : Bool := s.arbUp && s.dev.linkUp

/-- A STEP_MARK of the allotment is in progress (R150). -/
def State.marking (s : State) (a : Nat) : Bool :=
  s.hg.cmds.any (fun c => c.master == .allot && c.allot == a && c.opcode == 0x0410 && c.open)

/-- The reply ring of a command ring has room for k entries (R289). -/
def State.replyRoom (s : State) (a : Nat) (d : QDesc) (k : Nat) : Bool :=
  match s.queue? a d.replyQ with
  | some r => r.reply && !r.stopped && decide (k ≤ r.free)
  | none => false

/-- Queue q of allotment a has a complete command that can be accepted, or an access of it fails. -/
def State.offers (s : State) (a q : Nat) (d : QDesc) : Bool :=
  !d.reply && !d.stopped && !d.destroying &&
  (match s.atHead d with
   | .empty => false
   | .part => false
   | .broken => true
   | .packet bs =>
     let c := cmdOf a q d.replyQ bs
     (decide (0 < d.partialResv) || s.replyRoom a d c.entries) && !(c.opcode == 0x0301 && s.marking a))

/-- The queues of an allotment that offer a command, in increasing number. -/
def State.offering (s : State) (a : Nat) : List Nat :=
  if (s.al a).fetches then sortN (((s.al a).queues.filter (fun e => s.offers a e.1 e.2)).map (·.1)) else []

/-- The first number of a list after n, else the first (R296). -/
def nextAfter (n : Option Nat) (l : List Nat) : Option Nat :=
  match n with
  | none => l.head?
  | some k => match l.find? (fun x => decide (k < x)) with
    | some x => some x
    | none => l.head?

/-- The allotment and the queue whose turn it is. -/
def State.turn (s : State) : Option (Nat × Nat) :=
  if s.fetching then
    match nextAfter (some s.hg.lastAllot) (allotNumbers.filter (fun a => s.offering a != [])) with
    | some a => (nextAfter (s.al a).lastServed (s.offering a)).map (fun q => (a, q))
    | none => none
  else none

/-- A command enters the table of commands in flight; it is judged, a POOL_SET that clears COMPAT releases the copies (R273), and the
names of its parameter block are noted. -/
def State.enter (s : State) (c : Cmd) (bs : List Byte) : State :=
  let t : State := { s with hg := { s.hg with cmds := s.hg.cmds ++ [c], nextId := s.hg.nextId + 1 } }
  match t.judge c bs with
  | some v => t.reject c.id v
  | none => (t.dropCopies c).noteNames c c.inlineNames

/-- A COLL_BEGIN takes the default policy and deadline that its group has at its acceptance (R368). -/
def State.tailNow (s : State) (c : Cmd) : Cmd :=
  match look (c.par 2 2) s.fab.groups with
  | some g => if c.opcode = 0x0610 then { c with tail := g.tail, tailUs := g.deadline } else c
  | none => c

/-- The complete packet bs at the head of queue q is accepted. -/
def State.accept (s : State) (a q : Nat) (d : QDesc) (bs : List Byte) : State :=
  let c0 := cmdOf a q d.replyQ bs
  let c := s.tailNow { c0 with id := s.hg.nextId, acc := (s.al a).accNext, gen := (s.al a).gen, tAccept := s.now }
  let t := ((s.dropPartial a q).modQ a q (fun x => { x with devPtr := (x.devPtr + bs.length / 128) % x.mod })).modQ a d.replyQ
    (fun r => { r with resv := r.resv + c.entries })
  let u := ({ t with hg := { t.hg with lastAllot := a } } : State).modAl a (fun x => { x with
    accNext := x.accNext + 1, lastServed := some q })
  (u.enter c bs).settle

/-- The published slots of the incomplete packet at the head of queue q are fetched, once the reply entries of its command are
reserved (R289, R297). -/
def State.fetchPart (s : State) (a q : Nat) (d : QDesc) : State :=
  match s.slotsAt d 1 with
  | none => (s.ringError a q).settle
  | some h =>
    let k := (cmdOf a q d.replyQ h).entries
    if 0 < d.partialResv then s.modQ a q (fun x => { x with partialSlots := x.count })
    else if s.replyRoom a d k then
      (s.modQ a d.replyQ (fun r => { r with resv := r.resv + k })).modQ a q (fun x => { x with partialSlots := x.count, partialResv := k })
    else s

/-- COMMAND_ACCEPT: the queue whose turn it is gives a command; the slots of an incomplete packet are fetched and wait. -/
def execCommandAccept (allot queue : Nat) (s : State) : Out :=
  match s.queue? allot queue with
  | none => .next s
  | some d =>
    if s.turn = some (allot, queue) then
      match s.atHead d with
      | .packet bs => .next (s.accept allot queue d bs)
      | .broken => .next (s.ringError allot queue).settle
      | .empty | .part => .next s
    else if s.fetching && (s.al allot).fetches && !d.reply && !d.stopped && !d.destroying && s.atHead d == .part then
      .next (s.fetchPart allot queue d)
    else .next s

/-! ## The start (R315, R319, R453 to R455) -/

/-- The command belongs to the window queue and is counted. -/
def State.windowCmd (s : State) (c : Cmd) : Bool :=
  (s.al c.allot).ctr.windowQ == some c.queue && c.opcode != 0x0801

/-- An earlier command of the queue that holds the later ones: one that has not started, a BARRIER, a held UPD_APPLY, or any
command of the window queue. -/
def State.holds (s : State) (d : Cmd) : Bool :=
  d.open && (d.phase == .accepted || d.opcode == 0x0320 || (d.opcode == 0x0502 && d.phase == .held) || s.windowCmd d)

/-- The queue lets the command start. -/
def State.queueClear (s : State) (c : Cmd) : Bool :=
  !(s.earlier c).any (fun d => d.queue == c.queue && s.holds d)

/-- The command is counted and opens a delta set. -/
def State.counted (s : State) (c : Cmd) : Bool := c.opcode != 0x0801 && (c.ctrRec || s.windowCmd c)

/-- A delta set is free, and no CTR_CONFIG accepted before is at work on the allotment's counters. -/
def State.setFree (s : State) (c : Cmd) : Bool :=
  decide ((s.al c.allot).ctr.sets.length < 32) &&
  !(s.earlier c).any (fun d => d.opcode == 0x0801 && d.par 0 1 != 1)

/-- The start latch. -/
def State.openSet (s : State) (c : Cmd) : State :=
  s.modAl c.allot (fun x => { x with ctr := { x.ctr with sets := x.ctr.sets ++
    [{ cmd := c.id, acc := c.acc, window := s.windowCmd c, tStart := s.now, configGen := x.ctr.configGen }] } })

/-- A command with its delta set presents its order to the arbiter where it has one (R316). -/
def State.presentCmd (s : State) (c : Cmd) : State :=
  if c.arbitrated then { s with hg := { s.hg with arb := s.hg.arb ++ [c.id] } } else s

/-- The start latch of a counted command, as far as a set is free; then its order. -/
def State.latch (s : State) (c : Cmd) : State :=
  if s.counted c then
    if s.setFree c then ((s.openSet c).modCmd c.id (fun d => { d with waitSet := false })).presentCmd c
    else s.modCmd c.id (fun d => { d with waitSet := true })
  else s.presentCmd c

/-- A Q_DESTROY of a command ring closes the ring as it starts (R324). -/
def State.closeRing (s : State) (c : Cmd) : State :=
  if c.opcode = 0x0102 then s.closeCommandRing c.allot (c.par 0 2) else s

/-- The start: its trace record, and the trigger on the start of this command (R459, R460). -/
def State.startCmd (s : State) (c : Cmd) : State :=
  let t := s.modCmd c.id (fun d => { d with phase := .started, tStart := s.now })
  let u := ((t.latch c).closeRing c).traceAt 0 2 (some c.allot) c.acc (c.opcode + c.queue * 65536)
  let k := u.glob.trc
  u.settleWith (if k.trigAllot = c.allot ∧ k.trigAccept = c.acc then 32 else 0) 0

/-- COMMAND_START; a command that waits for a delta set tries again. -/
def execCommandStart (id : Nat) (s : State) : Out :=
  match s.cmd? id with
  | none => .next s
  | some c =>
    if c.master = .allot ∧ s.arbUp = true then
      if c.phase = .accepted then
        if s.queueClear c then
          if c.dep = 0 ∨ s.tokenMet c.allot c.dep = true then .next (s.startCmd c)
          else if c.waitedToken then .next s
          else .next ((s.countFor c 0x18 none none 1).modCmd id (fun d => { d with waitedToken := true }))
        else .next s
      else if c.phase = .started ∧ c.waitSet = true then .next (s.latch c)
      else .next s
    else .next s

/-! ## The reply (R293, R307, R324) -/

/-- What follows the reply of a Q_DESTROY of a command ring: the descriptor is freed. -/
def State.afterDestroy (s : State) (c : Cmd) : State :=
  if c.opcode = 0x0102 ∧ c.code = .ok ∧ (s.queue? c.allot (c.par 0 2)).any (fun d => !d.reply && d.destroying) = true then
    s.freeQueue c.allot (c.par 0 2)
  else s

/-- The reply of an earlier command of the same reply ring that the same event discarded stands out (R308). -/
def State.behind (s : State) (c : Cmd) : Bool :=
  (c.code == .discarded || c.code == .faultFatal) &&
  s.hg.cmds.any (fun d => d.master == .allot && d.allot == c.allot && d.replyQ == c.replyQ && d.phase == .done && d.code == c.code &&
    bitsOf d.detail.toNat 0 19 == bitsOf c.detail.toNat 0 19 && decide (d.id < c.id))

/-- COMMAND_COMPLETE: the one reply of a command whose effects are complete. -/
def execCommandComplete (id : Nat) (s : State) : Out :=
  match s.cmd? id with
  | none => .next s
  | some c =>
    if c.phase = .done then
      if c.master = .allot then (if s.behind c then .next s else .next (((s.reply c).afterDestroy c).adminFree c.allot).settle)
      else .next (s.reply c)
    else .next s

end Sys2Proof.Machine
end

