-- ==== Sys2Proof/Machine/Dispatch.lean ====
section
/-! DEFINITION. The meaning of every command: one arm per constructor of Instr. -/

namespace Sys2Proof.Machine

def exec (i : Instr) (s : State) : Host.Outcome State Fault Refusal :=
  match i with
  | .nop id => Sys2Proof.Machine.execNop id s
  | .qCreate id => Sys2Proof.Machine.execQCreate id s
  | .qDestroy id => Sys2Proof.Machine.execQDestroy id s
  | .flushRest id => Sys2Proof.Machine.execFlushRest id s
  | .allotCreate id => Sys2Proof.Machine.execAllotCreate id s
  | .allotDestroy id => Sys2Proof.Machine.execAllotDestroy id s
  | .watch id => Sys2Proof.Machine.execWatch id s
  | .watchTimeout id => Sys2Proof.Machine.execWatchTimeout id s
  | .objCreate id index => Sys2Proof.Machine.execObjCreate id index s
  | .objFree id => Sys2Proof.Machine.execObjFree id s
  | .objMove id => Sys2Proof.Machine.execObjMove id s
  | .objPin id => Sys2Proof.Machine.execObjPin id s
  | .objCopy id => Sys2Proof.Machine.execObjCopy id s
  | .poolSet src => Sys2Proof.Machine.execPoolSet src s
  | .tileRun id seq => Sys2Proof.Machine.execTileRun id seq s
  | .progLoad id pid => Sys2Proof.Machine.execProgLoad id pid s
  | .progRun id engines => Sys2Proof.Machine.execProgRun id engines s
  | .barrier id => Sys2Proof.Machine.execBarrier id s
  | .tokenWait id => Sys2Proof.Machine.execTokenWait id s
  | .tokenWaitTimeout id => Sys2Proof.Machine.execTokenWaitTimeout id s
  | .temperSet id => Sys2Proof.Machine.execTemperSet id s
  | .temperRead id => Sys2Proof.Machine.execTemperRead id s
  | .statsRead id => Sys2Proof.Machine.execStatsRead id s
  | .scaleSet id => Sys2Proof.Machine.execScaleSet id s
  | .gridLoad id => Sys2Proof.Machine.execGridLoad id s
  | .spillSet id => Sys2Proof.Machine.execSpillSet id s
  | .stepMark id => Sys2Proof.Machine.execStepMark id s
  | .updNorm id sums => Sys2Proof.Machine.execUpdNorm id sums s
  | .updApply id => Sys2Proof.Machine.execUpdApply id s
  | .updFreeze id => Sys2Proof.Machine.execUpdFreeze id s
  | .updRule id => Sys2Proof.Machine.execUpdRule id s
  | .peerMap id => Sys2Proof.Machine.execPeerMap id s
  | .routeRewrite id => Sys2Proof.Machine.execRouteRewrite id s
  | .collBegin id => Sys2Proof.Machine.execCollBegin id s
  | .collDeadline id => Sys2Proof.Machine.execCollDeadline id s
  | .tailPolicy id => Sys2Proof.Machine.execTailPolicy id s
  | .streamOpen id index => Sys2Proof.Machine.execStreamOpen id index s
  | .streamClose id => Sys2Proof.Machine.execStreamClose id s
  | .pairBind id => Sys2Proof.Machine.execPairBind id s
  | .bindWaitTimeout => Sys2Proof.Machine.execBindWaitTimeout s
  | .pairUnbind id => Sys2Proof.Machine.execPairUnbind id s
  | .pairTimeout => Sys2Proof.Machine.execPairTimeout s
  | .mirrorSet id => Sys2Proof.Machine.execMirrorSet id s
  | .snapTake id costUs => Sys2Proof.Machine.execSnapTake id costUs s
  | .snapCommit id => Sys2Proof.Machine.execSnapCommit id s
  | .fillBegin id manifest chunks => Sys2Proof.Machine.execFillBegin id manifest chunks s
  | .fillGrantExpiry fillId => Sys2Proof.Machine.execFillGrantExpiry fillId s
  | .fillRead fillId chunk => Sys2Proof.Machine.execFillRead fillId chunk s
  | .fillChunk id chunks => Sys2Proof.Machine.execFillChunk id chunks s
  | .fillCommit id => Sys2Proof.Machine.execFillCommit id s
  | .quench src => Sys2Proof.Machine.execQuench src s
  | .restoreVerify id => Sys2Proof.Machine.execRestoreVerify id s
  | .fleetRate id => Sys2Proof.Machine.execFleetRate id s
  | .ctrConfig src => Sys2Proof.Machine.execCtrConfig src s
  | .ctrRead id => Sys2Proof.Machine.execCtrRead id s
  | .traceConfig id => Sys2Proof.Machine.execTraceConfig id s
  | .traceRead id => Sys2Proof.Machine.execTraceRead id s
  | .timeMeasure id timing => Sys2Proof.Machine.execTimeMeasure id timing s
  | .faultRead id => Sys2Proof.Machine.execFaultRead id s
  | .faultClear src => Sys2Proof.Machine.execFaultClear src s
  | .faultSeverity src => Sys2Proof.Machine.execFaultSeverity src s
  | .faultForce id => Sys2Proof.Machine.execFaultForce id s
  | .fence src => Sys2Proof.Machine.execFence src s
  | .unfence src pass => Sys2Proof.Machine.execUnfence src pass s
  | .selftest src => Sys2Proof.Machine.execSelftest src s
  | .powerCap src => Sys2Proof.Machine.execPowerCap src s
  | .devInfo id => Sys2Proof.Machine.execDevInfo id s
  | .journalRead id => Sys2Proof.Machine.execJournalRead id s
  | .fwStage id => Sys2Proof.Machine.execFwStage id s
  | .allotReset src => Sys2Proof.Machine.execAllotReset src s
  | .devReset src trial => Sys2Proof.Machine.execDevReset src trial s
  | .commandAccept allot queue => Sys2Proof.Machine.execCommandAccept allot queue s
  | .commandStart id => Sys2Proof.Machine.execCommandStart id s
  | .commandComplete id => Sys2Proof.Machine.execCommandComplete id s
  | .arbiterRound out => Sys2Proof.Machine.execArbiterRound out s
  | .doorbellCommandWrite fn value size stores => Sys2Proof.Machine.execDoorbellCommandWrite fn value size stores s
  | .doorbellReplyRead fn value size => Sys2Proof.Machine.execDoorbellReplyRead fn value size s
  | .gapSeen allot queue => Sys2Proof.Machine.execGapSeen allot queue s
  | .doorbellErr fn => Sys2Proof.Machine.execDoorbellErr fn s
  | .adminqEnable fn ctrl => Sys2Proof.Machine.execAdminqEnable fn ctrl s
  | .adminqDisable fn ctrl => Sys2Proof.Machine.execAdminqDisable fn ctrl s
  | .timestampLowRead fn => Sys2Proof.Machine.execTimestampLowRead fn s
  | .registerWrite fn offset size value => Sys2Proof.Machine.execRegisterWrite fn offset size value s
  | .unsupportedRequest fn offset => Sys2Proof.Machine.execUnsupportedRequest fn offset s
  | .functionLevelResetVf vf => Sys2Proof.Machine.execFunctionLevelResetVf vf s
  | .functionLevelResetPf trial => Sys2Proof.Machine.execFunctionLevelResetPf trial s
  | .vfRemoval vfEnable numVfs => Sys2Proof.Machine.execVfRemoval vfEnable numVfs s
  | .tileOpIssue hearth seq anvil => Sys2Proof.Machine.execTileOpIssue hearth seq anvil s
  | .tileOpComplete id op => Sys2Proof.Machine.execTileOpComplete id op s
  | .epochCommit mine allot epoch record => Sys2Proof.Machine.execEpochCommit mine allot epoch record s
  | .lagBoundRelease id => Sys2Proof.Machine.execLagBoundRelease id s
  | .temperSyncStats allot step stats => Sys2Proof.Machine.execTemperSyncStats allot step stats s
  | .tier3Allocation bytes => Sys2Proof.Machine.execTier3Allocation bytes s
  | .mirrorReservation allot mirrorId bytes => Sys2Proof.Machine.execMirrorReservation allot mirrorId bytes s
  | .unbindOrder => Sys2Proof.Machine.execUnbindOrder s
  | .keyInstallation port dir key => Sys2Proof.Machine.execKeyInstallation port dir key s
  | .keyRotation port dir secret => Sys2Proof.Machine.execKeyRotation port dir secret s
  | .frameReceive port frame => Sys2Proof.Machine.execFrameReceive port frame s
  | .replayLimit port => Sys2Proof.Machine.execReplayLimit port s
  | .portRetrainTimeout port => Sys2Proof.Machine.execPortRetrainTimeout port s
  | .portTrained port failedLanes => Sys2Proof.Machine.execPortTrained port failedLanes s
  | .packetReceive port packet => Sys2Proof.Machine.execPacketReceive port packet s
  | .retransmitTimeout vc peer own seq => Sys2Proof.Machine.execRetransmitTimeout vc peer own seq s
  | .peerTimeout peer => Sys2Proof.Machine.execPeerTimeout peer s
  | .offsetMeasurement timing => Sys2Proof.Machine.execOffsetMeasurement timing s
  | .brownOutLogExchange log => Sys2Proof.Machine.execBrownOutLogExchange log s
  | .faultEvent events => Sys2Proof.Machine.execFaultEvent events s
  | .remapComplete unit => Sys2Proof.Machine.execRemapComplete unit s
  | .correctedEventLimit source => Sys2Proof.Machine.execCorrectedEventLimit source s
  | .handshakeWatchdog source served => Sys2Proof.Machine.execHandshakeWatchdog source served s
  | .patrolRotation hearth spare => Sys2Proof.Machine.execPatrolRotation hearth spare s
  | .anvilTestStart hearth anvil => Sys2Proof.Machine.execAnvilTestStart hearth anvil s
  | .anvilTestComplete hearth anvil pass testUs => Sys2Proof.Machine.execAnvilTestComplete hearth anvil pass testUs s
  | .entryCheckComplete hearth anvil pass => Sys2Proof.Machine.execEntryCheckComplete hearth anvil pass s
  | .paceWindow mhs0 mhs1 => Sys2Proof.Machine.execPaceWindow mhs0 mhs1 s
  | .bellowsTick avg1 avg10 tj0 tj1 cooled => Sys2Proof.Machine.execBellowsTick avg1 avg10 tj0 tj1 cooled s
  | .powerOn trial => Sys2Proof.Machine.execPowerOn trial s
  | .brownOut vext => Sys2Proof.Machine.execBrownOut vext s
  | .sagEnd kind durUs vext => Sys2Proof.Machine.execSagEnd kind durUs vext s
  | .mainRailsOff rail => Sys2Proof.Machine.execMainRailsOff rail s
  | .standbyRailOff => Sys2Proof.Machine.execStandbyRailOff s
  | .inputOvervoltage vext => Sys2Proof.Machine.execInputOvervoltage vext s
  | .powerRestart trial => Sys2Proof.Machine.execPowerRestart trial s
  | .powerAttentionExpiry => Sys2Proof.Machine.execPowerAttentionExpiry s
  | .perstNAssert trial => Sys2Proof.Machine.execPerstNAssert trial s
  | .perstNDeassert trial => Sys2Proof.Machine.execPerstNDeassert trial s
  | .hostLinkLoss trial => Sys2Proof.Machine.execHostLinkLoss trial s
  | .pwrFailNAssert => Sys2Proof.Machine.execPwrFailNAssert s
  | .pwrFailNDeassert trial => Sys2Proof.Machine.execPwrFailNDeassert trial s
  | .siteAlarmN => Sys2Proof.Machine.execSiteAlarmN s
  | .feedIdSample straps => Sys2Proof.Machine.execFeedIdSample straps s
  | .timebaseLoss => Sys2Proof.Machine.execTimebaseLoss s
  | .timebaseReturn => Sys2Proof.Machine.execTimebaseReturn s
  | .refclkSerdesLoss => Sys2Proof.Machine.execRefclkSerdesLoss s
  | .refclkPcieLoss trial => Sys2Proof.Machine.execRefclkPcieLoss trial s
  | .mgmtRestart => Sys2Proof.Machine.execMgmtRestart s
  | .vTarget mv => Sys2Proof.Machine.execVTarget mv s
  | .tjLimit celsius => Sys2Proof.Machine.execTjLimit celsius s
  | .feedIdOverride enable value => Sys2Proof.Machine.execFeedIdOverride enable value s
  | .gpioEffecter pin drive level => Sys2Proof.Machine.execGpioEffecter pin drive level s
  | .sealFuse inSession serial => Sys2Proof.Machine.execSealFuse inSession serial s
  | .debugUnlock token => Sys2Proof.Machine.execDebugUnlock token s
  | .internalDebugAccess => Sys2Proof.Machine.execInternalDebugAccess s
  | .bypass => Sys2Proof.Machine.execBypass s
  | .idcode => Sys2Proof.Machine.execIdcode s
  | .samplePreload pins => Sys2Proof.Machine.execSamplePreload pins s
  | .extest => Sys2Proof.Machine.execExtest s
  | .clamp => Sys2Proof.Machine.execClamp s
  | .highz => Sys2Proof.Machine.execHighz s
  | .getVersion => Sys2Proof.Machine.execGetVersion s
  | .getCapabilities => Sys2Proof.Machine.execGetCapabilities s
  | .negotiateAlgorithms algorithms => Sys2Proof.Machine.execNegotiateAlgorithms algorithms s
  | .getDigests => Sys2Proof.Machine.execGetDigests s
  | .getCertificate slot offset length => Sys2Proof.Machine.execGetCertificate slot offset length s
  | .challenge nonce => Sys2Proof.Machine.execChallenge nonce s
  | .getMeasurements index nonce => Sys2Proof.Machine.execGetMeasurements index nonce s
  | .keyExchange share => Sys2Proof.Machine.execKeyExchange share s
  | .finish authentic => Sys2Proof.Machine.execFinish authentic s
  | .heartbeat => Sys2Proof.Machine.execHeartbeat s
  | .keyUpdate => Sys2Proof.Machine.execKeyUpdate s
  | .endSession => Sys2Proof.Machine.execEndSession s
  | .requestUpdate components => Sys2Proof.Machine.execRequestUpdate components s
  | .passComponentTable components => Sys2Proof.Machine.execPassComponentTable components s
  | .updateComponent length => Sys2Proof.Machine.execUpdateComponent length s
  | .requestFirmwareData offset data => Sys2Proof.Machine.execRequestFirmwareData offset data s
  | .transferComplete => Sys2Proof.Machine.execTransferComplete s
  | .verifyComplete => Sys2Proof.Machine.execVerifyComplete s
  | .applyComplete => Sys2Proof.Machine.execApplyComplete s
  | .activateFirmware selfContained => Sys2Proof.Machine.execActivateFirmware selfContained s
  | .progBudgetExhausted hearth engine => Sys2Proof.Machine.execProgBudgetExhausted hearth engine s
  | .add hearth engine => Sys2Proof.Machine.execAdd hearth engine s
  | .sub hearth engine => Sys2Proof.Machine.execSub hearth engine s
  | .mul hearth engine => Sys2Proof.Machine.execMul hearth engine s
  | .fma hearth engine => Sys2Proof.Machine.execFma hearth engine s
  | .min hearth engine => Sys2Proof.Machine.execMin hearth engine s
  | .max hearth engine => Sys2Proof.Machine.execMax hearth engine s
  | .abs hearth engine => Sys2Proof.Machine.execAbs hearth engine s
  | .sel hearth engine => Sys2Proof.Machine.execSel hearth engine s
  | .cmplt hearth engine => Sys2Proof.Machine.execCmplt hearth engine s
  | .cmpeq hearth engine => Sys2Proof.Machine.execCmpeq hearth engine s
  | .cvti hearth engine => Sys2Proof.Machine.execCvti hearth engine s
  | .widen hearth engine => Sys2Proof.Machine.execWiden hearth engine s
  | .narrow hearth engine => Sys2Proof.Machine.execNarrow hearth engine s
  | .exp hearth engine => Sys2Proof.Machine.execExp hearth engine s
  | .exp2 hearth engine => Sys2Proof.Machine.execExp2 hearth engine s
  | .log hearth engine => Sys2Proof.Machine.execLog hearth engine s
  | .log2 hearth engine => Sys2Proof.Machine.execLog2 hearth engine s
  | .rcp hearth engine => Sys2Proof.Machine.execRcp hearth engine s
  | .rsqrt hearth engine => Sys2Proof.Machine.execRsqrt hearth engine s
  | .sqrt hearth engine => Sys2Proof.Machine.execSqrt hearth engine s
  | .redsum hearth engine => Sys2Proof.Machine.execRedsum hearth engine s
  | .redmax hearth engine => Sys2Proof.Machine.execRedmax hearth engine s
  | .srnd hearth engine => Sys2Proof.Machine.execSrnd hearth engine s
  | .ld hearth engine => Sys2Proof.Machine.execLd hearth engine s
  | .st hearth engine => Sys2Proof.Machine.execSt hearth engine s
  | .ldh hearth engine => Sys2Proof.Machine.execLdh hearth engine s
  | .sth hearth engine => Sys2Proof.Machine.execSth hearth engine s
  | .gather hearth engine => Sys2Proof.Machine.execGather hearth engine s
  | .scatter hearth engine => Sys2Proof.Machine.execScatter hearth engine s
  | .sAdd hearth engine => Sys2Proof.Machine.execSAdd hearth engine s
  | .sSub hearth engine => Sys2Proof.Machine.execSSub hearth engine s
  | .sMul hearth engine => Sys2Proof.Machine.execSMul hearth engine s
  | .and hearth engine => Sys2Proof.Machine.execAnd hearth engine s
  | .or hearth engine => Sys2Proof.Machine.execOr hearth engine s
  | .shl hearth engine => Sys2Proof.Machine.execShl hearth engine s
  | .shr hearth engine => Sys2Proof.Machine.execShr hearth engine s
  | .fadd hearth engine => Sys2Proof.Machine.execFadd hearth engine s
  | .fmul hearth engine => Sys2Proof.Machine.execFmul hearth engine s
  | .frsqrt hearth engine => Sys2Proof.Machine.execFrsqrt hearth engine s
  | .mov hearth engine => Sys2Proof.Machine.execMov hearth engine s
  | .jmp hearth engine => Sys2Proof.Machine.execJmp hearth engine s
  | .jnz hearth engine => Sys2Proof.Machine.execJnz hearth engine s
  | .jlt hearth engine => Sys2Proof.Machine.execJlt hearth engine s
  | .vecBarrier hearth engine => Sys2Proof.Machine.execVecBarrier hearth engine s
  | .halt hearth engine => Sys2Proof.Machine.execHalt hearth engine s
  | .vfEnable numVfs => Sys2Proof.Machine.execVfEnable numVfs s
  | .managementControllerResumes => Sys2Proof.Machine.execManagementControllerResumes s
  | .matchingPairBind p => Sys2Proof.Machine.execMatchingPairBind p s

end Sys2Proof.Machine
end

