-- ==== Sys2Proof/Machine/Step.lean ====
section
/-! DEFINITION. One step: the command at the front of the queue; on an empty queue a nanosecond passes (log 4). -/

namespace Sys2Proof.Machine

/-- The block idles: the time-stamp counter, which counts nanoseconds, advances by one (R464, log 4). -/
def State.idle (s : State) : State := { s with clk := { s.clk with ts := s.clk.ts + 1#64 } }

/-- The command at the front of the queue runs on the state with the queue's rest. -/
def step (s : State) : Host.Outcome State Fault Refusal :=
  match s.pending with
  | [] => .next s.idle
  | c :: rest => exec c { s with pending := rest }

/-- The command that a table word spells, put at the front of the queue; no word spells one. -/
def State.withFetchWord (s : State) (nbits w : Nat) : State :=
  match Sys2Proof.decodeTableWord nbits w with
  | some c => { s with pending := c :: s.pending }
  | none => s

end Sys2Proof.Machine
end

