-- ==== Sys2Proof/Safety.lean ====
section
/-! DEFINITION. The words in which statements speak of a run: when a command runs, how it ended, and what stayed as it was. -/

namespace Sys2Proof.Machine

/-! ## When a Deant command runs -/

/-- Command id, c, stands started as opcode op, the order of R257 and R499 lets it act, and its fields fs meet their rules
(R314, R315). -/
def State.Runs (s : State) (id op : Nat) (fs : State → Cmd → List Fld) (c : Cmd) : Prop :=
  s.fresh? id op = some c ∧ s.ready c = true ∧ s.judgeInline c (fs s c) = none
  deriving Decidable

/-- The arbiter executes command id, c: it is the first order that waits, the arbiter takes its opcode, a reset
finds no order at work that it would end (R338), and its fields meet their rules as it leaves the orders that wait (R332). -/
def State.OrderRuns (s : State) (id op : Nat) (fs : State → Cmd → List Fld) (c : Cmd) : Prop :=
  s.fresh? id op = some c ∧ s.hg.arb.head? = some id ∧ s.arbTakes op = true ∧ s.resetWaits c = false ∧
    (s.takeOrder id).judgeInline c (fs (s.takeOrder id) c) = none
  deriving Decidable

/-- The state in which the meaning of a command that runs begins: the last use of the objects that it names is set (R268). -/
def State.named (s : State) (c : Cmd) : State := s.noteNames c (s.namesNow c)

/-! ## How a command ended -/

/-- Command id has every effect complete: its code, DETAIL and RESULT stand and its reply can be written (R307, R317). -/
def State.Ended (t : State) (id : Nat) (code : Code) (detail : W32) (result : W128) : Prop :=
  ∃ d, t.cmd? id = some d ∧ d.phase = .done ∧ d.code = code ∧ d.detail = detail ∧ d.result = result

/-- Command id goes on to later events. -/
def State.AtWork (t : State) (id : Nat) : Prop := ∃ d, t.cmd? id = some d ∧ d.phase = .working

/-- Only the table of commands differs. -/
def State.OnlyCmds (s t : State) : Prop := { t with hg := { t.hg with cmds := s.hg.cmds } } = s

/-- Only allotment a, and the table of commands, differ. -/
def State.OnlyAllot (s t : State) (a : Nat) : Prop :=
  { t with allots := s.allots, hg := { t.hg with cmds := s.hg.cmds } } = s ∧ ∀ b, b ≠ a → t.al b = s.al b

/-- The parts outside the control and data planes: device, clock, host memory, fabric, pair, faults, management and fuses. -/
def State.Outside (s t : State) : Prop :=
  t.dev = s.dev ∧ t.clk = s.clk ∧ t.host = s.host ∧ t.fab = s.fab ∧ t.pair = s.pair ∧ t.mgt = s.mgt ∧ t.fuse = s.fuse ∧ t.pending = s.pending

/-- Every command but id stands as it was. -/
def State.OthersStand (s t : State) (id : Nat) : Prop := ∀ j, j ≠ id → t.cmd? j = s.cmd? j

/-- Every queue but q of allotment a stands as it was. -/
def State.QueuesStand (s t : State) (a q : Nat) : Prop := ∀ b r, (b ≠ a ∨ r ≠ q) → t.queue? b r = s.queue? b r

/-- Every queue of allotment a but command ring q, d before, and its reply ring stands as it was; the reply ring has back the
entries that were reserved for an incomplete packet of d (R289). -/
def State.RingAlone (s t : State) (a q : Nat) (d : QDesc) : Prop :=
  (∀ b r, (b ≠ a ∨ (r ≠ q ∧ r ≠ d.replyQ)) → t.queue? b r = s.queue? b r) ∧
  ∀ r, d.replyQ ≠ q → s.queue? a d.replyQ = some r → t.queue? a d.replyQ = some { r with resv := r.resv - d.partialResv }

/-- DOORBELL_ERR of allotment a after an error: the first since the last read is latched, a later one sets MORE (R312). -/
def State.Latched (s t : State) (a qid reason : Nat) : Prop :=
  (t.al a).dbErr = if (s.al a).dbErr.reason = 0 then { qid := qid, reason := reason, more := false } else { (s.al a).dbErr with more := true }

/-- The order of the management controller with parameters p stands last among the orders that wait, and nothing else differs (R23,
R332). -/
def State.Presented (s t : State) (op p : Nat) : Prop :=
  t.hg.arb = s.hg.arb ++ [s.hg.nextId] ∧ { t with hg := { t.hg with cmds := s.hg.cmds, arb := s.hg.arb, nextId := s.hg.nextId } } = s ∧
  ∃ c, t.hg.cmds = s.hg.cmds ++ [c] ∧ c.id = s.hg.nextId ∧ c.opcode = op ∧ c.params = p ∧ c.master = .mgmt ∧ c.phase = .started

/-- No byte of host memory changes outside the range of len bytes from a. -/
def State.HostOutside (s t : State) (a len : Nat) : Prop :=
  ∀ b, b < a ∨ a + len ≤ b → cellGet t.host.bytes b = cellGet s.host.bytes b

/-- Every object of allotment a but that at index i stands as it was, and every object of every other allotment. -/
def State.ObjsStand (s t : State) (a i : Nat) : Prop := ∀ b j, (b ≠ a ∨ j ≠ i) → look j (t.al b).objs = look j (s.al b).objs

/-- No object of allotment a has a poisoned block. -/
def State.Clean (s : State) (a : Nat) : Prop := ∀ e ∈ (s.al a).objs, e.2.poison = []
  deriving Decidable

/-- The bytes of object h of allotment a from offset off on are bs. -/
def State.Holds (t : State) (a h off : Nat) (bs : List Byte) : Prop := ∃ o, t.obj? a h = some o ∧ o.read off bs.length = bs

/-- An N4 grid table as R84 allows it: each entry has the sign of its half, reserved bits [1:0] are 0, no entry has E = 0 with M = 1,
and within a sign magnitudes rise strictly. -/
def GridLegal (g : List Nat) : Prop :=
  ∀ c, c < 16 → bitsOf (g.getD c 0) 0 2 = 0 ∧ (g.getD c 0).testBit 7 = decide (8 ≤ c) ∧
    ¬ (bitsOf (g.getD c 0) 3 4 = 0 ∧ (g.getD c 0).testBit 2 = true) ∧
    (c % 8 ≠ 0 → gridMag (g.getD (c - 1) 0) < gridMag (g.getD c 0))

/-- Allotment a after a reset of its state: no queue, object, token, program or update state, acceptance numbers from 1 and the next
generation; REUSE counts stay (R335). -/
def State.ResetAs (s t : State) (a : Nat) : Prop :=
  (t.al a).queues = [] ∧ (t.al a).objs = [] ∧ (t.al a).tokens = [] ∧ (t.al a).progs = [] ∧ (t.al a).temper = {} ∧ (t.al a).upd = {} ∧
  (t.al a).accNext = 1 ∧ (t.al a).gen = (s.al a).gen + 1 ∧ (t.al a).reuse = (s.al a).reuse ∧ (t.al a).dbErr = {} ∧ (t.al a).adminUp = false

/-- The device after a reset of the whole module: no command in flight or waiting in the arbiter, no queue and no object, no pair and no
group; the fabric keeps what it has sent. -/
def State.DeviceReset (s t : State) : Prop :=
  t.hg.cmds = [] ∧ t.hg.arb = [] ∧ (∀ a, (t.al a).queues = [] ∧ (t.al a).objs = [] ∧ (t.al a).tokens = [] ∧ (t.al a).progs = []) ∧
  t.pair.state = .unbound ∧ t.fab.groups = [] ∧ t.fab.streams = [] ∧ t.fab.routes = [] ∧ t.pending = s.pending ∧ t.dev.variant = s.dev.variant

/-! ## The update engine -/

/-- Command id, c, is an UPD_APPLY at its start: its inline parameters meet their rules, its list may be read, it names no status bytes,
and no object of its allotment has a poisoned block. -/
def State.ApplyStarts (s : State) (id : Nat) (c : Cmd) : Prop :=
  s.started? id 0x0502 = some c ∧ c.phase = .started ∧ c.stage = 0 ∧ c.allot < s.allots.length ∧ c.bothStorm = false ∧
  s.judgeInline c (updApplyFields s c) = none ∧ s.listReady c = true ∧ s.statusClear c = true ∧ s.Clean c.allot ∧ c.par 0x30 8 = 0
  deriving Decidable

/-- Its records meet their rules, its workspace fits, and nothing holds it: no hold, no norm, no command before it. -/
def State.ApplyGoes (s : State) (c : Cmd) : Prop :=
  s.badParamRec c (s.paramsOf c) = none ∧ s.reachable c (s.namesNow c) = none ∧ ((s.named c).takeWork c (s.paramsOf c)).isSome = true ∧
  (s.al c.allot).temper.holdOpen = false ∧ (s.al c.allot).temper.stormHold = false ∧ s.pair.holdOpen = false ∧ c.opflag 1 = false ∧
  c.noNorm = true ∧ s.ready c = true ∧ s.before c 0x0504 none = false ∧
  ∀ d ∈ s.hg.cmds, d.allot = c.allot → d.opcode = 0x0301 → d.phase = .done
  deriving Decidable

/-- Command id, c, is a PEER_MAP of KIND kind that the arbiter executes, and its list or destination may be used. -/
def State.MapRuns (s : State) (id : Nat) (c : Cmd) (kind : Nat) : Prop :=
  s.OrderRuns id 0x0601 peerMapFields c ∧ s.ready c = true ∧ s.Clean c.allot ∧ c.allot < s.allots.length ∧ c.par 0 1 = kind
  deriving Decidable

/-- Command id, c, is a SNAP_COMMIT at its start, whose fields meet their rules. -/
def State.CommitRuns (s : State) (id : Nat) (c : Cmd) : Prop :=
  s.started? id 0x0711 = some c ∧ c.aux = [] ∧ s.judgeInline c (snapCommitFields s c) = none
  deriving Decidable

/-- Command id, c, is a FILL_CHUNK that runs for one chunk of the open fill f, which it has not marked: chunk j of its tensor d. -/
def State.ChunkRuns (s : State) (id : Nat) (c : Cmd) (f : Fill) (d : FillTensor) (j : Nat) : Prop :=
  s.Runs id 0x0721 fillChunkFields c ∧ s.pair.fill = some f ∧ f.committed = false ∧ f.fillId = c.par 0 4 ∧ c.par 8 4 = 1 ∧ c.par 4 4 < f.total ∧
  locateChunk f.tensors (c.par 4 4) = some (d, j) ∧ f.has (c.par 4 4) = false
  deriving Decidable

/-! ## Orders, ports and planes -/

/-- The state in which an order that the arbiter executes begins: it has left the orders that wait, and its names are noted. -/
def State.taken (s : State) (id : Nat) (c : Cmd) : State := (s.takeOrder id).named c

/-- Only the fabric, and the table of commands, differ. -/
def State.OnlyFab (s t : State) : Prop := { t with fab := s.fab, hg := { t.hg with cmds := s.hg.cmds } } = s

/-- Only the pair, and the table of commands, differ. -/
def State.OnlyPair (s t : State) : Prop := { t with pair := s.pair, hg := { t.hg with cmds := s.hg.cmds } } = s

/-- Only the fault state, and the table of commands, differ. -/
def State.OnlyFlt (s t : State) : Prop := { t with flt := s.flt, hg := { t.hg with cmds := s.hg.cmds } } = s

/-- Only the management controller's state, and the table of commands, differ. -/
def State.OnlyMgt (s t : State) : Prop := { t with mgt := s.mgt, hg := { t.hg with cmds := s.hg.cmds } } = s

/-- Only hearth h, and the table of commands, differ. -/
def State.OnlyHearth (s t : State) (h : Nat) : Prop :=
  { t with hearths := s.hearths, hg := { t.hg with cmds := s.hg.cmds } } = s ∧ ∀ k, k ≠ h → t.he k = s.he k

/-- Every port but p stands as it was. -/
def State.PortsStand (s t : State) (p : Nat) : Prop := ∀ q, q ≠ p → t.port q = s.port q

/-- A read command has put bs at its destination, from the offset of the reference on; no other object differs, host memory stays, and
the command has ended with RESULT n. -/
def State.ReadInto (s t : State) (c : Cmd) (off : Nat) (bs : List Byte) (n : Nat) : Prop :=
  t.Holds c.allot (refHandle (c.par off 8)) (bitsOf (c.par off 8) 32 32) bs ∧
  s.ObjsStand t c.allot (handleIndex (refHandle (c.par off 8))) ∧ t.host = s.host ∧ t.Ended c.id .ok 0 (BitVec.ofNat 128 n)

/-- No COLL_BEGIN, SEND or RECV is at work. -/
def State.NoTraffic (s : State) : Prop := ∀ d ∈ s.hg.cmds, ¬ (d.opcode = 0x0610 ∧ d.phase = .working)
  deriving Decidable

/-- No forced event waits, and an event of source src, and the sources of short hearths, are not fatal (R74, R413, R418). -/
def State.Mild (s : State) (src : Nat) : Prop := s.flt.force = [] ∧ s.srcClass src < 3 ∧ s.srcClass 0x0924 < 3 ∧ s.srcClass 0x0925 < 3
  deriving Decidable

/-- No order that the arbiter has executed is still at work, which a reset would wait for (R338). -/
def State.NoOrderWorks (s : State) : Prop := ∀ d ∈ s.hg.cmds, d.arbitrated = true → d.phase ≠ .working
  deriving Decidable

/-- The order of a master without a command that op names is executed at once: no order waits, and the arbiter takes it. -/
def State.AtOnce (s : State) (op : Nat) : Prop := s.hg.arb = [] ∧ s.arbTakes op = true
  deriving Decidable

/-! ## The vector engines -/

/-- Engine e of hearth h. -/
def State.engine (s : State) (h e : Nat) : Engine := (s.he h).engines.getD e {}

/-- The next instruction of engine e of hearth h is op in the V or the VI form, and it may issue (R204, R205). -/
def State.VecReady (s : State) (h e op : Nat) (x : Ctx) : Prop :=
  s.ctx? h e = some x ∧ (wForm x.w = 0 ∨ wForm x.w = 1) ∧ wOp x.w = op ∧ x.within = true
  deriving Decidable

/-- The next instruction of engine e of hearth h is op in form form, and it may issue. -/
def State.InstrReady (s : State) (h e form op : Nat) (x : Ctx) : Prop :=
  s.ctx? h e = some x ∧ wForm x.w = form ∧ wOp x.w = op ∧ x.within = true
  deriving Decidable

/-- Engine e of hearth h has completed an instruction and goes on at pc; of its registers, f tells what they hold. -/
def State.Retired (s t : State) (h e pc : Nat) (f : Engine → Engine) : Prop :=
  t.engine h e = { f (s.engine h e) with pc := pc, count := (s.engine h e).count + 1 }

/-- An instruction that writes registers of its engine and counts an event leaves all else as it is: only the hearths, the
allotment's counters and the global counters may differ, every other engine stands, and memory objects stay. -/
def State.RegisterOnly (s t : State) (h e : Nat) : Prop :=
  { t with hearths := s.hearths, allots := s.allots, glob := s.glob } = s ∧
  (∀ i j, (i ≠ h ∨ j ≠ e) → t.engine i j = s.engine i j) ∧
  (∀ a, (t.al a).objs = (s.al a).objs ∧ (t.al a).progs = (s.al a).progs) ∧ (t.he h).runs = (s.he h).runs ∧ (t.he h).lists = (s.he h).lists

/-- The row i of a vector operation in lanes: where it may issue and the form meets ok, it completes; each active lane k of VD gets
f of the lanes of the sources, an inactive lane keeps its value or gets +0 with ZM (R207), and nothing else of the module's
memory and registers changes. -/
def LaneResult (i : Nat → Nat → Instr) (op : Nat) (ok : Ctx → Prop) (f : Ctx → Nat → W32 → W32 → W32 → W32) : Prop :=
  ∀ s h e x, s.VecReady h e op x → ok x → ∃ t, exec (i h e) s = .next t ∧
    s.Retired t h e (x.eng.pc + 1) (fun g => g.setV x.vd ((t.engine h e).vreg x.vd)) ∧ s.RegisterOnly t h e ∧
    ∀ k a b c o, k < 256 → x.srcA[k]? = some a → x.srcB[k]? = some b → x.srcC[k]? = some c → (x.eng.vreg x.vd)[k]? = some o →
      ((t.engine h e).vreg x.vd)[k]? = some (if x.pred.getLsbD k then f x k a b c else if x.zm then 0 else o)

/-- The row i of a scalar operation: where it may issue it completes, SD gets f, and nothing else of the module's memory and
registers changes. -/
def ScalarResult (i : Nat → Nat → Instr) (op : Nat) (f : Ctx → W64) : Prop :=
  ∀ s h e x, s.InstrReady h e 4 op x → ∃ t, exec (i h e) s = .next t ∧
    s.Retired t h e (x.eng.pc + 1) (fun g => g.setS x.sd (f x)) ∧ s.RegisterOnly t h e

/-- The lanes of an arithmetic instruction by TYPE: FP32, pairs of bfloat16, INT32 (R209). -/
def laneOp (f : Fp → Fp → Fp → Fp) (g : W32 → W32 → W32) (x : Ctx) (_k : Nat) (a b c : W32) : W32 :=
  match x.typ with
  | 0 => lane32 x.run.ftz f a b c
  | 1 => lanePair x.run.ftz f a b c
  | _ => g a b

/-- The larger and the smaller of two words as signed integers. -/
def maxS (a b : W32) : W32 := if a.toInt ≤ b.toInt then b else a
def minS (a b : W32) : W32 := if a.toInt ≤ b.toInt then a else b

/-- The value at place i of level n of the fixed tree: level 0 holds the lanes, and each level combines adjacent results (R213). -/
def treeAt (f : W32 → W32 → W32) (lane : Nat → W32) : Nat → Nat → W32
  | 0, i => lane i
  | n + 1, i => f (treeAt f lane n (2 * i)) (treeAt f lane n (2 * i + 1))

/-- What a store leaves: its engine has retired with no register changed; host memory, device, fabric, management, faults and fuses
stay; an object other than the window's and its flag map is as it was, and with no active lane so is every object. -/
def State.StoreFrame (s t : State) (h e : Nat) (x : Ctx) : Prop :=
  s.Retired t h e (x.eng.pc + 1) id ∧ t.host = s.host ∧ t.dev = s.dev ∧ t.fab = s.fab ∧ t.mgt = s.mgt ∧ t.flt = s.flt ∧ t.fuse = s.fuse ∧
  (∀ j, j ≠ e → t.engine h j = s.engine h j) ∧
  (∀ b i, (b ≠ x.run.allot ∨ (i ≠ handleIndex x.win.handle ∧ ∀ f, (s.winObj x).flagMap = some f → i ≠ handleIndex f)) →
    look i (t.al b).objs = look i (s.al b).objs) ∧
  (x.lanes = [] → ∀ b, (t.al b).objs = (s.al b).objs)

/-! ## Invariants -/

/-- The state has its 16 allotments, 16 attention entries and two hearths (R2, R5, R303, R305). -/
def State.Sized (s : State) : Prop := s.allots.length = 16 ∧ s.attn.length = 16 ∧ s.hearths.length = 2
  deriving Decidable

end Sys2Proof.Machine
end

