-- ==== Sys2Proof/Certificates/Slice0/Obligations.lean ====
section
/-! DEFINITION. What is claimed of the PZ8: each statement formalises rules of spec/ or rests on the sections that it cites. -/

open Sys2Proof Sys2Proof.Machine

/-! ## The vector engines -/

/-- R209 for INT32: ADD, SUB, MUL, MIN, MAX and ABS of TYPE 2 complete and wrap modulo 2^32 in every active lane.
R209 to R211 for FP32 and pairs: ADD, SUB, MUL, FMA, MIN, MAX and ABS complete, each element exact and rounded once, NaN
canonical, subnormals as FTZ says. -/
def Obligations.LaneArithmetic : Prop :=
  LaneResult .add 0x01 (fun x => x.typ = 2) (fun _ _ a b _ => a + b) ∧
  LaneResult .sub 0x02 (fun x => x.typ = 2) (fun _ _ a b _ => a - b) ∧
  LaneResult .mul 0x03 (fun x => x.typ = 2) (fun _ _ a b _ => a * b) ∧
  LaneResult .min 0x05 (fun x => x.typ = 2) (fun _ _ a b _ => minS a b) ∧
  LaneResult .max 0x06 (fun x => x.typ = 2) (fun _ _ a b _ => maxS a b) ∧
  LaneResult .abs 0x07 (fun x => x.typ = 2) (fun _ _ a _ _ => if a.toInt < 0 then -a else a) ∧
  LaneResult .add 0x01 (fun x => x.typ < 2) (laneOp (fun a b _ => a.add b) (fun a _ => a)) ∧
  LaneResult .sub 0x02 (fun x => x.typ < 2) (laneOp (fun a b _ => a.sub b) (fun a _ => a)) ∧
  LaneResult .mul 0x03 (fun x => x.typ < 2) (laneOp (fun a b _ => a.mul b) (fun a _ => a)) ∧
  LaneResult .fma 0x04 (fun x => x.typ < 2) (laneOp (fun a b c => (a.mul b).add c) (fun a _ => a)) ∧
  LaneResult .min 0x05 (fun x => x.typ < 2) (laneOp (fun a b _ => a.min b) (fun a _ => a)) ∧
  LaneResult .max 0x06 (fun x => x.typ < 2) (laneOp (fun a b _ => a.max b) (fun a _ => a)) ∧
  LaneResult .abs 0x07 (fun x => x.typ < 2) (laneOp (fun a _ _ => a.abs) (fun a _ => a))

/-- R211: every NaN result of a lane operation is the canonical NaN, in FP32 and in pair form; MIN and MAX give it where either
operand is NaN, and order -0 below +0; a compare with a NaN operand is 0. -/
def Obligations.NanRule : Prop :=
  (∀ z f a b c, (f (dec32 (flush32 z a)) (dec32 (flush32 z b)) (dec32 (flush32 z c))).isNan = true → lane32 z f a b c = 0x7FC00000#32) ∧
  (∀ z f a b c, (f (decB16 (flushB16 z a)) (decB16 (flushB16 z b)) (decB16 (flushB16 z c))).isNan = true → elemB16 z f a b c = 0x7FC0) ∧
  (∀ z a b, (dec32 a).isNan = true ∨ (dec32 b).isNan = true →
    lane32 z (fun p q _ => p.min q) a b 0 = 0x7FC00000#32 ∧ lane32 z (fun p q _ => p.max q) a b 0 = 0x7FC00000#32) ∧
  (∀ z, lane32 z (fun p q _ => p.min q) 0x80000000#32 0 0 = 0x80000000#32 ∧ lane32 z (fun p q _ => p.min q) 0 0x80000000#32 0 = 0x80000000#32 ∧
    lane32 z (fun p q _ => p.max q) 0x80000000#32 0 0 = 0 ∧ lane32 z (fun p q _ => p.max q) 0 0x80000000#32 0 = 0) ∧
  (∀ s h e x, (s.VecReady h e 0x09 x ∨ s.VecReady h e 0x0A x) → x.typ = 0 → ∃ t,
    exec (if wOp x.w = 0x09 then .cmplt h e else .cmpeq h e) s = .next t ∧
    ∀ k a b, x.vd % 8 ≠ 0 → k < 256 → x.srcA[k]? = some a → x.srcB[k]? = some b → x.pred.getLsbD k = true →
      ((dec32 a).isNan = true ∨ (dec32 b).isNan = true) → ((t.engine h e).preg (x.vd % 8)).getLsbD k = false)

/-- R207, R209 to R211, R217: SEL (each value as TYPE reads it), CVTI, WIDEN, NARROW and SRND complete with the value that the table of vector
opcodes and R217 give each active lane. Which half NARROW fills from which source is the model's reading (log 20).
R212: EXP, EXP2, LOG, LOG2, RCP, RSQRT and SQRT complete, each active lane the function of source A rounded once to FP32. -/
def Obligations.LaneFunctions : Prop :=
  LaneResult .sel 0x08 (fun _ => True) (fun x k a b _ => let v := if (x.eng.preg (x.vc % 8)).getLsbD k then a else b
    laneOp (fun p _ _ => p) (fun p _ => p) x k v v v) ∧
  LaneResult .cvti 0x0B (fun _ => True) (fun _ _ a _ _ => enc32 (Fp.ofInt a.toInt)) ∧
  LaneResult .widen 0x0C (fun _ => True) (fun x _ a _ _ =>
    flush32 x.run.ftz (enc32 (decB16 (flushB16 x.run.ftz (if x.vc.testBit 0 then hiHalf a else loHalf a))))) ∧
  LaneResult .narrow 0x0D (fun _ => True) (fun x _ a b _ => w32 (flushB16 x.run.ftz (encB16 (dec32 (flush32 x.run.ftz a))) +
    65536 * flushB16 x.run.ftz (encB16 (dec32 (flush32 x.run.ftz b))))) ∧
  LaneResult .srnd 0x30 (fun _ => True) (fun x k _ _ _ => w32 (x.draw (x.vc % 4) (x.eng.sreg (x.va % 32)).toNat k)) ∧
  LaneResult .exp 0x10 (fun _ => True) (fun x _ a _ _ => lane32 x.run.ftz (fun v _ _ => fpExp v) a 0 0) ∧
  LaneResult .exp2 0x11 (fun _ => True) (fun x _ a _ _ => lane32 x.run.ftz (fun v _ _ => fpExp2 v) a 0 0) ∧
  LaneResult .log 0x12 (fun _ => True) (fun x _ a _ _ => lane32 x.run.ftz (fun v _ _ => fpLog v) a 0 0) ∧
  LaneResult .log2 0x13 (fun _ => True) (fun x _ a _ _ => lane32 x.run.ftz (fun v _ _ => fpLog2 v) a 0 0) ∧
  LaneResult .rcp 0x14 (fun _ => True) (fun x _ a _ _ => lane32 x.run.ftz (fun v _ _ => fpRcp v) a 0 0) ∧
  LaneResult .rsqrt 0x15 (fun _ => True) (fun x _ a _ _ => lane32 x.run.ftz (fun v _ _ => fpRsqrt v) a 0 0) ∧
  LaneResult .sqrt 0x16 (fun _ => True) (fun x _ a _ _ => lane32 x.run.ftz (fun v _ _ => fpSqrt v) a 0 0)

/-- CMPLT and CMPEQ complete: bit k of P[VD] in an active lane is the comparison, 0 where an FP32 operand is NaN (R211); an inactive
lane keeps its bit, or gets 0 with ZM (R207); P0 takes no write. -/
def Obligations.Compares : Prop :=
  ∀ s h e x, (s.VecReady h e 0x09 x ∨ s.VecReady h e 0x0A x) →
    ∃ t, exec (if wOp x.w = 0x09 then .cmplt h e else .cmpeq h e) s = .next t ∧ s.RegisterOnly t h e ∧
      s.Retired t h e (x.eng.pc + 1) (fun g => g.setP (x.vd % 8) ((t.engine h e).preg (x.vd % 8))) ∧
      ((t.engine h e).preg 0 = BitVec.allOnes 256) ∧
      ∀ k a b, x.vd % 8 ≠ 0 → k < 256 → x.srcA[k]? = some a → x.srcB[k]? = some b →
        let fa := dec32 (flush32 x.run.ftz a)
        let fb := dec32 (flush32 x.run.ftz b)
        ((t.engine h e).preg (x.vd % 8)).getLsbD k =
          if x.pred.getLsbD k then
            (if x.typ = 0 then !fa.isNan && !fb.isNan && (if wOp x.w = 0x09 then fa.lt fb else fa.eqv fb)
             else if wOp x.w = 0x09 then decide (a.toInt < b.toInt) else decide (a = b))
          else !x.zm && (x.eng.preg (x.vd % 8)).getLsbD k

/-- R208: the integer scalar operations and MOV complete with their result modulo 2^64 in SD. The kind of shift that SHR
is, and a shift by 64 or more, are the model's reading (log 22).
R208 with R209 to R212: FADD, FMUL and FRSQRT complete: SD gets the FP32 result in bits [31:0], bits [63:32] are cleared.
The operand of FRSQRT with a constant is the model's reading (log 22).
R208: JMP, JNZ and JLT complete: pc is the target where the jump is taken, else the next instruction; no register changes. -/
def Obligations.Scalars : Prop :=
  ScalarResult .sAdd 0x01 (fun x => x.sa + x.sb) ∧ ScalarResult .sSub 0x02 (fun x => x.sa - x.sb) ∧
  ScalarResult .sMul 0x03 (fun x => x.sa * x.sb) ∧ ScalarResult .and 0x04 (fun x => x.sa &&& x.sb) ∧
  ScalarResult .or 0x05 (fun x => x.sa ||| x.sb) ∧
  ScalarResult .shl 0x06 (fun x => if x.sb.toNat < 64 then BitVec.ofNat 64 (x.sa.toNat * 2 ^ x.sb.toNat) else 0) ∧
  ScalarResult .shr 0x07 (fun x => if x.sb.toNat < 64 then BitVec.ofNat 64 (x.sa.toNat / 2 ^ x.sb.toNat) else 0) ∧
  ScalarResult .mov 0x0B (fun x => if x.w.testBit 27 then x.imm32.signExtend 64 else x.sa) ∧
  ScalarResult .fadd 0x08 (fun x => BitVec.setWidth 64 (lane32 x.run.ftz (fun p q _ => p.add q) (BitVec.setWidth 32 x.sa) x.fb 0)) ∧
  ScalarResult .fmul 0x09 (fun x => BitVec.setWidth 64 (lane32 x.run.ftz (fun p q _ => p.mul q) (BitVec.setWidth 32 x.sa) x.fb 0)) ∧
  ScalarResult .frsqrt 0x0A (fun x => BitVec.setWidth 64 (lane32 x.run.ftz (fun p _ _ => fpRsqrt p)
    (if x.w.testBit 27 then x.imm32 else BitVec.setWidth 32 x.sa) 0 0)) ∧
  (∀ s h e x, s.InstrReady h e 5 0x01 x → ∃ t, exec (.jmp h e) s = .next t ∧
    s.Retired t h e (bitsOf x.w 32 32) id ∧ s.RegisterOnly t h e) ∧
  (∀ s h e x, s.InstrReady h e 5 0x02 x → ∃ t, exec (.jnz h e) s = .next t ∧
    s.Retired t h e (if x.sa ≠ 0 then bitsOf x.w 32 32 else x.eng.pc + 1) id ∧ s.RegisterOnly t h e) ∧
  (∀ s h e x, s.InstrReady h e 5 0x03 x → ∃ t, exec (.jlt h e) s = .next t ∧
    s.Retired t h e (if x.sa.slt x.sb then bitsOf x.w 32 32 else x.eng.pc + 1) id ∧ s.RegisterOnly t h e)

/-- R208, R204, R205: BARRIER waits until every engine of the run has reached one, and lets them all pass; HALT stops its engine, and
the last HALT of a run completes its command with S10 of rank 0; an engine that reaches BUDGET, and an LD at an offset that is not a
multiple of 32, stop the run with BAD_PARAM and the DETAIL of PROG_RUN. -/
def Obligations.RunControl : Prop :=
  (∀ s h e x, s.InstrReady h e 5 0x10 x → ∃ t, exec (.vecBarrier h e) s = .next t ∧
    (t.engine h e).pc = x.eng.pc + 1 ∧ (t.engine h e).v = x.eng.v ∧ (t.engine h e).s = x.eng.s ∧ (t.engine h e).p = x.eng.p ∧
    { t with hearths := s.hearths, allots := s.allots, glob := s.glob } = s ∧ (∀ a, (t.al a).objs = (s.al a).objs) ∧
    ((∃ i ∈ x.run.engines, i ≠ e ∧ (s.engine h i).atBarrier = false) →
      (t.engine h e).atBarrier = true ∧ ∀ i, i ≠ e → t.engine h i = s.engine h i) ∧
    ((∀ i ∈ x.run.engines, i ≠ e → (s.engine h i).atBarrier = true) → (t.engine h e).atBarrier = false ∧
      ∀ i r, (s.engine h i).run = some (x.run.cmd, r) → (t.engine h i).atBarrier = false)) ∧
  (∀ s h e x, s.InstrReady h e 5 0x11 x → (∃ i ∈ x.run.engines, i ≠ e ∧ (s.engine h i).halted = false) → ∃ t, exec (.halt h e) s = .next t ∧
    s.Retired t h e (x.eng.pc + 1) (fun g => { g with halted := true }) ∧ (∀ i, i ≠ e → t.engine h i = s.engine h i)) ∧
  (∀ s h e x, s.InstrReady h e 5 0x11 x → (∀ i ∈ x.run.engines, i ≠ e → (s.engine h i).halted = true) → x.c.aux.headD 0 = 0 → ∃ t,
    exec (.halt h e) s = .next t ∧
    t.Ended x.run.cmd .ok 0 (BitVec.setWidth 128 (if x.rank = 0 then x.eng.sreg 10 else x.run.s10)) ∧
    (∀ i r, (t.engine h i).run ≠ some (x.run.cmd, r)) ∧ (∀ r ∈ (t.he h).runs, r.cmd ≠ x.run.cmd)) ∧
  (∀ s h e x, s.ctx? h e = some x → x.run.budget ≠ 0 → x.run.budget ≤ x.eng.count → ∃ t, exec (.progBudgetExhausted h e) s = .next t ∧
    t.Ended x.run.cmd .badParam (w32 (x.eng.pc % 65536 + 2 ^ 18 + b2n x.run.wrote * 2 ^ 19)) 0 ∧
    (∀ i r, (t.engine h i).run ≠ some (x.run.cmd, r)) ∧ ∀ a, t.al a = s.al a) ∧
  (∀ s h e x, s.InstrReady h e 2 0x01 x → x.elemBase % 32 ≠ 0 → ∃ t, exec (.ld h e) s = .next t ∧
    t.Ended x.run.cmd .badParam (w32 (x.eng.pc % 65536 + 2 ^ 17 + b2n x.run.wrote * 2 ^ 19)) 0 ∧
    (∀ i r, (t.engine h i).run ≠ some (x.run.cmd, r)) ∧ ∀ a, t.al a = s.al a)

/-- R213 for FP32: REDSUM and REDMAX complete with the value at the root of the fixed tree over 256 lanes in S[VD]; an inactive lane
enters as -0 or as minus infinity.
REDSUM and REDMAX of TYPE INT32 complete: S[VD] is the sign-extended sum modulo 2^32, or the maximum, of the active lanes. The
value that an inactive lane enters is the model's reading (log 21). -/
def Obligations.Reductions : Prop :=
  (∀ s h e x, s.VecReady h e 0x20 x → x.typ = 0 → x.srcA.length = 256 → ∃ t, exec (.redsum h e) s = .next t ∧ s.RegisterOnly t h e ∧
    s.Retired t h e (x.eng.pc + 1) (fun g => g.setS (x.vd % 32) (BitVec.setWidth 64
      (treeAt (fun a b => lane32 x.run.ftz (fun p q _ => p.add q) a b 0)
        (fun i => if x.pred.getLsbD i then x.srcA.getD i 0 else 0x80000000#32) 8 0)))) ∧
  (∀ s h e x, s.VecReady h e 0x21 x → x.typ = 0 → x.srcA.length = 256 → ∃ t, exec (.redmax h e) s = .next t ∧ s.RegisterOnly t h e ∧
    s.Retired t h e (x.eng.pc + 1) (fun g => g.setS (x.vd % 32) (BitVec.setWidth 64
      (treeAt (fun a b => lane32 x.run.ftz (fun p q _ => p.max q) a b 0)
        (fun i => if x.pred.getLsbD i then x.srcA.getD i 0 else 0xFF800000#32) 8 0)))) ∧
  (∀ s h e x, s.VecReady h e 0x20 x → x.typ = 2 → x.srcA.length = 256 → ∃ t, exec (.redsum h e) s = .next t ∧ s.RegisterOnly t h e ∧
    s.Retired t h e (x.eng.pc + 1) (fun g => g.setS (x.vd % 32) (BitVec.signExtend 64
      (((List.range 256).filter (fun i => x.pred.getLsbD i)).foldl (fun a i => a + x.srcA.getD i 0) 0#32)))) ∧
  (∀ s h e x, s.VecReady h e 0x21 x → x.typ = 2 → x.srcA.length = 256 → ∃ t, exec (.redmax h e) s = .next t ∧ s.RegisterOnly t h e ∧
    s.Retired t h e (x.eng.pc + 1) (fun g => g.setS (x.vd % 32) (BitVec.signExtend 64
      (((List.range 256).filter (fun i => x.pred.getLsbD i)).foldl (fun a i => maxS a (x.srcA.getD i 0)) 0x80000000#32))))

/-- R214: LD, LDH and GATHER complete where the allotment has no poisoned block: each active lane of VR gets the window's elements decoded to FP32, LDH two of them in pair form, an inactive lane keeps its value, and no memory changes. -/
def Obligations.Loads : Prop :=
  (∀ s h e x, s.InstrReady h e 2 0x01 x → x.elemBase % 32 = 0 → s.accessOk x (x.lanes.map (fun i => x.elemBase + i)) false = true →
    s.Clean x.run.allot → ∃ t, exec (.ld h e) s = .next t ∧ s.RegisterOnly t h e ∧
      s.Retired t h e (x.eng.pc + 1) (fun g => g.setV x.vd ((t.engine h e).vreg x.vd)) ∧
      ∀ k o, k < 256 → (x.eng.vreg x.vd)[k]? = some o → ((t.engine h e).vreg x.vd)[k]? = some
        (if x.mpred.getLsbD k then (s.elem32 x.run.allot (s.winObj x) (x.place (x.elemBase + k))).1 else o)) ∧
  (∀ s h e x, s.InstrReady h e 2 0x05 x → x.elemBase % 32 = 0 → x.fmt = 4 →
    s.accessOk x (x.lanes.flatMap (fun i => [x.elemBase + 2 * i, x.elemBase + 2 * i + 1])) false = true →
    s.Clean x.run.allot → ∃ t, exec (.ldh h e) s = .next t ∧ s.RegisterOnly t h e ∧
      s.Retired t h e (x.eng.pc + 1) (fun g => g.setV x.vd ((t.engine h e).vreg x.vd)) ∧
      ∀ k o, k < 256 → (x.eng.vreg x.vd)[k]? = some o → ((t.engine h e).vreg x.vd)[k]? = some
        (if x.mpred.getLsbD k then
          w32 (encB16 (dec32 (s.elem32 x.run.allot (s.winObj x) (x.place (x.elemBase + 2 * k))).1) +
            65536 * encB16 (dec32 (s.elem32 x.run.allot (s.winObj x) (x.place (x.elemBase + (2 * k + 1)))).1))
         else o)) ∧
  (∀ s h e x, s.InstrReady h e 2 0x03 x → s.accessOk x (x.lanes.map x.lanePlace) false = true →
    s.Clean x.run.allot → ∃ t, exec (.gather h e) s = .next t ∧ s.RegisterOnly t h e ∧
      s.Retired t h e (x.eng.pc + 1) (fun g => g.setV x.vd ((t.engine h e).vreg x.vd)) ∧
      ∀ k o, k < 256 → (x.eng.vreg x.vd)[k]? = some o → ((t.engine h e).vreg x.vd)[k]? = some
        (if x.mpred.getLsbD k then (s.elem32 x.run.allot (s.winObj x) (x.place (x.lanePlace k))).1 else o))

/-- R205, R207, R214: ST, STH and SCATTER through a window with WRITE complete: no register changes, only the window's object and its
flag map may change, host memory stays, and a store with no active lane writes no object at all. -/
def Obligations.Stores : Prop :=
  (∀ s h e x, s.InstrReady h e 2 0x02 x → x.elemBase % 32 = 0 → s.accessOk x (x.lanes.map (fun i => x.elemBase + i)) true = true →
    (s.winObj x).poison = [] → ∃ t, exec (.st h e) s = .next t ∧ s.StoreFrame t h e x) ∧
  (∀ s h e x, s.InstrReady h e 2 0x06 x → x.elemBase % 32 = 0 → x.fmt = 4 →
    s.accessOk x (x.lanes.flatMap (fun i => [x.elemBase + 2 * i, x.elemBase + 2 * i + 1])) true = true →
    (s.winObj x).poison = [] → ∃ t, exec (.sth h e) s = .next t ∧ s.StoreFrame t h e x) ∧
  (∀ s h e x, s.InstrReady h e 2 0x04 x → s.accessOk x (x.lanes.map x.lanePlace) true = true →
    isBlock (s.winObj x).t.smode = false → (s.winObj x).poison = [] → ∃ t, exec (.scatter h e) s = .next t ∧ s.StoreFrame t h e x)

/-! ## The block's queue, rings, doorbells and the BAR0 window -/

/-- The block: with command c at the front of its queue, a step is exec of c on the state with the queue's rest. -/
def Obligations.StepRunsFront : Prop :=
  ∀ (s : State) (c : Instr) (rest : List Instr), s.pending = c :: rest → step s = exec c { s with pending := rest }

/-- R322: NOP completes OK with the first 16 parameter bytes in RESULT, and changes nothing else; parameter bytes beyond PARAM_LEN
read as 0 (R294). -/
def Obligations.NopEchoes : Prop :=
  (∀ s id c, s.Runs id 0x0100 nopFields c → ∃ t, exec (.nop id) s = .next t ∧
    t.Ended id .ok 0 (BitVec.ofNat 128 c.params) ∧ s.OnlyCmds t ∧ s.OthersStand t id) ∧
  ∀ a q rq bs, (cmdOf a q rq bs).params < 2 ^ (8 * paramLen bs) ∧ (cmdOf a q rq bs).plen = paramLen bs ∧
    paramLen bs ≤ bytesField bs 0xC 2

/-- R320: BARRIER waits for every command of its scope accepted before it, then advances its cell by 1 modulo 2^20 and completes OK
with the new count, 0 for cell 0; no other cell and nothing else of the module changes.
R306, R319, R321: TOKEN_WAIT completes at once where its token is met, WATCH where the epoch differs from SEEN_EPOCH, and else each
stays open; a timeout that is set then ends it with TIMED_OUT. RESULT carries the count of the cell, or the epoch; nothing else changes but
the time that has passed. -/
def Obligations.TokensAndWaits : Prop :=
  (∀ s id c, s.Runs id 0x0320 barrierFields c → c.allot < s.allots.length →
    ((∃ d ∈ s.hg.cmds, d.master = .allot ∧ d.allot = c.allot ∧ d.id < c.id ∧ (c.par 2 1 = 1 ∨ d.queue = c.queue)) →
      exec (.barrier id) s = .next s) ∧
    ((∀ d ∈ s.hg.cmds, d.master = .allot → d.allot = c.allot → d.id < c.id → c.par 2 1 ≠ 1 ∧ d.queue ≠ c.queue) →
      ∃ t, exec (.barrier id) s = .next t ∧ s.OthersStand t id ∧ s.OnlyAllot t c.allot ∧
        { t.al c.allot with tokens := (s.al c.allot).tokens } = s.al c.allot ∧
        (∀ k, (k = 0 ∨ k ≠ c.par 0 2) → t.cellCount c.allot k = s.cellCount c.allot k) ∧
        (c.par 0 2 = 0 → t.Ended id .ok 0 0) ∧
        (c.par 0 2 ≠ 0 → t.cellCount c.allot (c.par 0 2) = (s.cellCount c.allot (c.par 0 2) + 1) % 2 ^ 20 ∧
          t.Ended id .ok 0 (BitVec.ofNat 128 ((s.cellCount c.allot (c.par 0 2) + 1) % 2 ^ 20))))) ∧
  (∀ s id c, s.started? id 0x0321 = some c → s.judgeInline c (tokenWaitFields s c) = none →
    ∃ t, exec (.tokenWait id) s = .next t ∧ s.OnlyCmds t ∧ s.OthersStand t id ∧
      let tok := c.par 0 4
      let n := s.cellCount c.allot (bitsOf tok 0 12)
      if (n + 2 ^ 20 - bitsOf tok 12 20) % 2 ^ 20 < 2 ^ 19 then t.Ended id .ok 0 (BitVec.ofNat 128 n) else t.AtWork id) ∧
  (∀ s id c, s.started? id 0x0120 = some c → s.judgeInline c (watchFields s c) = none →
    ∃ t, exec (.watch id) s = .next t ∧ s.OnlyCmds t ∧ s.OthersStand t id ∧
      if s.epochOf c.allot ≠ c.par 0 4 then t.Ended id .ok 0 (BitVec.ofNat 128 (s.epochOf c.allot)) else t.AtWork id) ∧
  (∀ s id c, s.working? id 0x0321 = some c → c.par 4 4 ≠ 0 → s.tokenMet c.allot (c.par 0 4) = false → ∃ t, exec (.tokenWaitTimeout id) s = .next t ∧
    (s.passTo (c.tStart + 1000 * c.par 4 4)).OnlyCmds t ∧ s.OthersStand t id ∧
    t.Ended id .ok 1 (BitVec.ofNat 128 (s.cellCount c.allot (bitsOf (c.par 0 4) 0 12)))) ∧
  (∀ s id c, s.working? id 0x0120 = some c → c.par 4 4 ≠ 0 → s.epochOf c.allot = c.par 0 4 → ∃ t, exec (.watchTimeout id) s = .next t ∧
    (s.passTo (c.tAccept + 1000 * c.par 4 4)).OnlyCmds t ∧ s.OthersStand t id ∧
    t.Ended id .ok 1 (BitVec.ofNat 128 (s.epochOf c.allot)))

/-- R323: Q_CREATE makes an empty ring of the given kind, size and base; the memory of a new reply ring is zero-filled and no other
byte of host memory changes.
R324, R325: Q_DESTROY of a reply ring frees it; of a command ring it waits for the ring's other commands and for its gap marker, and
completes with the ring closed, which the reply then frees; FLUSH_REST completes at once on an empty, a stopped or a closing ring, drops the
slots of an incomplete packet and returns their number, and waits while whole packets stand before them. -/
def Obligations.RingCommands : Prop :=
  (∀ s id c, s.Runs id 0x0101 qCreateFields c → c.allot < s.allots.length → s.queueTotal < 1048576 → c.par 2 1 = 0 →
    ∃ t, exec (.qCreate id) s = .next t ∧ t.Ended id .ok 0 0 ∧ s.OthersStand t id ∧ s.QueuesStand t c.allot (c.par 0 2) ∧ t.host = s.host ∧
      t.queue? c.allot (c.par 0 2) = some { base := BitVec.ofNat 64 (c.par 8 8), log2 := c.par 3 1, replyQ := c.par 4 2 }) ∧
  (∀ s id c, s.Runs id 0x0101 qCreateFields c → c.allot < s.allots.length → s.queueTotal < 1048576 → c.par 2 1 = 1 →
    s.hostBad (c.par 8 8) (32 * 2 ^ c.par 3 1) = false → cellsWf s.host.bytes = true →
    ∃ t, exec (.qCreate id) s = .next t ∧ t.Ended id .ok 0 0 ∧ s.OthersStand t id ∧ s.QueuesStand t c.allot (c.par 0 2) ∧
      t.queue? c.allot (c.par 0 2) = some { base := BitVec.ofNat 64 (c.par 8 8), reply := true, log2 := c.par 3 1 } ∧
      s.HostOutside t (c.par 8 8) (32 * 2 ^ c.par 3 1) ∧
      ∀ b, c.par 8 8 ≤ b → b < c.par 8 8 + 32 * 2 ^ c.par 3 1 → cellGet t.host.bytes b = 0) ∧
  (∀ s id c, s.Runs id 0x0101 qCreateFields c → 1048576 ≤ s.queueTotal →
    ∃ t, exec (.qCreate id) s = .next t ∧ s.OnlyCmds t ∧ t.Ended id .noResource 0 0) ∧
  (∀ s id c, s.Runs id 0x0101 qCreateFields c → s.queueTotal < 1048576 → c.par 2 1 = 1 → s.hostBad (c.par 8 8) (32 * 2 ^ c.par 3 1) = true →
    s.Mild (0x9000 + c.allot) →
    ∃ t, exec (.qCreate id) s = .next t ∧ t.Ended id .faultContained (BitVec.ofNat 32 (0x9000 + c.allot)) 0) ∧
  (∀ s id c d, s.Runs id 0x0102 qDestroyFields c → c.allot < s.allots.length → s.queue? c.allot (c.par 0 2) = some d → d.reply = true →
    ∃ t, exec (.qDestroy id) s = .next t ∧ t.Ended id .ok 0 0 ∧ t.queue? c.allot (c.par 0 2) = none ∧ s.QueuesStand t c.allot (c.par 0 2)) ∧
  (∀ s id c d, s.Runs id 0x0102 qDestroyFields c → c.allot < s.allots.length → s.queue? c.allot (c.par 0 2) = some d → d.reply = false →
    d.gap = none → (∀ e ∈ s.hg.cmds, e.master = .allot → e.allot = c.allot → e.queue = c.par 0 2 → e.id = id) →
    ∃ t e, exec (.qDestroy id) s = .next t ∧ t.Ended id .ok 0 0 ∧ s.RingAlone t c.allot (c.par 0 2) d ∧
      t.queue? c.allot (c.par 0 2) = some e ∧ e.destroying = true ∧ e.base = d.base ∧ e.devPtr = d.devPtr ∧ e.hostPtr = d.hostPtr ∧ e.partialSlots = 0) ∧
  (∀ s id c d, s.Runs id 0x0102 qDestroyFields c → s.queue? c.allot (c.par 0 2) = some d → d.reply = false →
    ((∃ e ∈ s.hg.cmds, e.master = .allot ∧ e.allot = c.allot ∧ e.queue = c.par 0 2 ∧ e.id ≠ id) ∨ d.gap.isSome = true) →
    exec (.qDestroy id) s = .next s) ∧
  (∀ s id c d, s.cmd? id = some c → c.phase = .done → c.master = .allot → c.opcode = 0x0102 → c.code = .ok →
    s.queue? c.allot (c.par 0 2) = some d → d.reply = false → d.destroying = true →
    ∃ t, exec (.commandComplete id) s = .next t ∧ t.cmd? id = none ∧ t.queue? c.allot (c.par 0 2) = none) ∧
  (∀ s id c d, s.Runs id 0x0103 flushFields c → s.queue? c.allot (c.par 0 2) = some d → (d.stopped = true ∨ d.destroying = true ∨ d.count = 0) →
    ∃ t, exec (.flushRest id) s = .next t ∧ t.Ended id .ok 0 0 ∧ s.OnlyCmds t) ∧
  (∀ s id c d, s.Runs id 0x0103 flushFields c → c.allot < s.allots.length → s.queue? c.allot (c.par 0 2) = some d → d.stopped = false →
    d.destroying = false → 0 < d.count → d.count < s.xslotsAt d + 1 →
    ∃ t e, exec (.flushRest id) s = .next t ∧ t.Ended id .ok 0 (BitVec.ofNat 128 d.count) ∧ s.RingAlone t c.allot (c.par 0 2) d ∧
      t.queue? c.allot (c.par 0 2) = some e ∧ e.devPtr = d.hostPtr ∧ e.hostPtr = d.hostPtr ∧ e.base = d.base ∧ e.partialSlots = 0) ∧
  (∀ s id c d, s.Runs id 0x0103 flushFields c → s.queue? c.allot (c.par 0 2) = some d → d.stopped = false → d.destroying = false →
    0 < d.count → s.xslotsAt d + 1 ≤ d.count → exec (.flushRest id) s = .next s)

/-- R287, R298, R312: a write of a command ring's pointer publishes it, has no effect where it is repeated, and stops the ring where it
overfills it: the gap marker holds what was dropped, and DOORBELL_ERR reason 2 and both conditions stand. Host memory holds what host
software stored before; no other queue changes.
R312: a doorbell with an error of the table changes no queue and no pointer: reason 4 for a write narrower than 8 bytes or with a
reserved bit, reason 1 for no such queue or the wrong KIND, reason 4 for a pointer beyond bit n, reason 5 for a stopped or closing
ring. -/
def Obligations.CommandDoorbell : Prop :=
  (∀ (s : State) (fn : Nat) (v : W64) (stores : HostStores) (d : QDesc),
    s.reaches fn = true → fn < 16 → s.allots.length = 16 → dbKind v.toNat = false → dbRsvd v.toNat = 0 →
    s.queue? fn (dbQid v.toNat) = some d → d.reply = false → d.stopped = false → d.destroying = false → dbPtr v.toNat < d.mod →
    ∃ t, exec (.doorbellCommandWrite fn v 8 stores) s = .next t ∧
      t.hg.cmds = s.hg.cmds ∧ t.host = (s.hostStores stores).host ∧
      let w := dbPtr v.toNat
      let far := (w + d.mod - d.devPtr % d.mod) % d.mod
      let near := (d.hostPtr + d.mod - d.devPtr % d.mod) % d.mod
      (far ≤ 2 ^ d.log2 → near ≤ far → t.queue? fn (dbQid v.toNat) = some { d with hostPtr := w }) ∧
      (far ≤ 2 ^ d.log2 → far < near → t.queue? fn (dbQid v.toNat) = some d) ∧
      (far ≤ 2 ^ d.log2 → (t.al fn).dbErr = (s.al fn).dbErr ∧ s.QueuesStand t fn (dbQid v.toNat)) ∧
      (2 ^ d.log2 < far → s.Latched t fn (dbQid v.toNat) 2 ∧ t.hasCond fn .queueGap = true ∧ t.hasCond fn .doorbell = true ∧
        s.RingAlone t fn (dbQid v.toNat) d ∧ ∃ e, t.queue? fn (dbQid v.toNat) = some e ∧ e.stopped = true ∧ e.base = d.base ∧
          e.gap = some { dropped := far, first := d.devPtr } ∧ e.devPtr = d.devPtr ∧ e.hostPtr = d.hostPtr ∧ e.partialSlots = 0)) ∧
  (∀ (s : State) (fn : Nat) (v : W64) (size : Nat) (reason : Nat), s.reaches fn = true → fn < 16 → s.allots.length = 16 → reason ≠ 0 →
    (((size < 8 ∨ dbRsvd v.toNat ≠ 0) ∧ reason = 4) ∨
     (8 ≤ size ∧ dbRsvd v.toNat = 0 ∧ s.queue? fn (dbQid v.toNat) = none ∧ reason = 1) ∨
     (8 ≤ size ∧ dbRsvd v.toNat = 0 ∧ ∃ d, s.queue? fn (dbQid v.toNat) = some d ∧
      ((d.reply ≠ dbKind v.toNat ∧ reason = 1) ∨ (d.reply = dbKind v.toNat ∧ d.mod ≤ dbPtr v.toNat ∧ reason = 4) ∨
       (d.reply = dbKind v.toNat ∧ dbPtr v.toNat < d.mod ∧ (d.stopped = true ∨ d.destroying = true) ∧ reason = 5)))) →
    ∃ t, exec (if dbKind v.toNat then .doorbellReplyRead fn v size else .doorbellCommandWrite fn v size {}) s = .next t ∧
      (∀ b q, t.queue? b q = s.queue? b q) ∧ s.Latched t fn (dbQid v.toNat) reason ∧ t.hasCond fn .doorbell = true)

/-- R290: a reply read pointer beyond the entries that the device has written is ignored, recorded in DOORBELL_ERR with reason 3, and
does not stop the ring; any other becomes the ring's read pointer. -/
def Obligations.ReplyDoorbell : Prop :=
  ∀ (s : State) (fn : Nat) (v : W64) (d : QDesc),
    s.reaches fn = true → fn < 16 → s.allots.length = 16 → dbKind v.toNat = true → dbRsvd v.toNat = 0 →
    s.queue? fn (dbQid v.toNat) = some d → d.reply = true → d.stopped = false → d.destroying = false → dbPtr v.toNat < d.mod →
    ∃ t, exec (.doorbellReplyRead fn v 8) s = .next t ∧ s.QueuesStand t fn (dbQid v.toNat) ∧ t.host = s.host ∧ t.hg.cmds = s.hg.cmds ∧
      if (d.devPtr + d.mod - d.hostPtr % d.mod) % d.mod < (dbPtr v.toNat + d.mod - d.hostPtr % d.mod) % d.mod then
        t.queue? fn (dbQid v.toNat) = some d ∧ s.Latched t fn (dbQid v.toNat) 3
      else t.queue? fn (dbQid v.toNat) = some { d with hostPtr := dbPtr v.toNat } ∧ (t.al fn).dbErr = (s.al fn).dbErr

/-- R310, R312, R464: reading DOORBELL_ERR returns and clears it, with its level-1 condition; a 4-byte read of TIMESTAMP returns the
low half and latches the upper; a request to a function that is not enabled reads all ones; an offset beyond the 64 KiB window does not
exist.
R13, R14, R310 to R312: a write of 8 bytes to ADMINQ_CBASE or ADMINQ_RBASE sets the base with bits [11:0] ignored while ADMIN_UP is 0,
and has no effect while it is 1; a write of ADMINQ_CTRL is its row's; a write of read-only or reserved offsets changes nothing; a write of
DOORBELL is a doorbell, one narrower than 8 bytes records reason 4. The widths that a base takes are the model's choice (log 43). -/
def Obligations.Window : Prop :=
  (∀ (s : State) fn, s.reaches fn = true → fn < 16 → s.allots.length = 16 → ∃ t, exec (.doorbellErr fn) s = .next t ∧
    t.hg.readData = BitVec.ofNat 64
      (((s.al fn).dbErr.qid + (s.al fn).dbErr.reason * 2 ^ 16 + (if (s.al fn).dbErr.more then 2 ^ 31 else 0)) % 2 ^ 32) ∧
    (t.al fn).dbErr = {} ∧ t.hasCond fn .doorbell = false ∧ (∀ b q, t.queue? b q = s.queue? b q) ∧ t.hg.cmds = s.hg.cmds ∧ t.host = s.host) ∧
  (∀ (s : State) fn, s.reaches fn = true → fn ≤ 16 → ∃ t, exec (.timestampLowRead fn) s = .next t ∧
    t.hg.readData = BitVec.ofNat 64 (s.clk.ts.toNat % 2 ^ 32) ∧ look fn t.hg.tsLatch = some (BitVec.ofNat 32 (s.clk.ts.toNat / 2 ^ 32)) ∧
    { t with hg := { t.hg with readData := s.hg.readData, tsLatch := s.hg.tsLatch } } = s) ∧
  (∀ (s : State) fn off, off < 0x10000 → s.dev.linkUp = true → fn ≠ 0 → (s.dev.vfEnable = false ∨ s.dev.numVfs < fn) →
    ∃ t, exec (.unsupportedRequest fn off) s = .next t ∧ t.hg.readData = BitVec.allOnes 64 ∧ { t with hg := { t.hg with readData := s.hg.readData } } = s) ∧
  (∀ (s : State) fn off size v, 0x10000 ≤ off → exec (.registerWrite fn off size v) s = .fault .outsideBar0 ∧
    exec (.unsupportedRequest fn off) s = .fault .outsideBar0) ∧
  (∀ (s : State) fn (v : W64), s.reaches fn = true → fn < 16 → s.allots.length = 16 → (s.al fn).adminUp = false →
    ∃ t, exec (.registerWrite fn 0x20 8 v) s = .next t ∧ (t.al fn).adminC = BitVec.ofNat 64 (v.toNat / 4096 * 4096) ∧
      { t.al fn with adminC := (s.al fn).adminC } = s.al fn ∧ s.OnlyAllot t fn) ∧
  (∀ (s : State) fn (v : W64), s.reaches fn = true → fn < 16 → s.allots.length = 16 → (s.al fn).adminUp = false →
    ∃ t, exec (.registerWrite fn 0x28 8 v) s = .next t ∧ (t.al fn).adminR = BitVec.ofNat 64 (v.toNat / 4096 * 4096) ∧
      { t.al fn with adminR := (s.al fn).adminR } = s.al fn ∧ s.OnlyAllot t fn) ∧
  (∀ (s : State) fn off size v, s.reaches fn = true → (s.al fn).adminUp = true → 0x20 ≤ off → off + size ≤ 0x30 →
    exec (.registerWrite fn off size v) s = .next s) ∧
  (∀ (s : State) fn off size v, s.reaches fn = true → off < 0x10000 → ((off < 0x20 ∧ off + size ≤ 0x20) ∨ (0x34 ≤ off ∧ off < 0x40 ∧ off + size ≤ 0x40) ∨ 0x48 ≤ off ∨ 16 ≤ fn) →
    exec (.registerWrite fn off size v) s = .next s) ∧
  (∀ (s : State) fn (v : W64), s.reaches fn = true → fn < 16 →
    exec (.registerWrite fn 0x30 4 v) s = exec (if v.getLsbD 16 then .adminqEnable fn (BitVec.setWidth 32 v) else .adminqDisable fn (BitVec.setWidth 32 v)) s) ∧
  (∀ (s : State) fn (v : W64), s.reaches fn = true → fn < 16 →
    exec (.registerWrite fn 0x40 8 v) s = exec (if dbKind v.toNat then .doorbellReplyRead fn v 8 else .doorbellCommandWrite fn v 8 {}) s) ∧
  (∀ (s : State) fn off size v, s.reaches fn = true → fn < 16 → s.allots.length = 16 → 0x40 ≤ off → off < 0x48 → size < 8 →
    ∃ t q, exec (.registerWrite fn off size v) s = .next t ∧ (∀ b r, t.queue? b r = s.queue? b r) ∧ s.Latched t fn q 4 ∧ t.hasCond fn .doorbell = true)

/-- R311: ENABLE 1 while ADMIN_UP is 0 creates command queue 0 and reply queue 1 from the bases and the written sizes, or records reason 6
and creates nothing; ENABLE 0 while ADMIN_UP is 1 destroys them once no command of queue 0 is left, or records reason 6 where another command
ring names reply queue 1; ENABLE reads as it was written (R13). -/
def Obligations.AdminQueues : Prop :=
  (∀ (s : State) fn (ctrl : W32), s.reaches fn = true → fn < 16 → s.allots.length = 16 → ctrl.getLsbD 16 = true →
    (s.al fn).live = true → 4 ≤ bitsOf ctrl.toNat 0 5 → bitsOf ctrl.toNat 0 5 ≤ 16 → 6 ≤ bitsOf ctrl.toNat 8 5 → bitsOf ctrl.toNat 8 5 ≤ 16 →
    s.queue? fn 0 = none → s.queue? fn 1 = none → s.queueTotal + 2 ≤ 1048576 →
    s.hostBad (s.al fn).adminR.toNat (32 * 2 ^ bitsOf ctrl.toNat 8 5) = false →
    ∃ t, exec (.adminqEnable fn ctrl) s = .next t ∧ (t.al fn).adminUp = true ∧ (t.al fn).adminEnable = true ∧
      t.queue? fn 0 = some { base := (s.al fn).adminC, log2 := bitsOf ctrl.toNat 0 5, replyQ := 1 } ∧
      t.queue? fn 1 = some { base := (s.al fn).adminR, reply := true, log2 := bitsOf ctrl.toNat 8 5 } ∧
      ∀ b q, (b ≠ fn ∨ 1 < q) → t.queue? b q = s.queue? b q) ∧
  (∀ (s : State) fn (ctrl : W32), s.reaches fn = true → fn < 16 → s.allots.length = 16 → ctrl.getLsbD 16 = true →
    (s.al fn).adminUp = false →
    ((s.al fn).live = false ∨ bitsOf ctrl.toNat 0 5 < 4 ∨ 16 < bitsOf ctrl.toNat 0 5 ∨ bitsOf ctrl.toNat 8 5 < 6 ∨ 16 < bitsOf ctrl.toNat 8 5 ∨
      s.queue? fn 0 ≠ none ∨ s.queue? fn 1 ≠ none ∨ 1048576 < s.queueTotal + 2) →
    ∃ t, exec (.adminqEnable fn ctrl) s = .next t ∧ s.Latched t fn 0 6 ∧ (t.al fn).adminEnable = true ∧ ∀ b q, t.queue? b q = s.queue? b q) ∧
  (∀ (s : State) fn (ctrl : W32), s.reaches fn = true → fn < 16 → s.allots.length = 16 → ctrl.getLsbD 16 = false →
    (s.al fn).adminUp = true → (∃ e ∈ (s.al fn).queues, e.2.reply = false ∧ e.2.replyQ = 1 ∧ e.1 ≠ 0) →
    ∃ t, exec (.adminqDisable fn ctrl) s = .next t ∧ s.Latched t fn 0 6 ∧ (t.al fn).adminEnable = false ∧ (∀ b q, t.queue? b q = s.queue? b q)) ∧
  (∀ (s : State) fn (ctrl : W32) d r, s.reaches fn = true → fn < 16 → s.allots.length = 16 → ctrl.getLsbD 16 = false →
    s.queue? fn 0 = some d → d.reply = false → d.replyQ = 1 → s.queue? fn 1 = some r → r.reply = true → (s.al fn).adminUp = true →
    (∀ e ∈ (s.al fn).queues, e.2.reply = false → (e.2.replyQ = 0 ∨ e.2.replyQ = 1) → e.1 = 0) →
    ∃ t, exec (.adminqDisable fn ctrl) s = .next t ∧ (t.al fn).adminEnable = false ∧ (∀ b q, (b ≠ fn ∨ 1 < q) → t.queue? b q = s.queue? b q) ∧
      (d.gap = none → r.gap = none → (∀ c ∈ s.hg.cmds, c.master = .allot → c.allot = fn → c.queue ≠ 0 ∧ c.queue ≠ 1) →
        t.queue? fn 0 = none ∧ t.queue? fn 1 = none ∧ (t.al fn).adminUp = false) ∧
      ((∃ c ∈ s.hg.cmds, c.master = .allot ∧ c.allot = fn ∧ c.queue = 0) →
        t.queue? fn 0 = some { d with destroying := true, partialSlots := 0, partialResv := 0 } ∧ (t.al fn).adminUp = true)) ∧
  (∀ (s : State) fn (ctrl : W32), s.reaches fn = true → fn < 16 → s.allots.length = 16 →
    (ctrl.getLsbD 16 = true → (s.al fn).adminUp = true → ∃ t, exec (.adminqEnable fn ctrl) s = .next t ∧ s.OnlyAllot t fn ∧
      t.al fn = { s.al fn with adminEnable := true }) ∧
    (ctrl.getLsbD 16 = false → (s.al fn).adminUp = false → ∃ t, exec (.adminqDisable fn ctrl) s = .next t ∧ s.OnlyAllot t fn ∧
      t.al fn = { s.al fn with adminEnable := false, adminClog2 := bitsOf ctrl.toNat 0 5, adminRlog2 := bitsOf ctrl.toNat 8 5 }))

/-- R289, R294 to R296: the queue whose turn it is gives the packet at its fetch pointer: the command gets the next acceptance number,
the ring's pointer moves over its slots, its reply entries are reserved, and it is accepted, or rejected with a code of 0x10 or above.
R314: an opcode that does not exist, or that the issuer may not issue, is rejected at acceptance before every later test. -/
def Obligations.CommandAccept : Prop :=
  (∀ (s : State) a q d r bs, s.allots.length = 16 → a < 16 → s.queue? a q = some d → s.turn = some (a, q) → s.atHead d = .packet bs →
    d.reply = false → s.queue? a d.replyQ = some r → r.reply = true → (∀ c ∈ s.hg.cmds, c.id < s.hg.nextId) →
    ∃ t c, exec (.commandAccept a q) s = .next t ∧ t.hg.nextId = s.hg.nextId + 1 ∧ t.cmd? s.hg.nextId = some c ∧
      c.allot = a ∧ c.queue = q ∧ c.opcode = bytesField bs 0 2 ∧ c.tag = BitVec.ofNat 32 (bytesField bs 4 4) ∧ c.dep = bytesField bs 8 4 ∧
      c.params = bytesField bs 0x10 (paramLen bs) ∧ c.acc = (s.al a).accNext ∧ c.gen = (s.al a).gen ∧ c.tAccept = s.now ∧
      (c.phase = .accepted ∨ (c.phase = .done ∧ 0x10 ≤ c.code.num)) ∧ (t.al a).accNext = (s.al a).accNext + 1 ∧
      t.queue? a q = some { d with devPtr := (d.devPtr + bs.length / 128) % d.mod, partialSlots := 0, partialResv := 0 } ∧
      t.queue? a d.replyQ = some { r with resv := r.resv - d.partialResv + c.entries } ∧ ∀ j, j ≠ s.hg.nextId → t.cmd? j = s.cmd? j) ∧
  (∀ (s : State) a q d bs, s.allots.length = 16 → a < 16 → s.queue? a q = some d → s.turn = some (a, q) → s.atHead d = .packet bs →
    (∀ c ∈ s.hg.cmds, c.id < s.hg.nextId) →
    ((s.opExists (bytesField bs 0 2) = false → ∃ t, exec (.commandAccept a q) s = .next t ∧ t.Ended s.hg.nextId .badOpcode 0 0) ∧
     (s.opExists (bytesField bs 0 2) = true → (cmdOf a q d.replyQ bs).permitted = false →
        ∃ t, exec (.commandAccept a q) s = .next t ∧ t.Ended s.hg.nextId .notPermitted 0 0)))

/-- R315, R316, R319: an accepted command whose queue lets it start and whose token is met starts at the time that it is; an order then
waits in the arbiter; a command with an open dependency or behind a command that holds its queue does not start. -/
def Obligations.CommandStart : Prop :=
  ∀ s id c, s.cmd? id = some c → c.master = .allot → s.arbUp = true → c.phase = .accepted → c.waitSet = false →
    (s.queueClear c = false → exec (.commandStart id) s = .next s) ∧
    (s.queueClear c = true → c.dep ≠ 0 → s.tokenMet c.allot c.dep = false →
      ∃ t, exec (.commandStart id) s = .next t ∧ ∃ d, t.cmd? id = some d ∧ d.phase = .accepted) ∧
    (s.queueClear c = true → (c.dep = 0 ∨ s.tokenMet c.allot c.dep = true) → s.counted c = false → c.opcode ≠ 0x0102 →
      ∃ t, exec (.commandStart id) s = .next t ∧ t.cmd? id = some { c with phase := .started, tStart := s.now } ∧ s.OthersStand t id ∧
        t.hg.arb = (if c.arbitrated then s.hg.arb ++ [id] else s.hg.arb) ∧ t.allots = s.allots ∧ t.host = s.host)

/-- R291, R304, R307: the one reply of a command that is done: its head entry stands in the reply ring with TAG, STATUS, DETAIL and
RESULT, the ring's pointer has moved over the reply's entries, and the command is gone. The response of the management controller's
command is kept for it (R334).
R298, R299: the reply to a gap marker: TAG all ones, CODE GAP_SEEN with the allotment's attention, DETAIL the slots dropped, the
marker in RESULT; the marker is gone, and the reply ring's pointer has moved by one entry. -/
def Obligations.Replies : Prop :=
  (∀ s id c r, s.cmd? id = some c → c.phase = .done → c.master = .allot → s.behind c = false → c.opcode ≠ 0x0102 →
    (s.al c.allot).adminClosing = false → s.allots.length = 16 → c.allot < 16 → s.queue? c.allot c.replyQ = some r → r.stopped = false →
    (∀ i, i ≤ 36 → s.hostBad (r.entryAt ((r.devPtr + i) % r.mod)) 32 = false) → (pieces 16 (s.counterRecord c)).length ≤ 36 →
    ∃ t, exec (.commandComplete id) s = .next t ∧ t.cmd? id = none ∧ s.OthersStand t id ∧
      cellRead t.host.bytes (r.entryAt (r.devPtr % r.mod)) 32 =
        headEntry c.tag.toNat (statusWord c.code (s.attn.getD c.allot {}) c.allot c.gen) (r.qseq (r.devPtr % r.mod)) c.detail.toNat c.result.toNat ∧
      (let k := (pieces 16 (s.counterRecord c)).length + 1
       t.queue? c.allot c.replyQ = some { r with
         devPtr := (r.devPtr + k) % r.mod, resv := r.resv - k, qseqNext := (r.qseqNext + 1) % 2 ^ 31 })) ∧
  (∀ s id c, s.cmd? id = some c → c.phase = .done → c.master = .mgmt →
    ∃ t, exec (.commandComplete id) s = .next t ∧ t.cmd? id = none ∧ s.OthersStand t id ∧ t.host = s.host ∧ t.allots = s.allots ∧
      t.hg.responses = s.hg.responses ++ [{ id := id, code := c.code, detail := c.detail, result := c.result }]) ∧
  (∀ (s : State) a q d g r, s.allots.length = 16 → a < 16 → s.queue? a q = some d → d.reply = false → d.gap = some g →
    s.queue? a d.replyQ = some r → r.reply = true → r.stopped = false → 1 ≤ r.free →
    s.hostBad (r.entryAt (r.devPtr % r.mod)) 32 = false → (s.al a).adminClosing = false →
    ∃ t, exec (.gapSeen a q) s = .next t ∧ t.queue? a q = some { d with gap := none } ∧
      t.queue? a d.replyQ = some { r with devPtr := (r.devPtr + 1) % r.mod, qseqNext := (r.qseqNext + 1) % 2 ^ 31 } ∧
      cellRead t.host.bytes (r.entryAt (r.devPtr % r.mod)) 32 =
        headEntry 0xFFFFFFFF (statusWord .gapSeen (s.attn.getD a {}) a (s.al a).gen) (r.qseq (r.devPtr % r.mod)) g.dropped g.marker ∧
      (cellsWf s.host.bytes = true → s.HostOutside t (r.entryAt (r.devPtr % r.mod)) 32))

/-- R332, R333: a round executes the orders that wait in the order of precedence: one order alone has the effect of its own row; of two
orders of one queue that set one state object, the first is executed and the second completes SUPERSEDED with the first as the winner.
R23, R332: an order of the management controller is presented to the arbiter; a controller that restarts or has no standby rail
presents none. -/
def Obligations.ArbiterRound : Prop :=
  (∀ s id c out, s.OrderRuns id 0x0904 faultForceFields c → s.hg.arb = [id] → s.arbUp = true → s.pair.alarmWaits = false → c.master = .allot → s.ready c = true →
    ∃ t, exec (.faultForce id) s = .next t ∧ exec (.arbiterRound out) s = .next t.settle) ∧
  (∀ s i j c d out, s.OrderRuns i 0x0904 faultForceFields c → s.fresh? j 0x0904 = some d → s.hg.arb = [i, j] → i < j → s.arbUp = true →
    s.pair.alarmWaits = false → c.master = .allot → d.master = .allot → c.allot = 0 → d.allot = 0 → c.queue = d.queue →
    c.par 0 2 = d.par 0 2 → (∀ e ∈ s.flt.force, e.1 ≠ c.par 0 2) → s.ready c = true → s.ready d = true →
    ∃ t, exec (.arbiterRound out) s = .next t ∧ t.Ended i .ok 0 0 ∧ t.Ended j .superseded (BitVec.ofNat 32 (3 + 256 * c.queue)) 0 ∧ t.hg.arb = []) ∧
  (∀ s out, s.hg.arb = [] → s.pair.alarmWaits = false → exec (.arbiterRound out) s = .next s.settle) ∧
  (∀ (s : State) p pass trial,
    (s.dev.standby = true → s.mgt.restarting = false →
      ∀ e ∈ [(Instr.poolSet (.mgmt p), 0x0210), (.quench (.mgmt p), 0x0730), (.ctrConfig (.mgmt p), 0x0801),
        (.faultSeverity (.mgmt p), 0x0903), (.fence (.mgmt p), 0x0910), (.unfence (.mgmt p) pass, 0x0911), (.selftest (.mgmt p), 0x0920),
        (.faultClear (.mgmt p), 0x0902), (.powerCap (.mgmt p), 0x0A01), (.allotReset (.mgmt p), 0x0A40), (.devReset (.mgmt p) trial, 0x0A41)],
      ∃ t, exec e.1 s = .next t ∧ s.Presented t e.2 p) ∧
    (s.dev.standby = false ∨ s.mgt.restarting = true → exec (.powerCap (.mgmt p)) s = .next s))

/-! ## Objects and pools -/

/-- R250, R252 to R254, R263, R269: OBJ_CREATE that fits, after the evictions of its plan, makes an object that reads as +0 everywhere,
under a handle of a free index whose REUSE follows the index's count, charged at its size rounded up to 4 KiB; one that does not fit, or
whose hearth is out of service, completes NO_RESOURCE and changes no object. The row's own index has no effect (log 44). -/
def Obligations.ObjCreate : Prop :=
  ∀ s id c, s.Runs id 0x0201 objCreateFields c → c.allot < s.allots.length → (s.al c.allot).objs.length < 1048575 →
    let tier := bitsOf (c.par 3 1) 0 2
    let hearth := bitsOf (c.par 3 1) 2 1
    let charged := roundUp c.newSize 4096
    ((2 ≤ tier ∨ s.hearthOpen c hearth = true) → ∀ pl, s.plan c.allot (poolOf tier hearth) charged = some pl →
      ∃ t index r, (∀ k, exec (.objCreate id k) s = .next t) ∧ 1 ≤ index ∧ index ≤ 1048575 ∧ look index (s.al c.allot).objs = none ∧
        r = ((look index (s.al c.allot).reuse).map (fun n => (n + 1) % 4096)).getD 0 ∧
        t.Ended id .ok pl.detail (BitVec.ofNat 128 (index + r * 2 ^ 20 + charged * 2 ^ 64)) ∧
        look index (t.al c.allot).objs = some
          { reuse := r, t := c.newTensor, size := c.newSize, charged := charged, tier := tier, hearth := hearth, pinned := (c.par 3 1).testBit 3,
            lastUse := c.acc } ∧
        look index (t.al c.allot).reuse = some r ∧ (pl.steps = [] → s.ObjsStand t c.allot index)) ∧
    ((tier < 2 ∧ s.hearthOpen c hearth = false) ∨ s.plan c.allot (poolOf tier hearth) charged = none →
      ∃ t, (∀ k, exec (.objCreate id k) s = .next t) ∧ s.OnlyCmds t ∧ t.Ended id .noResource 0 0)

/-- R258, R259: OBJ_FREE releases the object, and its handle resolves no longer; OBJ_PIN pins, unpins or queries, and RESULT is the
object's state; no other object changes.
R256, R270, R276: OBJ_MOVE that fits without eviction gives the object its new home with every byte as it was; to the home that it
has it completes at once, and where it does not fit it completes NO_RESOURCE. -/
def Obligations.ObjHomes : Prop :=
  (∀ s id c, s.Runs id 0x0202 objFreeFields c → c.allot < s.allots.length → ∃ t, exec (.objFree id) s = .next t ∧ t.Ended id .ok 0 0 ∧
    t.obj? c.allot (c.par 0 4) = none ∧ s.ObjsStand t c.allot (handleIndex (c.par 0 4)) ∧ t.host = s.host ∧
    (c.par 0 4) ∉ ((t.al c.allot).upd.frozen)) ∧
  (∀ s id c o, s.Runs id 0x0204 objPinFields c → c.allot < s.allots.length → s.obj? c.allot (c.par 0 4) = some o →
    ∃ t p, exec (.objPin id) s = .next t ∧ p = (if c.par 4 1 = 2 then o.pinned else decide (c.par 4 1 = 1)) ∧
      t.obj? c.allot (c.par 0 4) = some { o with pinned := p } ∧ s.ObjsStand t c.allot (handleIndex (c.par 0 4)) ∧ s.OnlyAllot t c.allot ∧
      t.Ended id .ok 0 (BitVec.ofNat 128 (o.tier + 4 * o.hearth + 8 * p.toNat + 16 * o.shadow.toNat + 32 * o.lost.toNat + o.charged * 2 ^ 64))) ∧
  (∀ s id c o, s.Runs id 0x0203 objMoveFields c → c.allot < s.allots.length → (s.named c).obj? c.allot (c.par 0 4) = some o →
    let tier := bitsOf (c.par 4 1) 0 2
    let hearth := bitsOf (c.par 4 1) 2 1
    (2 ≤ tier ∨ (s.named c).hearthOpen c hearth = true) →
    (o.tier = tier → o.hearth = hearth → ∃ t, exec (.objMove id) s = .next t ∧ t.Ended id .ok 0 0 ∧ (s.named c).OnlyCmds t) ∧
    ((o.tier ≠ tier ∨ o.hearth ≠ hearth) → ¬ (tier = 2 ∧ o.shadow = true) → (s.named c).fits c.allot (poolOf tier hearth) o.charged = true →
      (tier ≠ 3 ∨ o.poison = []) → (tier < 2 ∨ hearth = 0) →
      ∃ t p, exec (.objMove id) s = .next t ∧ t.Ended id .ok 0 0 ∧ t.obj? c.allot (c.par 0 4) = some p ∧ p.tier = tier ∧ p.hearth = hearth ∧
        p.t = o.t ∧ p.size = o.size ∧ p.charged = o.charged ∧ p.pinned = o.pinned ∧ (s.named c).ObjsStand t c.allot (handleIndex (c.par 0 4))) ∧
    ((o.tier ≠ tier ∨ o.hearth ≠ hearth) → ¬ (tier = 2 ∧ o.shadow = true) → (s.named c).plan c.allot (poolOf tier hearth) o.charged = none →
      ∃ t, exec (.objMove id) s = .next t ∧ t.Ended id .noResource 0 0 ∧ (s.named c).OnlyCmds t) ∧
    (tier = 2 → o.tier < 2 → o.shadow = true →
      ∃ t p, exec (.objMove id) s = .next t ∧ t.Ended id .ok 0 0 ∧ t.obj? c.allot (c.par 0 4) = some p ∧ p.tier = 2 ∧ p.shadow = false ∧ p.t = o.t))

/-- R260, R261, R271: OBJ_COPY moves the bytes of its range between objects (KIND 0), from host memory (KIND 1) or into it (KIND 2), and
leaves every byte beside the range; KIND 3 makes the tier-2 copy, charged like the object. -/
def Obligations.ObjCopy : Prop :=
  ∀ s id c, s.Runs id 0x0205 objCopyFields c → c.allot < s.allots.length →
    let a := c.allot
    let src := c.par 8 4
    let dst := c.par 0xC 4
    let so := c.par 0x10 8
    let d := c.par 0x18 8
    let n := c.par 0x20 8
    let ha := c.par 0x28 8
    (∀ o x, c.par 0 1 = 0 → (s.named c).obj? a src = some o → (s.named c).obj? a dst = some x → (x.tier ≠ 3 ∨ o.poison = []) →
      ∃ t y, exec (.objCopy id) s = .next t ∧ t.Ended id .ok 0 0 ∧ t.obj? a dst = some y ∧ y.read d n = o.read so n ∧
        (cellsWf x.t.data = true → ∀ b, (b < d ∨ d + n ≤ b) → cellGet y.t.data b = cellGet x.t.data b) ∧ t.host = s.host ∧
        (s.named c).ObjsStand t a (handleIndex dst)) ∧
    (∀ x, c.par 0 1 = 1 → (s.named c).obj? a dst = some x → (∀ i, i < n / 64 → s.hostBad (ha + 64 * i) 64 = false) →
      ∃ t y, exec (.objCopy id) s = .next t ∧ t.Ended id .ok 0 0 ∧ t.obj? a dst = some y ∧ y.read d n = cellRead s.host.bytes ha n ∧
        (cellsWf x.t.data = true → ∀ b, (b < d ∨ d + n ≤ b) → cellGet y.t.data b = cellGet x.t.data b) ∧ t.host = s.host ∧
        (s.named c).ObjsStand t a (handleIndex dst)) ∧
    (∀ o, c.par 0 1 = 2 → (s.named c).obj? a src = some o → o.poison = [] → (∀ i, i < n / 64 → s.hostBad (ha + 64 * i) 64 = false) →
      ∃ t, exec (.objCopy id) s = .next t ∧ t.Ended id .ok 0 0 ∧ cellRead t.host.bytes ha n = o.read so n ∧
        (cellsWf s.host.bytes = true → s.HostOutside t ha n) ∧ ∀ b, (t.al b).objs = ((s.named c).al b).objs) ∧
    (∀ o, c.par 0 1 = 3 → (s.named c).obj? a src = some o → o.shadow = false →
      ((s.named c).fits a 4 o.charged = true → ∃ t y, exec (.objCopy id) s = .next t ∧ t.Ended id .ok 0 0 ∧ t.obj? a src = some y ∧
        y.shadow = true ∧ y.t = o.t ∧ y.tier = o.tier) ∧
      ((s.named c).fits a 4 o.charged = false → ∃ t, exec (.objCopy id) s = .next t ∧ t.Ended id .noResource 0 0))

/-- R265, R266, R279: POOL_SET KIND 0 sets the six pools of an allotment with its two modes; KIND 1 sets the two regions, but not the
mirror region of a bound pair. -/
def Obligations.PoolSet : Prop :=
  ∀ s id c, s.OrderRuns id 0x0210 poolSetFields c → s.allots.length = 16 →
    (c.par 0 1 = 0 → c.par 1 1 < 16 → ∃ t, exec (.poolSet (.cmd id)) s = .next t ∧ t.Ended id .ok 0 0 ∧
      (t.al (c.par 1 1)).pools = (List.range 6).map (fun i => ({ quota := c.par (8 + 8 * i) 4, reserve := c.par (12 + 8 * i) 4 } : Pool)) ∧
      (t.al (c.par 1 1)).evictOff = (c.par 2 1).testBit 0 ∧ (t.al (c.par 1 1)).compat = (c.par 2 1).testBit 1 ∧
      (∀ b, b ≠ c.par 1 1 → t.al b = s.al b) ∧ t.dev = s.dev ∧ t.host = s.host) ∧
    (c.par 0 1 = 1 → (s.pair.bound = false ∨ c.par 0xC 4 = s.dev.mirrorGib) → ∃ t, exec (.poolSet (.cmd id)) s = .next t ∧ t.Ended id .ok 0 0 ∧
      t.dev = { s.dev with ckptGib := c.par 8 4, mirrorGib := c.par 0xC 4 } ∧ t.allots = s.allots ∧ t.host = s.host) ∧
    (c.par 0 1 = 1 → s.pair.bound = true → c.par 0xC 4 ≠ s.dev.mirrorGib → ∃ t, exec (.poolSet (.cmd id)) s = .next t ∧ t.Ended id .wrongState 0 0 ∧
      t.dev = s.dev ∧ t.allots = s.allots)

/-! ## Tile ops -/

/-- R59, R62, R116, R128: a TILE_RUN whose descriptors meet their rules hands its list, op by op as written and each stamped with its
layer's rung, to its sequencer, with the buffers of its K-split groups charged, and goes on; a descriptor that breaks a rule gives
BAD_PARAM with its index, and buffers that fit nowhere NO_RESOURCE. No object's bytes change.
R62, R65, R68: a sequencer issues the next op of its list, in list order, to a free anvil once no conflict holds it; an op that must
wait counts one wait, and no later op of its list overtakes it. Issuing changes no object.
R67, R112: the last op of a list, a fresh or accumulating one of an unsteered layer, ends its TILE_RUN: OK, OK_WITH_NOTE after a
spillway overflow, or RETRIED_WIDER; RESULT counts the ops and the re-run ones, and the list leaves its sequencer. -/
def Obligations.TileRuns : Prop :=
  (∀ s id seq c, s.Runs id 0x0301 tileRunFields c → c.allot < s.allots.length → s.hearths.length = 2 →
    let h := c.par 0xC 1
    let ds := (s.named c).descsOf c
    h < 2 → (s.named c).hearthOpen c h = true →
    (s.named c).poisonOf [(c.allot, refHandle (c.par 0 8), bitsOf (c.par 0 8) 32 32 * 64, 64 * c.par 8 4)] = none →
    (∀ j, (s.named c).badDesc c.allot ds = some j → ∃ t, exec (.tileRun id seq) s = .next t ∧
      t.Ended id .badParam (BitVec.ofNat 32 (0xFFFF + 65536 * satTo 65535 j)) 0 ∧ (s.named c).OnlyCmds t) ∧
    ((s.named c).badDesc c.allot ds = none → (s.named c).reachable c ((s.named c).namesNow c) = none →
      ((s.named c).takeBuffers c.allot id h ((groupHeads ds).flatMap (headNeeds ds)) = none →
        ∃ t, exec (.tileRun id seq) s = .next t ∧ t.Ended id .noResource 0 0 ∧ (s.named c).OnlyCmds t) ∧
      (∀ u, (s.named c).takeBuffers c.allot id h ((groupHeads ds).flatMap (headNeeds ds)) = some u → (s.named c).tileAhead c = false → (s.named c).seqKept c h = false → seq < 4 →
        (∀ l ∈ (s.he h).lists, l.seq ≠ seq) →
        ∃ t l, exec (.tileRun id seq) s = .next t ∧ t.AtWork id ∧ t.allots = u.allots ∧ t.host = s.host ∧ s.OthersStand t id ∧
          (t.he h).lists.find? (fun m => m.seq == seq) = some l ∧ l.cmd = id ∧ l.allot = c.allot ∧ l.key = BitVec.ofNat 64 (c.par 0x10 8) ∧
          l.base = c.par 0x18 4 ∧ l.ops.map (·.desc) = ds ∧
          ∀ o ∈ l.ops, o.phase = .waiting ∧ o.stamp = (s.named c).stampOf c.allot o.desc ((s.named c).rungNow c.allot o.desc)))) ∧
  (∀ (s : State) (h seq anvil : Nat) (l : TileList) (c : Cmd), s.hearths.length = 2 → h < 2 → (s.he h).lists.find? (fun m => m.seq == seq) = some l → s.cmd? l.cmd = some c →
    (∀ m ∈ (s.he h).lists, m.cmd = l.cmd → m = l) → (s.he h).anvilFree l anvil = true →
    (l.ops.findIdx? (fun o => o.phase == .waiting) = none → exec (.tileOpIssue h seq anvil) s = .next s) ∧
    (∀ (j : Nat) (o : OpRec), l.ops.findIdx? (fun o => o.phase == .waiting) = some j → l.ops[j]? = some o → s.opBlocked h l j = true →
      ∃ t, exec (.tileOpIssue h seq anvil) s = .next t ∧ (∀ a, (t.al a).objs = (s.al a).objs) ∧ s.OthersStand t l.cmd ∧
        ∃ m, (t.he h).lists.find? (fun m => m.seq == seq) = some m ∧ m.ops.map (·.phase) = l.ops.map (·.phase) ∧
          ∃ p : OpRec, m.ops[j]? = some p ∧ p.waited = true) ∧
    (∀ (j : Nat) (o : OpRec), l.ops.findIdx? (fun o => o.phase == .waiting) = some j → l.ops[j]? = some o → s.opBlocked h l j = false → s.Clean l.allot →
      ∃ t, exec (.tileOpIssue h seq anvil) s = .next t ∧ (∀ a, (t.al a).objs = (s.al a).objs) ∧ s.OthersStand t l.cmd ∧
        ∃ (m : TileList) (p : OpRec), (t.he h).lists.find? (fun m => m.seq == seq) = some m ∧ m.ops[j]? = some p ∧ p.phase = .issued ∧ p.anvil = anvil ∧ p.desc = o.desc ∧
          p.stamp = o.stamp ∧ ∀ k, k ≠ j → (m.ops.map (·.phase))[k]? = (l.ops.map (·.phase))[k]?)) ∧
  (∀ (s : State) (h op : Nat) (l : TileList) (c : Cmd) (o : OpRec), s.hearths.length = 2 → h < 2 → (s.he h).lists.find? (fun m => m.cmd == l.cmd) = some l → s.cmd? l.cmd = some c →
    (∀ k, k < h → ∀ m ∈ (s.he k).lists, m.cmd ≠ l.cmd) → l.ops[op]? = some o → o.phase = .issued → dAcc o.desc ≠ 2 →
    s.layer? l.allot (dLayer o.desc) = none → s.Clean l.allot → c.id = l.cmd →
    (∀ (j : Nat) (p : OpRec), j ≠ op → l.ops[j]? = some p → p.phase = .finished) →
    (∀ k, (s.he k).newlyShort = false ∧ ∀ v ∈ (s.he k).anvils, v.failing = false) →
    ∃ t code detail, exec (.tileOpComplete l.cmd op) s = .next t ∧
      t.Ended l.cmd code detail (BitVec.ofNat 128 (l.ops.length + l.rerunOps * 2 ^ 32)) ∧
      (0 < l.rerunOps → code = .retriedWider) ∧ (l.rerunOps = 0 → code = .ok ∨ code = .okWithNote) ∧
      (l.rerunOps = 0 → (∃ p ∈ l.ops, p.spillOver = true) → code = .okWithNote) ∧
      (code = .okWithNote → detail.getLsbD 17 = true) ∧ (code = .ok → detail.getLsbD 17 = false) ∧
      (∀ m ∈ (t.he h).lists, m.cmd ≠ l.cmd) ∧ t.host = s.host)

/-- R108, R109: a sum starts with its first product and takes each further one with one rounded addition; the sum of no line is +0, a sum
of -0 products is -0; the addition of finite values never gives an infinity, and that of infinities of both signs is the canonical NaN. -/
def Obligations.TileSums : Prop :=
  (∀ int comp, (sumLines int comp []).s = 0) ∧
  (∀ l : Line, l.1 = false → (sumLines false false [l]).s = (enterProduct (l.2.1.num.mul l.2.2.num)).1) ∧
  (∀ (ls : List Line) (l : Line), ls ≠ [] → (∀ k ∈ ls, k.1 = false) → l.1 = false →
    (sumLines false false (ls ++ [l])).s = (accAdd (sumLines false false ls).s (enterProduct (l.2.1.num.mul l.2.2.num)).1).1) ∧
  (∀ ls : List Line, ls ≠ [] → (∀ k ∈ ls, k.1 = false ∧ (enterProduct (k.2.1.num.mul k.2.2.num)).1 = 0x80000000#32) →
    (sumLines false false ls).s = 0x80000000#32) ∧
  (∀ a b, (dec32 a).isFin = true → (dec32 b).isFin = true → (dec32 (accAdd a b).1).isFin = true) ∧
  (accAdd 0x7F800000#32 0xFF800000#32).1 = 0x7FC00000#32 ∧ (accAdd 0xFF800000#32 0x7F800000#32).1 = 0x7FC00000#32

/-- R83 to R85, R328: GRID_LOAD of a legal table replaces the tensor's grid and rewrites no code; an illegal table gives BAD_PARAM with its first
failing entry in INDEX and changes nothing; ACTION 1 selects the default grid. -/
def Obligations.GridLoad : Prop :=
  (∀ g : List Nat, gridBad g = none ↔ GridLegal g) ∧
  (∀ s id c o, s.Runs id 0x0405 gridLoadFields c → c.allot < s.allots.length → (s.named c).obj? c.allot (c.par 0 4) = some o →
    let g := (List.range 16).map (fun i => c.par (8 + i) 1)
    (c.par 4 1 = 1 → ∃ t, exec (.gridLoad id) s = .next t ∧ t.Ended id .ok 0 0 ∧ t.obj? c.allot (c.par 0 4) = some { o with t := { o.t with grid := [] } } ∧
      (s.named c).ObjsStand t c.allot (handleIndex (c.par 0 4))) ∧
    (c.par 4 1 = 0 → GridLegal g ∧ ∃ t, exec (.gridLoad id) s = .next t ∧ t.Ended id .ok 0 0 ∧
      t.obj? c.allot (c.par 0 4) = some { o with t := { o.t with grid := g } } ∧ (s.named c).ObjsStand t c.allot (handleIndex (c.par 0 4)))) ∧
  (∀ s id c i, s.fresh? id 0x0405 = some c → s.ready c = true → s.nameable c.allot (c.par 0 4) = true → (s.objD c.allot (c.par 0 4)).t.raw = false →
    (s.objD c.allot (c.par 0 4)).t.fmt = 1 → c.par 4 4 = 0 → gridBad ((List.range 16).map (fun i => c.par (8 + i) 1)) = some i →
    ∃ t, exec (.gridLoad id) s = .next t ∧ i < 16 ∧ t.Ended id .badParam (BitVec.ofNat 32 (24 + 65536 * i)) 0 ∧ s.OnlyCmds t)

/-! ## Vector programs, steering and the update engine -/

/-- R201, R218: PROG_LOAD of a legal image keeps its words under a free PROG_ID and returns it; with IMAGE_WORDS 0 the program that
PROG_ID names is removed; an illegal word gives BAD_PARAM with its index. The row's own pid has no effect (log 44).
R202, R204: PROG_RUN launches its program on the engines that it takes, in increasing number: each starts at pc 0 with its rank in S0,
their count in S1, the eight arguments in S2 to S9, zero vector registers and predicates of all ones; every other engine stands. -/
def Obligations.Programs : Prop :=
  (∀ s id c, s.Runs id 0x0310 progLoadFields c → c.allot < s.allots.length →
    let ws := (s.named c).imageOf c
    (c.par 8 4 = 0 → (∀ d ∈ s.hg.cmds, d.allot = c.allot → d.opcode = 0x0311 → d.phase = .done) →
      ∃ t, (∀ k, exec (.progLoad id k) s = .next t) ∧ t.Ended id .ok 0 0 ∧ (t.al c.allot).prog? (c.par 0xC 2) = none ∧
        ∀ q, q ≠ c.par 0xC 2 → (t.al c.allot).prog? q = (s.al c.allot).prog? q) ∧
    (c.par 8 4 ≠ 0 → (s.al c.allot).progs.length < 65535 → (s.named c).Clean c.allot → (∀ w ∈ ws, wordOk w = true) →
      (∀ h, s.hearthUp h = true → (s.named c).storeUse h + ws.length ≤ 32768) →
      ∃ t p, (∀ k, exec (.progLoad id k) s = .next t) ∧ 1 ≤ p.pid ∧ p.pid ≤ 65535 ∧ (s.al c.allot).prog? p.pid = none ∧
        t.Ended id .ok 0 (BitVec.ofNat 128 p.pid) ∧ (t.al c.allot).prog? p.pid = some p ∧
        p.words = ws.map (BitVec.ofNat 64) ∧ p.ftz = (c.par 0xE 2).testBit 0 ∧
        (∀ q, q ≠ p.pid → (t.al c.allot).prog? q = (s.al c.allot).prog? q) ∧ ∀ b, (t.al b).objs = ((s.named c).al b).objs) ∧
    (c.par 8 4 ≠ 0 → (s.named c).Clean c.allot → ∀ i, ws.findIdx? (fun w => !wordOk w) = some i → ∃ t d, (∀ k, exec (.progLoad id k) s = .next t) ∧
      t.Ended id .badParam d (BitVec.ofNat 128 i) ∧ (s.named c).OnlyCmds t)) ∧
  (∀ s id es c p, s.Runs id 0x0311 progRunFields c → c.allot < s.allots.length → s.hearths.length = 2 →
    let h := c.par 2 1
    let b := (s.named c).launchOf c
    (s.named c).Clean c.allot → (s.named c).badLaunch c.allot b = none → (s.named c).hearthOpen c h = true → h < 2 →
    (s.named c).reachable c ((s.named c).namesNow c) = none → (s.named c).runAhead c = false →
    (sortN es).length = c.par 3 1 → c.par 3 1 ≤ ((s.he h).engines.filter (fun e => !e.fenced && !e.draining)).length →
    (∀ i ∈ sortN es, i < (s.he h).engines.length ∧ (s.engine h i).free = true) → (s.al c.allot).prog? (c.par 0 2) = some p →
    ∃ t, exec (.progRun id es) s = .next t ∧ t.AtWork id ∧ s.OthersStand t id ∧ t.allots = (s.named c).allots ∧ t.host = s.host ∧
      (∀ r i, (sortN es)[r]? = some i →
        (t.engine h i).run = some (id, r) ∧ (t.engine h i).pc = 0 ∧ (t.engine h i).count = 0 ∧ (t.engine h i).halted = false ∧
        (t.engine h i).sreg 0 = BitVec.ofNat 64 r ∧ (t.engine h i).sreg 1 = BitVec.ofNat 64 (c.par 3 1) ∧
        (∀ k, k < 8 → (t.engine h i).sreg (2 + k) = BitVec.ofNat 64 (bytesField b (8 * k) 8)) ∧ (∀ k, 10 ≤ k → (t.engine h i).sreg k = 0) ∧
        (∀ v, (t.engine h i).vreg v = List.replicate 256 0#32) ∧ (∀ q, q < 8 → (t.engine h i).preg q = BitVec.allOnes 256)) ∧
      (∀ i, i ∉ es → t.engine h i = s.engine h i) ∧ (∀ i, t.engine (1 - h) i = s.engine (1 - h) i) ∧
      (t.he h).runs.map (·.cmd) = (s.he h).runs.map (·.cmd) ++ [id])

/-- R161, R169, R195: records that meet their rules and whose charges fit are kept for the next STEP_MARK, in their order, and change no
layer until then; SCALE_SET keeps its parameters.
R162, R163, R165, R166: TEMPER_READ writes the ladder and layer records of its range, and STATS_READ their statistics, whole records
while the destination holds them, and RESULT counts them; CLEAR clears the sticky statuses of the layers written. -/
def Obligations.Steering : Prop :=
  (∀ s id c, s.Runs id 0x0401 temperSetFields c → c.allot < s.allots.length → (s.named c).setsSettled c = true → (s.named c).Clean c.allot →
    let u := s.named c
    let rs := u.temperRecs c
    let x := (u.al c.allot).temper.soon
    let n := if c.par 0 1 = 0 then 3392 * (newLayers (s.al c.allot).temper rs).length else 0
    let y := (recsInOrder (rs.map (pendRec (c.par 0 1)))).foldl Temper.apply x
    (∀ i, c.par 8 8 ≠ 0 → rs.findIdx? (fun r => (u.recFlds c.allot (c.par 0 1) r 0).any (fun f => !f.ok)) = some i →
      ∃ t, exec (.temperSet id) s = .next t ∧ t.Ended id .badParam (BitVec.ofNat 32 (0xFFFF + 65536 * satTo 65535 i)) 0 ∧ u.OnlyCmds t) ∧
    (∀ v, (c.par 8 8 = 0 ∨ ∀ r ∈ rs, ∀ f ∈ u.recFlds c.allot (c.par 0 1) r 0, f.ok = true) → (n = 0 ∨ u.fits c.allot 2 n = true) →
      (u.charge c.allot .layers 2 n).chargeResiduals c.allot y y.layers = some v →
      ∃ t, exec (.temperSet id) s = .next t ∧ t.Ended id .ok 0 0 ∧ u.OnlyAllot t c.allot ∧
        (t.al c.allot).temper = { (s.al c.allot).temper with recs := (s.al c.allot).temper.recs ++ rs.map (fun r => (c.acc, pendRec (c.par 0 1) r)) } ∧
        (t.al c.allot).objs = (u.al c.allot).objs)) ∧
  (∀ s id c v, s.Runs id 0x0406 spillSetFields c → c.allot < s.allots.length → (s.named c).setsSettled c = true →
    (s.named c).chargeResiduals c.allot ((s.al c.allot).temper.soon.setSpill c.params) ((s.al c.allot).temper.soon.setSpill c.params).layers = some v →
    ∃ t, exec (.spillSet id) s = .next t ∧ t.Ended id .ok 0 0 ∧ (s.named c).OnlyAllot t c.allot ∧ (t.al c.allot).objs = ((s.named c).al c.allot).objs ∧
      (t.al c.allot).temper = { (s.al c.allot).temper with recs := (s.al c.allot).temper.recs ++ [(c.acc, .spill c.params)] }) ∧
  (∀ s id c, s.Runs id 0x0404 scaleSetFields c → c.allot < s.allots.length → s.setsSettled c = true →
    ∃ t, exec (.scaleSet id) s = .next t ∧ t.Ended id .ok 0 0 ∧ s.OnlyAllot t c.allot ∧
      t.al c.allot = { s.al c.allot with temper := { (s.al c.allot).temper with
        recs := (s.al c.allot).temper.recs ++ [(c.acc, .scale (c.params % 2 ^ 64))] } }) ∧
  (∀ s id c, s.Runs id 0x0402 temperReadFields c → c.allot < s.allots.length →
    let u := s.named c
    let x := (s.al c.allot).temper
    let lads := (if (c.par 4 1).testBit 1 then List.range 4 else []).take (u.roomFor c 64)
    let ls := (u.layersIn c).take (u.roomFor c 64 - lads.length)
    ∃ t, exec (.temperRead id) s = .next t ∧
      t.Holds c.allot (refHandle (c.par 8 8)) (64 * bitsOf (c.par 8 8) 32 32) (lads.flatMap x.ladderBytes ++ ls.flatMap (fun e => x.layerBytes e.1 e.2)) ∧
      t.Ended id .ok 0 (BitVec.ofNat 128 (ls.length + x.storm.toNat * 2 ^ 16 + lads.length * 2 ^ 17)) ∧
      u.ObjsStand t c.allot (handleIndex (refHandle (c.par 8 8))) ∧
      ((c.par 4 1).testBit 0 = false → (t.al c.allot).temper = x) ∧
      ((c.par 4 1).testBit 0 = true → (t.al c.allot).temper.storm = false ∧
        ∀ i l, (i, l) ∈ (t.al c.allot).temper.layers → (∃ k ∈ ls, k.1 = i) →
          l.boundHigh = false ∧ l.dry = false ∧ l.storm = false ∧ l.poolShort = false ∧ l.wouldPromote = false)) ∧
  (∀ s id c, s.Runs id 0x0403 statsReadFields c → c.allot < s.allots.length →
    let u := s.named c
    let ls := (u.layersIn c).take (u.roomFor c 1152)
    ∃ t, exec (.statsRead id) s = .next t ∧ t.Ended id .ok 0 (BitVec.ofNat 128 ls.length) ∧
      t.Holds c.allot (refHandle (c.par 8 8)) (64 * bitsOf (c.par 8 8) 32 32)
        (ls.flatMap (fun e => (s.al c.allot).temper.statBytes e.1 e.2 (decide (c.par 4 1 = 0)))) ∧
      u.ObjsStand t c.allot (handleIndex (refHandle (c.par 8 8))) ∧ (t.al c.allot).temper = (s.al c.allot).temper)

/-- R145, R147, R148: what a step makes of a layer that is neither probing nor placed: a trigger requests one rung up unless the layer is
at its bound or has AUTO_OFF, and resets CLEAN_COUNT; a clean step counts, a step without ops does not, and at DEMOTE_STEPS the layer
moves one rung down unless it is at its lower bound.
R150, R168: a STEP_MARK waits for the work of the step; then it closes the step and opens the next, and RESULT carries the new step
number. With one steered layer without a working copy whose triggers fire below its bound, the layer moves one rung up and RESULT counts
one promotion.
R386, R387: the partner's statistics of a step replace what had arrived for it; without a bound pair that shares its tempers they have
no effect. -/
def Obligations.StepMark : Prop :=
  (∀ (l : Layer) (i : Nat) (st : StepStats),
    (l.triggers st ≠ 0 ↔ (st.hardSat = true ∨ st.spillOver = true ∨ 0 < st.retries ∨ l.dryFires st = true ∨
      ∃ x ∈ st.slots.take 3, (l.promoSat ≠ 0xFFFF ∧ l.promoSat * x.convBlocks < x.satBlocks * 10000) ∨
        (l.promoZero ≠ 0xFFFF ∧ l.promoZero * x.nonzeroIn < x.zeroed * 10000))) ∧
    (l.triggers st ≠ 0 → (l.judge i st).1.cleanCount = 0 ∧ (l.judge i st).2.requests = true ∧ (l.judge i st).2.down = false ∧
      ((l.judge i st).2.up = true ↔ l.autoOff = false ∧ l.rung < l.hi) ∧
      (l.autoOff = false → l.hi ≤ l.rung → (l.judge i st).1.boundHigh = true) ∧ (l.autoOff = true → (l.judge i st).1.wouldPromote = true)) ∧
    (l.triggers st = 0 → (l.judge i st).2.requests = false ∧ (l.judge i st).2.up = false ∧
      (st.ops = 0 → (l.judge i st).1.cleanCount = l.cleanCount ∧ (l.judge i st).2.down = false) ∧
      (0 < st.ops → (l.judge i st).1.cleanCount = min l.demoteSteps (l.cleanCount + 1) ∧
        ((l.judge i st).2.down = true ↔ l.demoteSteps ≤ l.cleanCount + 1 ∧ l.lo < l.rung ∧ l.autoOff = false))) ∧
    (l.judge i st).1.rung = l.rung) ∧
  (∀ s id c, s.started? id 0x0410 = some c → c.phase = .started → s.markReady c = false → exec (.stepMark id) s = .next s) ∧
  (∀ s id c, s.started? id 0x0410 = some c → c.phase = .started → s.markReady c = true → s.recordsJudged c = true → s.allots.length = 16 → c.allot < 16 →
    s.judgeInline c [] = none → s.pair.state = .unbound → (s.al c.allot).temper.layers = [] → (s.al c.allot).temper.recs = [] →
    (s.al c.allot).mir.tensors = [] → (s.al c.allot).temper.stormInStep = false → (s.al c.allot).temper.holdInStep = false →
    ∃ t, exec (.stepMark id) s = .next t ∧ (t.al c.allot).temper.step = (s.al c.allot).temper.step + 1 ∧
      t.Ended id .ok 0 (BitVec.ofNat 128 (((s.al c.allot).temper.step + 1) % 2 ^ 64)) ∧ (∀ a, (t.al a).objs = (s.al a).objs) ∧ t.host = s.host) ∧
  (∀ s id c i l, s.started? id 0x0410 = some c → c.phase = .started → s.markReady c = true → s.recordsJudged c = true → s.allots.length = 16 → c.allot < 16 →
    s.judgeInline c [] = none → s.pair.state = .unbound → (s.al c.allot).temper.layers = [(i, l)] → (s.al c.allot).temper.recs = [] →
    (s.al c.allot).mir.tensors = [] → l.wMaster = 0 → l.copy = none → l.spill.kLen = 0 → l.autoOff = false → l.lo ≤ l.rung → l.rung < l.hi →
    l.triggers l.openStats ≠ 0 →
    ∃ t k res, exec (.stepMark id) s = .next t ∧ (t.al c.allot).temper.step = (s.al c.allot).temper.step + 1 ∧
      look i (t.al c.allot).temper.layers = some k ∧ k.rung = l.rung + 1 ∧ k.cleanCount = 0 ∧ k.dryCount = 0 ∧ k.openStats = {} ∧
      k.closedStats.ops = l.openStats.ops ∧ t.Ended id .ok 0 res ∧
      res.toNat % 2 ^ 64 = ((s.al c.allot).temper.step + 1) % 2 ^ 64 ∧ res.toNat / 2 ^ 64 % 2 ^ 16 = 1 ∧ res.toNat / 2 ^ 80 % 2 ^ 16 = 0) ∧
  (∀ s a step stats, s.pair.bound = true → s.pair.temperSync = true → a < 16 →
    (∀ d ∈ s.hg.cmds, ¬ (d.allot = a ∧ d.opcode = 0x0410 ∧ d.phase = .working)) →
    ∃ t, exec (.temperSyncStats a step stats) s = .next t ∧ (a, step, stats) ∈ t.pair.syncStats ∧
      (∀ e, e ∈ t.pair.syncStats → e.1 = a → e.2.1 = step → e.2.2 = stats) ∧ t.allots = s.allots ∧ t.hg.cmds = s.hg.cmds ∧
      ((stats = [] ∨ ((s.al a).live = true ∧ (s.al a).temper.layers ≠ [])) → { t with pair := { t.pair with syncStats := s.pair.syncStats } } = s)) ∧
  (∀ s a step stats, s.pair.bound = false ∨ s.pair.temperSync = false → exec (.temperSyncStats a step stats) s = .next s)

/-- R223, R234, R235: UPD_RULE loads a legal record into its slot; UPD_FREEZE sets or clears the marks of its handles and RESULT counts
those that changed; UPD_NORM keeps the norm of its records in its slot. Other slots and marks stay, and each waits for the earlier
commands that it must follow. -/
def Obligations.UpdateSetup : Prop :=
  (∀ s id c, s.Runs id 0x0504 updRuleFields c → c.allot < s.allots.length →
    let bs := (s.named c).readRef c.allot (c.par 8 8) 64 128
    (∀ x, (s.named c).before c 0x0502 none = false → (s.named c).Clean c.allot → ruleOf (leNat bs) = some x →
      ∃ t, exec (.updRule id) s = .next t ∧ t.Ended id .ok 0 0 ∧ (s.named c).OnlyAllot t c.allot ∧
        look (c.par 0 1) (t.al c.allot).upd.rules = some x ∧ ∀ k, k ≠ c.par 0 1 → look k (t.al c.allot).upd.rules = look k (s.al c.allot).upd.rules) ∧
    ((s.named c).before c 0x0502 none = false → (s.named c).Clean c.allot → ruleOf (leNat bs) = none →
      ∃ t, exec (.updRule id) s = .next t ∧ t.Ended id .badParam (BitVec.ofNat 32 0xFFFF) 0 ∧ (s.named c).OnlyCmds t)) ∧
  (∀ s id c, s.Runs id 0x0503 updFreezeFields c → c.allot < s.allots.length → (s.named c).Clean c.allot →
    (s.named c).before c 0x0501 none = false → (s.named c).before c 0x0502 none = false →
    let hs := (s.named c).freezeHandles c
    let on := decide (c.par 0 1 = 1)
    (∀ h ∈ hs, (s.named c).nameable c.allot h = true) →
    ∃ t, exec (.updFreeze id) s = .next t ∧ (s.named c).OnlyAllot t c.allot ∧
      (∀ h, (t.al c.allot).upd.frozen.contains h = if hs.contains h then on else (s.al c.allot).upd.frozen.contains h) ∧
      (hs.Nodup → t.Ended id .ok 0 (BitVec.ofNat 128 (hs.filter (fun h => (s.al c.allot).upd.frozen.contains h != on)).length))) ∧
  (∀ s id c sums, s.Runs id 0x0501 updNormFields c → c.allot < s.allots.length → (s.named c).Clean c.allot →
    (s.named c).badParamRec c ((s.named c).paramsOf c) = none → (s.named c).reachable c ((s.named c).namesNow c) = none →
    (s.named c).before c 0x0502 (some (c.par 0xC 1)) = false → c.par 0xD 1 = 0 → c.par 0x10 8 = 0 →
    let live := ((s.named c).paramsOf c).filter (fun p => !(s.al c.allot).upd.frozen.contains p.master)
    let xs := live.flatMap (fun p => (s.named c).gradVals c.allot p.grad)
    ∃ t n, exec (.updNorm id sums) s = .next t ∧ look (c.par 0xC 1) (t.al c.allot).upd.norms = some n ∧ n.qLocal = sumSquares xs ∧
      n.n = sqrt32 (sumSquares xs) ∧ n.nonfinite = (xs.filter (fun x => !(dec32 x).isFin)).length ∧
      t.Ended id .ok 0 (BitVec.ofNat 128 (n.n.toNat + 2 ^ 32 * n.qLocal.toNat + 2 ^ 64 * min (2 ^ 32 - 1) n.nonfinite)) ∧
      (∀ k, k ≠ c.par 0xC 1 → look k (t.al c.allot).upd.norms = look k (s.al c.allot).upd.norms) ∧ ∀ a, (t.al a).objs = ((s.named c).al a).objs)

/-- R219, R220, R236, R238, R239: an UPD_APPLY whose list breaks a rule gives BAD_PARAM with the record's index; with STORM_DISCARD and no open
hold it completes without effect; with every record frozen it completes SKIPPED_FROZEN, and with one record of KIND 1 it writes the momentum,
is at work, then writes the master and completes with one record applied.
R385: at a wait for the lag bound, LAG_BOUND_RELEASE lets an UPD_APPLY go on just as its own row does, and has no effect on a command
that does not wait. -/
def Obligations.UpdApply : Prop :=
  (∀ s id c j, s.ApplyStarts id c → s.badParamRec c (s.paramsOf c) = some j → ∃ t, exec (.updApply id) s = .next t ∧
    t.Ended id .badParam (BitVec.ofNat 32 (0xFFFF + 65536 * satTo 65535 j)) 0 ∧ s.OnlyCmds t) ∧
  (∀ s id c u, s.ApplyStarts id c → s.badParamRec c (s.paramsOf c) = none → s.reachable c (s.namesNow c) = none →
    (s.named c).takeWork c (s.paramsOf c) = some u → (s.al c.allot).temper.holdOpen = false → c.opflag 1 = true →
    ∃ t, exec (.updApply id) s = .next t ∧ t.Ended id .ok 0 0 ∧ (t.al c.allot).objs = ((s.named c).al c.allot).objs) ∧
  (∀ s id c, s.ApplyStarts id c → s.ApplyGoes c → (∀ p ∈ s.paramsOf c, p.master ∈ (s.al c.allot).upd.frozen) →
    ∃ t d, exec (.updApply id) s = .next t ∧ t.Ended id .skippedFrozen d 0 ∧ d.toNat % 65536 = satTo 65535 (s.paramsOf c).length ∧
      t.host = s.host ∧ (t.al c.allot).objs = ((s.named c).al c.allot).objs ∧ (t.al c.allot).upd = (s.al c.allot).upd) ∧
  (∀ s id c p, s.ApplyStarts id c → s.ApplyGoes c → s.paramsOf c = [p] → c.par 8 4 = 1 → p.kind = 1 → p.layer = 0xFFFF → p.master ∉ (s.al c.allot).upd.frozen →
    s.pair.bound = false → (s.al c.allot).upd.runs = [] →
    let own (h i : Nat) : Prop := i = handleIndex h ∨ ∃ f, (s.objD c.allot h).flagMap = some f ∧ i = handleIndex f
    ¬ own p.mom (handleIndex (refHandle (c.par 0 8))) → ¬ own p.mom (handleIndex p.master) → ¬ own p.master (handleIndex p.mom) →
    ∃ t, exec (.updApply id) s = .next t ∧ t.AtWork id ∧
      (∀ i, ¬ own p.mom i → look i (t.al c.allot).objs = look i ((s.named c).al c.allot).objs) ∧
      ∃ v d, exec (.updApply id) t = .next v ∧ v.Ended id .ok d 1 ∧ d.toNat % 65536 = 0 ∧ v.host = s.host ∧
      (∀ i, ¬ own p.master i → look i (v.al c.allot).objs = look i (t.al c.allot).objs) ∧ (v.al c.allot).upd = (s.al c.allot).upd) ∧
  (∀ s id c, s.started? id 0x0502 = some c → c.phase = .working → exec (.lagBoundRelease id) s = exec (.updApply id) s ∧
    ∃ t, exec (.lagBoundRelease id) s = .next t) ∧
  (∀ s id c, s.cmd? id = some c → c.phase ≠ .working → exec (.lagBoundRelease id) s = .next s)

/-! ## Allotments and resets -/

/-- R303, R309, R326: ALLOT_CREATE makes an allotment of the next generation, which RESULT carries, without queues, objects, tokens or
pools, where its virtual function is enabled; it completes NO_RESOURCE where it is not, and no allotment changes.
R335, R336: ALLOT_RESET of an allotment other than the issuer's empties the allotment, destroys its queues, keeps its pools and completes
OK; so does ALLOT_DESTROY, after which the allotment exists no longer and has no pools; of an allotment that resets itself no command is left.
No command of the allotment stays in flight, and every other allotment keeps its generation. -/
def Obligations.Allotments : Prop :=
  (∀ s id c, s.OrderRuns id 0x0110 allotCreateFields c → s.allots.length = 16 → s.dev.vfEnable = true → c.par 0 1 ≤ s.dev.numVfs →
    ∃ t, exec (.allotCreate id) s = .next t ∧ t.Ended id .ok 0 (BitVec.ofNat 128 ((s.al (c.par 0 1)).gen + 1).toNat) ∧
      (t.al (c.par 0 1)).live = true ∧ (t.al (c.par 0 1)).gen = (s.al (c.par 0 1)).gen + 1 ∧ (t.al (c.par 0 1)).accNext = 1 ∧
      (t.al (c.par 0 1)).queues = [] ∧ (t.al (c.par 0 1)).objs = [] ∧ (t.al (c.par 0 1)).tokens = [] ∧
      (t.al (c.par 0 1)).pools = List.replicate 6 {} ∧ ∀ b, b ≠ c.par 0 1 → t.al b = s.al b) ∧
  (∀ s id c, s.OrderRuns id 0x0110 allotCreateFields c → s.allots.length = 16 → (s.dev.vfEnable = false ∨ s.dev.numVfs < c.par 0 1) →
    ∃ t, exec (.allotCreate id) s = .next t ∧ t.Ended id .noResource 0 0 ∧ t.allots = s.allots) ∧
  (∀ s id c, s.OrderRuns id 0x0A40 allotResetFields c → s.allots.length = 16 → s.host.bad = [] → ¬ (c.master = .allot ∧ c.allot = c.par 0 1) →
    ∃ t, exec (.allotReset (.cmd id)) s = .next t ∧ t.Ended id .ok 0 0 ∧ s.ResetAs t (c.par 0 1) ∧ (t.al (c.par 0 1)).live = true ∧
      (t.al (c.par 0 1)).pools = (s.al (c.par 0 1)).pools ∧ (∀ d ∈ t.hg.cmds, d.master = .allot → d.allot = c.par 0 1 → d.id = id) ∧
      ∀ b, b ≠ c.par 0 1 → (t.al b).gen = (s.al b).gen) ∧
  (∀ s id c, s.OrderRuns id 0x0A40 allotResetFields c → s.allots.length = 16 → s.host.bad = [] → c.master = .allot → c.allot = c.par 0 1 →
    ∃ t, exec (.allotReset (.cmd id)) s = .next t ∧ t.cmd? id = none ∧ s.ResetAs t (c.par 0 1) ∧ (t.al (c.par 0 1)).live = true ∧
      (t.al (c.par 0 1)).pools = (s.al (c.par 0 1)).pools ∧ (∀ d ∈ t.hg.cmds, d.master = .allot → d.allot = c.par 0 1 → d.id = id) ∧
      ∀ b, b ≠ c.par 0 1 → (t.al b).gen = (s.al b).gen) ∧
  (∀ s id c, s.OrderRuns id 0x0111 allotDestroyFields c → s.allots.length = 16 → s.host.bad = [] → ¬ (c.master = .allot ∧ c.allot = c.par 0 1) →
    ∃ t, exec (.allotDestroy id) s = .next t ∧ t.Ended id .ok 0 0 ∧ s.ResetAs t (c.par 0 1) ∧ (t.al (c.par 0 1)).live = false ∧
      (t.al (c.par 0 1)).pools = List.replicate 6 {} ∧ (∀ d ∈ t.hg.cmds, d.master = .allot → d.allot = c.par 0 1 → d.id = id) ∧
      ∀ b, b ≠ c.par 0 1 → (t.al b).gen = (s.al b).gen)

/-- R303, R332, R338: with no order waiting or at work, a Function Level Reset of a VF resets its allotment as ALLOT_RESET does; VFs that are
removed take their allotments with them, those that stay keep theirs; enabling VFs changes the two fields alone.
R308, R337, R430, R431: DEV_RESET, a Function Level Reset of the PF, PERST_N, the loss of the host link and the loss of REFCLK_PCIE
leave no command, queue, object, pair, group or stream; whatever the start-up that follows finds. -/
def Obligations.Resets : Prop :=
  (∀ (s : State) vf, s.reaches vf = true → 1 ≤ vf → vf ≤ 15 → s.allots.length = 16 → s.AtOnce opFlrVf → s.NoOrderWorks → s.host.bad = [] →
    (s.al vf).live = true → ∃ t, exec (.functionLevelResetVf vf) s = .next t ∧ s.ResetAs t vf ∧ (t.al vf).live = true ∧
      ∀ b, b ≠ vf → (t.al b).gen = (s.al b).gen) ∧
  (∀ (s : State) on n, s.dev.linkUp = true → n ≤ 16 → vfCount on n < vfCount s.dev.vfEnable s.dev.numVfs →
    s.allots.length = 16 → s.AtOnce opVfRemove → s.NoOrderWorks → s.host.bad = [] →
    ∃ t, exec (.vfRemoval on n) s = .next t ∧ t.dev.vfEnable = on ∧ t.dev.numVfs = n ∧
      (∀ a, vfCount on n < a → a < 16 → (s.al a).live = true → (t.al a).live = false ∧ s.ResetAs t a) ∧
      ∀ a, a ≤ vfCount on n → (t.al a).live = (s.al a).live ∧ (t.al a).gen = (s.al a).gen) ∧
  (∀ (s : State) n, s.dev.linkUp = true → n ≤ 16 → vfCount s.dev.vfEnable s.dev.numVfs ≤ n →
    exec (.vfEnable n) s = .next { s with dev := { s.dev with vfEnable := true, numVfs := n } }) ∧
  (∀ s id c trial, s.OrderRuns id 0x0A41 devResetFields c → s.allots.length = 16 →
    ∃ t, exec (.devReset (.cmd id) trial) s = .next t ∧ s.DeviceReset t) ∧
  (∀ (s : State) trial, s.dev.linkUp = true → s.AtOnce 0x0A41 → s.NoOrderWorks → s.allots.length = 16 →
    ∃ t, exec (.functionLevelResetPf trial) s = .next t ∧ s.DeviceReset t) ∧
  (∀ (s : State) trial, s.dev.perst = false → s.dev.mainRails = true → s.allots.length = 16 →
    ∃ t, exec (.perstNAssert trial) s = .next t ∧ s.DeviceReset t ∧ t.dev.perst = true) ∧
  (∀ (s : State) trial, s.dev.linkUp = true → s.allots.length = 16 →
    (∃ t, exec (.hostLinkLoss trial) s = .next t ∧ s.DeviceReset t) ∧ ∃ t, exec (.refclkPcieLoss trial) s = .next t ∧ s.DeviceReset t) ∧
  (∀ (s : State) trial, s.dev.perst = true → s.dev.linkWaits = false →
    exec (.perstNDeassert trial) s = .next { s with dev := { s.dev with perst := false } })

/-! ## The fabric -/

/-- R345, R347, R350 to R352: PEER_MAP sets the identity while no group and no stream exists, routes to peers without an open stream, a
group without a collective or a stream in progress, the check classes or the mode of a port that no pair has bound, or reads routes and port
records out; ROUTE_REWRITE replaces the peer's entry under the next epoch, ends every stream to the peer and drops its packets. -/
def Obligations.PeerMapping : Prop :=
  (∀ s id c, s.MapRuns id c 0 → s.fab.streams = [] → s.fab.groups = [] → ∃ t, exec (.peerMap id) s = .next t ∧ t.Ended id .ok 0 0 ∧
    (s.taken id c).OnlyFab t ∧ t.fab = { s.fab with
      self := c.par 0x10 2, domain := c.par 0x12 2, retryLimit := c.par 0x14 1, peerTimeoutMs := c.par 0x16 2, lrTimeoutMs := c.par 0x18 2,
      ethertype := c.par 0x1A 2 }) ∧
  (∀ s id c, s.MapRuns id c 0 → (s.fab.streams ≠ [] ∨ s.fab.groups ≠ []) → ∃ t, exec (.peerMap id) s = .next t ∧ t.Ended id .wrongState 0 0 ∧
    (s.taken id c).OnlyCmds t) ∧
  (∀ s id c, s.MapRuns id c 1 → ∀ es, es = (recordsOf 32 ((s.taken id c).readRef c.allot (c.par 8 8) 1 (32 * c.par 0x12 2))).map leNat →
    (∀ e ∈ es, s.routeOk e = true) → (∀ i, i < es.length → s.streamTo (c.par 0x10 2 + i) = false) →
    ∃ t, exec (.peerMap id) s = .next t ∧ t.Ended id .ok 0 0 ∧
      (∀ i e, es[i]? = some e → look (c.par 0x10 2 + i) t.fab.routes = some (routeOf e (s.route (c.par 0x10 2 + i)).epoch)) ∧
      ∀ q, (q < c.par 0x10 2 ∨ c.par 0x10 2 + es.length ≤ q) → look q t.fab.routes = look q s.fab.routes) ∧
  (∀ s id c i, s.MapRuns id c 1 →
    ((recordsOf 32 ((s.taken id c).readRef c.allot (c.par 8 8) 1 (32 * c.par 0x12 2))).map leNat).findIdx? (fun e => !s.routeOk e) = some i → ∃ t, exec (.peerMap id) s = .next t ∧
      t.Ended id .badParam (BitVec.ofNat 32 (0xFFFF + 65536 * satTo 65535 i)) 0 ∧ (s.taken id c).OnlyCmds t) ∧
  (∀ s id c, s.MapRuns id c 2 → s.groupBusy (c.par 0x10 2) = false → c.par 0x14 2 = 0 → ∃ t, exec (.peerMap id) s = .next t ∧ t.Ended id .ok 0 0 ∧
    look (c.par 0x10 2) t.fab.groups = none ∧ ∀ g, g ≠ c.par 0x10 2 → look g t.fab.groups = look g s.fab.groups) ∧
  (∀ s id c, s.MapRuns id c 2 → s.groupBusy (c.par 0x10 2) = false → c.par 0x14 2 ≠ 0 → ∀ bs, bs = (s.taken id c).readRef c.allot (c.par 8 8) 1 (4 * c.par 0x14 2) →
    s.badMember bs = none → sumN ((s.fab.groups.filter (fun e => e.1 != c.par 0x10 2)).map (fun e => e.2.members.length)) + c.par 0x14 2 ≤ 1048576 →
    ∃ t, exec (.peerMap id) s = .next t ∧ t.Ended id .ok 0 0 ∧ (∀ g, g ≠ c.par 0x10 2 → look g t.fab.groups = look g s.fab.groups) ∧
      look (c.par 0x10 2) t.fab.groups = some
        { allot := c.par 0x12 1, members := (recordsOf 4 bs).map memberOf, tail := c.par 0x16 1, deadline := c.par 0x18 4,
          digest := BitVec.ofNat 32 ((polyOf 2).check bs) }) ∧
  (∀ s id c, s.MapRuns id c 2 → s.groupBusy (c.par 0x10 2) = true → c.par 0x14 2 = 0 → ∃ t, exec (.peerMap id) s = .next t ∧
    t.Ended id .wrongState 0 0 ∧ (s.taken id c).OnlyCmds t) ∧
  (∀ s id c, s.MapRuns id c 3 → ∃ t, exec (.peerMap id) s = .next t ∧ t.Ended id .ok 0 0 ∧ (s.taken id c).OnlyFab t ∧
    { t.fab with classes := s.fab.classes } = s.fab ∧
    ∀ k, k < 5 → t.fab.classes[k]? = some { poly := bitsOf (c.par (0x10 + 2 * k) 2) 0 2, window := bitsOf (c.par (0x10 + 2 * k) 2) 2 7 }) ∧
  (∀ s id c, s.MapRuns id c 4 → s.fab.ports.length = 24 → (s.port (c.par 0x10 1)).bound = false →
    (c.par 0x11 1 ≠ 1 ∨ (((List.range 24).filter (fun q => q != c.par 0x10 1 && (s.port q).isLong)).length < 4 ∧ s.reservesMetWithout 2 (256 * mib) = true)) →
    ∃ t, exec (.peerMap id) s = .next t ∧ t.Ended id .ok 0 0 ∧ s.PortsStand t (c.par 0x10 1) ∧ (t.port (c.par 0x10 1)).up = false ∧
      (t.port (c.par 0x10 1)).training = decide (c.par 0x11 1 ≠ 3) ∧ (t.port (c.par 0x10 1)).phy = c.par 0x12 1 ∧
      (t.port (c.par 0x10 1)).medium = c.par 0x13 1 ∧
      (t.port (c.par 0x10 1)).mode = (match c.par 0x11 1 with | 0 => .native | 1 => .longReach | 2 => .ethernet | _ => .off)) ∧
  (∀ s id c, s.MapRuns id c 4 → (s.port (c.par 0x10 1)).bound = false → c.par 0x11 1 = 1 →
    4 ≤ ((List.range 24).filter (fun q => q != c.par 0x10 1 && (s.port q).isLong)).length → (s.port (c.par 0x10 1)).isLong = false →
    ∃ t, exec (.peerMap id) s = .next t ∧ t.Ended id .noResource 0 0 ∧ (s.taken id c).OnlyCmds t) ∧
  (∀ s id c, s.MapRuns id c 4 → (s.port (c.par 0x10 1)).bound = true → ∃ t, exec (.peerMap id) s = .next t ∧ t.Ended id .wrongState 0 0 ∧
    (s.taken id c).OnlyCmds t) ∧
  (∀ s id c, s.MapRuns id c 5 → c.par 0x10 1 = 0 → ∃ t, exec (.peerMap id) s = .next t ∧
    (s.taken id c).ReadInto t c 8 ((List.range (c.par 0x14 2)).flatMap (fun i => (s.route (c.par 0x12 2 + i)).bytes)) 0) ∧
  (∀ s id c, s.MapRuns id c 5 → c.par 0x10 1 = 1 → ∃ t, exec (.peerMap id) s = .next t ∧
    (s.taken id c).ReadInto t c 8 ((List.range 24).flatMap s.portRecord) 0) ∧
  (∀ s id c, s.OrderRuns id 0x0602 routeRewriteFields c → s.NoTraffic → s.fab.colls = [] → s.normsWith (c.par 0 2) = [] →
    ∃ t, exec (.routeRewrite id) s = .next t ∧
      t.Ended id .ok 0 (BitVec.ofNat 128 (s.fab.streams.filter (fun e => e.2.peer == c.par 0 2 && !e.2.gone)).length) ∧
      look (c.par 0 2) t.fab.routes = some (routeOf (c.par 8 32) ((s.route (c.par 0 2)).epoch + 1)) ∧
      (∀ q, q ≠ c.par 0 2 → look q t.fab.routes = look q s.fab.routes) ∧ (∀ e ∈ t.fab.streams, e.2.peer ≠ c.par 0 2) ∧
      (∀ x ∈ t.fab.unacked, x.vc < 2 → x.peer ≠ c.par 0 2) ∧ c.par 0 2 ∉ t.fab.peersDown ∧
      ∀ i x, look i s.fab.streams = some x → (∀ e ∈ s.fab.streams, e.1 = i → e.2.peer ≠ c.par 0 2) → look i t.fab.streams = some x) ∧
  (∀ s id c, s.OrderRuns id 0x0602 routeRewriteFields c → s.NoTraffic → s.normsWith (c.par 0 2) = [] →
    ∃ t, exec (.routeRewrite id) s = .next t ∧ t.Ended id .ok 0
      (BitVec.ofNat 128 ((s.fab.streams.filter (fun e => e.2.peer == c.par 0 2 && !e.2.gone)).length + (s.collsWith (c.par 0 2)).length * 2 ^ 32)))

/-- R355, R368: STREAM_OPEN gives an index that is in use by no stream, with its reuse count, and tells the member; at 131,072 streams it
gives NO_RESOURCE. STREAM_CLOSE waits for the stream's earlier SEND and RECV commands, then closes it. TAIL_POLICY sets the policy and the
deadline of its group, reads or clears the counts, or drops the contributions that a slot holds. Which free index the module picks is the
model's choice (log 44), and the row's own index has no effect. -/
def Obligations.Streams : Prop :=
  (∀ s id c, s.Runs id 0x0620 streamOpenFields c → s.streamsTaken < 131072 → s.fab.streamsUsed.length < 131072 →
    ∃ t i x, (∀ k, exec (.streamOpen id k) s = .next t) ∧ i < 131072 ∧ i ∉ s.fab.streamsUsed ∧
      t.Ended id .ok 0 (BitVec.ofNat 128 (i + lookN i s.fab.streamReuse * 2 ^ 17)) ∧ look i t.fab.streams = some x ∧
      x.allot = c.allot ∧ x.group = c.par 0 2 ∧ x.rank = c.par 2 2 ∧ x.channel = c.par 4 4 ∧ x.peer = (s.group (c.par 0 2)).peerAt (c.par 2 2) ∧
      x.reuse = lookN i s.fab.streamReuse ∧ x.txSeq = 0 ∧ x.rxSeq = 0 ∧ x.inbox = [] ∧ x.gone = false ∧
      (∃ y ∈ t.fab.unacked, y.vc = 1 ∧ y.kind = 3 ∧ y.peer = x.peer ∧ y.own = i) ∧
      ∀ j, j ≠ i → look j t.fab.streams = look j s.fab.streams) ∧
  (∀ s id c, s.Runs id 0x0620 streamOpenFields c → 131072 ≤ s.streamsTaken → ∃ t, (∀ k, exec (.streamOpen id k) s = .next t) ∧ t.Ended id .noResource 0 0 ∧
    (s.named c).OnlyCmds t) ∧
  (∀ s id c, s.Runs id 0x0621 streamCloseFields c → s.streamBusy c = true → exec (.streamClose id) s = .next s) ∧
  (∀ s id c x, s.Runs id 0x0621 streamCloseFields c → s.streamBusy c = false → look (bitsOf (c.par 0 4) 0 17) s.fab.streams = some x →
    ∃ t y, exec (.streamClose id) s = .next t ∧ t.Ended id .ok 0 0 ∧ look (bitsOf (c.par 0 4) 0 17) t.fab.streams = some y ∧ y.gone = true ∧
      y.txSeq = (x.txSeq + 1) % 2 ^ 32 ∧ y.inbox = x.inbox ∧ ∀ j, j ≠ bitsOf (c.par 0 4) 0 17 → look j t.fab.streams = look j s.fab.streams) ∧
  (∀ s id c g, s.Runs id 0x0611 tailPolicyFields c → look (c.par 2 2) s.fab.groups = some g → c.par 0 1 = 0 →
    ∃ t, exec (.tailPolicy id) s = .next t ∧ t.Ended id .ok 0 0 ∧ (s.named c).OnlyFab t ∧
      look (c.par 2 2) t.fab.groups = some { g with tail := c.par 1 1, deadline := c.par 4 4 } ∧
      (∀ k, k ≠ c.par 2 2 → look k t.fab.groups = look k s.fab.groups) ∧ { t.fab with groups := s.fab.groups } = s.fab) ∧
  (∀ s id c g, s.Runs id 0x0611 tailPolicyFields c → s.Clean c.allot → c.allot < s.allots.length → look (c.par 2 2) s.fab.groups = some g → c.par 0 1 = 1 →
    ∃ t, exec (.tailPolicy id) s = .next t ∧
      (s.named c).ReadInto t c 8 ((List.range g.members.length).flatMap (fun r => (s.tailOf (c.par 2 2) r).bytes)) 0) ∧
  (∀ s id c, s.Runs id 0x0611 tailPolicyFields c → c.par 0 1 = 2 →
    ∃ t, exec (.tailPolicy id) s = .next t ∧ t.Ended id .ok 0 0 ∧ (s.named c).OnlyFab t ∧ { t.fab with tails := s.fab.tails } = s.fab ∧
      ∀ e, e ∈ t.fab.tails ↔ e ∈ s.fab.tails ∧ e.group ≠ c.par 2 2) ∧
  (∀ s id c, s.Runs id 0x0611 tailPolicyFields c → c.par 0 1 = 3 →
    ∃ t, exec (.tailPolicy id) s = .next t ∧ t.Ended id .ok 0 0 ∧
      (∀ h ∈ t.fab.held, ¬ (h.group = c.par 2 2 ∧ h.slot = c.par 0x10 1)) ∧ ∀ b, (t.al b).objs = ((s.named c).al b).objs)

/-- R356, R357, R362, R364: a COLL_BEGIN of OP 0 or 1 begins the next collective of its group and goes to work while contributions are still to
come; one of OP RECV goes to work and takes the next whole message of its stream; one whose group has 16 collectives in progress waits; the
deadline of a collective closes its admission: a contributor that has not arrived is counted late. -/
def Obligations.Collectives : Prop :=
  (∀ s id c g, s.Runs id 0x0610 collBeginFields c → c.cOp ≤ 1 → s.collWaits c = false → s.Clean c.allot → c.allot < s.allots.length →
    look (c.par 2 2) s.fab.groups = some g → s.others g ≠ [] → s.fab.inbound = [] → s.fab.aborts = [] → s.fab.peersDown = [] →
    ∃ t x h, exec (.collBegin id) s = .next t ∧ t.AtWork id ∧ t.fab.colls = s.fab.colls ++ [x] ∧ x.cmd = id ∧ x.group = c.par 2 2 ∧
      x.index = nextNumber g.begun g.gone 0 ∧ x.closed = false ∧ look (c.par 2 2) t.fab.groups = some h ∧ h.begun = x.index ∧ h.members = g.members) ∧
  (∀ s id c x, s.Runs id 0x0610 collBeginFields c → c.cOp = 6 → s.NoTraffic → s.Clean c.allot → c.allot < s.allots.length →
    (∀ d ∈ s.hg.cmds, d.id = id → d = c) → look (bitsOf (c.par 0x34 4) 0 17) s.fab.streams = some x → x.inbox.length < 16 → x.closed = false →
    ∃ t, exec (.collBegin id) s = .next t ∧ t.AtWork id ∧ (s.named c).OnlyCmds t) ∧
  (∀ s id c x, s.Runs id 0x0610 collBeginFields c → c.cOp = 6 → s.NoTraffic → s.Clean c.allot → c.allot < s.allots.length →
    (∀ d ∈ s.hg.cmds, d.id = id → d = c) → look (bitsOf (c.par 0x34 4) 0 17) s.fab.streams = some x → x.inbox.length < 16 → x.closed = true →
    ∃ t, exec (.collBegin id) s = .next t ∧ t.Ended id .wrongState 0 0 ∧ (s.named c).OnlyCmds t) ∧
  (∀ s id c x, s.Runs id 0x0610 collBeginFields c → c.cOp = 6 → s.NoTraffic → s.Clean c.allot → c.allot < s.allots.length →
    (∀ d ∈ s.hg.cmds, d.id = id → d = c) → look (bitsOf (c.par 0x34 4) 0 17) s.fab.streams = some x →
    16 + messageBytes x.inbox ≤ x.inbox.length → 16 ≤ x.inbox.length → bytesField x.inbox 0 8 = c.par 0x18 8 →
    bytesField x.inbox 8 1 = (s.objD c.allot c.cDst).t.fmt → bytesField x.inbox 9 1 = (s.objD c.allot c.cDst).t.smode →
    ∃ t y, exec (.collBegin id) s = .next t ∧ t.Ended id .ok 0 (BitVec.ofNat 128 (32 * c.cUnits % 2 ^ 32)) ∧
      look (bitsOf (c.par 0x34 4) 0 17) t.fab.streams = some y ∧ y.inbox = x.inbox.drop (16 + messageBytes x.inbox) ∧
      (s.named c).ObjsStand t c.allot (handleIndex c.cDst)) ∧
  (∀ s id c, s.fresh? id 0x0610 = some c → c.cOp ≤ 4 → 16 ≤ (s.fab.colls.filter (fun x => x.group == c.par 2 2)).length →
    exec (.collBegin id) s = .next s) ∧
  (∀ s id c x d, s.cmd? id = some c → s.fab.colls.find? (fun y => y.cmd == id) = some x → x.deadline = some d → x.closed = true →
    exec (.collDeadline id) s = .next s) ∧
  (∀ s id c x d, s.cmd? id = some c → c.phase = .working → s.fab.colls = [x] → x.cmd = id → x.deadline = some d → x.closed = false → c.cOp = 0 →
    c.par 0x28 1 = 0 → (∃ p ∈ s.others (s.group x.group), s.arrived x 1 p = false) → (∀ l ∈ x.lost, l.1 ∉ s.others (s.group x.group)) →
    ∃ t y, exec (.collDeadline id) s = .next t ∧ t.AtWork id ∧ t.fab.colls = [y] ∧ y.closed = true ∧
      y.late = ((s.contributors x.op (s.group x.group)).filter (fun p => !s.arrived x 0 p)).length ∧
      y.admitted = 1 + ((s.contributors x.op (s.group x.group)).filter (fun p => s.arrived x 0 p)).length + x.heldIn.length)

/-- R339 to R342, R347, R349, R353, R354: a native frame that fails its check is counted as lost and asked for again; the first frame of a
packet in sequence is taken; a packet for another module is dropped and counted; data in order enters its stream; a frame sent 16 times
retrains its port, which is down after 100 ms and up with three lanes or four; a packet is sent again at its timeout, and a peer that does
not answer is down. -/
def Obligations.LinkEvents : Prop :=
  (∀ (s : State) p f, s.portUsable p = true → (s.port p).mode = .native → frameOk f = false →
    ∃ t, exec (.frameReceive p f) s = .next t ∧ s.PortsStand t p ∧ { t with fab := { t.fab with ports := s.fab.ports } } = s ∧
      t.port p = { s.port p with
        framesLost := ((s.port p).framesLost + 1) % 2 ^ 32, nak := true,
        out := (s.port p).out ++ [frameBytes 1 0 (s.port p).txSeq ((s.port p).rxSeq + 4096) 0 []] }) ∧
  (∀ (s : State) p f, s.portUsable p = true → (s.port p).mode = .longReach → frameOk f = false →
    ∃ t, exec (.frameReceive p f) s = .next t ∧ s.PortsStand t p ∧ { t with fab := { t.fab with ports := s.fab.ports } } = s ∧
      t.port p = { s.port p with framesLost := ((s.port p).framesLost + 1) % 2 ^ 32, nak := false }) ∧
  (∀ (s : State) p f, s.portUsable p = true → ((s.port p).mode = .native ∨ (s.port p).mode = .longReach) → frameOk f = true → bytesField f 0 1 = 0 →
    bitsOf (bytesField f 2 2) 0 12 = ((s.port p).rxSeq + 1) % 4096 → bitsOf (bytesField f 7 1) 0 2 = 1 → (s.port p).rxSeq < 4096 →
    ∃ t, exec (.frameReceive p f) s = .next t ∧ (t.port p).rxSeq = ((s.port p).rxSeq + 1) % 4096 ∧ (t.port p).nak = false ∧
      (t.port p).assembling = (f.drop 16).take (min 240 (bytesField f 6 1)) ∧ t.fab.streams = s.fab.streams ∧ ∀ a, (t.al a).objs = (s.al a).objs) ∧
  (∀ (s : State) p f, s.portUsable p = false → exec (.frameReceive p f) s = .next s ∧ exec (.packetReceive p f) s = .next s) ∧
  (∀ (s : State) p b, s.portUsable p = true → (s.port p).mode = .native → 32 ≤ b.length →
    ((headerOf b).dst ≠ s.fab.self ∨ (headerOf b).domain ≠ s.fab.domain) → (s.port p).misTimes.length < 999 →
    ∃ t, exec (.packetReceive p b) s = .next t ∧ (t.port p).misdirected = ((s.port p).misdirected + 1) % 2 ^ 32 ∧ s.PortsStand t p ∧
      t.fab.streams = s.fab.streams ∧ t.fab.inbound = s.fab.inbound ∧ t.fab.unacked = s.fab.unacked ∧ t.fab.wire = s.fab.wire) ∧
  (∀ (s : State) p b, s.portUsable p = true → (s.port p).mode = .native → (s.port p).bound = false → 32 ≤ b.length → ∀ h, h = headerOf b → ∀ x,
    h.dst = s.fab.self → h.domain = s.fab.domain → h.vc = 1 → h.kind = 0 → s.checkOk h b = true → look h.stream s.fab.streams = some x →
    x.peer = h.src → x.allot = h.allot → (s.group x.group).digest = h.sig → h.seq = seqNext x.rxSeq → x.rxSeq < 2 ^ 32 → x.early = [] →
    (∀ e ∈ s.fab.streams, e.2.gone = false) → s.NoTraffic →
    ∃ t y, exec (.packetReceive p b) s = .next t ∧ look h.stream t.fab.streams = some y ∧ y.inbox = x.inbox ++ (b.drop 32).take h.len ∧
      y.rxSeq = seqNext x.rxSeq ∧ look h.src t.fab.heard = some s.now ∧ h.src ∉ t.fab.peersDown) ∧
  (∀ (s : State) p, (s.port p).up = true → (∃ f ∈ (s.port p).replay, 16 ≤ f.sends) → p < 24 → s.Mild (0x5202 + 8 * p) →
    ∃ t, exec (.replayLimit p) s = .next t ∧ (t.port p).up = false ∧ (t.port p).training = true ∧ (t.port p).trainAt = s.now ∧ (t.port p).replay = [] ∧
      s.PortsStand t p) ∧
  (∀ (s : State) p, (s.port p).training = true → p < 24 → s.pair.state = .unbound → s.Mild (0x5200 + 8 * p) →
    ∃ t, exec (.portRetrainTimeout p) s = .next t ∧ (t.port p).up = false ∧ (t.port p).training = false ∧ s.PortsStand t p) ∧
  (∀ (s : State) p, (s.port p).training = true → p < 24 → s.flt.portsFenced.contains p = false → s.NoTraffic → 3 ≤ (s.spareLanes p).lanesUp p →
    ∃ t, exec (.portTrained p []) s = .next t ∧ (t.port p).up = true ∧ (t.port p).training = false ∧ (t.port p).rxSeq = 0 ∧ (t.port p).tagRun = 0 ∧
      (t.port p).aliveRx = [0, 0]) ∧
  (∀ (s : State) vc peer own seq x q, s.fab.unacked.find? (fun y => y.vc == vc && y.peer == peer && y.own == own && y.seq == seq) = some x →
    peer ∉ s.fab.peersDown → 0 < x.sends → x.sends ≤ s.fab.retryLimit → s.portFor peer vc own seq = some q → s.room q vc x.data.length = true →
    (∃ n, s.farNumber x = some n) →
    ∃ t k, exec (.retransmitTimeout vc peer own seq) s = .next t ∧ t.fab.wire = s.fab.wire ++ [k] ∧ k.dst = peer ∧ k.seq = seq ∧ k.data = x.data ∧
      k.kind = x.kind ∧ k.port = q ∧ t.fab.streams = s.fab.streams) ∧
  (∀ (s : State) vc peer own seq x, s.fab.unacked.find? (fun y => y.vc == vc && y.peer == peer && y.own == own && y.seq == seq) = some x →
    peer ∉ s.fab.peersDown → 0 < x.sends → s.fab.retryLimit < x.sends → s.NoTraffic → s.Mild 0x5300 →
    ∃ t, exec (.retransmitTimeout vc peer own seq) s = .next t ∧ peer ∈ t.fab.peersDown) ∧
  (∀ (s : State) peer, (∃ x ∈ s.fab.unacked, x.peer = peer) → peer ∉ s.fab.peersDown → s.NoTraffic → s.Mild 0x5300 →
    ∃ t, exec (.peerTimeout peer) s = .next t ∧ peer ∈ t.fab.peersDown ∧ t.fab.routes = s.fab.routes)

/-- R24, R346, R373, R375: a key crosses to the port cipher of a bound long-reach port at once, with its invocation count at 0, and to no other
port; a rotation installs the next key; brown-outs of both sides within 20 ms, two of them within 30 days, mark the pair SUSPECT_FEED. -/
def Obligations.PortKeys : Prop :=
  (∀ (s : State) p key, s.dev.standby = true → s.mgt.restarting = false → s.AtOnce opKeys → p < 24 → s.fab.ports.length = 24 →
    (s.port p).bound = true → (s.port p).mode = .longReach →
    ∃ t, exec (.keyInstallation p 0 key) s = .next t ∧ s.PortsStand t p ∧
      t.port p = { s.port p with keyed := true, keyTx := key, invocTx := 0, keyTime := s.now }) ∧
  (∀ (s : State) p key, s.dev.standby = true → s.mgt.restarting = false → s.AtOnce opKeys → p < 24 → s.fab.ports.length = 24 →
    (s.port p).bound = true → (s.port p).mode = .longReach →
    ∃ t, exec (.keyInstallation p 1 key) s = .next t ∧ s.PortsStand t p ∧
      t.port p = { s.port p with keyed := true, keyRx := key, invocRx := 0, keyTimeRx := s.now, tagRun := 0 }) ∧
  (∀ (s : State) p secret, s.dev.standby = true → s.mgt.restarting = false → s.AtOnce opKeys → p < 24 → s.fab.ports.length = 24 →
    (s.port p).bound = true → (s.port p).mode = .longReach → (s.port p).keyed = true →
    ∃ t, exec (.keyRotation p 0 secret) s = .next t ∧ s.PortsStand t p ∧ (t.port p).keyTx = Config.portKey secret p 0 ∧ (t.port p).invocTx = 0 ∧
      (t.port p).keyRx = (s.port p).keyRx) ∧
  (∀ (s : State) p dir key, s.dev.standby = true → s.mgt.restarting = false → s.AtOnce opKeys → p < 24 → (s.port p).bound = false →
    ∃ t, exec (.keyInstallation p dir key) s = .next t ∧ t.fab = s.fab) ∧
  (∀ (s : State) log, s.pair.bound = true → s.correlates log = [] → ∃ t, exec (.brownOutLogExchange log) s = .next t ∧ t.pair.partnerLog = log ∧
    t.fab = s.fab ∧ t.pair.suspectFeed = s.pair.suspectFeed) ∧
  (∀ (s : State) log a b, s.pair.bound = true → s.pair.correlated = [] → s.correlates log = [a, b] → a < b → b - a ≤ 30 * 86400 * 1000000000 →
    ∃ t, exec (.brownOutLogExchange log) s = .next t ∧ t.pair.partnerLog = log ∧ t.fab = s.fab ∧ t.pair.suspectFeed = true ∧
      t.hasCond 0 .suspectFeed = true) ∧
  (∀ (s : State) log, s.pair.bound = false → exec (.brownOutLogExchange log) s = .next s)

/-! ## The pair -/

/-- R276, R371 to R374, R376 to R378: PAIR_BIND waits for its match with its log charged, and completes WRONG_STATE at its timeout or where a pair
is bound or binding; the matching command binds the ports, with the keys of a long-reach port; an unbinding, at once, by the partner's order
or after PAIR_TIMEOUT_MS, loses every tier-3 object and leaves the pair UNBOUND; an orderly one sends the partner its order once every
closed epoch is committed. How the order to the partner looks is the model's (log 68). -/
def Obligations.PairLifecycle : Prop :=
  (∀ s id c, s.OrderRuns id 0x0701 pairBindFields c → s.pair.state ≠ .unbound →
    ∃ t, exec (.pairBind id) s = .next t ∧ t.Ended id .wrongState 0 0 ∧ (s.taken id c).OnlyCmds t) ∧
  (∀ s id c, s.OrderRuns id 0x0701 pairBindFields c → s.pair.state = .unbound → (s.taken id c).fits 0 4 (orDefault (c.par 8 4) 256 * 2 ^ 30) = false →
    ∃ t, exec (.pairBind id) s = .next t ∧ t.Ended id .noResource 0 0 ∧ (s.taken id c).OnlyCmds t) ∧
  (∀ s id c, s.OrderRuns id 0x0701 pairBindFields c → s.pair.state = .unbound → (s.taken id c).fits 0 4 (orDefault (c.par 8 4) 256 * 2 ^ 30) = true →
    ∃ t, exec (.pairBind id) s = .next t ∧ t.AtWork id ∧ t.pair.state = .binding ∧ t.pair.cmd = some id ∧ t.pair.partner = c.par 0 2 ∧
      t.pair.role = c.par 2 1 ∧ t.pair.portA = c.par 3 1 ∧ t.pair.portB = c.par 4 1 ∧ t.pair.lagSteps = orDefault (c.par 6 1) 2 ∧
      t.pair.logGib = orDefault (c.par 8 4) 256 ∧ t.pair.since = s.now ∧ t.fab = s.fab ∧ ∀ b, (t.al b).objs = ((s.taken id c).al b).objs) ∧
  (∀ s i, s.pair.cmd = some i → s.pair.state = .binding → (s.cmd? i).isSome = true →
    ∃ t, exec .bindWaitTimeout s = .next t ∧ t.Ended i .wrongState 0 0 ∧ t.pair.state = .unbound ∧ t.fab = s.fab) ∧
  (∀ s p, s.pair.state = .binding → s.matchesBind p = false → exec (.matchingPairBind p) s = .next s) ∧
  (∀ s i p, s.pair.cmd = some i → s.pair.state = .binding → (s.cmd? i).isSome = true → s.matchesBind p = true →
    p.mirrorGib * 2 ^ 30 < s.pair.logGib * 2 ^ 30 + 64 * 2 ^ 20 →
    ∃ t, exec (.matchingPairBind p) s = .next t ∧ t.Ended i .noResource 0 0 ∧ t.pair.state = .unbound) ∧
  (∀ s i p, s.pair.cmd = some i → s.pair.state = .binding → (s.cmd? i).isSome = true → s.matchesBind p = true →
    s.pair.logGib * 2 ^ 30 + 64 * 2 ^ 20 ≤ p.mirrorGib * 2 ^ 30 → p.keysOk = false →
    ∃ t, exec (.matchingPairBind p) s = .next t ∧ t.Ended i .authFailed 0 0 ∧ t.pair.state = .unbound) ∧
  (∀ s i p, s.pair.cmd = some i → s.pair.state = .binding → (s.cmd? i).isSome = true → s.matchesBind p = true →
    s.pair.logGib * 2 ^ 30 + 64 * 2 ^ 20 ≤ p.mirrorGib * 2 ^ 30 → p.keysOk = true → s.pairPortUp = true → s.pair.portA < 24 → s.fab.ports.length = 24 →
    s.AtOnce opKeys → s.mgmtUp = true →
    ∃ t r, exec (.matchingPairBind p) s = .next t ∧ t.Ended i .ok 0 r ∧ r.toNat % 16 = p.feedId % 16 ∧ r.toNat.testBit 4 = t.pair.commonMode ∧
      r.toNat.testBit 5 = t.pair.feedUnknown ∧ r.toNat / 2 ^ 8 % 2 ^ 16 = s.pair.partner % 2 ^ 16 ∧ t.pair.state = .sync ∧
      (t.port s.pair.portA).bound = true ∧ t.pair.partnerFeed = p.feedId ∧
      t.pair.commonMode = decide (p.feedId = s.mgt.feedInEffect ∧ s.mgt.feedInEffect ≠ 0) ∧
      t.pair.feedUnknown = decide (s.mgt.feedInEffect = 0 ∨ p.feedId = 0) ∧
      ((s.port s.pair.portA).mode = .longReach → (t.port s.pair.portA).keyed = true ∧
        (t.port s.pair.portA).keyTx = Config.portKey p.secret s.pair.portA 0 ∧ (t.port s.pair.portA).keyRx = Config.portKey p.secret s.pair.portA 1)) ∧
  (∀ (s : State) p, s.pair.state ≠ .binding → exec .bindWaitTimeout s = .next s ∧ exec (.matchingPairBind p) s = .next s) ∧
  (∀ s id c, s.OrderRuns id 0x0702 pairUnbindFields c → s.pair.bound = false →
    ∃ t, exec (.pairUnbind id) s = .next t ∧ t.Ended id .wrongState 0 0 ∧ (s.taken id c).OnlyCmds t) ∧
  (∀ s id c, s.OrderRuns id 0x0702 pairUnbindFields c → s.pair.bound = true → c.par 0 1 = 1 →
    ∃ t, exec (.pairUnbind id) s = .next t ∧ t.Ended id .ok 0 0 ∧ t.pair.state = .unbound ∧ t.pair.log = [] ∧ (∀ p, (t.port p).bound = false) ∧
      ∀ a e, e ∈ (t.al a).objs → e.2.tier = 3 → e.2.lost = true) ∧
  (∀ s id c, s.OrderRuns id 0x0702 pairUnbindFields c → s.pair.bound = true → c.par 0 1 = 0 → s.epochsDone = true →
    ∃ t, exec (.pairUnbind id) s = .next t ∧ t.AtWork id ∧ t.pair = { s.pair with cmd := some id } ∧
      ∃ x ∈ t.fab.unacked, x.vc = 3 ∧ x.peer = s.pair.partner ∧ x.data = padTo 16 [3]) ∧
  (∀ s id c, s.OrderRuns id 0x0702 pairUnbindFields c → s.pair.bound = true → c.par 0 1 = 0 → s.epochsDone = false →
    ∃ t, exec (.pairUnbind id) s = .next t ∧ t.AtWork id ∧ t.pair = { s.pair with cmd := some id } ∧ t.fab = s.fab) ∧
  (∀ s : State, s.pair.state = .suspended → ∃ t, exec .pairTimeout s = .next t ∧ t.pair.state = .unbound ∧ t.hasCond 0 .partnerLoss = true ∧
    (∀ p, (t.port p).bound = false) ∧ ∀ a e, e ∈ (t.al a).objs → e.2.tier = 3 → e.2.lost = true) ∧
  (∀ s : State, s.pair.state ≠ .suspended → exec .pairTimeout s = .next s) ∧
  (∀ s : State, s.AtOnce opUnbindOrder → s.pair.bound = true →
    ∃ t, exec .unbindOrder s = .next t ∧ t.pair.state = .unbound ∧ t.hasCond 0 .partnerLoss = s.hasCond 0 .partnerLoss) ∧
  (∀ s : State, s.AtOnce opUnbindOrder → s.pair.bound = false →
    ∃ t, exec .unbindOrder s = .next t ∧ t.pair = s.pair ∧ t.fab = s.fab ∧ t.allots = s.allots)

/-- R274, R379, R382, R384, R391, R398: MIRROR_SET keeps a legal policy record for the next STEP_MARK, reads its status out and refuses tensor
records without a pair; an epoch leaves the list and the log when the partner commits it, the partner's record is kept; a quench with
nothing left to commit ends at once; the partner's allocations count against the mirror region; FLEET_RATE sets the rate and reports. -/
def Obligations.PairOrders : Prop :=
  (∀ s id c, s.Runs id 0x0703 mirrorSetFields c → s.Clean c.allot → c.allot < s.allots.length → c.par 0 1 = 0 → s.pair.bound = false →
    ∃ t, exec (.mirrorSet id) s = .next t ∧ t.Ended id .wrongState 0 0 ∧ (s.named c).OnlyCmds t) ∧
  (∀ s id c, s.Runs id 0x0703 mirrorSetFields c → s.Clean c.allot → c.allot < s.allots.length → c.par 0 1 = 1 →
    ∀ b, b = leNat ((s.named c).readRef c.allot (c.par 8 8) 1 64) → mirPolicyOk b = true →
    ∃ t, exec (.mirrorSet id) s = .next t ∧ t.Ended id .ok 0 0 ∧ (s.named c).OnlyAllot t c.allot ∧
      (t.al c.allot).temper.recs = (s.al c.allot).temper.recs ++ [(c.acc, .mirrorPolicy b)] ∧ (t.al c.allot).mir = (s.al c.allot).mir) ∧
  (∀ s id c, s.Runs id 0x0703 mirrorSetFields c → s.Clean c.allot → c.allot < s.allots.length → c.par 0 1 = 1 →
    mirPolicyOk (leNat ((s.named c).readRef c.allot (c.par 8 8) 1 64)) = false →
    ∃ t, exec (.mirrorSet id) s = .next t ∧ t.Ended id .badParam 0xFFFF 0 ∧ (s.named c).OnlyCmds t) ∧
  (∀ s id c, s.Runs id 0x0703 mirrorSetFields c → s.Clean c.allot → c.allot < s.allots.length → c.par 0 1 = 2 → c.par 1 1 = 0 →
    ∃ t, exec (.mirrorSet id) s = .next t ∧ (s.named c).ReadInto t c 8 ((s.named c).mirrorStatusBytes c.allot) 0) ∧
  (∀ s a e x r, s.pair.bound = true → s.pairPortUp = true → s.markIdle a e = true → (s.al a).mir.epochs = x :: r → x.id = e →
    ∃ t, exec (.epochCommit true a e []) s = .next t ∧ (t.al a).mir.epochCommitted = e ∧ (t.al a).mir.epochs = r ∧
      (∀ p ∈ t.pair.log, ¬ (p.allot = a ∧ p.epoch ≤ e)) ∧ ∀ b, (t.al b).progs = (s.al b).progs) ∧
  (∀ s a e x r, (s.al a).mir.epochs = x :: r → x.id ≠ e → exec (.epochCommit true a e []) s = .next s) ∧
  (∀ (s : State) w, s.pair.bound = true → s.pairPortUp = true → ∀ x, x = storeOf w → x.allot < 16 → s.pair.expect = [] → s.pair.role ≠ 2 →
    (∀ y, s.pair.peerStore x.kind x.allot = some y → y.id < x.id) →
    ∃ t y, exec (.epochCommit false x.allot x.id w) s = .next t ∧ t.allots = s.allots ∧ t.pair.peerStore x.kind x.allot = some y ∧
      y.committed = true ∧ y.id = x.id ∧ y.step = x.step) ∧
  (∀ (s : State) m a e w, (s.pair.bound = false ∨ s.pairPortUp = false) → exec (.epochCommit m a e w) s = .next s) ∧
  (∀ (s : State) n, s.AtOnce opTier3 → s.pair.bound = true → s.mirrorRoom n = true →
    ∃ t, exec (.tier3Allocation n) s = .next t ∧ t.allots = s.allots ∧ t.pair = { s.pair with peerTier3 := s.pair.peerTier3 + n }) ∧
  (∀ (s : State) n, s.AtOnce opTier3 → (s.pair.bound = false ∨ s.mirrorRoom n = false) →
    ∃ t, exec (.tier3Allocation n) s = .next t ∧ t.allots = s.allots ∧ t.pair = s.pair) ∧
  (∀ (s : State) a m n, s.AtOnce opReserve → a < 2 ^ 32 → m < 2 ^ 32 → s.pair.bound = true → ∀ old, old = lookN (a + m * 2 ^ 32) s.pair.peerReserved →
    (3 * n ≤ old ∨ s.mirrorRoom (3 * n - old) = true) →
    ∃ t, exec (.mirrorReservation a m n) s = .next t ∧ lookN (a + m * 2 ^ 32) t.pair.peerReserved = 3 * n ∧
      ∀ k, k ≠ a + m * 2 ^ 32 → lookN k t.pair.peerReserved = lookN k s.pair.peerReserved) ∧
  (∀ (s : State) a m n, s.AtOnce opReserve → a < 2 ^ 32 → m < 2 ^ 32 → s.pair.bound = true → ∀ old, old = lookN (a + m * 2 ^ 32) s.pair.peerReserved →
    old < 3 * n → s.mirrorRoom (3 * n - old) = false → ∃ t, exec (.mirrorReservation a m n) s = .next t ∧ t.pair = s.pair) ∧
  (∀ s id c, s.OrderRuns id 0x0730 quenchFields c → c.master = .allot → c.par 0 1 = 0 → (s.pair.state = .mirror ∨ s.pair.state = .sync) →
    s.pairPortUp = true → s.epochsDone = true →
    ∃ t, exec (.quench (.cmd id)) s = .next t ∧ t.Ended id .ok 0 (BitVec.ofNat 128 ((s.al 0).mir.epochCommitted % 2 ^ 64 +
        min (2 ^ 32 - 1) (lagBytes s.pair.log / 2 ^ 20) * 2 ^ 64)) ∧
      t.pair.state = (if (c.par 1 1).testBit 0 then .quenched else s.pair.state) ∧
      t.pair.holdOpen = (s.pair.holdOpen || (c.par 1 1).testBit 0) ∧ t.pair.log = [] ∧ t.hasCond 0 .quenched = true) ∧
  (∀ s id c, s.OrderRuns id 0x0730 quenchFields c → c.master = .allot → c.par 0 1 = 0 → s.pair.bound = false →
    ∃ t, exec (.quench (.cmd id)) s = .next t ∧ t.Ended id .wrongState 0 0 ∧ (s.taken id c).OnlyCmds t) ∧
  (∀ s id c, s.OrderRuns id 0x0730 quenchFields c → c.master = .allot → c.par 0 1 = 1 → s.pair.state = .quenched → s.pairPortUp = true →
    ∃ t r, exec (.quench (.cmd id)) s = .next t ∧ t.Ended id .ok 0 r ∧ t.pair.state = (if s.streamsCommitted then .mirror else .sync) ∧
      t.pair.holdOpen = false ∧ t.hasCond 0 .quenched = false) ∧
  (∀ s id c, s.OrderRuns id 0x0750 fleetRateFields c → ∃ t, exec (.fleetRate id) s = .next t ∧
    t.Ended id .ok 0 (BitVec.ofNat 128 (min (2 ^ 32 - 1) (t.tau 0) + min (2 ^ 32 - 1) (t.meanFrac.1 / t.meanFrac.2) * 2 ^ 32 +
      min (2 ^ 32 - 1) (((t.al 0).mir.snapCostUs).getD 0) * 2 ^ 64 + min (2 ^ 32 - 1) t.lossCount * 2 ^ 96)) ∧ (s.taken id c).OnlyPair t ∧
    t.pair = (if c.par 0 1 = 0 then { s.pair with fleetRate := BitVec.ofNat 32 (c.par 4 4) } else s.pair))

/-- R388, R389, R396, R397: SNAP_TAKE with no earlier command in progress keeps the bytes of every mirrored tensor under the next snapshot number;
SNAP_COMMIT of that number commits it: on a module that is not bound it completes, with EXPORT after its part stands in host memory, on a bound
one it waits for the partner's manifest; of another number it completes WRONG_STATE; RESTORE_VERIFY of a sound store completes OK and changes
nothing, of one that is not AUTH_FAILED. -/
def Obligations.Snapshots : Prop :=
  (∀ s id us c, s.Runs id 0x0710 (fun _ _ => []) c → (s.named c).earlier c = [] → s.Clean c.allot → c.allot < s.allots.length →
    ∃ t x r, exec (.snapTake id us) s = .next t ∧ (t.al c.allot).mir.snapOpen = some x ∧ x.id = (s.al c.allot).mir.snapNext ∧
      x.step = (s.al c.allot).temper.step ∧ (t.al c.allot).mir.snapNext = (s.al c.allot).mir.snapNext + 1 ∧
      (t.al c.allot).mir.snapCostUs = some (min (2 ^ 32 - 1) us) ∧
      (∀ m o, m ∈ (s.al c.allot).mir.tensors → s.obj? c.allot m.handle = some o → ∃ d, d ∈ x.tensors ∧ d.mirrorId = m.mirrorId ∧
        d.data = o.t.data.filter (fun e => decide (e.1 < o.mirrorBytes))) ∧
      t.Ended id .ok 0 r ∧ r.toNat % 2 ^ 32 = x.id % 2 ^ 32 ∧ r.toNat / 2 ^ 32 % 2 ^ 32 = x.step % 2 ^ 32 ∧ r.toNat / 2 ^ 96 = min (2 ^ 32 - 1) us ∧
      ∀ a, (t.al a).objs = ((s.named c).al a).objs) ∧
  (∀ s id c, s.CommitRuns id c → (s.al c.allot).mir.snapOpen = none → c.par 4 1 = 0 →
    ∃ t, exec (.snapCommit id) s = .next t ∧ t.Ended id .wrongState 0 0 ∧ s.OnlyCmds t) ∧
  (∀ s id c x, s.CommitRuns id c → (s.al c.allot).mir.snapOpen = some x → x.id % 2 ^ 32 ≠ c.par 0 4 →
    ∃ t, exec (.snapCommit id) s = .next t ∧ t.Ended id .wrongState 0 0 ∧ s.OnlyCmds t) ∧
  (∀ s id c x, s.CommitRuns id c → (s.al c.allot).mir.snapOpen = some x → x.id % 2 ^ 32 = c.par 0 4 → s.transferWaits = true →
    ∃ t, exec (.snapCommit id) s = .next t ∧ t.AtWork id ∧ s.OnlyCmds t) ∧
  (∀ s id c x, s.CommitRuns id c → (s.al c.allot).mir.snapOpen = some x → x.id % 2 ^ 32 = c.par 0 4 → c.par 4 1 = 0 → s.pair.bound = false →
    ∃ t y, exec (.snapCommit id) s = .next t ∧ t.Ended id .ok 0 0 ∧ (t.al c.allot).mir.snapOpen = none ∧
      (t.al c.allot).mir.snapDone = some y ∧ y.id = x.id ∧ y.step = x.step ∧ y.committed = true ∧ y.tensors.map (·.data) = x.tensors.map (·.data) ∧
      t.hasCond c.allot .staleTensor = false ∧ ∀ a, (t.al a).objs = (s.al a).objs) ∧
  (∀ s id c x, s.CommitRuns id c → (s.al c.allot).mir.snapOpen = some x → x.id % 2 ^ 32 = c.par 0 4 → c.par 4 1 = 1 → s.pair.bound = false →
    s.host.bad = [] →
    ∃ t y, exec (.snapCommit id) s = .next t ∧ (t.al c.allot).mir.snapDone = some y ∧ y.id = x.id ∧ y.committed = true ∧
      ∃ part, part = ((exportBytes y (s.al c.allot).mir.exported).drop (c.par 0x18 4 * c.par 0x10 8)).take (c.par 0x10 8) ∧
      t.Ended id .ok 0 (BitVec.ofNat 128 (part.length % 2 ^ 32 +
        ((ceilDiv (exportBytes y (s.al c.allot).mir.exported).length (c.par 0x10 8) - (c.par 0x18 4 + 1)) % 2 ^ 32) * 2 ^ 32)) ∧
      cellRead t.host.bytes (c.par 8 8) part.length = part) ∧
  (∀ s id c x, s.CommitRuns id c → (s.al c.allot).mir.snapOpen = some x → x.id % 2 ^ 32 = c.par 0 4 → c.par 4 1 = 0 → s.pair.bound = true →
    s.transferWaits = false → (∀ y, (s.al c.allot).mir.remoteSnap = some y → y.id ≠ x.id) →
    ∃ t y, exec (.snapCommit id) s = .next t ∧ t.AtWork id ∧ (t.al c.allot).mir.snapOpen = none ∧ (t.al c.allot).mir.snapDone = some y ∧
      y.id = x.id ∧ y.step = x.step ∧ y.committed = true) ∧
  (∀ s id c, s.started? id 0x0740 = some c → s.ready c = true → s.judgeInline c (restoreVerifyFields s c) = none → c.par 0 1 < 2 →
    s.verifyStore c = none → ∃ t, exec (.restoreVerify id) s = .next t ∧ t.Ended id .wrongState 0 0 ∧ s.OnlyCmds t) ∧
  (∀ s id c x, s.started? id 0x0740 = some c → s.ready c = true → s.judgeInline c (restoreVerifyFields s c) = none → c.par 0 1 < 2 →
    s.verifyStore c = some x → (∀ d ∈ x.tensors, digestOf (chunkDigests d.data d.bytes) = d.digest) → x.digestNow = x.digest → x.isSigned = false →
    ∃ t, exec (.restoreVerify id) s = .next t ∧ t.Ended id .ok 0 0 ∧ s.OnlyCmds t) ∧
  (∀ s id c x, s.started? id 0x0740 = some c → s.ready c = true → s.judgeInline c (restoreVerifyFields s c) = none → c.par 0 1 < 2 →
    s.verifyStore c = some x → (∃ d ∈ x.tensors, digestOf (chunkDigests d.data d.bytes) ≠ d.digest) →
    ∃ t e k, exec (.restoreVerify id) s = .next t ∧ t.Ended id .authFailed e k ∧ s.OnlyCmds t)

/-- R401 to R405: a FILL_BEGIN of ROLE 1 grants its store, WRONG_STATE where none is committed; a granted chunk is served, and the grant ends after
24 hours; FILL_CHUNK writes a chunk that has its digest and marks it, else AUTH_FAILED with the chunk and the object as it was; FILL_COMMIT of an
incomplete fill reports its cursor, of a sound one ends the fill, of one that is not AUTH_FAILED. -/
def Obligations.Fills : Prop :=
  (∀ s id m ch c, s.OrderRuns id 0x0720 fillBeginFields c → s.ready c = true → c.par 4 1 = 1 → s.sourceStore (c.par 5 1) c.allot (c.par 8 8) = none →
    ∃ t, exec (.fillBegin id m ch) s = .next t ∧ t.Ended id .wrongState 0 0 ∧ (s.taken id c).OnlyCmds t) ∧
  (∀ s id m ch c x, s.OrderRuns id 0x0720 fillBeginFields c → s.ready c = true → c.par 4 1 = 1 → s.sourceStore (c.par 5 1) c.allot (c.par 8 8) = some x →
    (∀ g ∈ s.pair.grants, g.fillId ≠ c.par 0 4) → s.pair.grants.length < 8 →
    ∃ t, exec (.fillBegin id m ch) s = .next t ∧ t.Ended id .ok 0 0 ∧ (s.taken id c).OnlyPair t ∧
      t.pair = { s.pair with
        grants := s.pair.grants ++
          [{ fillId := c.par 0 4, target := c.par 6 2, source := c.par 5 1, kind := x.kind, storeId := x.id, made := s.now }] }) ∧
  (∀ (s : State) i g, s.pair.grants.find? (fun (y : Grant) => y.fillId == i) = some g →
    ∃ t, exec (.fillGrantExpiry i) s = .next t ∧ (∀ y ∈ t.pair.grants, y.fillId ≠ i) ∧ t.allots = s.allots) ∧
  (∀ (s : State) i g k x, s.pair.grants.find? (fun (y : Grant) => y.fillId == i) = some g →
    (if g.source = 0 then s.pair.peerStores else s.allots.filterMap (fun y => y.mir.snapDone)).find?
      (fun y => y.allot == 0 && y.kind == g.kind && y.id == g.storeId) = some x →
    ∃ t, exec (.fillRead i k) s = .next t ∧ s.OnlyPair t ∧ t.pair.served = [(i, k, x.chunk k)]) ∧
  (∀ s id ch c f d j o x y, s.ChunkRuns id c f d j → (s.named c).obj? f.allot d.handle = some o → (s.named c).chunkPresent f d j = false →
    (s.named c).chunkReads f { wire := ch, host := c.par 0x10 8, first := c.par 4 4 } (c.par 4 4) (chunkLen d.bytes j) = .ok (x, y) →
    chunkGood d j x = true →
    ∃ t, exec (.fillChunk id ch) s = .next t ∧ t.Ended id .ok 0 (BitVec.ofNat 128 (f.mark (c.par 4 4)).cursor) ∧
      t.Holds f.allot d.handle (j * 2 ^ 20) x ∧ t.pair.fill = some (f.mark (c.par 4 4)) ∧ (s.named c).ObjsStand t f.allot (handleIndex d.handle)) ∧
  (∀ s id ch c f d j o x y, s.ChunkRuns id c f d j → (s.named c).obj? f.allot d.handle = some o → (s.named c).chunkPresent f d j = false →
    (s.named c).chunkReads f { wire := ch, host := c.par 0x10 8, first := c.par 4 4 } (c.par 4 4) (chunkLen d.bytes j) = .ok (x, y) →
    chunkGood d j x = false → chunkGood d j y = false →
    ∃ t, exec (.fillChunk id ch) s = .next t ∧ t.Ended id .authFailed 0 (BitVec.ofNat 128 (c.par 4 4)) ∧ t.allots = (s.named c).allots) ∧
  (∀ s id c f, s.OrderRuns id 0x0722 fillCommitFields c → s.pair.fill = some f → (f.committed = true ∨ f.fillId ≠ c.par 0 4) →
    ∃ t, exec (.fillCommit id) s = .next t ∧ t.Ended id .wrongState 0 0 ∧ (s.taken id c).OnlyCmds t) ∧
  (∀ s id c f, s.OrderRuns id 0x0722 fillCommitFields c → s.pair.fill = some f → f.committed = false → f.fillId = c.par 0 4 → f.cursor < f.total →
    ∃ t, exec (.fillCommit id) s = .next t ∧ t.Ended id .wrongState 0 (BitVec.ofNat 128 f.cursor) ∧ (s.taken id c).OnlyCmds t) ∧
  (∀ s id c f, s.OrderRuns id 0x0722 fillCommitFields c → s.pair.fill = some f → f.committed = false → f.fillId = c.par 0 4 → f.total ≤ f.cursor →
    s.Clean f.allot → (s.al c.allot).temper.layers = [] → f.temper = false → s.fillSound f = true →
    ∃ t, exec (.fillCommit id) s = .next t ∧
      t.Ended id .ok 0 (BitVec.ofNat 128 (f.step % 2 ^ 64 + (f.storeId % 2 ^ 64) * 2 ^ 64)) ∧ t.pair.fill = some { f with committed := true } ∧
      ∀ a, (t.al a).objs = ((s.taken id c).al a).objs) ∧
  (∀ s id c f, s.OrderRuns id 0x0722 fillCommitFields c → s.pair.fill = some f → f.committed = false → f.fillId = c.par 0 4 → f.total ≤ f.cursor →
    s.Clean f.allot → s.fillSound f = false →
    ∃ t, exec (.fillCommit id) s = .next t ∧ t.Ended id .authFailed 0 0 ∧ (s.taken id c).OnlyCmds t)

/-! ## Observation -/

/-- R452, R453, R457, R459 to R463: CTR_CONFIG sets selector words and clears their counters, or the window queue, while no delta set is open;
CTR_READ writes the record that KIND selects; TRACE_CONFIG arms, fires or stops both rings or reports; TRACE_READ takes the oldest entries not
yet read of a ring that has triggered. -/
def Obligations.CountersAndTrace : Prop :=
  (∀ s id c, s.Runs id 0x0801 ctrConfigFields c → c.par 0 1 ≠ 1 → c.allot < s.allots.length → c.master = .allot →
    let first := c.par 2 2
    let n := c.par 4 2
    ((s.al c.allot).ctr.sets ≠ [] → exec (.ctrConfig (.cmd id)) s = .next (s.named c)) ∧
    ((s.al c.allot).ctr.sets = [] → c.par 0 1 = 0 → c.par 8 8 = 0 → ∃ t, exec (.ctrConfig (.cmd id)) s = .next t ∧ t.Ended id .ok 0 0 ∧
      (s.named c).OnlyAllot t c.allot ∧ (∀ i, i < n → selectorAt (t.al c.allot).ctr.sel (first + i) = c.par (0x10 + 4 * i) 4 ∧
        lookN (first + i) (t.al c.allot).ctr.prog = 0) ∧
      (∀ k, (k < first ∨ first + n ≤ k) → selectorAt (t.al c.allot).ctr.sel k = selectorAt (s.al c.allot).ctr.sel k ∧
        lookN k (t.al c.allot).ctr.prog = lookN k (s.al c.allot).ctr.prog) ∧
      (t.al c.allot).ctr.configGen = ((s.al c.allot).ctr.configGen + 1) % 65536) ∧
    ((s.al c.allot).ctr.sets = [] → c.par 0 1 = 2 → ∃ t, exec (.ctrConfig (.cmd id)) s = .next t ∧ t.Ended id .ok 0 0 ∧
      (s.named c).OnlyAllot t c.allot ∧ (t.al c.allot).ctr.windowQ = (if first = 0xFFFF then none else some first) ∧
      (t.al c.allot).ctr.sel = (s.al c.allot).ctr.sel ∧ (t.al c.allot).ctr.prog = (s.al c.allot).ctr.prog)) ∧
  (∀ s id c, s.OrderRuns id 0x0801 ctrConfigFields c → s.ready c = true → c.master = .allot → c.par 0 1 = 1 → c.par 8 8 = 0 →
    ∃ t, exec (.ctrConfig (.cmd id)) s = .next t ∧ t.Ended id .ok 0 0 ∧ t.allots = (s.taken id c).allots ∧
      ∀ i, i < c.par 4 2 → selectorAt t.glob.sel (c.par 2 2 + i) = c.par (0x10 + 4 * i) 4 ∧ lookN (c.par 2 2 + i) t.glob.totals = 0) ∧
  (∀ s id c, s.Runs id 0x0802 ctrReadFields c → s.Clean c.allot → ∃ t, exec (.ctrRead id) s = .next t ∧
    (s.named c).ReadInto t c 8 ((s.named c).ctrBytes c).1 (((s.named c).ctrBytes c).2.1 + ((s.named c).ctrBytes c).2.2 * 2 ^ 64)) ∧
  (∀ s id c, s.OrderRuns id 0x0810 traceConfigFields c →
    (c.par 0 1 = 0 → s.spillFits (c.par 0xE 2) = true → (∀ x ∈ s.hearths, x.trace.state = .off) → c.par 1 1 = 0 →
      ∃ t, exec (.traceConfig id) s = .next t ∧ t.glob.trc = c.traceCfg ∧ (∃ r, t.Ended id .ok 0 r) ∧
        ∀ h, h < s.hearths.length → s.hearthUp h = true → (t.he h).trace.state = .armed ∧ (t.he h).trace.spillMib = c.par 0xE 2) ∧
    (c.par 0 1 = 0 → (∃ h, h < 2 ∧ s.hearthUp h = true ∧ (s.he h).trace.spillMib ≠ c.par 0xE 2) → (∃ x ∈ s.hearths, x.trace.state ≠ .off) →
      ∃ t, exec (.traceConfig id) s = .next t ∧ t.Ended id .wrongState 0 0 ∧ (s.taken id c).OnlyCmds t) ∧
    (c.par 0 1 = 1 → ∃ t r, exec (.traceConfig id) s = .next t ∧ t.Ended id .ok 0 r ∧ ∀ h, (t.he h).trace.state ≠ .armed) ∧
    (c.par 0 1 = 2 → ∃ t r, exec (.traceConfig id) s = .next t ∧ t.Ended id .ok 0 r ∧ ∀ h,
      (((s.he h).trace.state = .armed ∨ (s.he h).trace.state = .post) → (t.he h).trace.state = .done) ∧
      (((s.he h).trace.state = .done ∨ (s.he h).trace.state = .off) → (t.he h).trace.state = .off)) ∧
    (c.par 0 1 = 3 → ∃ t, exec (.traceConfig id) s = .next t ∧ t.Ended id .ok 0 (BitVec.ofNat 128 s.traceResult) ∧ (s.taken id c).OnlyCmds t)) ∧
  (∀ s id c, s.Runs id 0x0811 traceReadFields c → s.Clean c.allot →
    let r := (s.he (c.par 0 1)).trace
    let es := (r.entries.drop r.readPos).take (c.par 0x10 8 / 32)
    (r.state = .off ∨ r.state = .armed → ∃ t, exec (.traceRead id) s = .next t ∧ t.Ended id .wrongState 0 0 ∧ (s.named c).OnlyCmds t) ∧
    (r.state = .post ∨ r.state = .done → c.par 1 1 = 0 → ∃ t, exec (.traceRead id) s = .next t ∧
      (s.named c).ReadInto t c 8 (es.flatMap TraceEntry.bytes) (es.length + (r.entries.length - r.readPos - es.length) * 2 ^ 32) ∧
      (t.he (c.par 0 1)).trace = { r with readPos := r.readPos + es.length }))

/-- R464 to R467, R481: TIME_MEASURE counts the peers it measured and those it could not reach, reads entries or HOLDOVER; a measurement keeps the
offset, round trip and error of its exchange; without one the entry is stale; the loss of TIMEBASE_IN is HOLDOVER until it returns.
R464 with log 4 (the model's choice): on an empty queue the time-stamp counter counts one nanosecond, and nothing else changes. -/
def Obligations.Time : Prop :=
  (∀ s id timing c, s.OrderRuns id 0x0820 timeMeasureFields c → c.par 0 1 = 0 →
    let ps := s.validPeers (c.par 2 2) (c.par 4 2)
    let ok := ps.filter (fun p => match timing.find? (fun (t : PeerTiming) => t.peer == p) with
      | some t => t.exchanges != []
      | none => false)
    ∃ t, exec (.timeMeasure id timing) s = .next t ∧ t.Ended id .ok 0 (BitVec.ofNat 128 (ok.length + (ps.length - ok.length) * 2 ^ 32)) ∧
      (s.taken id c).OnlyFab t ∧ { t.fab with offsets := s.fab.offsets } = s.fab ∧ ∀ p, p ∉ ps → look p t.fab.offsets = look p s.fab.offsets) ∧
  (∀ s id timing c, s.Runs id 0x0820 timeMeasureFields c → s.Clean c.allot →
    (c.par 0 1 = 1 → ∃ t, exec (.timeMeasure id timing) s = .next t ∧ (s.named c).ReadInto t c 8
      ((List.range (c.par 4 2)).flatMap (fun i => ((look (c.par 2 2 + i) s.fab.offsets).getD {}).bytes)) 0) ∧
    (c.par 0 1 = 2 → ∃ t, exec (.timeMeasure id timing) s = .next t ∧ t.Ended id .ok 0 (if s.clk.holdover then 1 else 0) ∧ (s.named c).OnlyCmds t)) ∧
  (∀ (s : State) p r e hold, look p s.fab.routes = some r → r.valid = true →
    (∃ t, exec (.offsetMeasurement { peer := p, exchanges := [e], holdover := hold }) s = .next t ∧ s.OnlyFab t ∧
      (∀ q, q ≠ p → look q t.fab.offsets = look q s.fab.offsets) ∧
      let rtt := (((e.t4 : Int) - e.t1) - ((e.t3 : Int) - e.t2)).toNat
      look p t.fab.offsets = some
        { offset := (((e.t2 : Int) - e.t1) + ((e.t3 : Int) - e.t4)) / 2, rtt := rtt, err := (rtt + 1) / 2, measured := e.t4,
          valid := true, stale := false, holdover := s.clk.holdover || hold }) ∧
    (∀ o, look p s.fab.offsets = some o → o.valid = true → ∃ t, exec (.offsetMeasurement { peer := p, exchanges := [], holdover := hold }) s = .next t ∧
      s.OnlyFab t ∧ look p t.fab.offsets = some { o with stale := true })) ∧
  (∀ (s : State) m, look m.peer s.fab.routes = none → exec (.offsetMeasurement m) s = .next s) ∧
  (∀ s : State, s.clk.present = true → ∃ t, exec .timebaseLoss s = .next t ∧ t.clk = { s.clk with present := false, holdover := true } ∧
    (∀ a, a < 16 → t.hasCond a .holdover = true) ∧ t.hg.cmds = s.hg.cmds) ∧
  (∀ s : State, s.clk.present = false → ∃ t, exec .timebaseReturn s = .next t ∧ t.clk.present = true ∧ t.clk.holdover = false ∧
    (∀ a, t.hasCond a .holdover = false) ∧ t.hg.cmds = s.hg.cmds) ∧
  (∀ s : State, s.pending = [] → ∃ t, step s = .next t ∧ t.clk.ts = s.clk.ts + 1#64 ∧ { t with clk := { t.clk with ts := s.clk.ts } } = s)

/-! ## Faults, fences and anvils -/

/-- R426 to R429: FAULT_READ writes the record, the counts, the settings or the fence map; FAULT_CLEAR empties a record that still matches what was
read, or the counts; FAULT_SEVERITY sets the class of the present sources of its range, no lower than a floor, or reports one; FAULT_FORCE
sets the force bit of its source. -/
def Obligations.FaultCommands : Prop :=
  (∀ s id c, s.Runs id 0x0901 faultReadFields c → s.Clean c.allot → ∃ t, exec (.faultRead id) s = .next t ∧
    (s.named c).ReadInto t c 8 (s.faultBytes c) (faultReadSize c)) ∧
  (∀ s id c, s.Runs id 0x0902 faultClearFields c → c.par 0 1 ≠ 1 →
    (c.par 0 1 = 0 → (s.flt.own.getD c.allot {}).matched c = true → ∃ t, exec (.faultClear (.cmd id)) s = .next t ∧ t.Ended id .ok 0 0 ∧
      t.flt = { s.flt with own := s.flt.own.set c.allot {} }) ∧
    (c.par 0 1 = 0 → (s.flt.own.getD c.allot {}).matched c = false → ∃ t, exec (.faultClear (.cmd id)) s = .next t ∧ t.Ended id .wrongState 0 0 ∧
      (s.named c).OnlyCmds t) ∧
    (c.par 0 1 = 2 → ∃ t, exec (.faultClear (.cmd id)) s = .next t ∧ t.Ended id .ok 0 0 ∧ (s.named c).OnlyFlt t ∧ t.flt = { s.flt with counts := [] })) ∧
  (∀ s id c, s.OrderRuns id 0x0902 faultClearFields c → c.par 0 1 = 1 →
    (s.flt.device.matched c = true → ∃ t, exec (.faultClear (.cmd id)) s = .next t ∧ t.Ended id .ok 0 0 ∧ t.flt = { s.flt with device := {} }) ∧
    (s.flt.device.matched c = false → ∃ t, exec (.faultClear (.cmd id)) s = .next t ∧ t.Ended id .wrongState 0 0 ∧ (s.taken id c).OnlyCmds t)) ∧
  (∀ s id c, s.OrderRuns id 0x0903 faultSeverityFields c →
    (c.par 0 1 = 1 → ∃ t, exec (.faultSeverity (.cmd id)) s = .next t ∧ t.Ended id .ok 0 (BitVec.ofNat 128 (s.srcClass (c.par 2 2))) ∧ (s.taken id c).OnlyCmds t) ∧
    (c.par 0 1 = 0 → (∀ i x, i < c.par 4 2 → s.srcPresent (c.par 2 2 + i) = true → srcInfo (c.par 2 2 + i) = some x → x.floor ≤ c.par 1 1) →
      ∃ t, exec (.faultSeverity (.cmd id)) s = .next t ∧ t.Ended id .ok 0 0 ∧ (s.taken id c).OnlyFlt t ∧
        (∀ i, i < c.par 4 2 → s.srcPresent (c.par 2 2 + i) = true → t.srcClass (c.par 2 2 + i) = c.par 1 1) ∧
        ∀ src, (src < c.par 2 2 ∨ c.par 2 2 + c.par 4 2 ≤ src ∨ s.srcPresent src = false) → t.srcClass src = s.srcClass src) ∧
    (c.par 0 1 = 0 → (∃ i x, i < c.par 4 2 ∧ s.srcPresent (c.par 2 2 + i) = true ∧ srcInfo (c.par 2 2 + i) = some x ∧ c.par 1 1 < x.floor) →
      ∃ t i, exec (.faultSeverity (.cmd id)) s = .next t ∧ i < c.par 4 2 ∧ t.Ended id .badParam (BitVec.ofNat 32 (17 + 65536 * i)) 0 ∧
        (s.taken id c).OnlyCmds t)) ∧
  (∀ s id c, s.OrderRuns id 0x0904 faultForceFields c →
    ((∀ e ∈ s.flt.force, e.1 ≠ c.par 0 2) → ∃ t, exec (.faultForce id) s = .next t ∧ t.Ended id .ok 0 0 ∧ (s.taken id c).OnlyFlt t ∧
      { t.flt with force := s.flt.force } = s.flt ∧ look (c.par 0 2) t.flt.force = some (c.par 8 8)) ∧
    ((∃ e ∈ s.flt.force, e.1 = c.par 0 2) → ∃ t, exec (.faultForce id) s = .next t ∧ t.Ended id .ok 1 0 ∧ (s.taken id c).OnlyCmds t))

/-- R409, R411 to R419: an event of class 1 without a fence or a memory address is counted and latched, the first one with its source, class and
time, and discards nothing; a fatal one halts the device and ends every command in flight; a watchdog of the update engine ends the
command it serves; 64 corrected events of a unit raise its limit source; a remap that is complete leaves the list. -/
def Obligations.FaultEvents : Prop :=
  (∀ (s : State) src i, srcInfo src = some i → s.carries i.die = true → i.fence = .never → i.kind = none → s.srcClass src = 1 → s.flt.force = [] →
    (∀ h, h < 2 → (s.he h).newlyShort = false) → warnSensor src = none → src ≠ 0xF010 → src ≠ 0xF011 →
    ∃ t, exec (.faultEvent [{ source := src }]) s = .next t ∧ t.hg.cmds = s.hg.cmds ∧ t.dev = s.dev ∧ (∀ a, (t.al a).objs = (s.al a).objs) ∧
      lookN src t.flt.counts = min 65535 (lookN src s.flt.counts + 1) ∧
      (s.flt.device.valid = true → t.flt.device = { s.flt.device with
        overflow := true, maxClass := max s.flt.device.maxClass 1, maxModule := t.flt.device.maxModule }) ∧
      (s.flt.device.valid = false → t.flt.device.valid = true ∧ t.flt.device.source = src ∧ t.flt.device.cls = 1 ∧ t.flt.device.time = s.now ∧
        t.flt.device.discards = 0 ∧ t.flt.device.forced = false)) ∧
  (∀ (s : State) src i, srcInfo src = some i → s.carries i.die = true → s.srcClass src = 3 → s.flt.force = [] → warnSensor src = none →
    (s.hg.cmds.map (·.id)).Nodup → bitsOf src 12 4 ≠ 9 → bitsOf src 12 4 ≠ 10 →
    ∃ t, exec (.faultEvent [{ source := src }]) s = .next t ∧ t.dev.bootState = 2 ∧
      ∀ c ∈ t.hg.cmds, c.master = .allot → c.phase = .done) ∧
  (∀ (s : State) id c, s.cmd? id = some c → c.master = .allot → c.phase ≠ .done → c.id = id → s.Mild 0x8002 → s.srcClass 0x8002 = 2 →
    ∃ t d, exec (.handshakeWatchdog 0x8002 (some id)) s = .next t ∧ t.cmd? id = some d ∧ d.phase = .done ∧ d.code = .discarded) ∧
  (∀ (s : State) src served, isWatchdog src = false → exec (.handshakeWatchdog src served) s = .next s) ∧
  (∀ (s : State) src lim i, limitSource src = some lim → srcInfo lim = some i → s.carries i.die = true → s.flt.force = [] →
    (64 ≤ ((look src s.flt.corrected).getD []).length →
      ∃ t, exec (.correctedEventLimit src) s = .next t ∧ lookN lim t.flt.counts = min 65535 (lookN lim s.flt.counts + 1)) ∧
    (((look src s.flt.corrected).getD []).length < 64 → exec (.correctedEventLimit src) s = .next s)) ∧
  (∀ (s : State) u, ∃ t, exec (.remapComplete u) s = .next t ∧ s.OnlyHearth t (unitHearth u) ∧
    (t.he (unitHearth u)).remapping = (s.he (unitHearth u)).remapping.filter (fun r => r.1 != u))

/-- R422 to R424: a FENCE of a fenced unit completes OK with DETAIL 1; of a quiet port, an idle engine or an idle allotment it takes the unit out of
service and completes; MODE 1 does so at once; an UNFENCE whose test fails completes WRONG_STATE with DETAIL 2 and leaves the unit fenced, else
the unit is back. -/
def Obligations.Fences : Prop :=
  (∀ s id c, s.OrderRuns id 0x0910 fenceFields c → c.master = .allot →
    let u := c.par 0 4
    let i := unitIndex u
    (s.unitFenced u = true → ∃ t, exec (.fence (.cmd id)) s = .next t ∧ t.Ended id .ok 1 0 ∧ (s.taken id c).OnlyCmds t) ∧
    (s.unitFenced u = false → c.par 4 1 = 0 → s.Mild 0xF010 → s.pair.state = .unbound →
      (unitType u = 5 → s.portQuiet i = true → ∃ t, exec (.fence (.cmd id)) s = .next t ∧ t.Ended id .ok 0 0 ∧ t.unitFenced u = true ∧
        (t.port i).up = false ∧ i ∉ t.flt.portsLeaving) ∧
      (unitType u = 1 → i < (s.he (unitHearth u)).engines.length → unitHearth u < s.hearths.length → (s.engine (unitHearth u) i).run = none →
        ∃ t, exec (.fence (.cmd id)) s = .next t ∧ t.Ended id .ok 0 0 ∧ t.unitFenced u = true) ∧
      (unitType u = 7 → s.allots.length = 16 → (∀ d ∈ s.hg.cmds, d.master = .allot → d.allot = i → d.phase ≠ .done → d.id = id) →
        ∃ t, exec (.fence (.cmd id)) s = .next t ∧ t.Ended id .ok 0 0 ∧ t.unitFenced u = true ∧ (t.al i).stopFetch = false)) ∧
    (s.unitFenced u = false → c.par 4 1 = 1 → s.Mild 0xF011 → s.pair.state = .unbound → (s.hg.cmds.map (·.id)).Nodup → (unitType u = 4 ∨ unitType u = 5) →
      ∃ t, exec (.fence (.cmd id)) s = .next t ∧ t.Ended id .ok 0 0 ∧ t.unitFenced u = true)) ∧
  (∀ s id pass c, s.OrderRuns id 0x0911 unfenceFields c → c.master = .allot →
    let u := c.par 0 4
    (s.unitFenced u = false → s.unitFailed u = false → ∃ t, exec (.unfence (.cmd id) pass) s = .next t ∧ t.Ended id .ok 1 0 ∧ (s.taken id c).OnlyCmds t) ∧
    (s.unitFenced u = true → unitType u = 5 → pass = false → ∃ t, exec (.unfence (.cmd id) pass) s = .next t ∧ t.Ended id .wrongState 2 0 ∧
      (s.taken id c).OnlyCmds t) ∧
    (s.unitFenced u = true → unitType u = 5 → pass = true → s.NoTraffic → ∃ t, exec (.unfence (.cmd id) pass) s = .next t ∧ t.Ended id .ok 0 0 ∧
      t.unitFenced u = false) ∧
    (s.unitFenced u = true → unitType u = 1 → pass = true → ∃ t, exec (.unfence (.cmd id) pass) s = .next t ∧ t.Ended id .ok 0 0 ∧ t.unitFenced u = false) ∧
    (s.unitFenced u = true → unitType u = 7 → ∃ t, exec (.unfence (.cmd id) pass) s = .next t ∧ t.Ended id .ok 0 0 ∧ t.unitFenced u = false))

/-- R69 to R73, R329: SELFTEST sets or reports the period, or asks for an anvil; the patrol takes its next target, a free spare standing in for an
active one; the test of an idle target starts; one that passes frees the anvil and completes the SELFTEST that asked; one that fails marks it;
a spare that passes its entry check is active. -/
def Obligations.Anvils : Prop :=
  (∀ s id c, s.OrderRuns id 0x0920 selftestFields c →
    (c.par 0 1 = 0 → s.hearthUp (c.par 1 1) = true → c.par 1 1 < s.hearths.length → ∃ t, exec (.selftest (.cmd id)) s = .next t ∧ t.AtWork id ∧
      (s.taken id c).OnlyHearth t (c.par 1 1) ∧ (t.he (c.par 1 1)).requests = (s.he (c.par 1 1)).requests ++ [(c.par 2 1, id)]) ∧
    (c.par 0 1 = 0 → s.hearthUp (c.par 1 1) = false → ∃ t, exec (.selftest (.cmd id)) s = .next t ∧ t.Ended id .noResource 0 0 ∧ (s.taken id c).OnlyCmds t) ∧
    (c.par 0 1 = 1 → ∃ t, exec (.selftest (.cmd id)) s = .next t ∧ t.Ended id .ok 0 (BitVec.ofNat 128 (2 ^ 32 * c.par 4 2)) ∧ (s.taken id c).OnlyMgt t ∧
      t.mgt = { s.mgt with patrolMin := c.par 4 2 }) ∧
    (c.par 0 1 = 2 → ∃ t, exec (.selftest (.cmd id)) s = .next t ∧ t.Ended id .ok 0 (BitVec.ofNat 128 (2 ^ 32 * s.mgt.patrolMin)) ∧ (s.taken id c).OnlyCmds t)) ∧
  (∀ (s : State) h sp a, h < 2 → h < s.hearths.length → s.hearthUp h = true → (s.mgt.patrolMin ≠ 0 ∨ (s.he h).requests ≠ []) → (s.he h).busyPatrol = false →
    (s.he h).nextTarget = some a → a < (s.he h).anvils.length → ((s.he h).anvil a).entry = false →
    (((s.he h).anvil a).role ≠ .active → ∃ t, exec (.patrolRotation h sp) s = .next t ∧ s.OnlyHearth t h ∧ ((t.he h).anvil a).target = true ∧
      ∀ b, b ≠ a → (t.he h).anvil b = (s.he h).anvil b) ∧
    (((s.he h).anvil a).role = .active → sp < 72 → sp ≠ a → ((s.he h).anvil sp).free = true → sp < (s.he h).anvils.length →
      ∃ t, exec (.patrolRotation h sp) s = .next t ∧ s.OnlyHearth t h ∧ ((t.he h).anvil a).target = true ∧ ((t.he h).anvil sp).role = .active ∧
        ((t.he h).anvil sp).pos = ((s.he h).anvil a).pos ∧ ∀ b, b ≠ a → b ≠ sp → (t.he h).anvil b = (s.he h).anvil b)) ∧
  (∀ (s : State) h a, h < 2 → a < 72 → ((s.he h).anvil a).target = true → ((s.he h).anvil a).testing = false →
    ((s.he h).idle a = true → ∃ t, exec (.anvilTestStart h a) s = .next t ∧ s.OnlyHearth t h ∧ ((t.he h).anvil a).testing = true ∧
      ((t.he h).anvil a).testStart = s.now ∧ ((t.he h).anvil a).role = (if ((s.he h).anvil a).role = .failed then .failed else .underTest)) ∧
    ((s.he h).idle a = false → exec (.anvilTestStart h a) s = .next s)) ∧
  (∀ (s : State) h a us, h < 2 → a < 72 → ((s.he h).anvil a).testing = true → s.mgt.patrolMin < 2 ^ 32 →
    (∃ t, exec (.anvilTestComplete h a true us) s = .next t ∧ ((t.he h).anvil a).testing = false ∧ ((t.he h).anvil a).target = false ∧
      (∀ r ∈ (t.he h).requests, r.1 ≠ a) ∧
      ∀ id, (a, id) ∈ (s.he h).requests → (s.cmd? id).isSome = true → ∃ r, t.Ended id .ok 0 r ∧ r.toNat % 256 = 0 ∧ r.toNat / 2 ^ 64 = us % 2 ^ 32) ∧
    (s.carries h = true → s.Mild (anvilTestSource h a) → ((s.he h).anvil a).role ≠ .failed →
      ∃ t, exec (.anvilTestComplete h a false us) s = .next t ∧ ((t.he h).anvil a).role = .failed ∧ ((t.he h).anvil a).fenced = true)) ∧
  (∀ (s : State) h a, h < 2 → a < 72 → ((s.he h).anvil a).entry = true →
    (∃ t, exec (.entryCheckComplete h a true) s = .next t ∧ s.OnlyHearth t h ∧
      (t.he h).anvil a = { (s.he h).anvil a with entry := false, role := .active } ∧ ∀ b, b ≠ a → (t.he h).anvil b = (s.he h).anvil b) ∧
    (s.carries h = true → s.Mild (anvilTestSource h a) → ∃ t, exec (.entryCheckComplete h a false) s = .next t ∧ ((t.he h).anvil a).role = .failed))

/-! ## Device, power and pins -/

/-- R331, R438, R443, R473: DEV_INFO and JOURNAL_READ write what they are asked for; a unit list that names the newest record clears its units,
another completes WRONG_STATE; FW_STAGE keeps an image that is authentic in the slot that does not run, else AUTH_FAILED; what it may not do now
completes WRONG_STATE, and while PWR_FAIL_N is asserted it waits. -/
def Obligations.DeviceCommands : Prop :=
  (∀ s id c, s.Runs id 0x0A10 devInfoFields c → s.Clean c.allot → ∃ t, exec (.devInfo id) s = .next t ∧
    (s.named c).ReadInto t c 8 ((s.named c).page c) (pageSize (c.par 0 1))) ∧
  (∀ s id c, s.Runs id 0x0A20 journalReadFields c → s.Clean c.allot →
    let us := (recordsOf 2 ((s.named c).readRef c.allot (c.par 0x10 8) 1 (2 * c.par 2 2))).map leNat
    let room := (s.objD c.allot (refHandle (c.par 0x10 8))).size - bitsOf (c.par 0x10 8) 32 32
    let rs := (s.mgt.journal.filter (fun r => decide (c.par 8 8 ≤ r.seq))).take (min (c.par 2 2) (room / 4096))
    (c.par 0 1 = 0 → ∃ t, exec (.journalRead id) s = .next t ∧
      (s.named c).ReadInto t c 0x10 (rs.flatMap JRec.bytes) (rs.length + s.newestSeq * 2 ^ 32)) ∧
    (c.par 0 1 = 1 → (∀ u ∈ us, isJournalUnit u = true) → c.par 0x18 8 = s.newestSeq → us.Nodup →
      ∃ t, exec (.journalRead id) s = .next t ∧ t.Ended id .ok 0 (BitVec.ofNat 128 (c.par 2 2)) ∧ (s.named c).OnlyMgt t ∧
        (∀ u ∈ us, t.unitByteOf u = clearedByte (s.unitByteOf u)) ∧ (∀ u, u ∉ us → t.unitByteOf u = s.unitByteOf u) ∧
        t.mgt.nextSeq = s.mgt.nextSeq + 1) ∧
    (c.par 0 1 = 1 → (∀ u ∈ us, isJournalUnit u = true) → c.par 0x18 8 ≠ s.newestSeq → ∃ t, exec (.journalRead id) s = .next t ∧
      t.Ended id .wrongState 0 0 ∧ (s.named c).OnlyCmds t)) ∧
  (∀ s id c, s.OrderRuns id 0x0A30 fwStageFields c → s.ready c = true →
    let u := s.taken id c
    let bs := u.readRef c.allot (c.par 8 8) 1 (c.par 0x10 4)
    (s.dev.pwrFail = true → c.par 0 1 ≠ 4 → ∃ t, exec (.fwStage id) s = .next t ∧ t.AtWork id ∧ u.OnlyCmds t) ∧
    (s.mgt.staging = true → s.dev.pwrFail = false → ∃ t, exec (.fwStage id) s = .next t ∧ t.Ended id .wrongState 0 0 ∧ u.OnlyCmds t) ∧
    (s.mgt.staging = false → s.dev.pwrFail = false →
      (c.par 0 1 = 0 → s.trialRuns = true → ∃ t, exec (.fwStage id) s = .next t ∧ t.Ended id .wrongState 0 0 ∧ u.OnlyCmds t) ∧
      (c.par 0 1 = 0 → s.trialRuns = false → s.Clean c.allot → (fwImageOf bs).authentic s.fuse = true → bs ≠ [] →
        ∃ t r, exec (.fwStage id) s = .next t ∧ t.Ended id .ok 0 r ∧ u.OnlyMgt t ∧ t.otherImage = { fwImageOf bs with valid := true } ∧ t.mgt.stagedOk = true) ∧
      (c.par 0 1 = 0 → s.trialRuns = false → s.Clean c.allot → (fwImageOf bs).authentic s.fuse = false → s.Mild 0xD000 →
        ∃ t, exec (.fwStage id) s = .next t ∧ t.Ended id .authFailed 0 0 ∧ t.otherImage = {} ∧ t.mgt.stagedOk = false ∧ t.fuse = s.fuse) ∧
      (c.par 0 1 = 1 → s.staged = false → ∃ t, exec (.fwStage id) s = .next t ∧ t.Ended id .wrongState 0 0 ∧ u.OnlyCmds t) ∧
      (c.par 0 1 = 2 → s.trialRuns = false → ∃ t, exec (.fwStage id) s = .next t ∧ t.Ended id .wrongState 0 0 ∧ u.OnlyCmds t) ∧
      (c.par 0 1 = 4 → ∃ t r, exec (.fwStage id) s = .next t ∧ t.Ended id .ok 0 r ∧ u.OnlyMgt t ∧ t.otherImage = s.otherImage ∧
        r.toNat % 2 ^ 32 = s.otherImage.version % 2 ^ 32)))

/-- R26, R29, R330, R474, R475: POWER_CAP takes the cap within the range of the part and says where it did not; V_TARGET and TJ_LIMIT take a value of
their ranges; a window writes the pace word; a tick lowers the power limit by 5 mV above the cap, and each rail takes one step toward the
lowest limit. -/
def Obligations.PowerControl : Prop :=
  (∀ s id c, s.OrderRuns id 0x0A01 powerCapFields c →
    let v := max s.capRange.1 (min s.capRange.2 (c.par 2 2))
    (c.par 0 1 = 1 → ∃ t, exec (.powerCap (.cmd id)) s = .next t ∧ t.Ended id .ok 0 (BitVec.ofNat 128 s.capResult) ∧ (s.taken id c).OnlyCmds t) ∧
    (c.par 0 1 = 0 → ∃ t, exec (.powerCap (.cmd id)) s = .next t ∧ (s.taken id c).OnlyMgt t ∧ t.mgt = { s.mgt with capW := v } ∧
      t.Ended id (if v = c.par 2 2 then .ok else .okWithNote) (if v = c.par 2 2 then 0 else 1) (BitVec.ofNat 128 t.capResult))) ∧
  (∀ (s : State) v, s.dev.standby = true → s.mgt.restarting = false → v < 65536 →
    (s.AtOnce opVTarget → ∃ t, exec (.vTarget v) s = .next t ∧ t.mgt.vTarget = (if 620 ≤ v ∧ v ≤ 850 then v else s.mgt.vTarget) ∧ t.mgt.capW = s.mgt.capW) ∧
    (s.AtOnce opTjLimit → ∃ t, exec (.tjLimit v) s = .next t ∧ t.mgt = { s.mgt with tjLimit := if 85 ≤ v ∧ v ≤ 100 then v else s.mgt.tjLimit })) ∧
  (∀ (s : State) m0 m1, s.dev.mainRails = true → ∃ t, exec (.paceWindow m0 m1) s = .next t ∧ t.hg.cmds = s.hg.cmds ∧
    t.clk.pace = BitVec.ofNat 32 (min 0xFFF m0 + (if (s.he 1).present then min 0xFFF m1 else 0) * 2 ^ 12 + ((bitsOf s.clk.pace.toNat 24 7 + 1) % 128) * 2 ^ 24 +
      (if s.clk.pace.toNat.testBit 31 ∨ 7 ≤ s.dev.bootStep then 2 ^ 31 else 0))) ∧
  (∀ (s : State) m0 m1, s.dev.mainRails = false → exec (.paceWindow m0 m1) s = .next s) ∧
  (∀ (s : State) a1 a10 t0 t1 cooled, s.dev.mainRails = true → s.mgt.restarting = false →
    ∃ t, exec (.bellowsTick a1 a10 t0 t1 cooled) s = .next t ∧ t.mgt.inputW = a10 ∧ t.hg.cmds = s.hg.cmds ∧
      (s.mgt.capW < a1 → t.mgt.vPower = max 620 (s.mgt.vPower - 5) ∧ t.mgt.sinceFall = 0) ∧
      (a1 ≤ s.mgt.capW → 100 * a10 ≤ 98 * s.mgt.capW → 9 ≤ s.mgt.sinceFall → t.mgt.vPower = min 850 (s.mgt.vPower + 5)) ∧
      (a1 ≤ s.mgt.capW → (98 * s.mgt.capW < 100 * a10 ∨ s.mgt.sinceFall < 9) → t.mgt.vPower = s.mgt.vPower) ∧
      (∀ w, w ∈ t.flt.warned ↔ w ∈ s.flt.warned ∧ w ∉ cooled) ∧
      ∀ h, h < s.hearths.length →
        (t.he h).tj = (if h = 0 then t0 else t1) ∧ (t.he h).vThermal = thermalStep (s.he h).vThermal s.mgt.tjLimit (if h = 0 then t0 else t1) ∧
        (t.he h).railMv = railStep (s.he h).railMv (max 620 (min s.mgt.vTarget (min t.mgt.vPower (t.he h).vThermal)))) ∧
  (∀ (s : State) a1 a10 t0 t1 cooled, (s.dev.mainRails = false ∨ s.mgt.restarting = true) → exec (.bellowsTick a1 a10 t0 t1 cooled) s = .next s)

/-- R431, R471 to R473, R477: a power-on and a power restart leave the module as after its reset with fuses of the seal, serial number and host memory
kept; an input event opens its entry of the log and closes it with its duration; without main rails no command is left; above 64 V and below
36 V every rail is off; PWR_FAIL_N delays what is written until it is released. -/
def Obligations.PowerEvents : Prop :=
  (∀ (s : State) tr, s.dev.inputUp = false → ∃ t, exec (.powerOn tr) s = .next t ∧ s.DeviceReset t ∧ t.host = s.host ∧ t.fuse.sealed = s.fuse.sealed ∧
    t.dev.serial = s.dev.serial) ∧
  (∀ (s : State) tr, s.dev.inputUp = true → exec (.powerOn tr) s = .next s) ∧
  (∀ (s : State) tr, s.dev.starts ≠ 0 → s.dev.mainRails = false → ∃ t, exec (.powerRestart tr) s = .next t ∧ s.DeviceReset t ∧ t.host = s.host ∧
    t.fuse.sealed = s.fuse.sealed) ∧
  (∀ (s : State) tr, s.dev.mainRails = true → exec (.powerRestart tr) s = .next s) ∧
  (∀ (s : State) v, s.dev.standby = true → 4000 ≤ v → v < 4800 → s.Mild 0xB080 → ∃ t, exec (.brownOut v) s = .next t ∧ t.mgt.brownHold = true ∧
    look 0 t.mgt.brownOpen = (match look 0 s.mgt.brownOpen with
      | some n => some n
      | none => some s.now) ∧ lookN 0xB080 t.flt.counts = min 65535 (lookN 0xB080 s.flt.counts + 1)) ∧
  (∀ (s : State) v, (s.dev.standby = false ∨ v < 4000 ∨ 4800 ≤ v) → exec (.brownOut v) s = .next s) ∧
  (∀ (s : State) k dur v t0, look k s.mgt.brownOpen = some t0 → s.dev.standby = true → (k ≠ 1 ∨ s.dev.pwrFail = false) → s.mgt.brownLog.length < 1024 →
    ∃ t, exec (.sagEnd k dur v) s = .next t ∧ look k t.mgt.brownOpen = none ∧
      t.mgt.brownLog = s.mgt.brownLog ++ [{ time := t0, durUs := min (2 ^ 32 - 1) dur, vext := v, kind := k }]) ∧
  (∀ (s : State) rail, s.dev.mainRails = true → rail < 24 → ∃ t, exec (.mainRailsOff rail) s = .next t ∧ t.dev.mainRails = false ∧ t.dev.linkUp = false ∧
    t.hg.cmds = [] ∧ t.hg.arb = [] ∧ t.host = s.host ∧ t.fuse = s.fuse) ∧
  (∀ s : State, ∃ t, exec .standbyRailOff s = .next t ∧ t.dev.standby = false ∧ t.dev.inputUp = false ∧ t.dev.mainRails = false ∧ t.hg.cmds = [] ∧
    t.host = s.host ∧ t.fuse = s.fuse) ∧
  (∀ (s : State) v, s.dev.standby = true → 6400 < v → ∃ t, exec (.inputOvervoltage v) s = .next t ∧ t.dev.standby = false ∧ t.dev.mainRails = false ∧
    t.hg.cmds = []) ∧
  (∀ (s : State) v, s.dev.standby = true → 6000 < v → v ≤ 6400 → s.srcClass 0xB081 = 3 → ∃ t, exec (.inputOvervoltage v) s = .next t ∧ t.dev.bootState = 2 ∧
    (look 2 t.mgt.brownOpen).isSome = true ∧ t.dev.standby = true) ∧
  (∀ s : State, s.mgt.brownHold = true → (∀ e ∈ s.mgt.brownOpen, e.1 = 2) → s.dev.pwrFail = false → ∃ t, exec .powerAttentionExpiry s = .next t ∧
    t.mgt.brownHold = false ∧ t.hg.cmds = s.hg.cmds) ∧
  (∀ s : State, s.dev.pwrFail = false → ∃ t, exec .pwrFailNAssert s = .next t ∧ t.dev.pwrFail = true ∧ t.hg.cmds = s.hg.cmds ∧
    (s.dev.standby = true → (look 1 t.mgt.brownOpen).isSome = true ∧ t.mgt.brownHold = true)) ∧
  (∀ (s : State) tr, s.dev.pwrFail = true → s.dev.paused = none → ∃ t, exec (.pwrFailNDeassert tr) s = .next t ∧ t.dev.pwrFail = false ∧
    t.mgt.delayed = [] ∧ t.hg.cmds = s.hg.cmds ∧
    (s.mgt.journal.length + s.mgt.delayed.length ≤ 256 → t.mgt.journal = s.mgt.journal ++ s.mgt.delayed))

/-- R19, R342, R374, R399, R490 to R492: SITE_ALARM_N quenches a bound pair, or waits while the control plane does not run; three equal samples change the
straps; the override of FEED_ID takes its place; a GPIO pin that is driven low reads 0, else what the outside puts on it; a restart of the
management controller stops it alone; the loss of REFCLK_SERDES takes every port down. -/
def Obligations.Pins : Prop :=
  (∀ s : State, (s.arbUp = true → s.pair.bound = false → exec .siteAlarmN s = .next s) ∧
    (s.arbUp = false → exec .siteAlarmN s = .next { s with pair := { s.pair with alarmWaits := s.dev.standby } }) ∧
    (s.arbUp = true → s.hg.arb = [] → s.pair.state = .mirror → s.pairPortUp = true → s.epochsDone = true → ∃ t, exec .siteAlarmN s = .next t ∧
      t.pair.state = (if s.pair.quenchHold then .quenched else .mirror) ∧ t.pair.log = [] ∧ t.hasCond 0 .quenched = true)) ∧
  (∀ (s : State) x, s.dev.standby = true → s.mgt.restarting = false → x < 16 → ∃ t, exec (.feedIdSample x) s = .next t ∧
    t.mgt.feedSamples = (x :: s.mgt.feedSamples).take 3 ∧
    t.mgt.feedStraps = (if 2 ≤ s.mgt.feedSamples.length ∧ (∀ y ∈ s.mgt.feedSamples.take 2, y = x) then x else s.mgt.feedStraps) ∧
    t.mgt.feedInEffect = feedValue s.config.feed t.mgt.feedStraps) ∧
  (∀ (s : State) on v, s.dev.standby = true → s.mgt.restarting = false → s.AtOnce opFeedId → s.mgt.slots.length = 2 → ∃ t,
    exec (.feedIdOverride on v) s = .next t ∧ t.config.feed = v % 16 + 16 * b2n on ∧ t.mgt.feedInEffect = (if on then v % 16 else s.mgt.feedStraps) ∧
    t.mgt.feedStraps = s.mgt.feedStraps) ∧
  (∀ (s : State) pin drive lv, s.dev.standby = true → s.mgt.restarting = false → pin < 4 → lv < 2 → s.mgt.gpio.length = 4 → s.mgt.gpioLevel.length = 4 →
    ∃ t, exec (.gpioEffecter pin drive lv) s = .next t ∧ s.OnlyMgt t ∧
      (∀ b, drive = some b → t.mgt.gpio[pin]? = some (some b)) ∧ (drive = none → t.mgt.gpio = s.mgt.gpio) ∧
      (∀ k, k ≠ pin → t.mgt.gpio[k]? = s.mgt.gpio[k]? ∧ t.mgt.gpioLevel[k]? = s.mgt.gpioLevel[k]?) ∧ t.mgt.gpioLevel[pin]? = some t.mgt.gpioRead ∧
      t.mgt.gpioRead = (if t.mgt.gpio[pin]? = some (some false) then 0 else lv)) ∧
  (∀ s : State, (s.dev.standby = true → exec .mgmtRestart s = .next { s with mgt := { s.mgt with restarting := true } }) ∧
    exec .managementControllerResumes s = .next { s with mgt := { s.mgt with restarting := false } }) ∧
  (∀ s : State, ∃ t, exec .refclkSerdesLoss s = .next t ∧ ∀ p, p < portCount s → (t.port p).up = false ∧ (t.port p).training = false)

/-! ## Security -/

/-- R447: the requests of an SPDM connection in their order, each with its response; a request out of order is an ERROR and changes nothing else; a
signed response carries the signature of the attestation key over its digest, and draws a fresh value. -/
def Obligations.SpdmRequests : Prop :=
  ∀ s : State, s.dev.standby = true → s.mgt.restarting = false →
    let x := s.mgt.spdm
    let answers (i : Instr) (f : Spdm → Spdm) : Prop :=
      ∃ t, exec i s = .next t ∧ t.mgt.spdm = { f x with error := false } ∧ { t with mgt := { t.mgt with spdm := x, draws := s.mgt.draws } } = s
    let errs (i : Instr) : Prop := exec i s = .next { s with mgt := { s.mgt with spdm := { x with response := [], error := true } } }
    answers .getVersion (fun y => { y with phase := .version, response := [0x13] }) ∧
    (x.phase = .version → answers .getCapabilities (fun y => { y with phase := .capabilities, response := [] })) ∧
    (x.phase ≠ .version → errs .getCapabilities) ∧
    (∀ l, x.phase = .capabilities → (∀ n, n < 4 → n ∈ l) →
      answers (.negotiateAlgorithms l) (fun y => { y with phase := .algorithms, response := [0, 1, 2, 3] })) ∧
    (∀ l, (x.phase ≠ .capabilities ∨ ∃ n, n < 4 ∧ n ∉ l) → errs (.negotiateAlgorithms l)) ∧
    ((x.phase = .algorithms ∨ x.phase = .exchanging ∨ x.phase = .session) →
      answers .getDigests (fun y => { y with response := [sha384N s.chain] }) ∧
      (∀ o n, o < s.chain.length → answers (.getCertificate 0 o n) (fun y => { y with response := ((s.chain.drop o).take n).map (·.toNat) })) ∧
      (∀ k o n, k ≠ 0 → errs (.getCertificate k o n)) ∧
      (∀ n, answers (.challenge n) (fun y => { y with response := s.signedParts [sha384N s.chain, n, s.nonceNow] }) ∧
        ∃ t, exec (.challenge n) s = .next t ∧ t.mgt.draws = s.mgt.draws + 1) ∧
      (∀ i n, 1 ≤ i → i ≤ 6 → answers (.getMeasurements i n) (fun y => { y with response := s.signedParts [s.measure5 i, n, s.nonceNow] })) ∧
      (∀ i n, 6 < i → i ≠ 0xFF → errs (.getMeasurements i n))) ∧
    (∀ k, x.phase = .algorithms → answers (.keyExchange k) (fun y =>
      { y with phase := .exchanging, sessions := y.sessions + 1, response := s.signedParts [k, Config.spdmShare y.sessions] })) ∧
    (x.phase = .exchanging → answers (.finish true) (fun y => { y with phase := .session, response := [] })) ∧
    (x.phase = .exchanging → s.Mild 0xD003 → ∃ t, exec (.finish false) s = .next t ∧ t.mgt.spdm.phase = .algorithms ∧ t.mgt.spdm.error = true ∧
      lookN 0xD003 t.flt.counts = min 65535 (lookN 0xD003 s.flt.counts + 1)) ∧
    (x.phase = .session → answers .heartbeat (fun y => { y with response := [] }) ∧
      answers .keyUpdate (fun y => { y with keyUpdates := y.keyUpdates + 1, response := [] }) ∧
      answers .endSession (fun y => { y with phase := .algorithms, response := [] })) ∧
    (x.phase ≠ .session → errs .heartbeat ∧ errs .keyUpdate ∧ errs .endSession)

/-- R445: the requests of a PLDM firmware update in their order, the data of each transfer behind that before it; the image is authenticated at
VerifyComplete and activated by a request that is not self-contained; a request out of order is refused. -/
def Obligations.PldmUpdate : Prop :=
  ∀ s : State, s.dev.standby = true → s.mgt.restarting = false →
    let p := s.mgt.pldm
    let goes (i : Instr) (f : Pldm → Pldm) : Prop := exec i s = .next { s with mgt := { s.mgt with pldm := { f p with refused := false } } }
    let refuses (i : Instr) : Prop := exec i s = .next { s with mgt := { s.mgt with pldm := { p with refused := true } } }
    (p.phase = .idle → s.mgt.staging = false → s.trialRuns = false →
      exec (.requestUpdate 1) s = .next { s with mgt := { s.mgt with pldm := { phase := .learn }, staging := true } }) ∧
    (∀ n, (p.phase ≠ .idle ∨ s.mgt.staging = true ∨ s.trialRuns = true ∨ n ≠ 1) → refuses (.requestUpdate n)) ∧
    (p.phase = .learn → goes (.passComponentTable 1) (fun q => { q with phase := .ready })) ∧
    (∀ n, (p.phase ≠ .learn ∨ n ≠ 1) → refuses (.passComponentTable n)) ∧
    (∀ n, p.phase = .ready → 4097 ≤ n → n ≤ 29360128 → goes (.updateComponent n) (fun q => { q with phase := .download, length := n, received := [] })) ∧
    (∀ n, (p.phase ≠ .ready ∨ n < 4097 ∨ 29360128 < n) → refuses (.updateComponent n)) ∧
    (∀ d, p.phase = .download → p.received.length + d.length ≤ p.length →
      goes (.requestFirmwareData p.received.length d) (fun q => { q with received := q.received ++ d })) ∧
    (∀ o d, (p.phase ≠ .download ∨ o ≠ p.received.length) → refuses (.requestFirmwareData o d)) ∧
    (p.phase = .download → p.received.length = p.length → goes .transferComplete (fun q => { q with phase := .verify })) ∧
    ((p.phase ≠ .download ∨ p.received.length ≠ p.length) → refuses .transferComplete) ∧
    (p.phase = .verify → s.dev.pwrFail = false → s.AtOnce opPldmStage → (fwImageOf p.received).authentic s.fuse = true → p.received ≠ [] →
      ∃ t, exec .verifyComplete s = .next t ∧ t.mgt.pldm.phase = .apply ∧ t.mgt.stagedOk = true ∧
        t.otherImage = { fwImageOf p.received with valid := true } ∧ t.fuse = s.fuse) ∧
    (p.phase ≠ .verify → refuses .verifyComplete) ∧
    (p.phase = .apply → goes .applyComplete (fun q => { q with phase := .activate })) ∧
    (p.phase ≠ .apply → refuses .applyComplete) ∧
    (p.phase = .activate → s.AtOnce opPldmActivate → s.staged = true → ∃ t, exec (.activateFirmware false) s = .next t ∧ t.mgt.pldm.phase = .idle ∧
      t.mgt.staging = false ∧ t.fuse = s.fuse ∧ t.otherImage = s.otherImage) ∧
    (∀ b, (p.phase ≠ .activate ∨ b = true) → refuses (.activateFirmware b))

/-- R448, R449: a debug token that does not hold uses up its challenge and changes nothing else, and one that holds unlocks and zeroises the keys; the
seal is set within a session with the serial number, and not otherwise; the instructions of the test port drive pins only while PERST_N is
asserted; internal debug on a sealed module is BYPASS with its source. -/
def Obligations.DebugAccess : Prop :=
  (∀ (s : State) tok, s.dev.standby = true →
    (s.tokenOk tok = false → exec (.debugUnlock tok) s = .next { s with mgt := { s.mgt with debugChallenge := s.mgt.debugChallenge + 1 } }) ∧
    (s.tokenOk tok = true → s.pair.bound = false → ∃ t, exec (.debugUnlock tok) s = .next t ∧ t.mgt.debugUnlocked = true ∧ t.mgt.spdm.phase = .none ∧
      (∀ p, (t.port p).keyed = false ∧ (t.port p).keyTx = 0 ∧ (t.port p).keyRx = 0) ∧ t.fuse = s.fuse ∧ t.allots = s.allots) ∧
    (s.fuse.sealed = true → s.tokenOk tok = false)) ∧
  (∀ s : State, s.dev.standby = true → s.mgt.restarting = false →
    (s.mgt.spdm.phase = .session → ∃ t, exec (.sealFuse true s.dev.serial) s = .next t ∧ t.fuse = { s.fuse with sealed := true } ∧
      { t with fuse := s.fuse, clk := s.clk } = s) ∧
    (∀ inS n, (inS = false ∨ s.mgt.spdm.phase ≠ .session ∨ n ≠ s.dev.serial) → exec (.sealFuse inS n) s = .next s)) ∧
  (∀ s : State,
    let port (i : Instr) (ir : JtagIr) (dr : Nat) (driven floated : Bool) : Prop :=
      ∃ t, exec i s = .next t ∧ t.mgt.jtag.ir = ir ∧ t.mgt.jtag.dr = dr ∧ t.mgt.jtag.driven = driven ∧ t.mgt.jtag.floated = floated ∧
        { t with mgt := { t.mgt with jtag := s.mgt.jtag } } = s
    port .bypass .bypass 0 false false ∧ port .idcode .idcode (Config.idcode % 2 ^ 32) false false ∧
    (∀ v, port (.samplePreload v) .samplePreload v false false ∧ ∃ t, exec (.samplePreload v) s = .next t ∧ t.mgt.jtag.boundary = v) ∧
    (s.dev.perst = true → port .extest .extest s.mgt.jtag.boundary true false ∧ port .clamp .clamp 0 true false ∧ port .highz .highz 0 false true) ∧
    (s.dev.perst = false → exec .extest s = .next s ∧ exec .clamp s = .next s ∧ exec .highz s = .next s) ∧
    (s.fuse.sealed = true → s.Mild 0xD004 → ∃ t, exec .internalDebugAccess s = .next t ∧ t.mgt.jtag.ir = .bypass ∧
      lookN 0xD004 t.flt.counts = min 65535 (lookN 0xD004 s.flt.counts + 1) ∧ t.allots = s.allots) ∧
    (s.fuse.sealed = false → s.mgt.debugUnlocked = false → exec .internalDebugAccess s = .next s) ∧
    (s.fuse.sealed = false → s.mgt.debugUnlocked = true → exec .internalDebugAccess s = .refused .internalDebug))

/-! ## The module as a whole -/

/-- R2, R23, R241, R303 to R305, R311, R391, R433, R439, R441, R474: what reset leaves: the values that the spec states. Every field without a stated value
holds the model's (log 3). -/
def Obligations.ResetValues : Prop :=
  State.reset.Sized ∧ State.reset.pending = [] ∧ State.reset.hg.cmds = [] ∧ State.reset.hg.arb = [] ∧
  State.reset.pair.state = .unbound ∧ State.reset.pair.fleetRate = 0x3C23D70A#32 ∧ State.reset.fuse.sealed = false ∧
  (∀ a, a < 16 → (State.reset.al a).queues = [] ∧ (State.reset.al a).objs = [] ∧ (State.reset.al a).adminUp = false ∧ (State.reset.al a).accNext = 1 ∧
    (State.reset.al a).dbErr = {} ∧ (State.reset.al a).upd = {}) ∧
  (∀ h, h < 2 → (State.reset.he h).lists = [] ∧ (State.reset.he h).runs = [] ∧ (State.reset.he h).engines.length = 32 ∧
    (State.reset.he h).anvils.length = 72) ∧
  State.reset.flt.device.valid = false ∧ State.reset.flt.counts = [] ∧ State.reset.fab.groups = [] ∧ State.reset.fab.streams = []

/-- Every row leaves the queue of the commands that wait as it is: a step takes the command at its front and no other. -/
def Obligations.RowsKeepQueue : Prop :=
  ∀ (c : Instr) (s t : State), exec c s = .next t → t.pending = s.pending

/-- R449, R442, R446: in every step the seal fuse stays blown once it is blown, the fused security version never falls, a revoked key stays revoked, and the
variant and the serial number stay. -/
def Obligations.FusesStay : Prop :=
  ∀ s t : State, step s = .next t → (s.fuse.sealed = true → t.fuse.sealed = true) ∧ s.fuse.svn ≤ t.fuse.svn ∧
    (∀ k, s.fuse.revoked.testBit k = true → t.fuse.revoked.testBit k = true) ∧ t.dev.variant = s.dev.variant ∧ t.dev.serial = s.dev.serial
end

