-- ==== Sys2Proof/Laws/Memory.lean ====
section
/-! SUPPORT. Sparse byte stores: writes keep the canonical form, a read gives what was written, and other bytes stay. Numbers as bytes. -/

namespace Sys2Proof.Machine

/-- Addresses strictly rise, and no entry is 0. -/
def CellsRise (m : Bytes) : Prop := m.Pairwise (fun e f => e.1 < f.1) ∧ ∀ e ∈ m, e.2 ≠ 0#8

theorem cellsWf_iff (m : Bytes) : cellsWf m = true ↔ CellsRise m := by
  induction m with
  | nil => simp [cellsWf, CellsRise]
  | cons e m ih =>
    obtain ⟨k, b⟩ := e
    cases m with
    | nil => simp [cellsWf, CellsRise]
    | cons f m =>
      obtain ⟨j, c⟩ := f
      simp only [cellsWf, Bool.and_eq_true, bne_iff_ne, ne_eq, decide_eq_true_eq, ih, CellsRise, List.pairwise_cons, List.mem_cons, forall_eq_or_imp]
      constructor
      · rintro ⟨⟨hb, hk⟩, ⟨hj, hp⟩, hc, hz⟩
        exact ⟨⟨⟨hk, fun x hx => Nat.lt_trans hk (hj x hx)⟩, hj, hp⟩, hb, hc, hz⟩
      · rintro ⟨⟨⟨hk, _⟩, hj, hp⟩, hb, hc, hz⟩
        exact ⟨⟨hb, hk⟩, ⟨hj, hp⟩, hc, hz⟩

theorem cellsOf_bounds (bs : List Byte) : ∀ a, ∀ e ∈ cellsOf a bs, a ≤ e.1 ∧ e.1 < a + bs.length := by
  induction bs with
  | nil => intro a e he; simp [cellsOf] at he
  | cons b bs ih =>
    intro a e he
    unfold cellsOf at he
    simp only [List.length_cons]
    split at he
    · have := ih (a + 1) e he; omega
    · rcases List.mem_cons.mp he with h | h
      · subst h; simp
      · have := ih (a + 1) e h; omega

theorem cellsOf_rise (bs : List Byte) : ∀ a, CellsRise (cellsOf a bs) := by
  induction bs with
  | nil => intro a; simp [cellsOf, CellsRise]
  | cons b bs ih =>
    intro a
    unfold cellsOf
    split
    · exact ih (a + 1)
    · rename_i hb
      refine ⟨List.pairwise_cons.mpr ⟨fun e he => ?_, (ih (a + 1)).1⟩, fun e he => ?_⟩
      · have := cellsOf_bounds bs (a + 1) e he; show a < e.1; omega
      · rcases List.mem_cons.mp he with h | h
        · subst h; exact hb
        · exact (ih (a + 1)).2 e h

theorem takeWhile_below {m : Bytes} (a : Nat) : ∀ e ∈ m.takeWhile (fun e => e.1 < a), e.1 < a := by
  induction m with
  | nil => intro e he; simp at he
  | cons f m ih =>
    intro e he
    rw [List.takeWhile_cons] at he
    split at he
    · rename_i hf
      rcases List.mem_cons.mp he with h | h
      · subst h; simpa using hf
      · exact ih e h
    · cases he

theorem dropWhile_above {m : Bytes} (h : m.Pairwise (fun e f => e.1 < f.1)) (a : Nat) : ∀ e ∈ m.dropWhile (fun e => e.1 < a), a ≤ e.1 := by
  induction m with
  | nil => intro e he; simp at he
  | cons f m ih =>
    intro e he
    rw [List.dropWhile_cons] at he
    split at he
    · exact ih (List.pairwise_cons.mp h).2 e he
    · rename_i hf
      have hf' : a ≤ f.1 := by simpa using hf
      rcases List.mem_cons.mp he with h' | h'
      · subst h'; exact hf'
      · exact Nat.le_trans hf' (Nat.le_of_lt ((List.pairwise_cons.mp h).1 e h'))

/-- What stands below a place, new entries there, and what stands above it, rise. -/
theorem splice_rise {m l : Bytes} {a b : Nat} (h : CellsRise m) (hl : CellsRise l) (hab : a ≤ b) (hi : ∀ e ∈ l, a ≤ e.1 ∧ e.1 < b) :
    CellsRise (m.takeWhile (fun e => e.1 < a) ++ l ++ m.dropWhile (fun e => e.1 < b)) := by
  refine ⟨List.pairwise_append.mpr ⟨List.pairwise_append.mpr ⟨h.1.sublist (List.takeWhile_sublist _), hl.1, fun e he f hf => ?_⟩,
    h.1.sublist (List.dropWhile_sublist _), fun e he f hf => ?_⟩, fun e he => ?_⟩
  · exact Nat.lt_of_lt_of_le (takeWhile_below a e he) (hi f hf).1
  · have hf' := dropWhile_above h.1 b f hf
    rcases List.mem_append.mp he with h' | h'
    · have := takeWhile_below a e h'; omega
    · have := (hi e h').2; omega
  · rcases List.mem_append.mp he with h' | h'
    · rcases List.mem_append.mp h' with h'' | h''
      · exact h.2 e ((List.takeWhile_sublist _).subset h'')
      · exact hl.2 e h''
    · exact h.2 e ((List.dropWhile_sublist _).subset h')

/-- A write keeps the canonical form. -/
theorem cellWrite_wf {m : Bytes} (h : cellsWf m = true) (a : Nat) (bs : List Byte) : cellsWf (cellWrite m a bs) = true :=
  (cellsWf_iff _).mpr (splice_rise ((cellsWf_iff m).mp h) (cellsOf_rise bs a) (Nat.le_add_right _ _) (cellsOf_bounds bs a))

/-- Writing zeros keeps the canonical form. -/
theorem cellZero_wf {m : Bytes} (h : cellsWf m = true) (a len : Nat) : cellsWf (cellZero m a len) = true := by
  have := splice_rise (l := []) (b := a + len) ((cellsWf_iff m).mp h) ⟨List.Pairwise.nil, fun e he => by simp at he⟩ (Nat.le_add_right a len) (fun e he => by simp at he)
  rw [List.append_nil] at this
  exact (cellsWf_iff _).mpr this

theorem cellsFrom_cellsOf (bs : List Byte) : ∀ (a : Nat) (m : Bytes), (∀ e ∈ m, a + bs.length ≤ e.1) → cellsFrom (cellsOf a bs ++ m) a bs.length = bs := by
  induction bs with
  | nil => intro a m _; rw [List.length_nil, cellsFrom]
  | cons b bs ih =>
    intro a m hm
    have hm' : ∀ e ∈ m, a + 1 + bs.length ≤ e.1 := fun e he => by have := hm e he; simp only [List.length_cons] at this; omega
    unfold cellsOf
    split
    · rename_i hb
      subst hb
      have key := ih (a + 1) m hm'
      cases hl : cellsOf (a + 1) bs ++ m with
      | nil =>
        rw [hl] at key
        simp only [List.length_cons]
        unfold cellsFrom
        cases bs with
        | nil => simp [zeros]
        | cons c cs =>
          unfold cellsFrom at key
          simp only [zeros, List.length_cons] at key ⊢
          rw [List.replicate_succ, key]
      | cons f l =>
        obtain ⟨k, v⟩ := f
        have hk : k ≠ a := by
          have : (k, v) ∈ cellsOf (a + 1) bs ++ m := by rw [hl]; exact List.mem_cons_self
          rcases List.mem_append.mp this with h | h
          · have := cellsOf_bounds bs (a + 1) _ h; omega
          · have := hm' _ h; simp only at this; omega
        simp only [List.length_cons]
        rw [cellsFrom, if_neg hk, ← hl, key]
    · simp only [List.cons_append, List.length_cons]
      rw [cellsFrom, if_pos rfl, ih (a + 1) m hm']

/-- A read gives the bytes that were written there. -/
theorem cellRead_cellWrite {m : Bytes} (h : cellsWf m = true) (a : Nat) (bs : List Byte) : cellRead (cellWrite m a bs) a bs.length = bs := by
  have hr := (cellsWf_iff m).mp h
  have hd : (cellWrite m a bs).dropWhile (fun e => e.1 < a) = cellsOf a bs ++ m.dropWhile (fun e => e.1 < a + bs.length) := by
    unfold cellWrite
    rw [List.append_assoc, List.dropWhile_append_of_pos (fun e he => by simpa using takeWhile_below a e he)]
    cases hl : cellsOf a bs ++ m.dropWhile (fun e => e.1 < a + bs.length) with
    | nil => rfl
    | cons f l =>
      have : f ∈ cellsOf a bs ++ m.dropWhile (fun e => e.1 < a + bs.length) := by rw [hl]; exact List.mem_cons_self
      have hf : a ≤ f.1 := by
        rcases List.mem_append.mp this with h' | h'
        · exact (cellsOf_bounds bs a f h').1
        · have := dropWhile_above hr.1 (a + bs.length) f h'; omega
      rw [List.dropWhile_cons, if_neg (by simpa using hf)]
  unfold cellRead
  rw [hd]
  exact cellsFrom_cellsOf bs a _ (dropWhile_above hr.1 _)

theorem look_append {α : Type} (k : Nat) (l m : List (Nat × α)) (h : ∀ e ∈ l, e.1 ≠ k) : look k (l ++ m) = look k m := by
  induction l with
  | nil => rfl
  | cons e l ih =>
    obtain ⟨j, v⟩ := e
    have hj : j ≠ k := h _ List.mem_cons_self
    rw [List.cons_append, look, if_neg hj]
    exact ih (fun e he => h e (List.mem_cons_of_mem _ he))

theorem look_takeWhile {m : Bytes} (a b : Nat) (_ : a < b) (l : Bytes) (hl : look a (m.dropWhile (fun e => e.1 < b)) = look a l) :
    look a (m.takeWhile (fun e => e.1 < b) ++ l) = look a m := by
  have : look a (m.takeWhile (fun e => e.1 < b) ++ l) = look a (m.takeWhile (fun e => e.1 < b) ++ m.dropWhile (fun e => e.1 < b)) := by
    induction m.takeWhile (fun e => e.1 < b) with
    | nil => exact hl.symm
    | cons e t ih => obtain ⟨j, v⟩ := e; rw [List.cons_append, List.cons_append, look, look, ih]
  rw [this, List.takeWhile_append_dropWhile]

theorem look_absent {α : Type} (k : Nat) (m : List (Nat × α)) (h : ∀ e ∈ m, e.1 ≠ k) : look k m = none := by
  have := look_append k m [] h
  rwa [List.append_nil] at this

/-- A write leaves every other byte alone. -/
theorem cellGet_cellWrite_ne {m : Bytes} (h : cellsWf m = true) (a : Nat) (bs : List Byte) {b : Nat} (hb : b < a ∨ a + bs.length ≤ b) :
    cellGet (cellWrite m a bs) b = cellGet m b := by
  have hr := (cellsWf_iff m).mp h
  unfold cellGet
  congr 1
  unfold cellWrite
  rw [List.append_assoc]
  rcases hb with hb | hb
  · refine look_takeWhile b a hb _ ?_
    rw [look_absent b _ (fun e he => ?_), look_absent b _ (fun e he => ?_)]
    · rcases List.mem_append.mp he with h' | h'
      · have := cellsOf_bounds bs a e h'; omega
      · have := dropWhile_above hr.1 _ e h'; omega
    · have := dropWhile_above hr.1 _ e he; omega
  · rw [look_append _ _ _ (fun e he => by have := takeWhile_below a e he; omega),
      look_append _ _ _ (fun e he => by have := cellsOf_bounds bs a e he; omega)]
    conv => rhs; rw [← List.takeWhile_append_dropWhile (p := fun e => decide (e.1 < a + bs.length)) (l := m)]
    rw [look_append _ _ _ (fun e he => by have := takeWhile_below _ e he; omega)]

/-! ## Numbers as bytes -/

theorem leBytes_length (v : Nat) : ∀ n, (leBytes v n).length = n := fun n => by
  induction n generalizing v with
  | zero => rfl
  | succ n ih => simp [leBytes, ih]

theorem beBytes_length (v n : Nat) : (beBytes v n).length = n := by simp [beBytes, leBytes_length]

theorem leNat_leBytes (v : Nat) : ∀ n, leNat (leBytes v n) = v % 256 ^ n := fun n => by
  induction n generalizing v with
  | zero => simp [leBytes, leNat, Nat.mod_one]
  | succ n ih =>
    simp only [leBytes, leNat, BitVec.toNat_ofNat, ih]
    rw [show (2 : Nat) ^ 8 = 256 from rfl, Nat.pow_succ', Nat.mod_mul]

theorem beNat_reverse (l : List Byte) : beNat l.reverse = leNat l := by
  unfold beNat
  induction l with
  | nil => rfl
  | cons b l ih => rw [List.reverse_cons, List.foldl_append, ih]; simp only [List.foldl_cons, List.foldl_nil, leNat]; omega

theorem beNat_beBytes (v n : Nat) : beNat (beBytes v n) = v % 256 ^ n := by rw [beBytes, beNat_reverse, leNat_leBytes]

theorem leNat_lt (l : List Byte) : leNat l < 256 ^ l.length := by
  induction l with
  | nil => decide
  | cons b l ih =>
    have := b.isLt
    rw [List.length_cons, Nat.pow_succ]
    simp only [leNat]
    omega

theorem beNat_lt (l : List Byte) : beNat l < 256 ^ l.length := by
  have := leNat_lt l.reverse
  rwa [← beNat_reverse, List.reverse_reverse, List.length_reverse] at this

theorem zeros_length (n : Nat) : (zeros n).length = n := List.length_replicate

end Sys2Proof.Machine
end

