-- ==== Sys2Proof/Laws/State.lean ====
section
/-! SUPPORT. One lemma for each group of the state and each named update, and what the operations on commands, allotments,
hearths and engines do. -/

namespace Sys2Proof.Machine

/-! ## Every group of the state that a named update leaves -/

@[simp] theorem State.setAl_dev (s : State) (a : Nat) (x : Allot) : (s.setAl a x).dev = s.dev := rfl
@[simp] theorem State.setAl_clk (s : State) (a : Nat) (x : Allot) : (s.setAl a x).clk = s.clk := rfl
@[simp] theorem State.setAl_hg (s : State) (a : Nat) (x : Allot) : (s.setAl a x).hg = s.hg := rfl
@[simp] theorem State.setAl_attn (s : State) (a : Nat) (x : Allot) : (s.setAl a x).attn = s.attn := rfl
@[simp] theorem State.setAl_conds (s : State) (a : Nat) (x : Allot) : (s.setAl a x).conds = s.conds := rfl
@[simp] theorem State.setAl_host (s : State) (a : Nat) (x : Allot) : (s.setAl a x).host = s.host := rfl
@[simp] theorem State.setAl_hearths (s : State) (a : Nat) (x : Allot) : (s.setAl a x).hearths = s.hearths := rfl
@[simp] theorem State.setAl_fab (s : State) (a : Nat) (x : Allot) : (s.setAl a x).fab = s.fab := rfl
@[simp] theorem State.setAl_pair (s : State) (a : Nat) (x : Allot) : (s.setAl a x).pair = s.pair := rfl
@[simp] theorem State.setAl_flt (s : State) (a : Nat) (x : Allot) : (s.setAl a x).flt = s.flt := rfl
@[simp] theorem State.setAl_glob (s : State) (a : Nat) (x : Allot) : (s.setAl a x).glob = s.glob := rfl
@[simp] theorem State.setAl_mgt (s : State) (a : Nat) (x : Allot) : (s.setAl a x).mgt = s.mgt := rfl
@[simp] theorem State.setAl_fuse (s : State) (a : Nat) (x : Allot) : (s.setAl a x).fuse = s.fuse := rfl
@[simp] theorem State.setAl_pending (s : State) (a : Nat) (x : Allot) : (s.setAl a x).pending = s.pending := rfl

@[simp] theorem State.modAl_dev (s : State) (a : Nat) (f : Allot → Allot) : (s.modAl a f).dev = s.dev := rfl
@[simp] theorem State.modAl_clk (s : State) (a : Nat) (f : Allot → Allot) : (s.modAl a f).clk = s.clk := rfl
@[simp] theorem State.modAl_hg (s : State) (a : Nat) (f : Allot → Allot) : (s.modAl a f).hg = s.hg := rfl
@[simp] theorem State.modAl_attn (s : State) (a : Nat) (f : Allot → Allot) : (s.modAl a f).attn = s.attn := rfl
@[simp] theorem State.modAl_conds (s : State) (a : Nat) (f : Allot → Allot) : (s.modAl a f).conds = s.conds := rfl
@[simp] theorem State.modAl_host (s : State) (a : Nat) (f : Allot → Allot) : (s.modAl a f).host = s.host := rfl
@[simp] theorem State.modAl_hearths (s : State) (a : Nat) (f : Allot → Allot) : (s.modAl a f).hearths = s.hearths := rfl
@[simp] theorem State.modAl_fab (s : State) (a : Nat) (f : Allot → Allot) : (s.modAl a f).fab = s.fab := rfl
@[simp] theorem State.modAl_pair (s : State) (a : Nat) (f : Allot → Allot) : (s.modAl a f).pair = s.pair := rfl
@[simp] theorem State.modAl_flt (s : State) (a : Nat) (f : Allot → Allot) : (s.modAl a f).flt = s.flt := rfl
@[simp] theorem State.modAl_glob (s : State) (a : Nat) (f : Allot → Allot) : (s.modAl a f).glob = s.glob := rfl
@[simp] theorem State.modAl_mgt (s : State) (a : Nat) (f : Allot → Allot) : (s.modAl a f).mgt = s.mgt := rfl
@[simp] theorem State.modAl_fuse (s : State) (a : Nat) (f : Allot → Allot) : (s.modAl a f).fuse = s.fuse := rfl
@[simp] theorem State.modAl_pending (s : State) (a : Nat) (f : Allot → Allot) : (s.modAl a f).pending = s.pending := rfl

@[simp] theorem State.setHe_dev (s : State) (h : Nat) (x : Hearth) : (s.setHe h x).dev = s.dev := rfl
@[simp] theorem State.setHe_clk (s : State) (h : Nat) (x : Hearth) : (s.setHe h x).clk = s.clk := rfl
@[simp] theorem State.setHe_hg (s : State) (h : Nat) (x : Hearth) : (s.setHe h x).hg = s.hg := rfl
@[simp] theorem State.setHe_allots (s : State) (h : Nat) (x : Hearth) : (s.setHe h x).allots = s.allots := rfl
@[simp] theorem State.setHe_attn (s : State) (h : Nat) (x : Hearth) : (s.setHe h x).attn = s.attn := rfl
@[simp] theorem State.setHe_conds (s : State) (h : Nat) (x : Hearth) : (s.setHe h x).conds = s.conds := rfl
@[simp] theorem State.setHe_host (s : State) (h : Nat) (x : Hearth) : (s.setHe h x).host = s.host := rfl
@[simp] theorem State.setHe_fab (s : State) (h : Nat) (x : Hearth) : (s.setHe h x).fab = s.fab := rfl
@[simp] theorem State.setHe_pair (s : State) (h : Nat) (x : Hearth) : (s.setHe h x).pair = s.pair := rfl
@[simp] theorem State.setHe_flt (s : State) (h : Nat) (x : Hearth) : (s.setHe h x).flt = s.flt := rfl
@[simp] theorem State.setHe_glob (s : State) (h : Nat) (x : Hearth) : (s.setHe h x).glob = s.glob := rfl
@[simp] theorem State.setHe_mgt (s : State) (h : Nat) (x : Hearth) : (s.setHe h x).mgt = s.mgt := rfl
@[simp] theorem State.setHe_fuse (s : State) (h : Nat) (x : Hearth) : (s.setHe h x).fuse = s.fuse := rfl
@[simp] theorem State.setHe_pending (s : State) (h : Nat) (x : Hearth) : (s.setHe h x).pending = s.pending := rfl

@[simp] theorem State.modHe_dev (s : State) (h : Nat) (f : Hearth → Hearth) : (s.modHe h f).dev = s.dev := rfl
@[simp] theorem State.modHe_clk (s : State) (h : Nat) (f : Hearth → Hearth) : (s.modHe h f).clk = s.clk := rfl
@[simp] theorem State.modHe_hg (s : State) (h : Nat) (f : Hearth → Hearth) : (s.modHe h f).hg = s.hg := rfl
@[simp] theorem State.modHe_allots (s : State) (h : Nat) (f : Hearth → Hearth) : (s.modHe h f).allots = s.allots := rfl
@[simp] theorem State.modHe_attn (s : State) (h : Nat) (f : Hearth → Hearth) : (s.modHe h f).attn = s.attn := rfl
@[simp] theorem State.modHe_conds (s : State) (h : Nat) (f : Hearth → Hearth) : (s.modHe h f).conds = s.conds := rfl
@[simp] theorem State.modHe_host (s : State) (h : Nat) (f : Hearth → Hearth) : (s.modHe h f).host = s.host := rfl
@[simp] theorem State.modHe_fab (s : State) (h : Nat) (f : Hearth → Hearth) : (s.modHe h f).fab = s.fab := rfl
@[simp] theorem State.modHe_pair (s : State) (h : Nat) (f : Hearth → Hearth) : (s.modHe h f).pair = s.pair := rfl
@[simp] theorem State.modHe_flt (s : State) (h : Nat) (f : Hearth → Hearth) : (s.modHe h f).flt = s.flt := rfl
@[simp] theorem State.modHe_glob (s : State) (h : Nat) (f : Hearth → Hearth) : (s.modHe h f).glob = s.glob := rfl
@[simp] theorem State.modHe_mgt (s : State) (h : Nat) (f : Hearth → Hearth) : (s.modHe h f).mgt = s.mgt := rfl
@[simp] theorem State.modHe_fuse (s : State) (h : Nat) (f : Hearth → Hearth) : (s.modHe h f).fuse = s.fuse := rfl
@[simp] theorem State.modHe_pending (s : State) (h : Nat) (f : Hearth → Hearth) : (s.modHe h f).pending = s.pending := rfl

@[simp] theorem State.modCmd_dev (s : State) (id : Nat) (f : Cmd → Cmd) : (s.modCmd id f).dev = s.dev := rfl
@[simp] theorem State.modCmd_clk (s : State) (id : Nat) (f : Cmd → Cmd) : (s.modCmd id f).clk = s.clk := rfl
@[simp] theorem State.modCmd_allots (s : State) (id : Nat) (f : Cmd → Cmd) : (s.modCmd id f).allots = s.allots := rfl
@[simp] theorem State.modCmd_attn (s : State) (id : Nat) (f : Cmd → Cmd) : (s.modCmd id f).attn = s.attn := rfl
@[simp] theorem State.modCmd_conds (s : State) (id : Nat) (f : Cmd → Cmd) : (s.modCmd id f).conds = s.conds := rfl
@[simp] theorem State.modCmd_host (s : State) (id : Nat) (f : Cmd → Cmd) : (s.modCmd id f).host = s.host := rfl
@[simp] theorem State.modCmd_hearths (s : State) (id : Nat) (f : Cmd → Cmd) : (s.modCmd id f).hearths = s.hearths := rfl
@[simp] theorem State.modCmd_fab (s : State) (id : Nat) (f : Cmd → Cmd) : (s.modCmd id f).fab = s.fab := rfl
@[simp] theorem State.modCmd_pair (s : State) (id : Nat) (f : Cmd → Cmd) : (s.modCmd id f).pair = s.pair := rfl
@[simp] theorem State.modCmd_flt (s : State) (id : Nat) (f : Cmd → Cmd) : (s.modCmd id f).flt = s.flt := rfl
@[simp] theorem State.modCmd_glob (s : State) (id : Nat) (f : Cmd → Cmd) : (s.modCmd id f).glob = s.glob := rfl
@[simp] theorem State.modCmd_mgt (s : State) (id : Nat) (f : Cmd → Cmd) : (s.modCmd id f).mgt = s.mgt := rfl
@[simp] theorem State.modCmd_fuse (s : State) (id : Nat) (f : Cmd → Cmd) : (s.modCmd id f).fuse = s.fuse := rfl
@[simp] theorem State.modCmd_pending (s : State) (id : Nat) (f : Cmd → Cmd) : (s.modCmd id f).pending = s.pending := rfl

@[simp] theorem State.takeOrder_dev (s : State) (id : Nat) : (s.takeOrder id).dev = s.dev := rfl
@[simp] theorem State.takeOrder_clk (s : State) (id : Nat) : (s.takeOrder id).clk = s.clk := rfl
@[simp] theorem State.takeOrder_allots (s : State) (id : Nat) : (s.takeOrder id).allots = s.allots := rfl
@[simp] theorem State.takeOrder_attn (s : State) (id : Nat) : (s.takeOrder id).attn = s.attn := rfl
@[simp] theorem State.takeOrder_conds (s : State) (id : Nat) : (s.takeOrder id).conds = s.conds := rfl
@[simp] theorem State.takeOrder_host (s : State) (id : Nat) : (s.takeOrder id).host = s.host := rfl
@[simp] theorem State.takeOrder_hearths (s : State) (id : Nat) : (s.takeOrder id).hearths = s.hearths := rfl
@[simp] theorem State.takeOrder_fab (s : State) (id : Nat) : (s.takeOrder id).fab = s.fab := rfl
@[simp] theorem State.takeOrder_pair (s : State) (id : Nat) : (s.takeOrder id).pair = s.pair := rfl
@[simp] theorem State.takeOrder_flt (s : State) (id : Nat) : (s.takeOrder id).flt = s.flt := rfl
@[simp] theorem State.takeOrder_glob (s : State) (id : Nat) : (s.takeOrder id).glob = s.glob := rfl
@[simp] theorem State.takeOrder_mgt (s : State) (id : Nat) : (s.takeOrder id).mgt = s.mgt := rfl
@[simp] theorem State.takeOrder_fuse (s : State) (id : Nat) : (s.takeOrder id).fuse = s.fuse := rfl
@[simp] theorem State.takeOrder_pending (s : State) (id : Nat) : (s.takeOrder id).pending = s.pending := rfl

@[simp] theorem State.finish_dev (s : State) (id : Nat) (code : Code) (detail : W32) (result : W128) : (s.finish id code detail result).dev = s.dev := rfl
@[simp] theorem State.finish_clk (s : State) (id : Nat) (code : Code) (detail : W32) (result : W128) : (s.finish id code detail result).clk = s.clk := rfl
@[simp] theorem State.finish_allots (s : State) (id : Nat) (code : Code) (detail : W32) (result : W128) : (s.finish id code detail result).allots = s.allots := rfl
@[simp] theorem State.finish_attn (s : State) (id : Nat) (code : Code) (detail : W32) (result : W128) : (s.finish id code detail result).attn = s.attn := rfl
@[simp] theorem State.finish_conds (s : State) (id : Nat) (code : Code) (detail : W32) (result : W128) : (s.finish id code detail result).conds = s.conds := rfl
@[simp] theorem State.finish_host (s : State) (id : Nat) (code : Code) (detail : W32) (result : W128) : (s.finish id code detail result).host = s.host := rfl
@[simp] theorem State.finish_hearths (s : State) (id : Nat) (code : Code) (detail : W32) (result : W128) : (s.finish id code detail result).hearths = s.hearths := rfl
@[simp] theorem State.finish_fab (s : State) (id : Nat) (code : Code) (detail : W32) (result : W128) : (s.finish id code detail result).fab = s.fab := rfl
@[simp] theorem State.finish_pair (s : State) (id : Nat) (code : Code) (detail : W32) (result : W128) : (s.finish id code detail result).pair = s.pair := rfl
@[simp] theorem State.finish_flt (s : State) (id : Nat) (code : Code) (detail : W32) (result : W128) : (s.finish id code detail result).flt = s.flt := rfl
@[simp] theorem State.finish_glob (s : State) (id : Nat) (code : Code) (detail : W32) (result : W128) : (s.finish id code detail result).glob = s.glob := rfl
@[simp] theorem State.finish_mgt (s : State) (id : Nat) (code : Code) (detail : W32) (result : W128) : (s.finish id code detail result).mgt = s.mgt := rfl
@[simp] theorem State.finish_fuse (s : State) (id : Nat) (code : Code) (detail : W32) (result : W128) : (s.finish id code detail result).fuse = s.fuse := rfl
@[simp] theorem State.finish_pending (s : State) (id : Nat) (code : Code) (detail : W32) (result : W128) : (s.finish id code detail result).pending = s.pending := rfl

@[simp] theorem State.goOn_dev (s : State) (id : Nat) (aux : List Nat) : (s.goOn id aux).dev = s.dev := rfl
@[simp] theorem State.goOn_clk (s : State) (id : Nat) (aux : List Nat) : (s.goOn id aux).clk = s.clk := rfl
@[simp] theorem State.goOn_allots (s : State) (id : Nat) (aux : List Nat) : (s.goOn id aux).allots = s.allots := rfl
@[simp] theorem State.goOn_attn (s : State) (id : Nat) (aux : List Nat) : (s.goOn id aux).attn = s.attn := rfl
@[simp] theorem State.goOn_conds (s : State) (id : Nat) (aux : List Nat) : (s.goOn id aux).conds = s.conds := rfl
@[simp] theorem State.goOn_host (s : State) (id : Nat) (aux : List Nat) : (s.goOn id aux).host = s.host := rfl
@[simp] theorem State.goOn_hearths (s : State) (id : Nat) (aux : List Nat) : (s.goOn id aux).hearths = s.hearths := rfl
@[simp] theorem State.goOn_fab (s : State) (id : Nat) (aux : List Nat) : (s.goOn id aux).fab = s.fab := rfl
@[simp] theorem State.goOn_pair (s : State) (id : Nat) (aux : List Nat) : (s.goOn id aux).pair = s.pair := rfl
@[simp] theorem State.goOn_flt (s : State) (id : Nat) (aux : List Nat) : (s.goOn id aux).flt = s.flt := rfl
@[simp] theorem State.goOn_glob (s : State) (id : Nat) (aux : List Nat) : (s.goOn id aux).glob = s.glob := rfl
@[simp] theorem State.goOn_mgt (s : State) (id : Nat) (aux : List Nat) : (s.goOn id aux).mgt = s.mgt := rfl
@[simp] theorem State.goOn_fuse (s : State) (id : Nat) (aux : List Nat) : (s.goOn id aux).fuse = s.fuse := rfl
@[simp] theorem State.goOn_pending (s : State) (id : Nat) (aux : List Nat) : (s.goOn id aux).pending = s.pending := rfl

@[simp] theorem State.modObj_dev (s : State) (a h : Nat) (f : Obj → Obj) : (s.modObj a h f).dev = s.dev := rfl
@[simp] theorem State.modObj_clk (s : State) (a h : Nat) (f : Obj → Obj) : (s.modObj a h f).clk = s.clk := rfl
@[simp] theorem State.modObj_hg (s : State) (a h : Nat) (f : Obj → Obj) : (s.modObj a h f).hg = s.hg := rfl
@[simp] theorem State.modObj_attn (s : State) (a h : Nat) (f : Obj → Obj) : (s.modObj a h f).attn = s.attn := rfl
@[simp] theorem State.modObj_conds (s : State) (a h : Nat) (f : Obj → Obj) : (s.modObj a h f).conds = s.conds := rfl
@[simp] theorem State.modObj_host (s : State) (a h : Nat) (f : Obj → Obj) : (s.modObj a h f).host = s.host := rfl
@[simp] theorem State.modObj_hearths (s : State) (a h : Nat) (f : Obj → Obj) : (s.modObj a h f).hearths = s.hearths := rfl
@[simp] theorem State.modObj_fab (s : State) (a h : Nat) (f : Obj → Obj) : (s.modObj a h f).fab = s.fab := rfl
@[simp] theorem State.modObj_pair (s : State) (a h : Nat) (f : Obj → Obj) : (s.modObj a h f).pair = s.pair := rfl
@[simp] theorem State.modObj_flt (s : State) (a h : Nat) (f : Obj → Obj) : (s.modObj a h f).flt = s.flt := rfl
@[simp] theorem State.modObj_glob (s : State) (a h : Nat) (f : Obj → Obj) : (s.modObj a h f).glob = s.glob := rfl
@[simp] theorem State.modObj_mgt (s : State) (a h : Nat) (f : Obj → Obj) : (s.modObj a h f).mgt = s.mgt := rfl
@[simp] theorem State.modObj_fuse (s : State) (a h : Nat) (f : Obj → Obj) : (s.modObj a h f).fuse = s.fuse := rfl
@[simp] theorem State.modObj_pending (s : State) (a h : Nat) (f : Obj → Obj) : (s.modObj a h f).pending = s.pending := rfl

@[simp] theorem State.modTemper_dev (s : State) (a : Nat) (f : Temper → Temper) : (s.modTemper a f).dev = s.dev := rfl
@[simp] theorem State.modTemper_clk (s : State) (a : Nat) (f : Temper → Temper) : (s.modTemper a f).clk = s.clk := rfl
@[simp] theorem State.modTemper_hg (s : State) (a : Nat) (f : Temper → Temper) : (s.modTemper a f).hg = s.hg := rfl
@[simp] theorem State.modTemper_attn (s : State) (a : Nat) (f : Temper → Temper) : (s.modTemper a f).attn = s.attn := rfl
@[simp] theorem State.modTemper_conds (s : State) (a : Nat) (f : Temper → Temper) : (s.modTemper a f).conds = s.conds := rfl
@[simp] theorem State.modTemper_host (s : State) (a : Nat) (f : Temper → Temper) : (s.modTemper a f).host = s.host := rfl
@[simp] theorem State.modTemper_hearths (s : State) (a : Nat) (f : Temper → Temper) : (s.modTemper a f).hearths = s.hearths := rfl
@[simp] theorem State.modTemper_fab (s : State) (a : Nat) (f : Temper → Temper) : (s.modTemper a f).fab = s.fab := rfl
@[simp] theorem State.modTemper_pair (s : State) (a : Nat) (f : Temper → Temper) : (s.modTemper a f).pair = s.pair := rfl
@[simp] theorem State.modTemper_flt (s : State) (a : Nat) (f : Temper → Temper) : (s.modTemper a f).flt = s.flt := rfl
@[simp] theorem State.modTemper_glob (s : State) (a : Nat) (f : Temper → Temper) : (s.modTemper a f).glob = s.glob := rfl
@[simp] theorem State.modTemper_mgt (s : State) (a : Nat) (f : Temper → Temper) : (s.modTemper a f).mgt = s.mgt := rfl
@[simp] theorem State.modTemper_fuse (s : State) (a : Nat) (f : Temper → Temper) : (s.modTemper a f).fuse = s.fuse := rfl
@[simp] theorem State.modTemper_pending (s : State) (a : Nat) (f : Temper → Temper) : (s.modTemper a f).pending = s.pending := rfl

@[simp] theorem State.modLayer_dev (s : State) (a layer : Nat) (f : Layer → Layer) : (s.modLayer a layer f).dev = s.dev := rfl
@[simp] theorem State.modLayer_clk (s : State) (a layer : Nat) (f : Layer → Layer) : (s.modLayer a layer f).clk = s.clk := rfl
@[simp] theorem State.modLayer_hg (s : State) (a layer : Nat) (f : Layer → Layer) : (s.modLayer a layer f).hg = s.hg := rfl
@[simp] theorem State.modLayer_attn (s : State) (a layer : Nat) (f : Layer → Layer) : (s.modLayer a layer f).attn = s.attn := rfl
@[simp] theorem State.modLayer_conds (s : State) (a layer : Nat) (f : Layer → Layer) : (s.modLayer a layer f).conds = s.conds := rfl
@[simp] theorem State.modLayer_host (s : State) (a layer : Nat) (f : Layer → Layer) : (s.modLayer a layer f).host = s.host := rfl
@[simp] theorem State.modLayer_hearths (s : State) (a layer : Nat) (f : Layer → Layer) : (s.modLayer a layer f).hearths = s.hearths := rfl
@[simp] theorem State.modLayer_fab (s : State) (a layer : Nat) (f : Layer → Layer) : (s.modLayer a layer f).fab = s.fab := rfl
@[simp] theorem State.modLayer_pair (s : State) (a layer : Nat) (f : Layer → Layer) : (s.modLayer a layer f).pair = s.pair := rfl
@[simp] theorem State.modLayer_flt (s : State) (a layer : Nat) (f : Layer → Layer) : (s.modLayer a layer f).flt = s.flt := rfl
@[simp] theorem State.modLayer_glob (s : State) (a layer : Nat) (f : Layer → Layer) : (s.modLayer a layer f).glob = s.glob := rfl
@[simp] theorem State.modLayer_mgt (s : State) (a layer : Nat) (f : Layer → Layer) : (s.modLayer a layer f).mgt = s.mgt := rfl
@[simp] theorem State.modLayer_fuse (s : State) (a layer : Nat) (f : Layer → Layer) : (s.modLayer a layer f).fuse = s.fuse := rfl
@[simp] theorem State.modLayer_pending (s : State) (a layer : Nat) (f : Layer → Layer) : (s.modLayer a layer f).pending = s.pending := rfl

@[simp] theorem State.modQ_dev (s : State) (a q : Nat) (f : QDesc → QDesc) : (s.modQ a q f).dev = s.dev := rfl
@[simp] theorem State.modQ_clk (s : State) (a q : Nat) (f : QDesc → QDesc) : (s.modQ a q f).clk = s.clk := rfl
@[simp] theorem State.modQ_hg (s : State) (a q : Nat) (f : QDesc → QDesc) : (s.modQ a q f).hg = s.hg := rfl
@[simp] theorem State.modQ_attn (s : State) (a q : Nat) (f : QDesc → QDesc) : (s.modQ a q f).attn = s.attn := rfl
@[simp] theorem State.modQ_conds (s : State) (a q : Nat) (f : QDesc → QDesc) : (s.modQ a q f).conds = s.conds := rfl
@[simp] theorem State.modQ_host (s : State) (a q : Nat) (f : QDesc → QDesc) : (s.modQ a q f).host = s.host := rfl
@[simp] theorem State.modQ_hearths (s : State) (a q : Nat) (f : QDesc → QDesc) : (s.modQ a q f).hearths = s.hearths := rfl
@[simp] theorem State.modQ_fab (s : State) (a q : Nat) (f : QDesc → QDesc) : (s.modQ a q f).fab = s.fab := rfl
@[simp] theorem State.modQ_pair (s : State) (a q : Nat) (f : QDesc → QDesc) : (s.modQ a q f).pair = s.pair := rfl
@[simp] theorem State.modQ_flt (s : State) (a q : Nat) (f : QDesc → QDesc) : (s.modQ a q f).flt = s.flt := rfl
@[simp] theorem State.modQ_glob (s : State) (a q : Nat) (f : QDesc → QDesc) : (s.modQ a q f).glob = s.glob := rfl
@[simp] theorem State.modQ_mgt (s : State) (a q : Nat) (f : QDesc → QDesc) : (s.modQ a q f).mgt = s.mgt := rfl
@[simp] theorem State.modQ_fuse (s : State) (a q : Nat) (f : QDesc → QDesc) : (s.modQ a q f).fuse = s.fuse := rfl
@[simp] theorem State.modQ_pending (s : State) (a q : Nat) (f : QDesc → QDesc) : (s.modQ a q f).pending = s.pending := rfl

@[simp] theorem State.modPort_dev (s : State) (p : Nat) (f : Port → Port) : (s.modPort p f).dev = s.dev := rfl
@[simp] theorem State.modPort_clk (s : State) (p : Nat) (f : Port → Port) : (s.modPort p f).clk = s.clk := rfl
@[simp] theorem State.modPort_hg (s : State) (p : Nat) (f : Port → Port) : (s.modPort p f).hg = s.hg := rfl
@[simp] theorem State.modPort_allots (s : State) (p : Nat) (f : Port → Port) : (s.modPort p f).allots = s.allots := rfl
@[simp] theorem State.modPort_attn (s : State) (p : Nat) (f : Port → Port) : (s.modPort p f).attn = s.attn := rfl
@[simp] theorem State.modPort_conds (s : State) (p : Nat) (f : Port → Port) : (s.modPort p f).conds = s.conds := rfl
@[simp] theorem State.modPort_host (s : State) (p : Nat) (f : Port → Port) : (s.modPort p f).host = s.host := rfl
@[simp] theorem State.modPort_hearths (s : State) (p : Nat) (f : Port → Port) : (s.modPort p f).hearths = s.hearths := rfl
@[simp] theorem State.modPort_pair (s : State) (p : Nat) (f : Port → Port) : (s.modPort p f).pair = s.pair := rfl
@[simp] theorem State.modPort_flt (s : State) (p : Nat) (f : Port → Port) : (s.modPort p f).flt = s.flt := rfl
@[simp] theorem State.modPort_glob (s : State) (p : Nat) (f : Port → Port) : (s.modPort p f).glob = s.glob := rfl
@[simp] theorem State.modPort_mgt (s : State) (p : Nat) (f : Port → Port) : (s.modPort p f).mgt = s.mgt := rfl
@[simp] theorem State.modPort_fuse (s : State) (p : Nat) (f : Port → Port) : (s.modPort p f).fuse = s.fuse := rfl
@[simp] theorem State.modPort_pending (s : State) (p : Nat) (f : Port → Port) : (s.modPort p f).pending = s.pending := rfl

@[simp] theorem State.modStream_dev (s : State) (i : Nat) (f : Stream → Stream) : (s.modStream i f).dev = s.dev := rfl
@[simp] theorem State.modStream_clk (s : State) (i : Nat) (f : Stream → Stream) : (s.modStream i f).clk = s.clk := rfl
@[simp] theorem State.modStream_hg (s : State) (i : Nat) (f : Stream → Stream) : (s.modStream i f).hg = s.hg := rfl
@[simp] theorem State.modStream_allots (s : State) (i : Nat) (f : Stream → Stream) : (s.modStream i f).allots = s.allots := rfl
@[simp] theorem State.modStream_attn (s : State) (i : Nat) (f : Stream → Stream) : (s.modStream i f).attn = s.attn := rfl
@[simp] theorem State.modStream_conds (s : State) (i : Nat) (f : Stream → Stream) : (s.modStream i f).conds = s.conds := rfl
@[simp] theorem State.modStream_host (s : State) (i : Nat) (f : Stream → Stream) : (s.modStream i f).host = s.host := rfl
@[simp] theorem State.modStream_hearths (s : State) (i : Nat) (f : Stream → Stream) : (s.modStream i f).hearths = s.hearths := rfl
@[simp] theorem State.modStream_pair (s : State) (i : Nat) (f : Stream → Stream) : (s.modStream i f).pair = s.pair := rfl
@[simp] theorem State.modStream_flt (s : State) (i : Nat) (f : Stream → Stream) : (s.modStream i f).flt = s.flt := rfl
@[simp] theorem State.modStream_glob (s : State) (i : Nat) (f : Stream → Stream) : (s.modStream i f).glob = s.glob := rfl
@[simp] theorem State.modStream_mgt (s : State) (i : Nat) (f : Stream → Stream) : (s.modStream i f).mgt = s.mgt := rfl
@[simp] theorem State.modStream_fuse (s : State) (i : Nat) (f : Stream → Stream) : (s.modStream i f).fuse = s.fuse := rfl
@[simp] theorem State.modStream_pending (s : State) (i : Nat) (f : Stream → Stream) : (s.modStream i f).pending = s.pending := rfl

@[simp] theorem State.modColl_dev (s : State) (id : Nat) (f : Coll → Coll) : (s.modColl id f).dev = s.dev := rfl
@[simp] theorem State.modColl_clk (s : State) (id : Nat) (f : Coll → Coll) : (s.modColl id f).clk = s.clk := rfl
@[simp] theorem State.modColl_hg (s : State) (id : Nat) (f : Coll → Coll) : (s.modColl id f).hg = s.hg := rfl
@[simp] theorem State.modColl_allots (s : State) (id : Nat) (f : Coll → Coll) : (s.modColl id f).allots = s.allots := rfl
@[simp] theorem State.modColl_attn (s : State) (id : Nat) (f : Coll → Coll) : (s.modColl id f).attn = s.attn := rfl
@[simp] theorem State.modColl_conds (s : State) (id : Nat) (f : Coll → Coll) : (s.modColl id f).conds = s.conds := rfl
@[simp] theorem State.modColl_host (s : State) (id : Nat) (f : Coll → Coll) : (s.modColl id f).host = s.host := rfl
@[simp] theorem State.modColl_hearths (s : State) (id : Nat) (f : Coll → Coll) : (s.modColl id f).hearths = s.hearths := rfl
@[simp] theorem State.modColl_pair (s : State) (id : Nat) (f : Coll → Coll) : (s.modColl id f).pair = s.pair := rfl
@[simp] theorem State.modColl_flt (s : State) (id : Nat) (f : Coll → Coll) : (s.modColl id f).flt = s.flt := rfl
@[simp] theorem State.modColl_glob (s : State) (id : Nat) (f : Coll → Coll) : (s.modColl id f).glob = s.glob := rfl
@[simp] theorem State.modColl_mgt (s : State) (id : Nat) (f : Coll → Coll) : (s.modColl id f).mgt = s.mgt := rfl
@[simp] theorem State.modColl_fuse (s : State) (id : Nat) (f : Coll → Coll) : (s.modColl id f).fuse = s.fuse := rfl
@[simp] theorem State.modColl_pending (s : State) (id : Nat) (f : Coll → Coll) : (s.modColl id f).pending = s.pending := rfl

@[simp] theorem State.modEng_dev (s : State) (h e : Nat) (f : Engine → Engine) : (s.modEng h e f).dev = s.dev := rfl
@[simp] theorem State.modEng_clk (s : State) (h e : Nat) (f : Engine → Engine) : (s.modEng h e f).clk = s.clk := rfl
@[simp] theorem State.modEng_hg (s : State) (h e : Nat) (f : Engine → Engine) : (s.modEng h e f).hg = s.hg := rfl
@[simp] theorem State.modEng_allots (s : State) (h e : Nat) (f : Engine → Engine) : (s.modEng h e f).allots = s.allots := rfl
@[simp] theorem State.modEng_attn (s : State) (h e : Nat) (f : Engine → Engine) : (s.modEng h e f).attn = s.attn := rfl
@[simp] theorem State.modEng_conds (s : State) (h e : Nat) (f : Engine → Engine) : (s.modEng h e f).conds = s.conds := rfl
@[simp] theorem State.modEng_host (s : State) (h e : Nat) (f : Engine → Engine) : (s.modEng h e f).host = s.host := rfl
@[simp] theorem State.modEng_fab (s : State) (h e : Nat) (f : Engine → Engine) : (s.modEng h e f).fab = s.fab := rfl
@[simp] theorem State.modEng_pair (s : State) (h e : Nat) (f : Engine → Engine) : (s.modEng h e f).pair = s.pair := rfl
@[simp] theorem State.modEng_flt (s : State) (h e : Nat) (f : Engine → Engine) : (s.modEng h e f).flt = s.flt := rfl
@[simp] theorem State.modEng_glob (s : State) (h e : Nat) (f : Engine → Engine) : (s.modEng h e f).glob = s.glob := rfl
@[simp] theorem State.modEng_mgt (s : State) (h e : Nat) (f : Engine → Engine) : (s.modEng h e f).mgt = s.mgt := rfl
@[simp] theorem State.modEng_fuse (s : State) (h e : Nat) (f : Engine → Engine) : (s.modEng h e f).fuse = s.fuse := rfl
@[simp] theorem State.modEng_pending (s : State) (h e : Nat) (f : Engine → Engine) : (s.modEng h e f).pending = s.pending := rfl

@[simp] theorem State.modPldm_dev (s : State) (f : Pldm → Pldm) : (s.modPldm f).dev = s.dev := rfl
@[simp] theorem State.modPldm_clk (s : State) (f : Pldm → Pldm) : (s.modPldm f).clk = s.clk := rfl
@[simp] theorem State.modPldm_hg (s : State) (f : Pldm → Pldm) : (s.modPldm f).hg = s.hg := rfl
@[simp] theorem State.modPldm_allots (s : State) (f : Pldm → Pldm) : (s.modPldm f).allots = s.allots := rfl
@[simp] theorem State.modPldm_attn (s : State) (f : Pldm → Pldm) : (s.modPldm f).attn = s.attn := rfl
@[simp] theorem State.modPldm_conds (s : State) (f : Pldm → Pldm) : (s.modPldm f).conds = s.conds := rfl
@[simp] theorem State.modPldm_host (s : State) (f : Pldm → Pldm) : (s.modPldm f).host = s.host := rfl
@[simp] theorem State.modPldm_hearths (s : State) (f : Pldm → Pldm) : (s.modPldm f).hearths = s.hearths := rfl
@[simp] theorem State.modPldm_fab (s : State) (f : Pldm → Pldm) : (s.modPldm f).fab = s.fab := rfl
@[simp] theorem State.modPldm_pair (s : State) (f : Pldm → Pldm) : (s.modPldm f).pair = s.pair := rfl
@[simp] theorem State.modPldm_flt (s : State) (f : Pldm → Pldm) : (s.modPldm f).flt = s.flt := rfl
@[simp] theorem State.modPldm_glob (s : State) (f : Pldm → Pldm) : (s.modPldm f).glob = s.glob := rfl
@[simp] theorem State.modPldm_fuse (s : State) (f : Pldm → Pldm) : (s.modPldm f).fuse = s.fuse := rfl
@[simp] theorem State.modPldm_pending (s : State) (f : Pldm → Pldm) : (s.modPldm f).pending = s.pending := rfl

@[simp] theorem State.modSpdm_dev (s : State) (f : Spdm → Spdm) : (s.modSpdm f).dev = s.dev := rfl
@[simp] theorem State.modSpdm_clk (s : State) (f : Spdm → Spdm) : (s.modSpdm f).clk = s.clk := rfl
@[simp] theorem State.modSpdm_hg (s : State) (f : Spdm → Spdm) : (s.modSpdm f).hg = s.hg := rfl
@[simp] theorem State.modSpdm_allots (s : State) (f : Spdm → Spdm) : (s.modSpdm f).allots = s.allots := rfl
@[simp] theorem State.modSpdm_attn (s : State) (f : Spdm → Spdm) : (s.modSpdm f).attn = s.attn := rfl
@[simp] theorem State.modSpdm_conds (s : State) (f : Spdm → Spdm) : (s.modSpdm f).conds = s.conds := rfl
@[simp] theorem State.modSpdm_host (s : State) (f : Spdm → Spdm) : (s.modSpdm f).host = s.host := rfl
@[simp] theorem State.modSpdm_hearths (s : State) (f : Spdm → Spdm) : (s.modSpdm f).hearths = s.hearths := rfl
@[simp] theorem State.modSpdm_fab (s : State) (f : Spdm → Spdm) : (s.modSpdm f).fab = s.fab := rfl
@[simp] theorem State.modSpdm_pair (s : State) (f : Spdm → Spdm) : (s.modSpdm f).pair = s.pair := rfl
@[simp] theorem State.modSpdm_flt (s : State) (f : Spdm → Spdm) : (s.modSpdm f).flt = s.flt := rfl
@[simp] theorem State.modSpdm_glob (s : State) (f : Spdm → Spdm) : (s.modSpdm f).glob = s.glob := rfl
@[simp] theorem State.modSpdm_fuse (s : State) (f : Spdm → Spdm) : (s.modSpdm f).fuse = s.fuse := rfl
@[simp] theorem State.modSpdm_pending (s : State) (f : Spdm → Spdm) : (s.modSpdm f).pending = s.pending := rfl

@[simp] theorem State.setFill_dev (s : State) (f : Fill) : (s.setFill f).dev = s.dev := rfl
@[simp] theorem State.setFill_clk (s : State) (f : Fill) : (s.setFill f).clk = s.clk := rfl
@[simp] theorem State.setFill_hg (s : State) (f : Fill) : (s.setFill f).hg = s.hg := rfl
@[simp] theorem State.setFill_allots (s : State) (f : Fill) : (s.setFill f).allots = s.allots := rfl
@[simp] theorem State.setFill_attn (s : State) (f : Fill) : (s.setFill f).attn = s.attn := rfl
@[simp] theorem State.setFill_conds (s : State) (f : Fill) : (s.setFill f).conds = s.conds := rfl
@[simp] theorem State.setFill_host (s : State) (f : Fill) : (s.setFill f).host = s.host := rfl
@[simp] theorem State.setFill_hearths (s : State) (f : Fill) : (s.setFill f).hearths = s.hearths := rfl
@[simp] theorem State.setFill_fab (s : State) (f : Fill) : (s.setFill f).fab = s.fab := rfl
@[simp] theorem State.setFill_flt (s : State) (f : Fill) : (s.setFill f).flt = s.flt := rfl
@[simp] theorem State.setFill_glob (s : State) (f : Fill) : (s.setFill f).glob = s.glob := rfl
@[simp] theorem State.setFill_mgt (s : State) (f : Fill) : (s.setFill f).mgt = s.mgt := rfl
@[simp] theorem State.setFill_fuse (s : State) (f : Fill) : (s.setFill f).fuse = s.fuse := rfl
@[simp] theorem State.setFill_pending (s : State) (f : Fill) : (s.setFill f).pending = s.pending := rfl

@[simp] theorem State.setUnit_dev (s : State) (u b : Nat) : (s.setUnit u b).dev = s.dev := rfl
@[simp] theorem State.setUnit_clk (s : State) (u b : Nat) : (s.setUnit u b).clk = s.clk := rfl
@[simp] theorem State.setUnit_hg (s : State) (u b : Nat) : (s.setUnit u b).hg = s.hg := rfl
@[simp] theorem State.setUnit_allots (s : State) (u b : Nat) : (s.setUnit u b).allots = s.allots := rfl
@[simp] theorem State.setUnit_attn (s : State) (u b : Nat) : (s.setUnit u b).attn = s.attn := rfl
@[simp] theorem State.setUnit_conds (s : State) (u b : Nat) : (s.setUnit u b).conds = s.conds := rfl
@[simp] theorem State.setUnit_host (s : State) (u b : Nat) : (s.setUnit u b).host = s.host := rfl
@[simp] theorem State.setUnit_hearths (s : State) (u b : Nat) : (s.setUnit u b).hearths = s.hearths := rfl
@[simp] theorem State.setUnit_fab (s : State) (u b : Nat) : (s.setUnit u b).fab = s.fab := rfl
@[simp] theorem State.setUnit_pair (s : State) (u b : Nat) : (s.setUnit u b).pair = s.pair := rfl
@[simp] theorem State.setUnit_flt (s : State) (u b : Nat) : (s.setUnit u b).flt = s.flt := rfl
@[simp] theorem State.setUnit_glob (s : State) (u b : Nat) : (s.setUnit u b).glob = s.glob := rfl
@[simp] theorem State.setUnit_fuse (s : State) (u b : Nat) : (s.setUnit u b).fuse = s.fuse := rfl
@[simp] theorem State.setUnit_pending (s : State) (u b : Nat) : (s.setUnit u b).pending = s.pending := rfl

@[simp] theorem State.setCond_dev (s : State) (a : Nat) (n : CondName) (level : Nat) : (s.setCond a n level).dev = s.dev := rfl
@[simp] theorem State.setCond_clk (s : State) (a : Nat) (n : CondName) (level : Nat) : (s.setCond a n level).clk = s.clk := rfl
@[simp] theorem State.setCond_hg (s : State) (a : Nat) (n : CondName) (level : Nat) : (s.setCond a n level).hg = s.hg := rfl
@[simp] theorem State.setCond_allots (s : State) (a : Nat) (n : CondName) (level : Nat) : (s.setCond a n level).allots = s.allots := rfl
@[simp] theorem State.setCond_attn (s : State) (a : Nat) (n : CondName) (level : Nat) : (s.setCond a n level).attn = s.attn := rfl
@[simp] theorem State.setCond_host (s : State) (a : Nat) (n : CondName) (level : Nat) : (s.setCond a n level).host = s.host := rfl
@[simp] theorem State.setCond_hearths (s : State) (a : Nat) (n : CondName) (level : Nat) : (s.setCond a n level).hearths = s.hearths := rfl
@[simp] theorem State.setCond_fab (s : State) (a : Nat) (n : CondName) (level : Nat) : (s.setCond a n level).fab = s.fab := rfl
@[simp] theorem State.setCond_pair (s : State) (a : Nat) (n : CondName) (level : Nat) : (s.setCond a n level).pair = s.pair := rfl
@[simp] theorem State.setCond_flt (s : State) (a : Nat) (n : CondName) (level : Nat) : (s.setCond a n level).flt = s.flt := rfl
@[simp] theorem State.setCond_glob (s : State) (a : Nat) (n : CondName) (level : Nat) : (s.setCond a n level).glob = s.glob := rfl
@[simp] theorem State.setCond_mgt (s : State) (a : Nat) (n : CondName) (level : Nat) : (s.setCond a n level).mgt = s.mgt := rfl
@[simp] theorem State.setCond_fuse (s : State) (a : Nat) (n : CondName) (level : Nat) : (s.setCond a n level).fuse = s.fuse := rfl
@[simp] theorem State.setCond_pending (s : State) (a : Nat) (n : CondName) (level : Nat) : (s.setCond a n level).pending = s.pending := rfl

@[simp] theorem State.dropCondAll_dev (s : State) (n : CondName) : (s.dropCondAll n).dev = s.dev := rfl
@[simp] theorem State.dropCondAll_clk (s : State) (n : CondName) : (s.dropCondAll n).clk = s.clk := rfl
@[simp] theorem State.dropCondAll_hg (s : State) (n : CondName) : (s.dropCondAll n).hg = s.hg := rfl
@[simp] theorem State.dropCondAll_allots (s : State) (n : CondName) : (s.dropCondAll n).allots = s.allots := rfl
@[simp] theorem State.dropCondAll_attn (s : State) (n : CondName) : (s.dropCondAll n).attn = s.attn := rfl
@[simp] theorem State.dropCondAll_host (s : State) (n : CondName) : (s.dropCondAll n).host = s.host := rfl
@[simp] theorem State.dropCondAll_hearths (s : State) (n : CondName) : (s.dropCondAll n).hearths = s.hearths := rfl
@[simp] theorem State.dropCondAll_fab (s : State) (n : CondName) : (s.dropCondAll n).fab = s.fab := rfl
@[simp] theorem State.dropCondAll_pair (s : State) (n : CondName) : (s.dropCondAll n).pair = s.pair := rfl
@[simp] theorem State.dropCondAll_flt (s : State) (n : CondName) : (s.dropCondAll n).flt = s.flt := rfl
@[simp] theorem State.dropCondAll_glob (s : State) (n : CondName) : (s.dropCondAll n).glob = s.glob := rfl
@[simp] theorem State.dropCondAll_mgt (s : State) (n : CondName) : (s.dropCondAll n).mgt = s.mgt := rfl
@[simp] theorem State.dropCondAll_fuse (s : State) (n : CondName) : (s.dropCondAll n).fuse = s.fuse := rfl
@[simp] theorem State.dropCondAll_pending (s : State) (n : CondName) : (s.dropCondAll n).pending = s.pending := rfl

@[simp] theorem State.bootHalt_clk (s : State) (n : Nat) : (s.bootHalt n).clk = s.clk := rfl
@[simp] theorem State.bootHalt_hg (s : State) (n : Nat) : (s.bootHalt n).hg = s.hg := rfl
@[simp] theorem State.bootHalt_allots (s : State) (n : Nat) : (s.bootHalt n).allots = s.allots := rfl
@[simp] theorem State.bootHalt_attn (s : State) (n : Nat) : (s.bootHalt n).attn = s.attn := rfl
@[simp] theorem State.bootHalt_conds (s : State) (n : Nat) : (s.bootHalt n).conds = s.conds := rfl
@[simp] theorem State.bootHalt_host (s : State) (n : Nat) : (s.bootHalt n).host = s.host := rfl
@[simp] theorem State.bootHalt_hearths (s : State) (n : Nat) : (s.bootHalt n).hearths = s.hearths := rfl
@[simp] theorem State.bootHalt_fab (s : State) (n : Nat) : (s.bootHalt n).fab = s.fab := rfl
@[simp] theorem State.bootHalt_pair (s : State) (n : Nat) : (s.bootHalt n).pair = s.pair := rfl
@[simp] theorem State.bootHalt_flt (s : State) (n : Nat) : (s.bootHalt n).flt = s.flt := rfl
@[simp] theorem State.bootHalt_glob (s : State) (n : Nat) : (s.bootHalt n).glob = s.glob := rfl
@[simp] theorem State.bootHalt_mgt (s : State) (n : Nat) : (s.bootHalt n).mgt = s.mgt := rfl
@[simp] theorem State.bootHalt_fuse (s : State) (n : Nat) : (s.bootHalt n).fuse = s.fuse := rfl
@[simp] theorem State.bootHalt_pending (s : State) (n : Nat) : (s.bootHalt n).pending = s.pending := rfl

@[simp] theorem State.idle_dev (s : State) : s.idle.dev = s.dev := rfl
@[simp] theorem State.idle_hg (s : State) : s.idle.hg = s.hg := rfl
@[simp] theorem State.idle_allots (s : State) : s.idle.allots = s.allots := rfl
@[simp] theorem State.idle_attn (s : State) : s.idle.attn = s.attn := rfl
@[simp] theorem State.idle_conds (s : State) : s.idle.conds = s.conds := rfl
@[simp] theorem State.idle_host (s : State) : s.idle.host = s.host := rfl
@[simp] theorem State.idle_hearths (s : State) : s.idle.hearths = s.hearths := rfl
@[simp] theorem State.idle_fab (s : State) : s.idle.fab = s.fab := rfl
@[simp] theorem State.idle_pair (s : State) : s.idle.pair = s.pair := rfl
@[simp] theorem State.idle_flt (s : State) : s.idle.flt = s.flt := rfl
@[simp] theorem State.idle_glob (s : State) : s.idle.glob = s.glob := rfl
@[simp] theorem State.idle_mgt (s : State) : s.idle.mgt = s.mgt := rfl
@[simp] theorem State.idle_fuse (s : State) : s.idle.fuse = s.fuse := rfl
@[simp] theorem State.idle_pending (s : State) : s.idle.pending = s.pending := rfl

/-! ## Allotments and hearths -/

@[simp] theorem State.modAl_length (s : State) (a : Nat) (f : Allot → Allot) : (s.modAl a f).allots.length = s.allots.length := by
  simp [State.modAl, State.setAl]

@[simp] theorem State.modHe_length (s : State) (h : Nat) (f : Hearth → Hearth) : (s.modHe h f).hearths.length = s.hearths.length := by
  simp [State.modHe, State.setHe]

/-- Reading an allotment behind an update of an allotment. -/
theorem State.modAl_al (s : State) (a b : Nat) (f : Allot → Allot) :
    (s.modAl a f).al b = if a = b ∧ a < s.allots.length then f (s.al a) else s.al b := by
  simp only [State.modAl, State.setAl, State.al, List.getD_eq_getElem?_getD, List.getElem?_set]
  by_cases h : a = b
  · subst h
    by_cases h2 : a < s.allots.length <;> simp [h2]
  · simp [h]

theorem State.modAl_al_ne (s : State) {a b : Nat} (f : Allot → Allot) (h : b ≠ a) : (s.modAl a f).al b = s.al b := by
  rw [State.modAl_al, if_neg (fun k => h k.1.symm)]

/-- Reading a hearth behind an update of a hearth. -/
theorem State.modHe_he (s : State) (h k : Nat) (f : Hearth → Hearth) :
    (s.modHe h f).he k = if h = k ∧ h < s.hearths.length then f (s.he h) else s.he k := by
  simp only [State.modHe, State.setHe, State.he, List.getD_eq_getElem?_getD, List.getElem?_set]
  by_cases e : h = k
  · subst e
    by_cases h2 : h < s.hearths.length <;> simp [h2]
  · simp [e]

/-! ## Commands -/

@[simp] theorem State.modCmd_al (s : State) (id a : Nat) (f : Cmd → Cmd) : (s.modCmd id f).al a = s.al a := rfl
@[simp] theorem State.modCmd_he (s : State) (id h : Nat) (f : Cmd → Cmd) : (s.modCmd id f).he h = s.he h := rfl

theorem State.cmd?_id {s : State} {id : Nat} {c : Cmd} (h : s.cmd? id = some c) : c.id = id := by
  simpa using List.find?_some h

theorem State.started?_cmd {s : State} {id op : Nat} {c : Cmd} (h : s.started? id op = some c) : s.cmd? id = some c := by
  unfold State.started? at h
  split at h
  · split at h
    · cases h; assumption
    · cases h
  · cases h

theorem State.fresh?_cmd {s : State} {id op : Nat} {c : Cmd} (h : s.fresh? id op = some c) : s.cmd? id = some c := by
  unfold State.fresh? at h
  split at h
  · split at h
    · cases h; exact State.started?_cmd ‹_›
    · cases h
  · cases h

theorem State.fresh?_id {s : State} {id op : Nat} {c : Cmd} (h : s.fresh? id op = some c) : c.id = id :=
  State.cmd?_id (State.fresh?_cmd h)

/-- The command that id names behind an update of a command, which keeps identities. -/
theorem State.modCmd_cmd? (s : State) (id j : Nat) (f : Cmd → Cmd) (hf : ∀ c, (f c).id = c.id) :
    (s.modCmd id f).cmd? j = (s.cmd? j).map (fun c => if c.id = id then f c else c) := by
  have hp : ((fun c : Cmd => c.id == j) ∘ fun c => if c.id = id then f c else c) = fun c => c.id == j := by
    funext c
    simp only [Function.comp]
    split
    · rw [hf]
    · rfl
  simp only [State.cmd?, State.modCmd, List.find?_map, hp]

theorem State.finish_cmd? (s : State) (id : Nat) (code : Code) (detail : W32) (result : W128) :
    (s.finish id code detail result).cmd? id =
      (s.cmd? id).map (fun c => { c with phase := .done, code := code, detail := detail, result := result }) := by
  unfold State.finish
  refine (State.modCmd_cmd? s id id _ (by intro c; rfl)).trans ?_
  cases h : s.cmd? id with
  | none => rfl
  | some c => simp [State.cmd?_id h]

/-- A command that is there ends with what finish gives it. -/
theorem State.finish_ended {s : State} {id : Nat} (h : (s.cmd? id).isSome) (code : Code) (detail : W32) (result : W128) :
    (s.finish id code detail result).Ended id code detail result := by
  obtain ⟨c, hc⟩ := Option.isSome_iff_exists.mp h
  exact ⟨_, by rw [State.finish_cmd?, hc]; rfl, rfl, rfl, rfl, rfl⟩

theorem State.goOn_atWork {s : State} {id : Nat} (h : (s.cmd? id).isSome) (aux : List Nat) : (s.goOn id aux).AtWork id := by
  obtain ⟨c, hc⟩ := Option.isSome_iff_exists.mp h
  refine ⟨{ c with phase := .working, aux := aux }, ?_, rfl⟩
  unfold State.goOn
  refine (State.modCmd_cmd? s id id _ (by intro c; rfl)).trans ?_
  simp [hc, State.cmd?_id hc]

/-! ## Naming (R268, R272) -/

/-- Updates of allotments alone: everything else is as it was. -/
def SameOutsideAllots (s t : State) : Prop := { t with allots := s.allots } = s ∧ t.allots.length = s.allots.length

theorem SameOutsideAllots.trans {s t u : State} (h : SameOutsideAllots s t) (k : SameOutsideAllots t u) : SameOutsideAllots s u := by
  obtain ⟨h1, h2⟩ := h
  obtain ⟨k1, k2⟩ := k
  refine ⟨?_, k2.trans h2⟩
  rw [← h1]
  rw [← k1]

theorem State.modAl_same (s : State) (a : Nat) (f : Allot → Allot) : SameOutsideAllots s (s.modAl a f) := ⟨rfl, by simp⟩

theorem State.touch_same (s : State) (a h n : Nat) : SameOutsideAllots s (s.touch a h n) := by
  unfold State.touch
  split
  · exact State.modAl_same _ _ _
  · exact ⟨rfl, rfl⟩

theorem State.dropShadow_same (s : State) (a h : Nat) : SameOutsideAllots s (s.dropShadow a h) := by
  unfold State.dropShadow
  split
  · split
    · exact (State.modAl_same _ _ _).trans (State.modAl_same _ _ _)
    · exact ⟨rfl, rfl⟩
  · exact ⟨rfl, rfl⟩

theorem foldl_same {α : Type} (f : State → α → State) (h : ∀ s x, SameOutsideAllots s (f s x)) (l : List α) (s : State) :
    SameOutsideAllots s (l.foldl f s) := by
  induction l generalizing s with
  | nil => exact ⟨rfl, rfl⟩
  | cons x r ih => exact (h s x).trans (ih _)

/-- Naming changes allotments alone. -/
theorem State.named_same (s : State) (c : Cmd) : SameOutsideAllots s (s.named c) := by
  unfold State.named State.noteNames
  split
  · exact ⟨rfl, rfl⟩
  · refine foldl_same _ (fun t n => ?_) _ _
    dsimp only
    split
    · exact (State.dropShadow_same _ _ _).trans (State.touch_same _ _ _ _)
    · exact State.touch_same _ _ _ _

@[simp] theorem State.named_hg (s : State) (c : Cmd) : (s.named c).hg = s.hg := by
  have h := congrArg State.hg (s.named_same c).1
  exact h

@[simp] theorem State.named_host (s : State) (c : Cmd) : (s.named c).host = s.host := by
  have h := congrArg State.host (s.named_same c).1
  exact h

@[simp] theorem State.named_cmd? (s : State) (c : Cmd) (id : Nat) : (s.named c).cmd? id = s.cmd? id := by
  simp [State.cmd?]

/-! ## The shapes of the rows -/

/-- A command that runs takes its effect on the state with its names noted. -/
theorem State.deant_runs {s : State} {id op : Nat} {fs : State → Cmd → List Fld} {c : Cmd} (h : s.Runs id op fs c)
    (body : State → Cmd → State) : s.deant id op fs body = .next (body (s.named c) c) := by
  obtain ⟨h1, h2, h3⟩ := h
  simp [State.deant, h1, h2, State.judged, h3, State.named]

/-- An order that the arbiter executes takes its effect as it leaves the orders that wait. -/
theorem State.order_runs {s : State} {id op : Nat} {fs : State → Cmd → List Fld} {c : Cmd} (h : s.OrderRuns id op fs c)
    (body : State → Cmd → State) : s.order (.cmd id) op fs body = .next (body ((s.takeOrder id).named c) c) := by
  obtain ⟨h1, h2, h3, h4⟩ := h
  simp [State.order, h1, h2, h3, State.judged, h4, State.named]

/-- A command whose fields do not meet their rules is rejected with the verdict, and nothing else changes. -/
theorem State.deant_rejects {s : State} {id op : Nat} {fs : State → Cmd → List Fld} {c : Cmd} {v : Code × W32}
    (h : s.fresh? id op = some c) (r : s.ready c = true) (j : s.judgeInline c (fs s c) = some v) (body : State → Cmd → State) :
    s.deant id op fs body = .next (s.reject id v) := by
  simp [State.deant, h, r, State.judged, j, State.fresh?_id h]

@[simp] theorem State.takeOrder_cmd? (s : State) (id j : Nat) : (s.takeOrder id).cmd? j = s.cmd? j := rfl

end Sys2Proof.Machine
end

