-- ==== Sys2Proof/Laws/Vector.lean ====
section
/-! SUPPORT. What an instruction of a vector engine does besides its own result: the frame of ctx?, retire and the counters. -/

namespace Sys2Proof.Machine

/-- What ctx? finds: the engine named, as it stands. -/
theorem State.ctx?_spec {s : State} {h e : Nat} {x : Ctx} (hx : s.ctx? h e = some x) :
    x.h = h ∧ x.e = e ∧ x.eng = s.engine h e ∧ x.eng.run.isSome ∧ x.run ∈ (s.he h).runs := by
  unfold State.ctx? at hx
  simp only [State.engine] at hx ⊢
  split at hx
  · cases hx
  · rename_i id rank hr
    split at hx
    · rename_i run c hrun hc
      split at hx
      · cases hx
      · split at hx
        · split at hx
          · cases hx
            exact ⟨rfl, rfl, rfl, by rw [hr]; rfl, List.mem_of_find?_eq_some hrun⟩
          · cases hx
        · cases hx
    · cases hx

theorem State.ctx?_bounds {s : State} {h e : Nat} {x : Ctx} (hx : s.ctx? h e = some x) :
    h < s.hearths.length ∧ e < (s.he h).engines.length := by
  obtain ⟨-, -, he, hr, hm⟩ := State.ctx?_spec hx
  constructor
  · refine Decidable.byContradiction fun k => ?_
    have : s.he h = {} := by simp [State.he, List.getD_eq_getElem?_getD, List.getElem?_eq_none (Nat.le_of_not_lt k)]
    rw [this] at hm
    simp at hm
  · refine Decidable.byContradiction fun k => ?_
    have : s.engine h e = {} := by simp [State.engine, List.getD_eq_getElem?_getD, List.getElem?_eq_none (Nat.le_of_not_lt k)]
    rw [he, this] at hr
    simp at hr

/-- Counters: an event changes the counters of one allotment and the global totals. -/
theorem State.count_frame (s : State) (ev : Nat) (h a layer cmd : Option Nat) (n : Nat) :
    { s.count ev h a layer cmd n with allots := s.allots, glob := s.glob } = s ∧
    ∀ b, ((s.count ev h a layer cmd n).al b).objs = (s.al b).objs ∧ ((s.count ev h a layer cmd n).al b).progs = (s.al b).progs := by
  unfold State.count
  split
  · exact ⟨rfl, fun _ => ⟨rfl, rfl⟩⟩
  · dsimp only
    split
    · exact ⟨rfl, fun _ => ⟨rfl, rfl⟩⟩
    · refine ⟨rfl, fun b => ?_⟩
      rw [State.modAl_al]
      split
      · rename_i k
        obtain ⟨rfl, -⟩ := k
        exact ⟨rfl, rfl⟩
      · exact ⟨rfl, rfl⟩

theorem State.modEng_engine (s : State) (h e i j : Nat) (f : Engine → Engine) :
    (s.modEng h e f).engine i j = if i = h ∧ j = e ∧ h < s.hearths.length ∧ e < (s.he h).engines.length then f (s.engine h e) else s.engine i j := by
  unfold State.modEng State.engine
  rw [State.modHe_he]
  by_cases k : h = i ∧ h < s.hearths.length
  · obtain ⟨rfl, k2⟩ := k
    simp only [true_and, k2, if_true, modAt, List.getD_eq_getElem?_getD, List.getElem?_modify]
    by_cases k3 : e = j
    · subst k3
      by_cases k4 : e < (s.he h).engines.length <;> simp [k4]
    · have k5 : ¬ j = e := fun k => k3 k.symm
      simp [k3, k5]
  · simp only [k, if_false]
    split
    · rename_i q
      exact absurd ⟨q.1.symm, q.2.2.1⟩ k
    · rfl

/-- An instruction that retires writes its engine as f says, advances pc and count, and leaves all else to its counters. -/
theorem State.retire_spec {s : State} {h e : Nat} {x : Ctx} (hx : s.ctx? h e = some x) (pc : Nat) (f : Engine → Engine) :
    s.Retired (s.retire x pc f) h e pc f ∧ s.RegisterOnly (s.retire x pc f) h e := by
  obtain ⟨hh, he, -, -, -⟩ := State.ctx?_spec hx
  obtain ⟨b1, b2⟩ := State.ctx?_bounds hx
  subst hh he
  unfold State.retire State.countFor
  generalize hu : s.modEng x.h x.e (fun e => { f e with pc := pc, count := e.count + 1 }) = u
  obtain ⟨c1, c2⟩ := u.count_frame 0x0B (some x.h) (some x.c.allot) none (some x.c.id) 1
  have ch := congrArg State.hearths c1
  dsimp only at ch
  have che : ∀ i, (u.count 0x0B (some x.h) (some x.c.allot) none (some x.c.id) 1).he i = u.he i := fun i => by
    unfold State.he; rw [ch]
  have cen : ∀ i j, (u.count 0x0B (some x.h) (some x.c.allot) none (some x.c.id) 1).engine i j = u.engine i j := fun i j => by
    unfold State.engine; rw [che]
  refine ⟨?_, ?_, ?_, ?_, ?_, ?_⟩
  · unfold State.Retired
    rw [cen, ← hu, State.modEng_engine, if_pos ⟨rfl, rfl, b1, b2⟩]
  · have e : { u with hearths := s.hearths } = s := by rw [← hu]; rfl
    rw [← e]
    conv => rhs; rw [← c1]
  · intro i j k
    rw [cen, ← hu, State.modEng_engine, if_neg]
    rintro ⟨rfl, rfl, -⟩
    exact k.elim (fun q => q rfl) (fun q => q rfl)
  · intro a
    rw [(c2 a).1, (c2 a).2, ← hu]
    exact ⟨rfl, rfl⟩
  · rw [che, ← hu]
    unfold State.modEng
    rw [State.modHe_he]
    split <;> rfl
  · rw [che, ← hu]
    unfold State.modEng
    rw [State.modHe_he]
    split <;> rfl

/-- An instruction of the V or the VI form that may issue has its effect. -/
theorem State.vecInstr_runs {s : State} {h e op : Nat} {x : Ctx} (hx : s.VecReady h e op x) (body : State → Ctx → State) :
    s.vecInstr h e op body = .next (body s x) := by
  obtain ⟨h1, h2, h3, h4⟩ := hx
  simp [State.vecInstr, h1, h2, h3, h4]

/-- An instruction of another form that may issue has its effect. -/
theorem State.instr_runs {s : State} {h e form op : Nat} {x : Ctx} (hx : s.InstrReady h e form op x) (body : State → Ctx → State) :
    s.instr h e form op body = .next (body s x) := by
  obtain ⟨h1, h2, h3, h4⟩ := hx
  simp [State.instr, h1, h2, h3, h4]

end Sys2Proof.Machine
end

