-- ==== Sys2Proof/Laws/Rows.lean ====
section
/-! SUPPORT. Everything that the shared shapes of the rows can answer, and what the settling of the attention changes. -/

namespace Sys2Proof.Machine

/-! ## The shapes of the rows: every answer -/

/-- What the row of a Deant command can answer: nothing happens, the command is rejected with the verdict of its fields, or it takes
its effect. -/
theorem State.deant_answers {s t : State} {id op : Nat} {fs : State → Cmd → List Fld} {body : State → Cmd → State}
    (h : s.deant id op fs body = .next t) :
    t = s ∨ ∃ c, s.fresh? id op = some c ∧ s.ready c = true ∧
      ((∃ v, s.judgeInline c (fs s c) = some v ∧ t = s.reject id v) ∨ (s.judgeInline c (fs s c) = none ∧ t = body (s.named c) c)) := by
  unfold State.deant at h
  split at h
  · cases h; exact .inl rfl
  · rename_i c hc
    split at h
    · rename_i hr
      refine .inr ⟨c, hc, hr, ?_⟩
      unfold State.judged at h
      split at h
      · rename_i v hv
        rw [State.fresh?_id hc] at h
        cases h; exact .inl ⟨v, hv, rfl⟩
      · rename_i hv
        cases h; exact .inr ⟨hv, rfl⟩
    · cases h; exact .inl rfl

/-- What the row of an order with a command can answer. -/
theorem State.order_answers {s t : State} {id op : Nat} {fs : State → Cmd → List Fld} {body : State → Cmd → State}
    (h : s.order (.cmd id) op fs body = .next t) :
    t = s ∨ ∃ c, s.fresh? id op = some c ∧ s.hg.arb.head? = some id ∧ s.arbTakes op = true ∧ s.resetWaits c = false ∧
      ((∃ v, (s.takeOrder id).judgeInline c (fs (s.takeOrder id) c) = some v ∧ t = (s.takeOrder id).reject id v) ∨
        ((s.takeOrder id).judgeInline c (fs (s.takeOrder id) c) = none ∧ t = body ((s.takeOrder id).named c) c)) := by
  unfold State.order at h
  dsimp only at h
  split at h
  · cases h; exact .inl rfl
  · rename_i c hc
    split at h
    · rename_i hr
      refine .inr ⟨c, hc, hr.1, hr.2.1, hr.2.2, ?_⟩
      unfold State.judged at h
      split at h
      · rename_i v hv
        rw [State.fresh?_id hc] at h
        cases h; exact .inl ⟨v, hv, rfl⟩
      · rename_i hv
        cases h; exact .inr ⟨hv, rfl⟩
    · cases h; exact .inl rfl

/-- An order of the management controller is presented to the arbiter, or nothing happens. -/
theorem State.order_mgmt (s : State) (p op : Nat) (fs : State → Cmd → List Fld) (body : State → Cmd → State) :
    s.order (.mgmt p) op fs body = .next (if s.mgmtUp then s.present (s.mgmtCmd op p) else s) := rfl

/-- What the row of a vector instruction can answer. -/
theorem State.instr_answers {s t : State} {h e form op : Nat} {body : State → Ctx → State} (k : s.instr h e form op body = .next t) :
    t = s ∨ ∃ x, s.InstrReady h e form op x ∧ t = body s x := by
  unfold State.instr at k
  split at k
  · rename_i x hx
    split at k
    · rename_i hc
      cases k; exact .inr ⟨x, ⟨hx, hc.1, hc.2.1, hc.2.2⟩, rfl⟩
    · cases k; exact .inl rfl
  · cases k; exact .inl rfl

theorem State.vecInstr_answers {s t : State} {h e op : Nat} {body : State → Ctx → State} (k : s.vecInstr h e op body = .next t) :
    t = s ∨ ∃ x, s.VecReady h e op x ∧ t = body s x := by
  unfold State.vecInstr at k
  split at k
  · rename_i x hx
    split at k
    · rename_i hc
      cases k; exact .inr ⟨x, ⟨hx, hc.1, hc.2.1, hc.2.2⟩, rfl⟩
    · cases k; exact .inl rfl
  · cases k; exact .inl rfl

/-! ## The attention settles (R305, R460) -/

/-- The states differ in the attention, its conditions and the hearths' trace rings alone. -/
def SameButAttention (s t : State) : Prop := { t with attn := s.attn, hearths := s.hearths, conds := s.conds } = s

theorem SameButAttention.refl (s : State) : SameButAttention s s := rfl

theorem SameButAttention.trans {s t u : State} (h : SameButAttention s t) (k : SameButAttention t u) : SameButAttention s u := by
  unfold SameButAttention at *
  rw [← h, ← k]

theorem State.traceAt_same (s : State) (h typ : Nat) (a : Option Nat) (acc data : Nat) :
    SameButAttention s (s.traceAt h typ a acc data) := by
  unfold State.traceAt
  split <;> rfl

theorem State.fire_same (s : State) (causes src : Nat) : SameButAttention s (s.fire causes src) := by
  unfold State.fire
  split <;> rfl

theorem foldl_attention {α : Type} (f : State → α → State) (h : ∀ s x, SameButAttention s (f s x)) (l : List α) (s : State) :
    SameButAttention s (l.foldl f s) := by
  induction l generalizing s with
  | nil => rfl
  | cons x r ih => exact (h s x).trans (ih _)

theorem State.attend_same (s : State) : SameButAttention s s.attend := by
  unfold State.attend
  refine SameButAttention.trans (t := { s with attn := s.attnTable }) rfl (foldl_attention _ (fun u a => ?_) _ _)
  dsimp only
  split
  · rfl
  · exact State.traceAt_same _ _ _ _ _ _

theorem State.settleWith_same (s : State) (causes src : Nat) : SameButAttention s (s.settleWith causes src) := by
  unfold State.settleWith
  dsimp only
  split
  · exact State.attend_same s
  · exact ((State.attend_same s).trans (State.fire_same _ _ _)).trans (State.attend_same _)

/-- The settling of the attention changes the attention, its conditions and the trace rings alone. -/
theorem State.settle_same (s : State) : SameButAttention s s.settle := State.settleWith_same s 0 0

@[simp] theorem State.settle_hg (s : State) : s.settle.hg = s.hg := by
  have h := congrArg State.hg s.settle_same
  exact h

@[simp] theorem State.settle_allots (s : State) : s.settle.allots = s.allots := by
  have h := congrArg State.allots s.settle_same
  exact h

@[simp] theorem State.settle_host (s : State) : s.settle.host = s.host := by
  have h := congrArg State.host s.settle_same
  exact h

@[simp] theorem State.settle_fab (s : State) : s.settle.fab = s.fab := by
  have h := congrArg State.fab s.settle_same
  exact h

@[simp] theorem State.settle_pair (s : State) : s.settle.pair = s.pair := by
  have h := congrArg State.pair s.settle_same
  exact h

@[simp] theorem State.settle_flt (s : State) : s.settle.flt = s.flt := by
  have h := congrArg State.flt s.settle_same
  exact h

@[simp] theorem State.settle_glob (s : State) : s.settle.glob = s.glob := by
  have h := congrArg State.glob s.settle_same
  exact h

@[simp] theorem State.settle_mgt (s : State) : s.settle.mgt = s.mgt := by
  have h := congrArg State.mgt s.settle_same
  exact h

@[simp] theorem State.settle_fuse (s : State) : s.settle.fuse = s.fuse := by
  have h := congrArg State.fuse s.settle_same
  exact h

@[simp] theorem State.settle_dev (s : State) : s.settle.dev = s.dev := by
  have h := congrArg State.dev s.settle_same
  exact h

@[simp] theorem State.settle_clk (s : State) : s.settle.clk = s.clk := by
  have h := congrArg State.clk s.settle_same
  exact h

@[simp] theorem State.settle_pending (s : State) : s.settle.pending = s.pending := by
  have h := congrArg State.pending s.settle_same
  exact h

end Sys2Proof.Machine
end

