-- ==== Sys2Proof/WellFormed.lean ====
section
/-! DEFINITION. Well-formed commands: each operand lies in the range that the hardware gives it. A command that is not well formed
names a function, an allotment, a unit or a number that the PZ8 does not have (R2, R4, R8, R55, R198, R285, R302, R339, R467). -/

namespace Sys2Proof

/-- An index below n. -/
def below (n i : Nat) : Bool := decide (i < n)

/-- The size of a BAR0 access in bytes. -/
def accessSize (n : Nat) : Bool := n == 1 || n == 2 || n == 4 || n == 8

/-- A hearth and an engine of it. -/
def engineOk (h e : Nat) : Bool := below 2 h && below 32 e

/-- A hearth and a physical anvil of it. -/
def anvilOk (h a : Nat) : Bool := below 2 h && below 72 a

/-- The operands of a command lie in their ranges. -/
def Instr.wellFormed (i : Instr) : Bool :=
  match i with
  | .nop _ => true
  | .qCreate _ => true
  | .qDestroy _ => true
  | .flushRest _ => true
  | .allotCreate _ => true
  | .allotDestroy _ => true
  | .watch _ => true
  | .watchTimeout _ => true
  | .objCreate _ _ => true
  | .objFree _ => true
  | .objMove _ => true
  | .objPin _ => true
  | .objCopy _ => true
  | .poolSet _ => true
  | .tileRun _ seq => below 4 seq
  | .progLoad _ _ => true
  | .progRun _ engines => engines.all (below 32)
  | .barrier _ => true
  | .tokenWait _ => true
  | .tokenWaitTimeout _ => true
  | .temperSet _ => true
  | .temperRead _ => true
  | .statsRead _ => true
  | .scaleSet _ => true
  | .gridLoad _ => true
  | .spillSet _ => true
  | .stepMark _ => true
  | .updNorm _ sums => sums.all (fun e => below 16384 e.1)
  | .updApply _ => true
  | .updFreeze _ => true
  | .updRule _ => true
  | .peerMap _ => true
  | .routeRewrite _ => true
  | .collBegin _ => true
  | .collDeadline _ => true
  | .tailPolicy _ => true
  | .streamOpen _ _ => true
  | .streamClose _ => true
  | .pairBind _ => true
  | .bindWaitTimeout => true
  | .pairUnbind _ => true
  | .pairTimeout => true
  | .mirrorSet _ => true
  | .snapTake _ _ => true
  | .snapCommit _ => true
  | .fillBegin _ _ _ => true
  | .fillGrantExpiry fillId => below (2 ^ 32) fillId
  | .fillRead fillId _ => below (2 ^ 32) fillId
  | .fillChunk _ _ => true
  | .fillCommit _ => true
  | .quench _ => true
  | .restoreVerify _ => true
  | .fleetRate _ => true
  | .ctrConfig _ => true
  | .ctrRead _ => true
  | .traceConfig _ => true
  | .traceRead _ => true
  | .timeMeasure _ timing => timing.all (fun t => below 16384 t.peer)
  | .faultRead _ => true
  | .faultClear _ => true
  | .faultSeverity _ => true
  | .faultForce _ => true
  | .fence _ => true
  | .unfence _ _ => true
  | .selftest _ => true
  | .powerCap _ => true
  | .devInfo _ => true
  | .journalRead _ => true
  | .fwStage _ => true
  | .allotReset _ => true
  | .devReset _ _ => true
  | .commandAccept allot queue => below 16 allot && below 65536 queue
  | .commandStart _ => true
  | .commandComplete _ => true
  | .arbiterRound _ => true
  | .doorbellCommandWrite fn _ size _ => below 17 fn && accessSize size
  | .doorbellReplyRead fn _ size => below 17 fn && accessSize size
  | .gapSeen allot queue => below 16 allot && below 65536 queue
  | .doorbellErr fn => below 17 fn
  | .adminqEnable fn _ => below 17 fn
  | .adminqDisable fn _ => below 17 fn
  | .timestampLowRead fn => below 17 fn
  | .registerWrite fn offset size _ => below 17 fn && below 65536 offset && accessSize size
  | .unsupportedRequest fn offset => below 17 fn && below 65536 offset
  | .functionLevelResetVf vf => below 17 vf && vf != 0
  | .functionLevelResetPf _ => true
  | .vfRemoval _ numVfs => below 17 numVfs
  | .tileOpIssue hearth seq anvil => anvilOk hearth anvil && below 4 seq
  | .tileOpComplete _ op => below 65535 op
  | .epochCommit _ allot _ _ => below 16 allot
  | .lagBoundRelease _ => true
  | .temperSyncStats allot _ _ => below 16 allot
  | .tier3Allocation _ => true
  | .mirrorReservation allot mirrorId _ => below 16 allot && below (2 ^ 32) mirrorId
  | .unbindOrder => true
  | .keyInstallation port dir _ => below 24 port && below 2 dir
  | .keyRotation port dir _ => below 24 port && below 2 dir
  | .frameReceive port _ => below 24 port
  | .replayLimit port => below 24 port
  | .portRetrainTimeout port => below 24 port
  | .portTrained port failedLanes => below 24 port && failedLanes.all (below 104)
  | .packetReceive port _ => below 24 port
  | .retransmitTimeout vc peer _ _ => below 2 vc && below 16384 peer
  | .peerTimeout peer => below 16384 peer
  | .offsetMeasurement timing => below 16384 timing.peer
  | .brownOutLogExchange entries => decide (entries.length ≤ 256)
  | .faultEvent events => events.all (fun e => below 65536 e.source)
  | .remapComplete unit => below (2 ^ 32) unit
  | .correctedEventLimit source => below 65536 source
  | .handshakeWatchdog source _ => below 65536 source
  | .patrolRotation hearth spare => anvilOk hearth spare
  | .anvilTestStart hearth anvil => anvilOk hearth anvil
  | .anvilTestComplete hearth anvil _ _ => anvilOk hearth anvil
  | .entryCheckComplete hearth anvil _ => anvilOk hearth anvil
  | .paceWindow mhs0 mhs1 => below 32768 mhs0 && below 32768 mhs1
  | .bellowsTick _ _ _ _ cooled => cooled.all (below 169)
  | .powerOn _ => true
  | .brownOut _ => true
  | .sagEnd _ _ _ => true
  | .mainRailsOff rail => below 256 rail
  | .standbyRailOff => true
  | .inputOvervoltage _ => true
  | .powerRestart _ => true
  | .powerAttentionExpiry => true
  | .perstNAssert _ => true
  | .perstNDeassert _ => true
  | .hostLinkLoss _ => true
  | .pwrFailNAssert => true
  | .pwrFailNDeassert _ => true
  | .siteAlarmN => true
  | .feedIdSample straps => below 16 straps
  | .timebaseLoss => true
  | .timebaseReturn => true
  | .refclkSerdesLoss => true
  | .refclkPcieLoss _ => true
  | .mgmtRestart => true
  | .vTarget _ => true
  | .tjLimit _ => true
  | .feedIdOverride _ value => below 16 value
  | .gpioEffecter pin _ _ => below 4 pin
  | .sealFuse _ _ => true
  | .debugUnlock _ => true
  | .internalDebugAccess => true
  | .bypass => true
  | .idcode => true
  | .samplePreload _ => true
  | .extest => true
  | .clamp => true
  | .highz => true
  | .getVersion => true
  | .getCapabilities => true
  | .negotiateAlgorithms _ => true
  | .getDigests => true
  | .getCertificate slot _ _ => below 8 slot
  | .challenge _ => true
  | .getMeasurements index _ => below 256 index
  | .keyExchange _ => true
  | .finish _ => true
  | .heartbeat => true
  | .keyUpdate => true
  | .endSession => true
  | .requestUpdate _ => true
  | .passComponentTable _ => true
  | .updateComponent _ => true
  | .requestFirmwareData _ _ => true
  | .transferComplete => true
  | .verifyComplete => true
  | .applyComplete => true
  | .activateFirmware _ => true
  | .progBudgetExhausted hearth engine => engineOk hearth engine
  | .add hearth engine => engineOk hearth engine
  | .sub hearth engine => engineOk hearth engine
  | .mul hearth engine => engineOk hearth engine
  | .fma hearth engine => engineOk hearth engine
  | .min hearth engine => engineOk hearth engine
  | .max hearth engine => engineOk hearth engine
  | .abs hearth engine => engineOk hearth engine
  | .sel hearth engine => engineOk hearth engine
  | .cmplt hearth engine => engineOk hearth engine
  | .cmpeq hearth engine => engineOk hearth engine
  | .cvti hearth engine => engineOk hearth engine
  | .widen hearth engine => engineOk hearth engine
  | .narrow hearth engine => engineOk hearth engine
  | .exp hearth engine => engineOk hearth engine
  | .exp2 hearth engine => engineOk hearth engine
  | .log hearth engine => engineOk hearth engine
  | .log2 hearth engine => engineOk hearth engine
  | .rcp hearth engine => engineOk hearth engine
  | .rsqrt hearth engine => engineOk hearth engine
  | .sqrt hearth engine => engineOk hearth engine
  | .redsum hearth engine => engineOk hearth engine
  | .redmax hearth engine => engineOk hearth engine
  | .srnd hearth engine => engineOk hearth engine
  | .ld hearth engine => engineOk hearth engine
  | .st hearth engine => engineOk hearth engine
  | .ldh hearth engine => engineOk hearth engine
  | .sth hearth engine => engineOk hearth engine
  | .gather hearth engine => engineOk hearth engine
  | .scatter hearth engine => engineOk hearth engine
  | .sAdd hearth engine => engineOk hearth engine
  | .sSub hearth engine => engineOk hearth engine
  | .sMul hearth engine => engineOk hearth engine
  | .and hearth engine => engineOk hearth engine
  | .or hearth engine => engineOk hearth engine
  | .shl hearth engine => engineOk hearth engine
  | .shr hearth engine => engineOk hearth engine
  | .fadd hearth engine => engineOk hearth engine
  | .fmul hearth engine => engineOk hearth engine
  | .frsqrt hearth engine => engineOk hearth engine
  | .mov hearth engine => engineOk hearth engine
  | .jmp hearth engine => engineOk hearth engine
  | .jnz hearth engine => engineOk hearth engine
  | .jlt hearth engine => engineOk hearth engine
  | .vecBarrier hearth engine => engineOk hearth engine
  | .halt hearth engine => engineOk hearth engine
  | .vfEnable numVfs => below 17 numVfs
  | .managementControllerResumes => true
  | .matchingPairBind p => below 16384 p.peer

end Sys2Proof
end

