-- ==== Sys2Proof/Tests/Slice0.lean ====
section
/-! SUPPORT. Tests: what WellFormed refuses, states in which the hypotheses of each statement hold, and single steps on small states. -/

open Sys2Proof Sys2Proof.Machine

namespace Sys2Proof.Tests

set_option maxRecDepth 100000
set_option Elab.async false

/-! ## Small states

A command under test has the identity 4, and belongs to queue 2 of allotment 0 where nothing else is said. F makes parameters of fields
(offset, size, value). -/

def F (l : List (Nat × Nat × Nat)) : Nat := l.foldl (fun p e => p + (e.2.2 % 256 ^ e.2.1) * 256 ^ e.1) 0
def hearth (p : Bool) : Hearth :=
  { present := p, stackGrade := [0, 0, 0, 0], anvils := (List.range 72).map (fun i => ({ role := if i < 64 then .active else .spare, pos := if i < 64 then i else 0 } : Anvil)) }
def up : State :=
  { State.reset with
    dev := { inputUp := true, standby := true, mainRails := true, linkUp := true, bootStep := 10, bootState := 1, starts := 1, vfEnable := true, numVfs := 3, serial := 77, ctrlGrade := [0, 0, 0, 0] }
    clk := { ts := 5000000000#64 }
    hearths := [hearth true, hearth true]
    allots := (List.range 16).map (fun a => ({ live := decide (a < 3), gen := 1, pools := List.replicate 6 { quota := 8192, reserve := 0 } } : Allot))
    fab := { ports := List.replicate 24 { up := true }, self := 5 } }
def raw (n : Nat) (data : Bytes) (tier : Nat := 2) : Obj := { t := { data := data }, size := n, charged := n, tier := tier }
def ten (fmt smode rows len : Nat) (data : Bytes := []) (tier : Nat := 2) : Obj :=
  let t : Tensor := { raw := false, fmt := fmt, smode := smode, rows := rows, rowLen := len, data := data }
  { t := t, size := t.size, charged := roundUp t.size 4096, tier := tier }
def bytesOf (off : Nat) (n len : Nat) : Bytes := ((leBytes n len).zipIdx.map (fun e => (off + e.2, e.1))).filter (fun e => e.2 != 0)
def withObjs (s : State) (a : Nat) (l : List (Nat × Obj)) : State := s.modAl a (fun x => { x with objs := l })
def start (s : State) (op params : Nat) (a : Nat := 0) (arb : Bool := false) (flags : Nat := 0) : State :=
  let c : Cmd := { id := 4, allot := a, queue := 2, acc := 9, opcode := op, flags := flags, plen := 112, params := params, gen := 1, phase := .started, tAccept := 4000000000, tStart := 4500000000, replyQ := 1 }
  { s with hg := { s.hg with cmds := s.hg.cmds ++ [c], nextId := 10, arb := (if arb then [4] else []) } }
def other (s : State) (op params : Nat) (id : Nat := 3) (a : Nat := 0) (q : Nat := 2) (ph : Phase := .started) : State :=
  { s with hg := { s.hg with cmds := s.hg.cmds ++ [{ id := id, allot := a, queue := q, opcode := op, plen := 112, params := params, gen := 1, phase := ph, replyQ := 1 }], nextId := 10 } }
def setPhase (s : State) (ph : Phase) (id : Nat := 4) : State := s.modCmd id (fun c => { c with phase := ph })
def ord (s : State) (op params : Nat) (a : Nat := 0) : State := start s op params a true
def q0 : QDesc := { base := 0x10000#64, log2 := 4, replyQ := 1, devPtr := 3, hostPtr := 5 }
def r0 : QDesc := { base := 0x20000#64, reply := true, log2 := 7, devPtr := 10, hostPtr := 7 }
def qs (l : List (Nat × QDesc)) (s : State) (a : Nat := 0) : State := s.modAl a (fun x => { x with queues := l })
def upq : State := qs [(0, q0), (1, r0), (2, q0), (3, { r0 with base := 0x30000#64 })] up
def badHost (l : List (Nat × Nat)) (s : State) : State := { s with host := { s.host with bad := l } }
def cells (l : Bytes) (s : State) : State := { s with host := { s.host with bytes := l } }
def pkt (op params : Nat) (plen : Nat := 16) (dep : Nat := 0) (flags : Nat := 0) : Nat := op + flags * 2^16 + 0xABCD * 2^32 + dep * 2^64 + plen * 2^96 + params * 2^128
def slot (i p : Nat) (s : State) : State := cells (bytesOf (0x10000 + 128 * i) p 128) s
def setP (f : Cmd → Cmd) (s : State) (id : Nat := 4) : State := s.modCmd id f
def port (p : Nat) (f : Port → Port) (s : State) : State := { s with fab := { s.fab with ports := s.fab.ports.set p (f (s.port p)) } }
def pr (f : Pair → Pair) (s : State) : State := { s with pair := f s.pair }
def nx (i : Instr) (s : State) : State := match exec i s with
  | .next t => t
  | _ => s
def mg (f : Mgmt → Mgmt) (s : State) : State := { s with mgt := f s.mgt }
def fl (f : Faults → Faults) (s : State) : State := { s with flt := f s.flt }
/-- State i of a list. -/
def nth (l : List State) (i : Nat) : State := l.getD i up
/-- Command 4. -/
def cmd4 (s : State) : Cmd := (s.cmd? 4).getD { id := 4 }
/-- The packet at the head of queue q. -/
def headBytes (s : State) (a q : Nat) : List Byte := match s.atHead ((s.queue? a q).getD {}) with
  | .packet bs => bs
  | _ => []

theorem forall_get {α : Type} (l : List α) (P : Nat → α → Prop) (h : ∀ e ∈ l.zipIdx, P e.2 e.1) (j : Nat) (p : α) (hj : l[j]? = some p) :
    P j p :=
  h (p, j) (List.mem_zipIdx_iff_getElem?.mpr hj)

theorem forall_hearth (s : State) (P : Hearth → Prop) (h : ∀ x ∈ s.hearths, P x) (h0 : P {}) (k : Nat) : P (s.he k) := by
  unfold State.he
  rw [List.getD_eq_getElem?_getD]
  cases hk : s.hearths[k]? with
  | none => exact h0
  | some x => exact h x (List.mem_of_getElem? hk)

theorem of_any {α : Type} (o : Option α) (p : α → Prop) [DecidablePred p] (h : o.any (fun x => decide (p x)) = true) : ∃ x, p x := by
  cases o with
  | none => cases h
  | some x => exact ⟨x, of_decide_eq_true h⟩

/-! ## An image that a ROM key has signed (R441) -/

/-- Bytes 0 to 31: MAGIC, VERSION 9, SVN 2, key slot 0, LEN 1. -/
def imgHead : List Byte := leBytes (0x505A3846 + 9 * 2 ^ 32 + 2 * 2 ^ 64 + 2 ^ 128) 32
def imgSigned : List Byte := imgHead ++ beBytes (sha384N [7#8]) 48
/-- The whole image: header, BODY_HASH, SIGNATURE, padding and a body of one byte. -/
def signedImage : List Byte := imgSigned ++ (beBytes (Config.ecdsaSign 0 (sha384N imgSigned)) 96 ++ (zeros 3920 ++ [7#8]))

theorem sha384N_lt (bs : List Byte) : sha384N bs < 2 ^ 384 := by
  have h : (sha384 bs).length ≤ 48 := by
    have go : ∀ l : List W64, l.length ≤ 6 → (l.flatMap (fun w => beBytes w.toNat 8)).length ≤ 48 := by
      intro l hl
      have : (l.flatMap (fun w => beBytes w.toNat 8)).length = 8 * l.length := by
        clear hl
        induction l with
        | nil => rfl
        | cons w l ih => rw [List.flatMap_cons, List.length_append, ih, beBytes_length, List.length_cons]; omega
      omega
    exact go _ (by rw [List.length_take]; exact Nat.min_le_left _ _)
  exact Nat.lt_of_lt_of_le (beNat_lt _) (Nat.le_trans (Nat.pow_le_pow_right (by decide : 256 > 0) h) (by decide))

theorem imgHead_length : imgHead.length = 32 := leBytes_length _ _
theorem imgSigned_length : imgSigned.length = 80 := by rw [imgSigned, List.length_append, imgHead_length, beBytes_length]
theorem signedImage_length : signedImage.length = 4097 := by
  rw [signedImage, List.length_append, List.length_append, List.length_append, imgSigned_length, beBytes_length, zeros_length]
  rfl

/-- A field of the first 32 bytes. -/
theorem signedImage_field {off size : Nat} (h : off + size ≤ 32) : bytesField signedImage off size = bytesField imgHead off size := by
  unfold bytesField signedImage imgSigned
  rw [List.append_assoc, List.drop_append_of_le_length (by rw [imgHead_length]; omega), List.take_append_of_le_length (by rw [List.length_drop, imgHead_length]; omega)]

theorem signedImage_ok : imageBytesOk signedImage = true := by
  have e1 : signedImage = (imgSigned ++ beBytes (Config.ecdsaSign 0 (sha384N imgSigned)) 96 ++ zeros 3920) ++ [7#8] := by
    rw [signedImage, List.append_assoc, List.append_assoc]
  have hb : (signedImage.drop 0x1000).take 1 = [7#8] := by
    have hl : (imgSigned ++ beBytes (Config.ecdsaSign 0 (sha384N imgSigned)) 96 ++ zeros 3920).length = 0x1000 := by
      rw [List.length_append, List.length_append, imgSigned_length, beBytes_length, zeros_length]
    rw [e1, List.drop_left' hl]
    rfl
  have hh : (signedImage.drop 0x20).take 48 = beBytes (sha384N [7#8]) 48 := by
    unfold signedImage imgSigned
    rw [List.append_assoc, List.drop_left' imgHead_length, List.take_left' (beBytes_length _ _)]
  have hs : (signedImage.drop 0x50).take 96 = beBytes (Config.ecdsaSign 0 (sha384N imgSigned)) 96 := by
    unfold signedImage
    rw [List.drop_left' imgSigned_length, List.take_left' (beBytes_length _ _)]
  have ht : signedImage.take 0x50 = imgSigned := by
    unfold signedImage
    exact List.take_left' imgSigned_length
  unfold imageBytesOk
  simp only [signedImage_field (off := 0x10) (size := 4) (by decide), signedImage_field (off := 0) (size := 4) (by decide), signedImage_field (off := 8) (size := 4) (by decide),
    signedImage_field (off := 0xC) (size := 1) (by decide), show bytesField imgHead 0x10 4 = 1 by decide +kernel, show bytesField imgHead 0 4 = 0x505A3846 by decide +kernel,
    show bytesField imgHead 8 4 = 2 by decide +kernel, show bytesField imgHead 0xC 1 = 0 by decide +kernel, hb, hh, hs, ht, signedImage_length, beNat_beBytes]
  rw [Nat.mod_eq_of_lt (show sha384N [7#8] < 256 ^ 48 from sha384N_lt _)]
  rw [show (256 : Nat) ^ 96 = 2 ^ 768 by decide +kernel]
  simp only [ecdsaValid, beq_self_eq_true, Bool.true_or, Bool.and_true]
  decide

theorem signedImage_ne : signedImage ≠ [] := fun h => by have := signedImage_length; rw [h] at this; cases this

theorem signedImage_authentic (f : Fuses) (h0 : f.revoked.testBit 0 = false) (hs : f.svn ≤ 2) : (fwImageOf signedImage).authentic f = true := by
  simp [Image.authentic, fwImageOf, signedImage_ne, signedImage_ok, signedImage_field, show bytesField imgHead 8 4 = 2 by decide +kernel, show bytesField imgHead 0xC 1 = 0 by decide +kernel, h0, hs]


namespace Vectors

def vw (op typ : Nat) (vd va vb vc p zm sc : Nat := 0) : Nat := 0 + op * 2^4 + vd * 2^12 + va * 2^18 + vb * 2^24 + vc * 2^30 + p * 2^36 + zm * 2^39 + typ * 2^40 + sc * 2^42
def viw (op typ : Nat) (vd va p zm imm : Nat := 0) : Nat := 1 + op * 2^4 + vd * 2^12 + va * 2^18 + p * 2^24 + zm * 2^27 + typ * 2^28 + imm * 2^32
def lanes (f : Nat → Nat) : List W32 := (List.range 256).map (fun i => BitVec.ofNat 32 (f i))
def eng : Engine := { run := some (4, 0), v := [(1, lanes (fun i => 0x3F800000 + 12345 * i)), (2, lanes (fun i => if i % 7 = 0 then 0x7FC00001 else if i % 5 = 0 then 0x00000007 else 0xC0490FDB + i)), (3, lanes (fun i => 0x80000000 + i * 0x01010101)), (4, lanes (fun i => i))], s := [(1, 5#64), (2, 0xFFFFFFFFFFFFFFFD#64), (3, 0x3F800000#64), (4, 64#64), (5, 31#64)], p := [(1, 0xF0F0F0F0F0F0F0F0F0F0F0F0F0F0F0F0F0F0F0F0F0F0F0F0#256), (2, 1#256)] }
def vst (w : Nat) (ftz : Bool := false) (budget : Nat := 0) (wins : List Window := []) (e1 : Engine → Engine := id) (e0 : Engine → Engine := id) : State :=
  let s := setPhase (start (withObjs up 0 [(2, ten 4 0 8 64 [(0, 0x80), (1, 0x3F), (64, 0x40), (65, 0x40), (3, 0xC0)]), (3, ten 8 0 8 64 [(0, 1), (3, 0x40)]), (5, ten 0 3 8 64 [(0, 1), (3, 0x40)]), (6, ten 9 0 8 64 [(0, 1), (3, 0x40)])]) 0x0311 (F [(0,2,1),(3,1,2)])) .working
  let s := setP (fun c => { c with aux := [] }) s
  let s := s.modAl 0 (fun x => { x with progs := [{ pid := 1, words := [BitVec.ofNat 64 w, 0x1105#64], ftz := ftz }] })
  s.modHe 0 (fun x => { x with runs := [{ cmd := 4, allot := 0, pid := 1, ftz := ftz, engines := [0, 1], budget := budget, wins := wins, gens := [(7#64, 9#32), (0, 0), (0, 0), (0, 0)] }], engines := [e0 eng, e1 { eng with run := some (4, 1), pc := 1 }] ++ x.engines.drop 2 })
def sw (op sd sa sb : Nat) (imm : Nat := 0) (c : Nat := 0) : Nat := 4 + op * 16 + sd * 2^12 + sa * 2^17 + sb * 2^22 + c * 2^27 + imm * 2^32
def jw (op sa sb tgt : Nat) : Nat := 5 + op * 16 + sa * 2^12 + sb * 2^17 + tgt * 2^32
def mw (op vd win soff fmt mp : Nat) (imm : Nat := 0) (idx : Nat := 4) : Nat := 2 + op * 16 + vd*2^12 + win * 2^18 + soff * 2^21 + fmt * 2^26 + mp * 2^30 + idx * 2^42 + imm * 2^48
def wins : List Window := [{ handle := 2, write := true }, { handle := 3, write := true, offset := 1 }, { handle := 5, write := true }, { handle := 6, write := true }, { handle := 2 }]
def ms (w : Nat) (ftz : Bool := false) : State := vst w ftz 0 wins
def ldW : List Nat := [mw 1 1 0 0 4 0, mw 1 1 0 4 4 1 1, mw 1 2 1 0 8 2, mw 1 2 3 0 9 1, mw 5 2 0 0 4 0, mw 3 1 0 0 4 1, mw 3 1 2 0 0 0, mw 3 1 1 1 8 1, mw 1 1 0 5 4 0]
def stW : List Nat := [mw 2 1 0 0 4 0, mw 2 2 0 4 4 1 1, mw 2 2 1 0 8 2, mw 2 3 3 0 9 1, mw 6 2 0 0 4 0, mw 4 1 0 0 4 1, mw 4 1 2 0 0 0, mw 4 1 1 1 8 1, mw 2 1 2 0 0 0, mw 2 1 2 0 0 3, mw 2 1 4 0 4 3, mw 2 1 4 0 4 2]
def bar : Nat := 5 + 0x10 * 16
def hlt : Nat := 5 + 0x11 * 16
def rc : List State := [vst bar, vst bar false 0 [] (fun e => { e with atBarrier := true }), vst hlt, vst hlt false 0 [] (fun e => { e with halted := true }), setP (fun c => { c with aux := [0] }) (vst hlt false 0 [] (fun e => { e with halted := true })),
  vst bar false 10 [] id (fun e => { e with count := 10 }), vst hlt false 10 [] id (fun e => { e with count := 9 }), ms (mw 1 1 0 5 4 0)]
def prg : State := up.modAl 0 (fun x => { x with progs := [{ pid := 1, words := [0x115#64] }] })

def poolLoads : Nat → State := nth (ldW.map ms)
def poolStores : Nat → State := nth (stW.map ms)
def poolRunControl : Nat → State := nth (rc)
def poolCompares : Nat → State := nth ([vst (vw 9 0 3 1 2 3 1)])
def poolNanRule : Nat → State := nth ([vst (vw 9 0 3 1 2 3 1)])
def poolScalars : Nat → State := nth ([vst (jw 1 0 0 7), vst (jw 2 1 0 7), vst (jw 3 2 1 9)])
def poolReductions : Nat → State := nth ([vst (vw 0x20 0 6 1 0 0 1), vst (vw 0x21 0 6 1 0 0 1), vst (vw 0x20 2 6 1 0 0 1), vst (vw 0x21 2 6 1 0 0 1)])
def poolPrograms : Nat → State := nth ([start prg 0x0310 (F [(0xC,2,1)]), start (withObjs prg 0 [(1, raw 4096 [(0, 0x15#8), (1, 1#8)])]) 0x0310 (F [(0,8,1),(8,4,1)]), start (withObjs prg 0 [(1, raw 4096 [])]) 0x0310 (F [(0,8,1),(8,4,1)]), start (withObjs prg 0 [(1, raw 4096 [])]) 0x0311 (F [(0,2,1),(3,1,2),(8,8,1)])])

/-- The engines' next instruction is op, by TYPE, and may issue. -/
def readyV (op typ : Nat) : Prop := ∃ (s : State) (h e : Nat) (x : Ctx), s.VecReady h e op x ∧ x.typ = typ
def readyS (op : Nat) : Prop := ∃ (s : State) (h e : Nat) (x : Ctx), s.InstrReady h e 4 op x

def bare (w : Nat) : State := vst w false 0 [] id (fun e => { e with v := [] })

theorem readyV_of (op typ : Nat) (h : ((bare (vw op typ 5 1 2 3 1)).ctx? 0 0).any (fun x => decide ((bare (vw op typ 5 1 2 3 1)).VecReady 0 0 op x ∧ x.typ = typ)) = true) :
    readyV op typ := by
  obtain ⟨x, hx⟩ := of_any _ _ h
  exact ⟨_, 0, 0, x, hx⟩

theorem readyS_of (op : Nat) (h : ((bare (sw op 9 1 2)).ctx? 0 0).any (fun x => decide ((bare (sw op 9 1 2)).InstrReady 0 0 4 op x)) = true) : readyS op := by
  obtain ⟨x, hx⟩ := of_any _ _ h
  exact ⟨_, 0, 0, x, hx⟩

/-- Each row of LaneArithmetic, with each of its types, and of LaneFunctions may issue somewhere. -/
theorem met_LaneRows : ∀ e ∈ [(0x01, 2), (0x02, 2), (0x03, 2), (0x05, 2), (0x06, 2), (0x07, 2), (0x01, 0), (0x01, 1), (0x02, 0), (0x02, 1), (0x03, 0), (0x03, 1),
    (0x04, 0), (0x04, 1), (0x05, 0), (0x05, 1), (0x06, 0), (0x06, 1), (0x07, 0), (0x07, 1), (0x08, 0), (0x08, 1), (0x08, 2), (0x0B, 2), (0x0C, 1), (0x0D, 0),
    (0x30, 2), (0x10, 0), (0x11, 0), (0x12, 0), (0x13, 0), (0x14, 0), (0x15, 0), (0x16, 0)], readyV e.1 e.2 :=
  fun e he => readyV_of e.1 e.2 (by revert e; decide +kernel)

/-- Each row of ScalarResult may issue somewhere. -/
theorem met_ScalarRows : ∀ op ∈ [1, 2, 3, 4, 5, 6, 7, 8, 9, 10, 11], readyS op :=
  fun op ho => readyS_of op (by revert op; decide +kernel)

theorem sumN_map_le {α : Type} (l : List α) (f g : α → Nat) (h : ∀ x, f x ≤ g x) : sumN (l.map f) ≤ sumN (l.map g) := by
  have go : ∀ (l : List α) a b, a ≤ b → (l.map f).foldl (· + ·) a ≤ (l.map g).foldl (· + ·) b := by
    intro l
    induction l with
    | nil => intro a b hab; exact hab
    | cons x l ih => intro a b hab; exact ih _ _ (Nat.add_le_add hab (h x))
  exact go l 0 0 (Nat.le_refl 0)

theorem storeUse_le (s : State) (h : Nat) : s.storeUse h ≤ sumN (s.allots.map (fun x => sumN (x.progs.map (fun p => p.words.length)))) :=
  sumN_map_le _ _ _ (fun x => sumN_map_le _ _ _ (fun p => by split <;> omega))

theorem small (h : Nat) : ((poolPrograms 1).named (cmd4 (poolPrograms 1))).storeUse h + ((((poolPrograms 1).named (cmd4 (poolPrograms 1))).imageOf (cmd4 (poolPrograms 1)))).length ≤ 32768 :=
  Nat.le_trans (Nat.add_le_add_right (storeUse_le _ h) _) (by decide +kernel)

/-- The hypotheses of each clause of NanRule hold together. -/
theorem met_NanRule :
    (∃ z : Bool, ∃ f : Fp → Fp → Fp → Fp, ∃ a, ∃ b, ∃ c, (f (dec32 (flush32 z a)) (dec32 (flush32 z b)) (dec32 (flush32 z c))).isNan = true) ∧
    (∃ z : Bool, ∃ f : Fp → Fp → Fp → Fp, ∃ a, ∃ b, ∃ c, (f (decB16 (flushB16 z a)) (decB16 (flushB16 z b)) (decB16 (flushB16 z c))).isNan = true) ∧
    (∃ a, ∃ b, ((dec32 a).isNan = true ∨ (dec32 b).isNan = true)) ∧
    (∃ s : State, ∃ h, ∃ e, ∃ x, (s.VecReady h e 0x09 x ∨ s.VecReady h e 0x0A x) ∧ x.typ = 0) :=
  ⟨⟨false, fun p _ _ => p, 0x7FC00001#32, 0, 0, by decide +kernel⟩,
   ⟨false, fun p _ _ => p, 0x7FC1, 0, 0, by decide +kernel⟩,
   ⟨0x7FC00001#32, 0, by decide +kernel⟩,
   ⟨poolNanRule 0, 0, 0, ((poolNanRule 0).ctx? 0 0).get (by decide +kernel), by decide +kernel⟩⟩

/-- The hypotheses of Compares hold together. -/
theorem met_Compares : ∃ s : State, ∃ h, ∃ e, ∃ x, (s.VecReady h e 0x09 x ∨ s.VecReady h e 0x0A x) :=
  ⟨poolCompares 0, 0, 0, ((poolCompares 0).ctx? 0 0).get (by decide +kernel), by decide +kernel⟩

/-- The hypotheses of each clause of Scalars hold together. -/
theorem met_Scalars :
    (∃ s : State, ∃ h, ∃ e, ∃ x, s.InstrReady h e 5 0x01 x) ∧
    (∃ s : State, ∃ h, ∃ e, ∃ x, s.InstrReady h e 5 0x02 x) ∧
    (∃ s : State, ∃ h, ∃ e, ∃ x, s.InstrReady h e 5 0x03 x) :=
  ⟨⟨poolScalars 0, 0, 0, ((poolScalars 0).ctx? 0 0).get (by decide +kernel), by decide +kernel⟩,
   ⟨poolScalars 1, 0, 0, ((poolScalars 1).ctx? 0 0).get (by decide +kernel), by decide +kernel⟩,
   ⟨poolScalars 2, 0, 0, ((poolScalars 2).ctx? 0 0).get (by decide +kernel), by decide +kernel⟩⟩

/-- The hypotheses of each clause of RunControl hold together. -/
theorem met_RunControl :
    (∃ s : State, ∃ h, ∃ e, ∃ x, s.InstrReady h e 5 0x10 x) ∧
    (∃ s : State, ∃ h, ∃ e, ∃ x, s.InstrReady h e 5 0x11 x ∧ (∃ i ∈ x.run.engines, i ≠ e ∧ (s.engine h i).halted = false)) ∧
    (∃ s : State, ∃ h, ∃ e, ∃ x, s.InstrReady h e 5 0x11 x ∧ (∀ i ∈ x.run.engines, i ≠ e → (s.engine h i).halted = true) ∧ x.c.aux.headD 0 = 0) ∧
    (∃ s : State, ∃ h, ∃ e, ∃ x, s.ctx? h e = some x ∧ x.run.budget ≠ 0 ∧ x.run.budget ≤ x.eng.count) ∧
    (∃ s : State, ∃ h, ∃ e, ∃ x, s.InstrReady h e 2 0x01 x ∧ x.elemBase % 32 ≠ 0) :=
  ⟨⟨poolRunControl 0, 0, 0, ((poolRunControl 0).ctx? 0 0).get (by decide +kernel), by decide +kernel⟩,
   ⟨poolRunControl 2, 0, 0, ((poolRunControl 2).ctx? 0 0).get (by decide +kernel), by decide +kernel⟩,
   ⟨poolRunControl 3, 0, 0, ((poolRunControl 3).ctx? 0 0).get (by decide +kernel), by decide +kernel⟩,
   ⟨poolRunControl 5, 0, 0, ((poolRunControl 5).ctx? (0) (0)).get (by decide +kernel), by decide +kernel⟩,
   ⟨poolRunControl 7, 0, 0, ((poolRunControl 7).ctx? 0 0).get (by decide +kernel), by decide +kernel⟩⟩

/-- The hypotheses of each clause of Reductions hold together. -/
theorem met_Reductions :
    (∃ s : State, ∃ h, ∃ e, ∃ x, s.VecReady h e 0x20 x ∧ x.typ = 0 ∧ x.srcA.length = 256) ∧
    (∃ s : State, ∃ h, ∃ e, ∃ x, s.VecReady h e 0x21 x ∧ x.typ = 0 ∧ x.srcA.length = 256) ∧
    (∃ s : State, ∃ h, ∃ e, ∃ x, s.VecReady h e 0x20 x ∧ x.typ = 2 ∧ x.srcA.length = 256) ∧
    (∃ s : State, ∃ h, ∃ e, ∃ x, s.VecReady h e 0x21 x ∧ x.typ = 2 ∧ x.srcA.length = 256) :=
  ⟨⟨poolReductions 0, 0, 0, ((poolReductions 0).ctx? 0 0).get (by decide +kernel), by decide +kernel⟩,
   ⟨poolReductions 1, 0, 0, ((poolReductions 1).ctx? 0 0).get (by decide +kernel), by decide +kernel⟩,
   ⟨poolReductions 2, 0, 0, ((poolReductions 2).ctx? 0 0).get (by decide +kernel), by decide +kernel⟩,
   ⟨poolReductions 3, 0, 0, ((poolReductions 3).ctx? 0 0).get (by decide +kernel), by decide +kernel⟩⟩

/-- The hypotheses of each clause of Loads hold together. -/
theorem met_Loads :
    (∃ s : State, ∃ h, ∃ e, ∃ x, s.InstrReady h e 2 0x01 x ∧ x.elemBase % 32 = 0 ∧ s.accessOk x (x.lanes.map (fun i => x.elemBase + i)) false = true ∧ s.Clean x.run.allot) ∧
    (∃ s : State, ∃ h, ∃ e, ∃ x, s.InstrReady h e 2 0x05 x ∧ x.elemBase % 32 = 0 ∧ x.fmt = 4 ∧ s.accessOk x (x.lanes.flatMap (fun i => [x.elemBase + 2 * i, x.elemBase + 2 * i + 1])) false = true ∧ s.Clean x.run.allot) ∧
    (∃ s : State, ∃ h, ∃ e, ∃ x, s.InstrReady h e 2 0x03 x ∧ s.accessOk x (x.lanes.map x.lanePlace) false = true ∧ s.Clean x.run.allot) :=
  ⟨⟨poolLoads 0, 0, 0, ((poolLoads 0).ctx? 0 0).get (by decide +kernel), by decide +kernel⟩,
   ⟨poolLoads 4, 0, 0, ((poolLoads 4).ctx? 0 0).get (by decide +kernel), by decide +kernel⟩,
   ⟨poolLoads 5, 0, 0, ((poolLoads 5).ctx? 0 0).get (by decide +kernel), by decide +kernel⟩⟩

/-- The hypotheses of each clause of Stores hold together. -/
theorem met_Stores :
    (∃ s : State, ∃ h, ∃ e, ∃ x, s.InstrReady h e 2 0x02 x ∧ x.elemBase % 32 = 0 ∧ s.accessOk x (x.lanes.map (fun i => x.elemBase + i)) true = true ∧ (s.winObj x).poison = []) ∧
    (∃ s : State, ∃ h, ∃ e, ∃ x, s.InstrReady h e 2 0x06 x ∧ x.elemBase % 32 = 0 ∧ x.fmt = 4 ∧ s.accessOk x (x.lanes.flatMap (fun i => [x.elemBase + 2 * i, x.elemBase + 2 * i + 1])) true = true ∧ (s.winObj x).poison = []) ∧
    (∃ s : State, ∃ h, ∃ e, ∃ x, s.InstrReady h e 2 0x04 x ∧ s.accessOk x (x.lanes.map x.lanePlace) true = true ∧ isBlock (s.winObj x).t.smode = false ∧ (s.winObj x).poison = []) :=
  ⟨⟨poolStores 0, 0, 0, ((poolStores 0).ctx? 0 0).get (by decide +kernel), by decide +kernel⟩,
   ⟨poolStores 4, 0, 0, ((poolStores 4).ctx? 0 0).get (by decide +kernel), by decide +kernel⟩,
   ⟨poolStores 5, 0, 0, ((poolStores 5).ctx? 0 0).get (by decide +kernel), by decide +kernel⟩⟩

/-- The hypotheses of each clause of Programs hold together. -/
theorem met_Programs :
    (∃ s : State, ∃ id, ∃ c : Cmd, s.Runs id 0x0310 progLoadFields c ∧ c.allot < s.allots.length ∧ c.par 8 4 = 0 ∧ (∀ d ∈ s.hg.cmds, d.allot = c.allot → d.opcode = 0x0311 → d.phase = .done)) ∧
    (∃ s : State, ∃ id, ∃ c : Cmd, s.Runs id 0x0310 progLoadFields c ∧ c.allot < s.allots.length ∧ c.par 8 4 ≠ 0 ∧ (s.al c.allot).progs.length < 65535 ∧ (s.named c).Clean c.allot ∧ (∀ w ∈ ((s.named c).imageOf c), wordOk w = true) ∧ (∀ h, s.hearthUp h = true → (s.named c).storeUse h + ((s.named c).imageOf c).length ≤ 32768)) ∧
    (∃ s : State, ∃ id, ∃ c : Cmd, s.Runs id 0x0310 progLoadFields c ∧ c.allot < s.allots.length ∧ c.par 8 4 ≠ 0 ∧ (s.named c).Clean c.allot ∧ ∃ i, ((s.named c).imageOf c).findIdx? (fun w => !wordOk w) = some i) ∧
    (∃ s : State, ∃ id, ∃ es, ∃ c : Cmd, ∃ p, s.Runs id 0x0311 progRunFields c ∧ c.allot < s.allots.length ∧ s.hearths.length = 2 ∧ (s.named c).Clean c.allot ∧ (s.named c).badLaunch c.allot ((s.named c).launchOf c) = none ∧ (s.named c).hearthOpen c (c.par 2 1) = true ∧ (c.par 2 1) < 2 ∧ (s.named c).reachable c ((s.named c).namesNow c) = none ∧ (s.named c).runAhead c = false ∧ (sortN es).length = c.par 3 1 ∧ c.par 3 1 ≤ ((s.he (c.par 2 1)).engines.filter (fun e => !e.fenced && !e.draining)).length ∧ (∀ i ∈ sortN es, i < (s.he (c.par 2 1)).engines.length ∧ (s.engine (c.par 2 1) i).free = true) ∧ (s.al c.allot).prog? (c.par 0 2) = some p) :=
  ⟨⟨poolPrograms 0, 4, cmd4 (poolPrograms 0), by decide +kernel⟩,
   ⟨poolPrograms 1, 4, cmd4 (poolPrograms 1), by decide +kernel, by decide +kernel, by decide +kernel, by decide +kernel, by decide +kernel, by decide +kernel,
    fun h _ => small h⟩,
   ⟨poolPrograms 2, 4, cmd4 (poolPrograms 2), by decide +kernel, by decide +kernel, by decide +kernel, by decide +kernel, 0, by decide +kernel⟩,
   ⟨poolPrograms 3, 4, [0, 1], cmd4 (poolPrograms 3), (((poolPrograms 3).al (cmd4 (poolPrograms 3)).allot).prog? ((cmd4 (poolPrograms 3)).par 0 2)).get (by decide +kernel), by decide +kernel⟩⟩

end Vectors

namespace Rings

def tok (c n : Nat) (s : State) : State := s.modAl 0 (fun x => { x with tokens := put c n x.tokens })
def pWait : List State := [
  start up 0x0320 (F [(0,2,5),(2,1,0)]), start up 0x0320 (F [(0,2,0),(2,1,1)]), tok 5 (2^20-1) (start up 0x0320 (F [(0,2,5),(2,1,0)])),
  other (start up 0x0320 (F [(0,2,5),(2,1,0)])) 0x100 0 3, other (start up 0x0320 (F [(0,2,5),(2,1,1)])) 0x100 0 3 0 7, other (start up 0x0320 (F [(0,2,5),(2,1,0)])) 0x100 0 3 0 7,
  tok 5 3 (start up 0x0321 (F [(0,4,5+4096*2)])), tok 5 3 (start up 0x0321 (F [(0,4,5+4096*4)])), setPhase (tok 5 3 (start up 0x0321 (F [(0,4,5+4096*4),(4,4,10000)]))) .working,
  setPhase (start up 0x0120 (F [(0,4,0),(4,4,10000)])) .working, start up 0x0120 (F [(0,4,0)]), start up 0x0120 (F [(0,4,7)])]
def pRing : List State := [
  start upq 0x0101 (F [(0,2,9),(2,1,0),(3,1,5),(4,2,1),(8,8,0x40000)]), cells [(0x40010, 7), (0x50000, 9)] (start upq 0x0101 (F [(0,2,9),(2,1,1),(3,1,6),(8,8,0x40000)])),
  badHost [(0x40100, 0x40104)] (start upq 0x0101 (F [(0,2,9),(2,1,1),(3,1,6),(8,8,0x40000)])),
  start upq 0x0102 (F [(0,2,3)]), start upq 0x0102 (F [(0,2,2)]), other (start upq 0x0102 (F [(0,2,2)])) 0x100 0, start upq 0x0102 (F [(0,2,0)]),
  start upq 0x0103 (F [(0,2,2)]), cells [(0x10000 + 128 * 3 + 2, 3)] (start upq 0x0103 (F [(0,2,2)])),
  start (qs [(2, { q0 with hostPtr := 3 })] up) 0x0103 (F [(0,2,2)]), start (qs [(2, { q0 with stopped := true })] up) 0x0103 (F [(0,2,2)])]
def dq : State := setPhase (start (qs [(2, { q0 with destroying := true })] upq) 0x0102 (F [(0,2,2)])) .done
def poolTokensAndWaits : Nat → State := nth (pWait)
def poolRingCommands : Nat → State := nth (pRing ++ [dq, { dq with hg := { dq.hg with cmds := dq.hg.cmds.map (fun c => { c with code := .ok }) } }])
def poolNopEchoes : Nat → State := nth ([start up 0x0100 0x123456])

/-- 1,048,576 queues: 69,905 in each of 15 allotments, and one (R323). -/
def full (n : Nat) : State :=
  let s := start up 0x0101 (F [(0,2,9),(2,1,0),(3,1,5),(4,2,1),(8,8,0x40000)])
  { s with allots := { (up.al 0) with queues := [(1, r0)] } :: List.replicate 15 { (up.al 1) with queues := List.replicate n (0, q0) } }

theorem full_total (n : Nat) : (full n).queueTotal = 1 + 15 * n := by
  simp [full, State.queueTotal, sumN]
  omega

/-- The hypotheses of NopEchoes hold together. -/
theorem met_NopEchoes : ∃ s : State, ∃ id, ∃ c : Cmd, s.Runs id 0x0100 nopFields c :=
  ⟨poolNopEchoes 0, 4, cmd4 (poolNopEchoes 0), by decide +kernel⟩

/-- The hypotheses of each clause of TokensAndWaits hold together. -/
theorem met_TokensAndWaits :
    (∃ s : State, ∃ id, ∃ c : Cmd, s.Runs id 0x0320 barrierFields c ∧ c.allot < s.allots.length ∧ (∃ d ∈ s.hg.cmds, d.master = .allot ∧ d.allot = c.allot ∧ d.id < c.id ∧ (c.par 2 1 = 1 ∨ d.queue = c.queue))) ∧
    (∃ s : State, ∃ id, ∃ c : Cmd, s.Runs id 0x0320 barrierFields c ∧ c.allot < s.allots.length ∧ (∀ d ∈ s.hg.cmds, d.master = .allot → d.allot = c.allot → d.id < c.id → c.par 2 1 ≠ 1 ∧ d.queue ≠ c.queue)) ∧
    (∃ s : State, ∃ id, ∃ c : Cmd, s.started? id 0x0321 = some c ∧ s.judgeInline c (tokenWaitFields s c) = none) ∧
    (∃ s : State, ∃ id, ∃ c : Cmd, s.started? id 0x0120 = some c ∧ s.judgeInline c (watchFields s c) = none) ∧
    (∃ s : State, ∃ id, ∃ c : Cmd, s.working? id 0x0321 = some c ∧ c.par 4 4 ≠ 0 ∧ s.tokenMet c.allot (c.par 0 4) = false) ∧
    (∃ s : State, ∃ id, ∃ c : Cmd, s.working? id 0x0120 = some c ∧ c.par 4 4 ≠ 0 ∧ s.epochOf c.allot = c.par 0 4) :=
  ⟨⟨poolTokensAndWaits 3, 4, cmd4 (poolTokensAndWaits 3), by decide +kernel⟩,
   ⟨poolTokensAndWaits 0, 4, cmd4 (poolTokensAndWaits 0), by decide +kernel⟩,
   ⟨poolTokensAndWaits 6, 4, cmd4 (poolTokensAndWaits 6), by decide +kernel⟩,
   ⟨poolTokensAndWaits 9, 4, cmd4 (poolTokensAndWaits 9), by decide +kernel⟩,
   ⟨poolTokensAndWaits 8, 4, cmd4 (poolTokensAndWaits 8), by decide +kernel⟩,
   ⟨poolTokensAndWaits 9, 4, cmd4 (poolTokensAndWaits 9), by decide +kernel⟩⟩

/-- The hypotheses of each clause of RingCommands hold together. -/
theorem met_RingCommands :
    (∃ s : State, ∃ id, ∃ c : Cmd, s.Runs id 0x0101 qCreateFields c ∧ c.allot < s.allots.length ∧ s.queueTotal < 1048576 ∧ c.par 2 1 = 0) ∧
    (∃ s : State, ∃ id, ∃ c : Cmd, s.Runs id 0x0101 qCreateFields c ∧ c.allot < s.allots.length ∧ s.queueTotal < 1048576 ∧ c.par 2 1 = 1 ∧ s.hostBad (c.par 8 8) (32 * 2 ^ c.par 3 1) = false ∧ cellsWf s.host.bytes = true) ∧
    (∃ s : State, ∃ id, ∃ c : Cmd, s.Runs id 0x0101 qCreateFields c ∧ 1048576 ≤ s.queueTotal) ∧
    (∃ s : State, ∃ id, ∃ c : Cmd, s.Runs id 0x0101 qCreateFields c ∧ s.queueTotal < 1048576 ∧ c.par 2 1 = 1 ∧ s.hostBad (c.par 8 8) (32 * 2 ^ c.par 3 1) = true ∧ s.Mild (0x9000 + c.allot)) ∧
    (∃ s : State, ∃ id, ∃ c : Cmd, ∃ d, s.Runs id 0x0102 qDestroyFields c ∧ c.allot < s.allots.length ∧ s.queue? c.allot (c.par 0 2) = some d ∧ d.reply = true) ∧
    (∃ s : State, ∃ id, ∃ c : Cmd, ∃ d, s.Runs id 0x0102 qDestroyFields c ∧ c.allot < s.allots.length ∧ s.queue? c.allot (c.par 0 2) = some d ∧ d.reply = false ∧ d.gap = none ∧ (∀ e ∈ s.hg.cmds, e.master = .allot → e.allot = c.allot → e.queue = c.par 0 2 → e.id = id)) ∧
    (∃ s : State, ∃ id, ∃ c : Cmd, ∃ d, s.Runs id 0x0102 qDestroyFields c ∧ s.queue? c.allot (c.par 0 2) = some d ∧ d.reply = false ∧ ((∃ e ∈ s.hg.cmds, e.master = .allot ∧ e.allot = c.allot ∧ e.queue = c.par 0 2 ∧ e.id ≠ id) ∨ d.gap.isSome = true)) ∧
    (∃ s : State, ∃ id, ∃ c : Cmd, ∃ d, s.cmd? id = some c ∧ c.phase = .done ∧ c.master = .allot ∧ c.opcode = 0x0102 ∧ c.code = .ok ∧ s.queue? c.allot (c.par 0 2) = some d ∧ d.reply = false ∧ d.destroying = true) ∧
    (∃ s : State, ∃ id, ∃ c : Cmd, ∃ d, s.Runs id 0x0103 flushFields c ∧ s.queue? c.allot (c.par 0 2) = some d ∧ (d.stopped = true ∨ d.destroying = true ∨ d.count = 0)) ∧
    (∃ s : State, ∃ id, ∃ c : Cmd, ∃ d, s.Runs id 0x0103 flushFields c ∧ c.allot < s.allots.length ∧ s.queue? c.allot (c.par 0 2) = some d ∧ d.stopped = false ∧ d.destroying = false ∧ 0 < d.count ∧ d.count < s.xslotsAt d + 1) ∧
    (∃ s : State, ∃ id, ∃ c : Cmd, ∃ d, s.Runs id 0x0103 flushFields c ∧ s.queue? c.allot (c.par 0 2) = some d ∧ d.stopped = false ∧ d.destroying = false ∧ 0 < d.count ∧ s.xslotsAt d + 1 ≤ d.count) :=
  ⟨⟨poolRingCommands 0, 4, cmd4 (poolRingCommands 0), by decide +kernel⟩,
   ⟨poolRingCommands 1, 4, cmd4 (poolRingCommands 1), by decide +kernel⟩,
   ⟨full 69905, 4, cmd4 (full 69905), by decide +kernel, by rw [full_total] <;> decide⟩,
   ⟨poolRingCommands 2, 4, cmd4 (poolRingCommands 2), by decide +kernel⟩,
   ⟨poolRingCommands 3, 4, cmd4 (poolRingCommands 3), ((poolRingCommands 3).queue? (cmd4 (poolRingCommands 3)).allot ((cmd4 (poolRingCommands 3)).par 0 2)).get (by decide +kernel), by decide +kernel⟩,
   ⟨poolRingCommands 4, 4, cmd4 (poolRingCommands 4), ((poolRingCommands 4).queue? (cmd4 (poolRingCommands 4)).allot ((cmd4 (poolRingCommands 4)).par 0 2)).get (by decide +kernel), by decide +kernel⟩,
   ⟨poolRingCommands 5, 4, cmd4 (poolRingCommands 5), ((poolRingCommands 5).queue? (cmd4 (poolRingCommands 5)).allot ((cmd4 (poolRingCommands 5)).par 0 2)).get (by decide +kernel), by decide +kernel⟩,
   ⟨poolRingCommands 11, 4, cmd4 (poolRingCommands 11), ((poolRingCommands 11).queue? (cmd4 (poolRingCommands 11)).allot ((cmd4 (poolRingCommands 11)).par 0 2)).get (by decide +kernel), by decide +kernel⟩,
   ⟨poolRingCommands 9, 4, cmd4 (poolRingCommands 9), ((poolRingCommands 9).queue? (cmd4 (poolRingCommands 9)).allot ((cmd4 (poolRingCommands 9)).par 0 2)).get (by decide +kernel), by decide +kernel⟩,
   ⟨poolRingCommands 8, 4, cmd4 (poolRingCommands 8), ((poolRingCommands 8).queue? (cmd4 (poolRingCommands 8)).allot ((cmd4 (poolRingCommands 8)).par 0 2)).get (by decide +kernel), by decide +kernel⟩,
   ⟨poolRingCommands 7, 4, cmd4 (poolRingCommands 7), ((poolRingCommands 7).queue? (cmd4 (poolRingCommands 7)).allot ((cmd4 (poolRingCommands 7)).par 0 2)).get (by decide +kernel), by decide +kernel⟩⟩

end Rings

namespace Doorbells

def db (qid ptr : Nat) (kind : Nat := 0) (rs : Nat := 0) : Nat := qid + ptr * 2^32 + kind * 2^16 + rs * 2^20
def upq2 : State := qs [(0, { q0 with stopped := true }), (2, { q0 with destroying := true }), (5, { q0 with devPtr := 30, hostPtr := 31 })] (upq.modAl 0 (fun x => { x with dbErr := { qid := 5, reason := 3 } }))
def pDb : List State := [upq, upq2]
def upw : State := (upq.modAl 0 (fun x => { x with dbErr := { qid := 5, reason := 3, more := true } })).modAl 1 (fun x => { x with queues := [] })
def adm (s : State) : State := s.modAl 0 (fun x => { x with queues := [], adminC := 0x10000#64, adminR := 0x20000#64 })
def admUp : State := upq.modAl 0 (fun x => { x with queues := [(0, q0), (1, r0)] })
def ctl (en c r : Nat) : Nat := c + r * 256 + en * 65536
def poolCommandDoorbell : Nat → State := nth (pDb)
def poolReplyDoorbell : Nat → State := nth (pDb)
def poolWindow : Nat → State := nth ([upw, upq2, { up with dev := { up.dev with vfEnable := false } }])
def poolAdminQueues : Nat → State := nth ([adm up, admUp, upw, start admUp 0x100 0, other admUp 0x100 0 4 0 0, badHost [(0x20000,0x20001)] (adm up)])

/-- The hypotheses of each clause of CommandDoorbell hold together. -/
theorem met_CommandDoorbell :
    (∃ s : State, ∃ fn : Nat, ∃ v : W64, ∃ d : QDesc, s.reaches fn = true ∧ fn < 16 ∧ s.allots.length = 16 ∧ dbKind v.toNat = false ∧ dbRsvd v.toNat = 0 ∧ s.queue? fn (dbQid v.toNat) = some d ∧ d.reply = false ∧ d.stopped = false ∧ d.destroying = false ∧ dbPtr v.toNat < d.mod) ∧
    (∃ s : State, ∃ fn : Nat, ∃ v : W64, ∃ size : Nat, ∃ reason : Nat, s.reaches fn = true ∧ fn < 16 ∧ s.allots.length = 16 ∧ reason ≠ 0 ∧ (((size < 8 ∨ dbRsvd v.toNat ≠ 0) ∧ reason = 4) ∨
     (8 ≤ size ∧ dbRsvd v.toNat = 0 ∧ s.queue? fn (dbQid v.toNat) = none ∧ reason = 1) ∨
     (8 ≤ size ∧ dbRsvd v.toNat = 0 ∧ ∃ d, s.queue? fn (dbQid v.toNat) = some d ∧
      ((d.reply ≠ dbKind v.toNat ∧ reason = 1) ∨ (d.reply = dbKind v.toNat ∧ d.mod ≤ dbPtr v.toNat ∧ reason = 4) ∨
       (d.reply = dbKind v.toNat ∧ dbPtr v.toNat < d.mod ∧ (d.stopped = true ∨ d.destroying = true) ∧ reason = 5))))) :=
  ⟨⟨poolCommandDoorbell 0, 0, 0x0000000000000000#64, ((poolCommandDoorbell 0).queue? (0) (dbQid (0x0000000000000000#64).toNat)).get (by decide +kernel), by decide +kernel⟩,
   ⟨poolCommandDoorbell 0, 0, 0x0000000000000000#64, 0, 4, by decide +kernel⟩⟩

/-- The hypotheses of ReplyDoorbell hold together. -/
theorem met_ReplyDoorbell : ∃ s : State, ∃ fn : Nat, ∃ v : W64, ∃ d : QDesc, s.reaches fn = true ∧ fn < 16 ∧ s.allots.length = 16 ∧ dbKind v.toNat = true ∧ dbRsvd v.toNat = 0 ∧ s.queue? fn (dbQid v.toNat) = some d ∧ d.reply = true ∧ d.stopped = false ∧ d.destroying = false ∧ dbPtr v.toNat < d.mod :=
  ⟨poolReplyDoorbell 0, 0, 0x0000000900010001#64, ((poolReplyDoorbell 0).queue? (0) (dbQid (0x0000000900010001#64).toNat)).get (by decide +kernel), by decide +kernel⟩

/-- The hypotheses of each clause of Window hold together. -/
theorem met_Window :
    (∃ s : State, ∃ fn, s.reaches fn = true ∧ fn < 16 ∧ s.allots.length = 16) ∧
    (∃ s : State, ∃ fn, s.reaches fn = true ∧ fn ≤ 16) ∧
    (∃ s : State, ∃ fn, ∃ off, off < 0x10000 ∧ s.dev.linkUp = true ∧ fn ≠ 0 ∧ (s.dev.vfEnable = false ∨ s.dev.numVfs < fn)) ∧
    (∃ off, 0x10000 ≤ off) ∧
    (∃ off, 0x10000 ≤ off) ∧
    (∃ s : State, ∃ fn, s.reaches fn = true ∧ fn < 16 ∧ s.allots.length = 16 ∧ (s.al fn).adminUp = false) ∧
    (∃ s : State, ∃ fn, s.reaches fn = true ∧ fn < 16 ∧ s.allots.length = 16 ∧ (s.al fn).adminUp = false) ∧
    (∃ s : State, ∃ fn, ∃ off, ∃ size, s.reaches fn = true ∧ (s.al fn).adminUp = true ∧ 0x20 ≤ off ∧ off + size ≤ 0x30) ∧
    (∃ s : State, ∃ fn, ∃ off, ∃ size, s.reaches fn = true ∧ off < 0x10000 ∧ ((off < 0x20 ∧ off + size ≤ 0x20) ∨ (0x34 ≤ off ∧ off < 0x40 ∧ off + size ≤ 0x40) ∨ 0x48 ≤ off ∨ 16 ≤ fn)) ∧
    (∃ s : State, ∃ fn, s.reaches fn = true ∧ fn < 16) ∧
    (∃ s : State, ∃ fn, s.reaches fn = true ∧ fn < 16) ∧
    (∃ s : State, ∃ fn, ∃ off, ∃ size, s.reaches fn = true ∧ fn < 16 ∧ s.allots.length = 16 ∧ 0x40 ≤ off ∧ off < 0x48 ∧ size < 8) :=
  ⟨⟨poolWindow 0, 0, by decide +kernel⟩,
   ⟨poolWindow 0, 0, by decide +kernel⟩,
   ⟨poolWindow 0, 4, 0, by decide +kernel⟩,
   ⟨0x10000, by decide +kernel⟩,
   ⟨0x10000, by decide +kernel⟩,
   ⟨poolWindow 0, 1, by decide +kernel⟩,
   ⟨poolWindow 0, 1, by decide +kernel⟩,
   ⟨poolWindow 0, 0, 32, 0, by decide +kernel⟩,
   ⟨poolWindow 0, 0, 0, 0, by decide +kernel⟩,
   ⟨poolWindow 0, 0, by decide +kernel⟩,
   ⟨poolWindow 0, 0, by decide +kernel⟩,
   ⟨poolWindow 0, 0, 0x44, 4, by decide +kernel⟩⟩

/-- The hypotheses of each clause of AdminQueues hold together. -/
theorem met_AdminQueues :
    (∃ s : State, ∃ fn, ∃ ctrl : W32, s.reaches fn = true ∧ fn < 16 ∧ s.allots.length = 16 ∧ ctrl.getLsbD 16 = true ∧ (s.al fn).live = true ∧ 4 ≤ bitsOf ctrl.toNat 0 5 ∧ bitsOf ctrl.toNat 0 5 ≤ 16 ∧ 6 ≤ bitsOf ctrl.toNat 8 5 ∧ bitsOf ctrl.toNat 8 5 ≤ 16 ∧ s.queue? fn 0 = none ∧ s.queue? fn 1 = none ∧ s.queueTotal + 2 ≤ 1048576 ∧ s.hostBad (s.al fn).adminR.toNat (32 * 2 ^ bitsOf ctrl.toNat 8 5) = false) ∧
    (∃ s : State, ∃ fn, ∃ ctrl : W32, s.reaches fn = true ∧ fn < 16 ∧ s.allots.length = 16 ∧ ctrl.getLsbD 16 = true ∧ (s.al fn).adminUp = false ∧ ((s.al fn).live = false ∨ bitsOf ctrl.toNat 0 5 < 4 ∨ 16 < bitsOf ctrl.toNat 0 5 ∨ bitsOf ctrl.toNat 8 5 < 6 ∨ 16 < bitsOf ctrl.toNat 8 5 ∨
      s.queue? fn 0 ≠ none ∨ s.queue? fn 1 ≠ none ∨ 1048576 < s.queueTotal + 2)) ∧
    (∃ s : State, ∃ fn, ∃ ctrl : W32, s.reaches fn = true ∧ fn < 16 ∧ s.allots.length = 16 ∧ ctrl.getLsbD 16 = false ∧ (s.al fn).adminUp = true ∧ (∃ e ∈ (s.al fn).queues, e.2.reply = false ∧ e.2.replyQ = 1 ∧ e.1 ≠ 0)) ∧
    (∃ s : State, ∃ fn, ∃ ctrl : W32, ∃ d, ∃ r, s.reaches fn = true ∧ fn < 16 ∧ s.allots.length = 16 ∧ ctrl.getLsbD 16 = false ∧ s.queue? fn 0 = some d ∧ d.reply = false ∧ d.replyQ = 1 ∧ s.queue? fn 1 = some r ∧ r.reply = true ∧ (s.al fn).adminUp = true ∧ (∀ e ∈ (s.al fn).queues, e.2.reply = false → (e.2.replyQ = 0 ∨ e.2.replyQ = 1) → e.1 = 0)) ∧
    (∃ s : State, ∃ fn, ∃ ctrl : W32, s.reaches fn = true ∧ fn < 16 ∧ s.allots.length = 16 ∧ ctrl.getLsbD 16 = true ∧ (s.al fn).adminUp = true) ∧
    (∃ s : State, ∃ fn, ∃ ctrl : W32, s.reaches fn = true ∧ fn < 16 ∧ s.allots.length = 16 ∧ ctrl.getLsbD 16 = false ∧ (s.al fn).adminUp = false) :=
  ⟨⟨poolAdminQueues 0, 0, 0x00010604#32, by decide +kernel⟩,
   ⟨poolAdminQueues 0, 0, 0x00010603#32, by decide +kernel⟩,
   ⟨poolAdminQueues 2, 0, 0x00000000#32, by decide +kernel⟩,
   ⟨poolAdminQueues 1, 0, 0x00000000#32, ((poolAdminQueues 1).queue? (0) 0).get (by decide +kernel), ((poolAdminQueues 1).queue? (0) 1).get (by decide +kernel), by decide +kernel⟩,
   ⟨poolAdminQueues 1, 0, 0x00010604#32, by decide +kernel⟩,
   ⟨poolAdminQueues 0, 0, 0x00000000#32, by decide +kernel⟩⟩

end Doorbells

namespace Commands

def upq1 : State := qs [(0, { q0 with hostPtr := 3 }), (1, r0), (2, q0), (3, { r0 with base := 0x30000#64 })] up
def pAcc : List State := [slot 3 (pkt 0x0100 55) upq1, slot 3 (pkt 0x0BAD 55) upq1, slot 3 (pkt 0x0320 5) upq1, slot 3 (pkt 0x0320 (F [(2,1,9)])) upq1,
  slot 3 (pkt 0x0210 0) (qs [(2, q0), (1, r0)] up 1), slot 3 (pkt 0x0100 55 16 0 4) upq1, slot 3 (pkt 0x0120 55) upq1, slot 3 (pkt 0x0202 55) upq1]
def acc (op params : Nat) (dep : Nat := 0) (s : State := upq) : State := setP (fun c => { c with phase := .accepted, dep := dep }) (start s op params)
def pStart : List State := [acc 0x100 5, acc 0x100 5 (5 + 4096*9), acc 0x904 (F [(0,2,0x1000)]), other (acc 0x100 5) 0x320 1 3, acc 0x103 (F [(0,2,2)]), acc 0x0100 6 (7 + 4096 * 0), acc 0x0301 9,
  acc 0x102 (F [(0,2,0)])]
def done (op params : Nat) (s : State := upq) : State := setP (fun c => { c with phase := .done, result := 0x1122334455#128, detail := 7, tag := 0x99, code := .okWithNote }) (start s op params)
def gapq : State := qs [(0, q0), (1, r0), (2, { q0 with gap := some { dropped := 19, first := 3 }, stopped := true }), (3, { r0 with base := 0x30000#64 })] up
def pRep : List State := [done 0x100 5, setP (fun c => { c with flags := 4 }) (done 0x100 5), done 0x904 0, setP (fun c => { c with master := .mgmt }) (done 0xA01 0), gapq, other gapq 0x100 0 3 0 2,
  done 0x0102 (F [(0,2,2)])]
def arb2 (s : State) (a q : Nat) : State := { s with hg := { s.hg with arb := [a, q] } }
def pArb : List State := [ord up 0x904 (F [(0,2,0x1000),(8,8,3)]), arb2 (other (ord up 0x904 (F [(0,2,0x1000),(8,8,3)])) 0x904 (F [(0,2,0x1000),(8,8,4)]) 7) 4 7, up, ord up 0x904 (F [(0,2,0x1FFF)]), { up with mgt := { up.mgt with restarting := true } },
  { up with dev := { up.dev with standby := false } }]
def poolCommandAccept : Nat → State := nth (pAcc)
def poolCommandStart : Nat → State := nth (pStart)
def poolReplies : Nat → State := nth (pRep)
def poolArbiterRound : Nat → State := nth (pArb)

/-- The hypotheses of each clause of CommandAccept hold together. -/
theorem met_CommandAccept :
    (∃ s : State, ∃ a, ∃ q, ∃ d, ∃ r, ∃ bs, s.allots.length = 16 ∧ a < 16 ∧ s.queue? a q = some d ∧ s.turn = some (a, q) ∧ s.atHead d = .packet bs ∧ d.reply = false ∧ s.queue? a d.replyQ = some r ∧ r.reply = true ∧ (∀ c ∈ s.hg.cmds, c.id < s.hg.nextId)) ∧
    (∃ s : State, ∃ a, ∃ q, ∃ d, ∃ bs, s.allots.length = 16 ∧ a < 16 ∧ s.queue? a q = some d ∧ s.turn = some (a, q) ∧ s.atHead d = .packet bs ∧ (∀ c ∈ s.hg.cmds, c.id < s.hg.nextId) ∧ s.opExists (bytesField bs 0 2) = false) ∧
    (∃ s : State, ∃ a, ∃ q, ∃ d, ∃ bs, s.allots.length = 16 ∧ a < 16 ∧ s.queue? a q = some d ∧ s.turn = some (a, q) ∧ s.atHead d = .packet bs ∧ (∀ c ∈ s.hg.cmds, c.id < s.hg.nextId) ∧ s.opExists (bytesField bs 0 2) = true ∧ (cmdOf a q d.replyQ bs).permitted = false) :=
  ⟨⟨poolCommandAccept 0, 0, 2, ((poolCommandAccept 0).queue? (0) (2)).get (by decide +kernel), ((poolCommandAccept 0).queue? (0) (((poolCommandAccept 0).queue? (0) (2)).get (by decide +kernel)).replyQ).get (by decide +kernel), headBytes (poolCommandAccept 0) 0 2, by decide +kernel⟩,
   ⟨poolCommandAccept 1, 0, 2, ((poolCommandAccept 1).queue? (0) (2)).get (by decide +kernel), headBytes (poolCommandAccept 1) 0 2, by decide +kernel⟩,
   ⟨poolCommandAccept 4, 1, 2, ((poolCommandAccept 4).queue? (1) (2)).get (by decide +kernel), headBytes (poolCommandAccept 4) 1 2, by decide +kernel⟩⟩

/-- The hypotheses of each clause of CommandStart hold together. -/
theorem met_CommandStart :
    (∃ s : State, ∃ id, ∃ c : Cmd, s.cmd? id = some c ∧ c.master = .allot ∧ s.arbUp = true ∧ c.phase = .accepted ∧ c.waitSet = false ∧ s.queueClear c = false) ∧
    (∃ s : State, ∃ id, ∃ c : Cmd, s.cmd? id = some c ∧ c.master = .allot ∧ s.arbUp = true ∧ c.phase = .accepted ∧ c.waitSet = false ∧ s.queueClear c = true ∧ c.dep ≠ 0 ∧ s.tokenMet c.allot c.dep = false) ∧
    (∃ s : State, ∃ id, ∃ c : Cmd, s.cmd? id = some c ∧ c.master = .allot ∧ s.arbUp = true ∧ c.phase = .accepted ∧ c.waitSet = false ∧ s.queueClear c = true ∧ (c.dep = 0 ∨ s.tokenMet c.allot c.dep = true) ∧ s.counted c = false ∧ c.opcode ≠ 0x0102) :=
  ⟨⟨poolCommandStart 3, 4, cmd4 (poolCommandStart 3), by decide +kernel⟩,
   ⟨poolCommandStart 1, 4, cmd4 (poolCommandStart 1), by decide +kernel⟩,
   ⟨poolCommandStart 0, 4, cmd4 (poolCommandStart 0), by decide +kernel⟩⟩

/-- The hypotheses of each clause of Replies hold together. -/
theorem met_Replies :
    (∃ s : State, ∃ id, ∃ c : Cmd, ∃ r, s.cmd? id = some c ∧ c.phase = .done ∧ c.master = .allot ∧ s.behind c = false ∧ c.opcode ≠ 0x0102 ∧ (s.al c.allot).adminClosing = false ∧ s.allots.length = 16 ∧ c.allot < 16 ∧ s.queue? c.allot c.replyQ = some r ∧ r.stopped = false ∧ (∀ i, i ≤ 36 → s.hostBad (r.entryAt ((r.devPtr + i) % r.mod)) 32 = false) ∧ (pieces 16 (s.counterRecord c)).length ≤ 36) ∧
    (∃ s : State, ∃ id, ∃ c : Cmd, s.cmd? id = some c ∧ c.phase = .done ∧ c.master = .mgmt) ∧
    (∃ s : State, ∃ a, ∃ q, ∃ d, ∃ g, ∃ r, s.allots.length = 16 ∧ a < 16 ∧ s.queue? a q = some d ∧ d.reply = false ∧ d.gap = some g ∧ s.queue? a d.replyQ = some r ∧ r.reply = true ∧ r.stopped = false ∧ 1 ≤ r.free ∧ s.hostBad (r.entryAt (r.devPtr % r.mod)) 32 = false ∧ (s.al a).adminClosing = false) :=
  ⟨⟨poolReplies 0, 4, cmd4 (poolReplies 0), ((poolReplies 0).queue? (cmd4 (poolReplies 0)).allot (cmd4 (poolReplies 0)).replyQ).get (by decide +kernel), by decide +kernel⟩,
   ⟨poolReplies 3, 4, cmd4 (poolReplies 3), by decide +kernel⟩,
   ⟨poolReplies 4, 0, 2, ((poolReplies 4).queue? (0) (2)).get (by decide +kernel), ((((poolReplies 4).queue? (0) (2)).get (by decide +kernel)).gap).get (by decide +kernel), ((poolReplies 4).queue? (0) (((poolReplies 4).queue? (0) (2)).get (by decide +kernel)).replyQ).get (by decide +kernel), by decide +kernel⟩⟩

/-- The hypotheses of each clause of ArbiterRound hold together. -/
theorem met_ArbiterRound :
    (∃ s : State, ∃ id, ∃ c : Cmd, s.OrderRuns id 0x0904 faultForceFields c ∧ s.hg.arb = [id] ∧ s.arbUp = true ∧ s.pair.alarmWaits = false ∧ c.master = .allot ∧ s.ready c = true) ∧
    (∃ s : State, ∃ i, ∃ j, ∃ c : Cmd, ∃ d, s.OrderRuns i 0x0904 faultForceFields c ∧ s.fresh? j 0x0904 = some d ∧ s.hg.arb = [i, j] ∧ i < j ∧ s.arbUp = true ∧ s.pair.alarmWaits = false ∧ c.master = .allot ∧ d.master = .allot ∧ c.allot = 0 ∧ d.allot = 0 ∧ c.queue = d.queue ∧ c.par 0 2 = d.par 0 2 ∧ (∀ e ∈ s.flt.force, e.1 ≠ c.par 0 2) ∧ s.ready c = true ∧ s.ready d = true) ∧
    (∃ s : State, s.hg.arb = [] ∧ s.pair.alarmWaits = false) ∧
    (∃ s : State, s.dev.standby = true ∧ s.mgt.restarting = false) ∧
    (∃ s : State, (s.dev.standby = false ∨ s.mgt.restarting = true)) :=
  ⟨⟨poolArbiterRound 0, 4, cmd4 (poolArbiterRound 0), by decide +kernel⟩,
   ⟨poolArbiterRound 1, 4, 7, cmd4 (poolArbiterRound 1), ((poolArbiterRound 1).fresh? (7) 0x0904).get (by decide +kernel), by decide +kernel⟩,
   ⟨poolArbiterRound 2, by decide +kernel⟩,
   ⟨poolArbiterRound 0, by decide +kernel⟩,
   ⟨poolArbiterRound 4, by decide +kernel⟩⟩

end Commands

namespace Objects

def os (l : List (Nat × Obj)) (s : State := up) (a : Nat := 0) : State := withObjs s a l
def small (n : Nat) (s : State) : State := s.modAl 0 (fun x => { x with pools := List.replicate 6 { quota := n } })
def pCreate : List State := [
  start up 0x0201 (F [(0,1,1),(3,1,2),(0x10,8,5000)]), start up 0x0201 (F [(0,1,0),(1,1,4),(2,1,0),(3,1,8),(4,4,64),(8,4,64)]), start up 0x0201 (F [(0,1,0),(1,1,0),(2,1,3),(3,1,5),(4,4,64),(8,4,64)]),
  start (small 0 up) 0x0201 (F [(0,1,1),(3,1,2),(0x10,8,5000)]),
  start ((os [(1, raw 8192 [])]).modAl 0 (fun x => { x with reuse := [(2, 4095), (1, 0)] })) 0x0201 (F [(0,1,1),(3,1,2),(0x10,8,5000)])]
def o1 : State := os [(1, raw 8192 [(3, 9)]), (2, raw 8192 [] 0), (3, { raw 8192 [(1, 5)] 1 with pinned := true, reuse := 1 }), (4, ten 4 0 4 64 [(0, 1)]), (5, { raw 4096 [(70, 3), (7, 200)] 0 with shadow := true })]
def h (i r : Nat) : Nat := i + r * 2^20
def pHomes : List State := [start o1 0x0202 (F [(0,4,1)]), start o1 0x0202 (F [(0,4,h 3 1)]), start o1 0x0204 (F [(0,4,1),(4,1,1)]), start o1 0x0204 (F [(0,4,h 3 1),(4,1,0)]), start o1 0x0204 (F [(0,4,4),(4,1,2)]),
  start o1 0x0203 (F [(0,4,1),(4,1,2)]), start o1 0x0203 (F [(0,4,1),(4,1,0)]), start o1 0x0203 (F [(0,4,4),(4,1,1)]), start o1 0x0203 (F [(0,4,2),(4,1,2)]), start o1 0x0203 (F [(0,4,5),(4,1,2)]),
  start o1 0x0203 (F [(0,4,5),(4,1,1)]),
  start (small 0 o1) 0x0203 (F [(0,4,2),(4,1,2)]), start (o1.modAl 0 (fun x => { x with upd := { x.upd with frozen := [1, 2] } })) 0x0202 (F [(0,4,1)]), start o1 0x0203 (F [(0,4,1),(4,1,4)]),
  start { o1 with pair := { o1.pair with state := .sync, partner := 3, partnerMirrorGib := 384 } } 0x0203 (F [(0,4,1),(4,1,3)])]
def compat (s : State) : State := s.modAl 0 (fun x => { x with compat := true })
def host1 : State := cells [(0x8000, 1), (0x8041, 2), (0x9000, 3)] (compat o1)
def pCopy : List State := [start host1 0x0205 (F [(0,1,0),(8,4,1),(0xC,4,2),(0x10,8,0),(0x18,8,64),(0x20,8,128)]), start host1 0x0205 (F [(0,1,0),(8,4,5),(0xC,4,5),(0x10,8,0),(0x18,8,128),(0x20,8,128)]),
  start host1 0x0205 (F [(0,1,1),(0xC,4,2),(0x18,8,0),(0x20,8,128),(0x28,8,0x8000)]), start host1 0x0205 (F [(0,1,2),(8,4,5),(0x10,8,0),(0x20,8,64),(0x28,8,0x8000)]),
  start host1 0x0205 (F [(0,1,3),(8,4,2)]), start (small 0 host1) 0x0205 (F [(0,1,3),(8,4,2)]), start host1 0x0205 (F [(0,1,0),(8,4,5),(0xC,4,5),(0x10,8,0),(0x18,8,64),(0x20,8,128)])]
def pools (l : List (Nat × Nat)) : Nat := F ((l.zipIdx).flatMap (fun e => [(8 + 8 * e.2, 4, e.1.1), (12 + 8 * e.2, 4, e.1.2)]))
def pPool : List State := [ord up 0x0210 (F [(0,1,0),(1,1,1),(2,1,3)] + pools [(1,0),(2,0),(3,0),(4,0),(5,0),(6,0)]), ord up 0x0210 (F [(0,1,1),(8,4,64),(0xC,4,100)]),
  ord { up with pair := { up.pair with state := .sync } } 0x0210 (F [(0,1,1),(8,4,64),(0xC,4,100)]), ord { up with pair := { up.pair with state := .sync } } 0x0210 (F [(0,1,1),(8,4,64),(0xC,4,0)]),
  ord o1 0x0210 (F [(0,1,0),(1,1,0),(2,1,0)] + pools [(10,5),(10,5),(10,0),(10,0),(10,4),(0,0)])]
def poolObjCreate : Nat → State := nth (pCreate)
def poolObjHomes : Nat → State := nth (pHomes)
def poolObjCopy : Nat → State := nth (pCopy)
def poolPoolSet : Nat → State := nth (pPool)

/-- The hypotheses of each clause of ObjCreate hold together. -/
theorem met_ObjCreate :
    (∃ s : State, ∃ id, ∃ c : Cmd, s.Runs id 0x0201 objCreateFields c ∧ c.allot < s.allots.length ∧ (s.al c.allot).objs.length < 1048575 ∧ (2 ≤ (bitsOf (c.par 3 1) 0 2) ∨ s.hearthOpen c (bitsOf (c.par 3 1) 2 1) = true) ∧ ∃ pl, s.plan c.allot (poolOf (bitsOf (c.par 3 1) 0 2) (bitsOf (c.par 3 1) 2 1)) (roundUp c.newSize 4096) = some pl) ∧
    (∃ s : State, ∃ id, ∃ c : Cmd, s.Runs id 0x0201 objCreateFields c ∧ c.allot < s.allots.length ∧ (s.al c.allot).objs.length < 1048575 ∧ (((bitsOf (c.par 3 1) 0 2) < 2 ∧ s.hearthOpen c (bitsOf (c.par 3 1) 2 1) = false) ∨ s.plan c.allot (poolOf (bitsOf (c.par 3 1) 0 2) (bitsOf (c.par 3 1) 2 1)) (roundUp c.newSize 4096) = none)) :=
  ⟨⟨poolObjCreate 0, 4, cmd4 (poolObjCreate 0), by decide +kernel, by decide +kernel, by decide +kernel, by decide +kernel, ((poolObjCreate 0).plan (cmd4 (poolObjCreate 0)).allot (poolOf (bitsOf ((cmd4 (poolObjCreate 0)).par 3 1) 0 2) (bitsOf ((cmd4 (poolObjCreate 0)).par 3 1) 2 1)) (roundUp (cmd4 (poolObjCreate 0)).newSize 4096)).get (by decide +kernel), by decide +kernel⟩,
   ⟨poolObjCreate 3, 4, cmd4 (poolObjCreate 3), by decide +kernel⟩⟩

/-- The hypotheses of each clause of ObjHomes hold together. -/
theorem met_ObjHomes :
    (∃ s : State, ∃ id, ∃ c : Cmd, s.Runs id 0x0202 objFreeFields c ∧ c.allot < s.allots.length) ∧
    (∃ s : State, ∃ id, ∃ c : Cmd, ∃ o, s.Runs id 0x0204 objPinFields c ∧ c.allot < s.allots.length ∧ s.obj? c.allot (c.par 0 4) = some o) ∧
    (∃ s : State, ∃ id, ∃ c : Cmd, ∃ o, s.Runs id 0x0203 objMoveFields c ∧ c.allot < s.allots.length ∧ (s.named c).obj? c.allot (c.par 0 4) = some o ∧ (2 ≤ (bitsOf (c.par 4 1) 0 2) ∨ (s.named c).hearthOpen c (bitsOf (c.par 4 1) 2 1) = true) ∧ o.tier = (bitsOf (c.par 4 1) 0 2) ∧ o.hearth = (bitsOf (c.par 4 1) 2 1)) ∧
    (∃ s : State, ∃ id, ∃ c : Cmd, ∃ o, s.Runs id 0x0203 objMoveFields c ∧ c.allot < s.allots.length ∧ (s.named c).obj? c.allot (c.par 0 4) = some o ∧ (2 ≤ (bitsOf (c.par 4 1) 0 2) ∨ (s.named c).hearthOpen c (bitsOf (c.par 4 1) 2 1) = true) ∧ (o.tier ≠ (bitsOf (c.par 4 1) 0 2) ∨ o.hearth ≠ (bitsOf (c.par 4 1) 2 1)) ∧ (¬ ((bitsOf (c.par 4 1) 0 2) = 2 ∧ o.shadow = true)) ∧ (s.named c).fits c.allot (poolOf (bitsOf (c.par 4 1) 0 2) (bitsOf (c.par 4 1) 2 1)) o.charged = true ∧ ((bitsOf (c.par 4 1) 0 2) ≠ 3 ∨ o.poison = []) ∧ ((bitsOf (c.par 4 1) 0 2) < 2 ∨ (bitsOf (c.par 4 1) 2 1) = 0)) ∧
    (∃ s : State, ∃ id, ∃ c : Cmd, ∃ o, s.Runs id 0x0203 objMoveFields c ∧ c.allot < s.allots.length ∧ (s.named c).obj? c.allot (c.par 0 4) = some o ∧ (2 ≤ (bitsOf (c.par 4 1) 0 2) ∨ (s.named c).hearthOpen c (bitsOf (c.par 4 1) 2 1) = true) ∧ (o.tier ≠ (bitsOf (c.par 4 1) 0 2) ∨ o.hearth ≠ (bitsOf (c.par 4 1) 2 1)) ∧ (¬ ((bitsOf (c.par 4 1) 0 2) = 2 ∧ o.shadow = true)) ∧ (s.named c).plan c.allot (poolOf (bitsOf (c.par 4 1) 0 2) (bitsOf (c.par 4 1) 2 1)) o.charged = none) ∧
    (∃ s : State, ∃ id, ∃ c : Cmd, ∃ o, s.Runs id 0x0203 objMoveFields c ∧ c.allot < s.allots.length ∧ (s.named c).obj? c.allot (c.par 0 4) = some o ∧ (2 ≤ (bitsOf (c.par 4 1) 0 2) ∨ (s.named c).hearthOpen c (bitsOf (c.par 4 1) 2 1) = true) ∧ (bitsOf (c.par 4 1) 0 2) = 2 ∧ o.tier < 2 ∧ o.shadow = true) :=
  ⟨⟨poolObjHomes 0, 4, cmd4 (poolObjHomes 0), by decide +kernel⟩,
   ⟨poolObjHomes 2, 4, cmd4 (poolObjHomes 2), ((poolObjHomes 2).obj? (cmd4 (poolObjHomes 2)).allot ((cmd4 (poolObjHomes 2)).par 0 4)).get (by decide +kernel), by decide +kernel⟩,
   ⟨poolObjHomes 5, 4, cmd4 (poolObjHomes 5), (((poolObjHomes 5).named (cmd4 (poolObjHomes 5))).obj? (cmd4 (poolObjHomes 5)).allot ((cmd4 (poolObjHomes 5)).par 0 4)).get (by decide +kernel), by decide +kernel⟩,
   ⟨poolObjHomes 6, 4, cmd4 (poolObjHomes 6), (((poolObjHomes 6).named (cmd4 (poolObjHomes 6))).obj? (cmd4 (poolObjHomes 6)).allot ((cmd4 (poolObjHomes 6)).par 0 4)).get (by decide +kernel), by decide +kernel⟩,
   ⟨poolObjHomes 11, 4, cmd4 (poolObjHomes 11), (((poolObjHomes 11).named (cmd4 (poolObjHomes 11))).obj? (cmd4 (poolObjHomes 11)).allot ((cmd4 (poolObjHomes 11)).par 0 4)).get (by decide +kernel), by decide +kernel⟩,
   ⟨poolObjHomes 9, 4, cmd4 (poolObjHomes 9), (((poolObjHomes 9).named (cmd4 (poolObjHomes 9))).obj? (cmd4 (poolObjHomes 9)).allot ((cmd4 (poolObjHomes 9)).par 0 4)).get (by decide +kernel), by decide +kernel⟩⟩

/-- The hypotheses of each clause of ObjCopy hold together. -/
theorem met_ObjCopy :
    (∃ s : State, ∃ id, ∃ c : Cmd, s.Runs id 0x0205 objCopyFields c ∧ c.allot < s.allots.length ∧ ∃ o, ∃ x, c.par 0 1 = 0 ∧ (s.named c).obj? (c.allot) (c.par 8 4) = some o ∧ (s.named c).obj? (c.allot) (c.par 0xC 4) = some x ∧ (x.tier ≠ 3 ∨ o.poison = [])) ∧
    (∃ s : State, ∃ id, ∃ c : Cmd, s.Runs id 0x0205 objCopyFields c ∧ c.allot < s.allots.length ∧ ∃ x, c.par 0 1 = 1 ∧ (s.named c).obj? (c.allot) (c.par 0xC 4) = some x ∧ (∀ i, i < (c.par 0x20 8) / 64 → s.hostBad ((c.par 0x28 8) + 64 * i) 64 = false)) ∧
    (∃ s : State, ∃ id, ∃ c : Cmd, s.Runs id 0x0205 objCopyFields c ∧ c.allot < s.allots.length ∧ ∃ o, c.par 0 1 = 2 ∧ (s.named c).obj? (c.allot) (c.par 8 4) = some o ∧ o.poison = [] ∧ (∀ i, i < (c.par 0x20 8) / 64 → s.hostBad ((c.par 0x28 8) + 64 * i) 64 = false)) ∧
    (∃ s : State, ∃ id, ∃ c : Cmd, s.Runs id 0x0205 objCopyFields c ∧ c.allot < s.allots.length ∧ ∃ o, c.par 0 1 = 3 ∧ (s.named c).obj? (c.allot) (c.par 8 4) = some o ∧ o.shadow = false ∧ (s.named c).fits (c.allot) 4 o.charged = true) ∧
    (∃ s : State, ∃ id, ∃ c : Cmd, s.Runs id 0x0205 objCopyFields c ∧ c.allot < s.allots.length ∧ ∃ o, c.par 0 1 = 3 ∧ (s.named c).obj? (c.allot) (c.par 8 4) = some o ∧ o.shadow = false ∧ (s.named c).fits (c.allot) 4 o.charged = false) :=
  ⟨⟨poolObjCopy 0, 4, cmd4 (poolObjCopy 0), by decide +kernel, by decide +kernel, (((poolObjCopy 0).named (cmd4 (poolObjCopy 0))).obj? ((cmd4 (poolObjCopy 0)).allot) ((cmd4 (poolObjCopy 0)).par 8 4)).get (by decide +kernel), (((poolObjCopy 0).named (cmd4 (poolObjCopy 0))).obj? ((cmd4 (poolObjCopy 0)).allot) ((cmd4 (poolObjCopy 0)).par 0xC 4)).get (by decide +kernel), by decide +kernel⟩,
   ⟨poolObjCopy 2, 4, cmd4 (poolObjCopy 2), by decide +kernel, by decide +kernel, (((poolObjCopy 2).named (cmd4 (poolObjCopy 2))).obj? ((cmd4 (poolObjCopy 2)).allot) ((cmd4 (poolObjCopy 2)).par 0xC 4)).get (by decide +kernel), by decide +kernel⟩,
   ⟨poolObjCopy 3, 4, cmd4 (poolObjCopy 3), by decide +kernel, by decide +kernel, (((poolObjCopy 3).named (cmd4 (poolObjCopy 3))).obj? ((cmd4 (poolObjCopy 3)).allot) ((cmd4 (poolObjCopy 3)).par 8 4)).get (by decide +kernel), by decide +kernel⟩,
   ⟨poolObjCopy 4, 4, cmd4 (poolObjCopy 4), by decide +kernel, by decide +kernel, (((poolObjCopy 4).named (cmd4 (poolObjCopy 4))).obj? ((cmd4 (poolObjCopy 4)).allot) ((cmd4 (poolObjCopy 4)).par 8 4)).get (by decide +kernel), by decide +kernel⟩,
   ⟨poolObjCopy 5, 4, cmd4 (poolObjCopy 5), by decide +kernel, by decide +kernel, (((poolObjCopy 5).named (cmd4 (poolObjCopy 5))).obj? ((cmd4 (poolObjCopy 5)).allot) ((cmd4 (poolObjCopy 5)).par 8 4)).get (by decide +kernel), by decide +kernel⟩⟩

/-- The hypotheses of each clause of PoolSet hold together. -/
theorem met_PoolSet :
    (∃ s : State, ∃ id, ∃ c : Cmd, s.OrderRuns id 0x0210 poolSetFields c ∧ s.allots.length = 16 ∧ c.par 0 1 = 0 ∧ c.par 1 1 < 16) ∧
    (∃ s : State, ∃ id, ∃ c : Cmd, s.OrderRuns id 0x0210 poolSetFields c ∧ s.allots.length = 16 ∧ c.par 0 1 = 1 ∧ (s.pair.bound = false ∨ c.par 0xC 4 = s.dev.mirrorGib)) ∧
    (∃ s : State, ∃ id, ∃ c : Cmd, s.OrderRuns id 0x0210 poolSetFields c ∧ s.allots.length = 16 ∧ c.par 0 1 = 1 ∧ s.pair.bound = true ∧ c.par 0xC 4 ≠ s.dev.mirrorGib) :=
  ⟨⟨poolPoolSet 0, 4, cmd4 (poolPoolSet 0), by decide +kernel⟩,
   ⟨poolPoolSet 1, 4, cmd4 (poolPoolSet 1), by decide +kernel⟩,
   ⟨poolPoolSet 2, 4, cmd4 (poolPoolSet 2), by decide +kernel⟩⟩

end Objects

namespace Tiles

def bf (f : Nat → Nat) (n : Nat) : Bytes := ((List.range n).flatMap (fun i => [(2*i, BitVec.ofNat 8 (f i)), (2*i+1, BitVec.ofNat 8 (f i / 256))])).filter (fun e => e.2 != 0)
def desc (op acc o : Nat) (passes pass : Nat := 0) (epi : Nat := 0) : Nat := F [(0,1,op + acc * 64),(2,2,0xFFFF),(4,1,4),(5,1,4),(6,1,8),(8,4,2),(16,4,3),(24,4,o),(40,2,2),(42,2,3),(44,2,2),(46,1,pass),(47,1,passes),(48,2,1),(50,2,1),(52,2,1)] + epi*0
def tob (ds : List Nat) : State := withObjs up 0 [(1, raw 8192 (bytesOf 0 (F (ds.zipIdx.map (fun e => (64 * e.2, 64, e.1)))) 512)), (2, ten 4 0 32 32 (bf (fun i => 0x3F80 + i % 7) 40) 0), (3, ten 4 0 32 32 (bf (fun i => 0xBF80 + i % 5) 40) 1), (4, ten 8 0 32 32 [] 0), (5, ten 8 0 32 32 [] 0)]
def trun (ds : List Nat) (s : State := tob ds) : State := start s 0x0301 (F [(0,8,1),(8,4,ds.length),(0xC,1,0),(0x10,8,5),(0x18,4,0)])
def small (n : Nat) (s : State) : State := s.modAl 0 (fun x => { x with pools := List.replicate 6 { quota := n } })
def ks : List Nat := [desc 1 2 4 2 1 , desc 1 2 4 2 0]
def l1 : State := trun [desc 1 0 4, desc 1 0 5, desc 2 0 4]
def l2 : State := nx (.tileRun 4 2) l1
def pT : List State := [l1, trun [desc 1 0 4, desc 0 0 4], trun ks, small 0 (trun ks), l2, nx (.tileOpIssue 0 2 0) l2, nx (.tileOpIssue 0 2 1) (nx (.tileOpIssue 0 2 0) l2),
  nx (.tileOpComplete 4 1) (nx (.tileOpIssue 0 2 1) (nx (.tileOpIssue 0 2 0) l2)),
  nx (.tileOpIssue 0 2 3) (nx (.tileOpComplete 4 0) (nx (.tileOpComplete 4 1) (nx (.tileOpIssue 0 2 1) (nx (.tileOpIssue 0 2 0) l2)))),
  nx (.tileOpIssue 0 0 0) (nx (.tileRun 4 0) (trun [desc 1 0 4]))]
def n4 (s : State) (grid : List Nat) : State := withObjs s 0 [(1, let o := ten 1 0 4 64 [(0, 0x21)]; { o with t := { o.t with grid := grid } })]
def gl (a : Nat) (g : List Nat) : Nat := F ([(0,4,1),(4,1,a)] ++ (g.zipIdx.map (fun e => (8 + e.2, 1, e.1))))
def poolTileRuns : Nat → State := nth (pT)
def poolTileSums : Nat → State := nth ([])
def poolGridLoad : Nat → State := nth ([start (n4 up []) 0x0405 (gl 0 defaultGrid), start (n4 up defaultGrid) 0x0405 (gl 1 []), start (n4 up []) 0x0405 (gl 0 (defaultGrid.set 3 0)), start (n4 up []) 0x0405 (gl 0 (List.replicate 16 0))])

theorem and_append11 {a b c d e f g h i j k r : Prop} (x : a ∧ b ∧ c ∧ d ∧ e ∧ f ∧ g ∧ h ∧ i ∧ j ∧ k) (y : r) :
    a ∧ b ∧ c ∧ d ∧ e ∧ f ∧ g ∧ h ∧ i ∧ j ∧ k ∧ r := by
  simp only [x, y, and_self]

/-- The hypotheses of clause 1 of TileRuns hold together. -/
theorem met_TileRuns_1 : ∃ s : State, ∃ id, ∃ c : Cmd, s.Runs id 0x0301 tileRunFields c ∧ c.allot < s.allots.length ∧ s.hearths.length = 2 ∧ (c.par 0xC 1) < 2 ∧ (s.named c).hearthOpen c (c.par 0xC 1) = true ∧ (s.named c).poisonOf [(c.allot, refHandle (c.par 0 8), bitsOf (c.par 0 8) 32 32 * 64, 64 * c.par 8 4)] = none ∧ ∃ j, (s.named c).badDesc c.allot ((s.named c).descsOf c) = some j :=
  ⟨poolTileRuns 1, 4, cmd4 (poolTileRuns 1), by decide +kernel, by decide +kernel, by decide +kernel, by decide +kernel, by decide +kernel, by decide +kernel, (((poolTileRuns 1).named (cmd4 (poolTileRuns 1))).badDesc (cmd4 (poolTileRuns 1)).allot (((poolTileRuns 1).named (cmd4 (poolTileRuns 1))).descsOf (cmd4 (poolTileRuns 1)))).get (by decide +kernel), by decide +kernel⟩

/-- The hypotheses of clause 2 of TileRuns hold together. -/
theorem met_TileRuns_2 : ∃ s : State, ∃ id, ∃ c : Cmd, s.Runs id 0x0301 tileRunFields c ∧ c.allot < s.allots.length ∧ s.hearths.length = 2 ∧ (c.par 0xC 1) < 2 ∧ (s.named c).hearthOpen c (c.par 0xC 1) = true ∧ (s.named c).poisonOf [(c.allot, refHandle (c.par 0 8), bitsOf (c.par 0 8) 32 32 * 64, 64 * c.par 8 4)] = none ∧ (s.named c).badDesc c.allot ((s.named c).descsOf c) = none ∧ (s.named c).reachable c ((s.named c).namesNow c) = none ∧ (s.named c).takeBuffers c.allot id (c.par 0xC 1) ((groupHeads ((s.named c).descsOf c)).flatMap (headNeeds ((s.named c).descsOf c))) = none :=
  ⟨poolTileRuns 3, 4, cmd4 (poolTileRuns 3), by decide +kernel⟩

/-- The hypotheses of clause 3 of TileRuns hold together. -/
theorem met_TileRuns_3 : ∃ s : State, ∃ id, ∃ seq, ∃ c : Cmd, s.Runs id 0x0301 tileRunFields c ∧ c.allot < s.allots.length ∧ s.hearths.length = 2 ∧ (c.par 0xC 1) < 2 ∧ (s.named c).hearthOpen c (c.par 0xC 1) = true ∧ (s.named c).poisonOf [(c.allot, refHandle (c.par 0 8), bitsOf (c.par 0 8) 32 32 * 64, 64 * c.par 8 4)] = none ∧ (s.named c).badDesc c.allot ((s.named c).descsOf c) = none ∧ (s.named c).reachable c ((s.named c).namesNow c) = none ∧ ∃ u, (s.named c).takeBuffers c.allot id (c.par 0xC 1) ((groupHeads ((s.named c).descsOf c)).flatMap (headNeeds ((s.named c).descsOf c))) = some u ∧ (s.named c).tileAhead c = false ∧ (s.named c).seqKept c (c.par 0xC 1) = false ∧ seq < 4 ∧ (∀ l ∈ (s.he (c.par 0xC 1)).lists, l.seq ≠ seq) :=
  ⟨poolTileRuns 0, 4, 0, cmd4 (poolTileRuns 0), by decide +kernel, by decide +kernel, by decide +kernel, by decide +kernel, by decide +kernel, by decide +kernel, by decide +kernel, by decide +kernel, (((poolTileRuns 0).named (cmd4 (poolTileRuns 0))).takeBuffers (cmd4 (poolTileRuns 0)).allot (4) ((cmd4 (poolTileRuns 0)).par 0xC 1) ((groupHeads (((poolTileRuns 0).named (cmd4 (poolTileRuns 0))).descsOf (cmd4 (poolTileRuns 0)))).flatMap (headNeeds (((poolTileRuns 0).named (cmd4 (poolTileRuns 0))).descsOf (cmd4 (poolTileRuns 0)))))).get (by decide +kernel), by decide +kernel⟩

/-- The hypotheses of clause 4 of TileRuns hold together. -/
theorem met_TileRuns_4 : ∃ s : State, ∃ h : Nat, ∃ seq : Nat, ∃ anvil : Nat, ∃ l : TileList, ∃ c : Cmd, s.hearths.length = 2 ∧ h < 2 ∧ (s.he h).lists.find? (fun m => m.seq == seq) = some l ∧ s.cmd? l.cmd = some c ∧ (∀ m ∈ (s.he h).lists, m.cmd = l.cmd → m = l) ∧ (s.he h).anvilFree l anvil = true ∧ l.ops.findIdx? (fun o => o.phase == .waiting) = none :=
  ⟨poolTileRuns 8, 0, 2, 0, (((poolTileRuns 8).he (0)).lists.find? (fun m => m.seq == (2))).get (by decide +kernel), cmd4 (poolTileRuns 8), by decide +kernel⟩

/-- The hypotheses of clause 5 of TileRuns hold together. -/
theorem met_TileRuns_5 : ∃ s : State, ∃ h : Nat, ∃ seq : Nat, ∃ anvil : Nat, ∃ l : TileList, ∃ c : Cmd, s.hearths.length = 2 ∧ h < 2 ∧ (s.he h).lists.find? (fun m => m.seq == seq) = some l ∧ s.cmd? l.cmd = some c ∧ (∀ m ∈ (s.he h).lists, m.cmd = l.cmd → m = l) ∧ (s.he h).anvilFree l anvil = true ∧ ∃ j : Nat, ∃ o : OpRec, l.ops.findIdx? (fun o => o.phase == .waiting) = some j ∧ l.ops[j]? = some o ∧ s.opBlocked h l j = true :=
  ⟨poolTileRuns 6, 0, 2, 2, (((poolTileRuns 6).he (0)).lists.find? (fun m => m.seq == (2))).get (by decide +kernel), cmd4 (poolTileRuns 6), by decide +kernel, by decide +kernel, by decide +kernel, by decide +kernel, by decide +kernel, by decide +kernel, 2, (((((poolTileRuns 6).he (0)).lists.find? (fun m => m.seq == (2))).get (by decide +kernel)).ops[(2)]?).get (by decide +kernel), by decide +kernel⟩

/-- The hypotheses of clause 6 of TileRuns hold together. -/
theorem met_TileRuns_6 : ∃ s : State, ∃ h : Nat, ∃ seq : Nat, ∃ anvil : Nat, ∃ l : TileList, ∃ c : Cmd, s.hearths.length = 2 ∧ h < 2 ∧ (s.he h).lists.find? (fun m => m.seq == seq) = some l ∧ s.cmd? l.cmd = some c ∧ (∀ m ∈ (s.he h).lists, m.cmd = l.cmd → m = l) ∧ (s.he h).anvilFree l anvil = true ∧ ∃ j : Nat, ∃ o : OpRec, l.ops.findIdx? (fun o => o.phase == .waiting) = some j ∧ l.ops[j]? = some o ∧ s.opBlocked h l j = false ∧ s.Clean l.allot :=
  ⟨poolTileRuns 4, 0, 2, 0, (((poolTileRuns 4).he (0)).lists.find? (fun m => m.seq == (2))).get (by decide +kernel), cmd4 (poolTileRuns 4), by decide +kernel, by decide +kernel, by decide +kernel, by decide +kernel, by decide +kernel, by decide +kernel, 0, (((((poolTileRuns 4).he (0)).lists.find? (fun m => m.seq == (2))).get (by decide +kernel)).ops[(0)]?).get (by decide +kernel), by decide +kernel⟩

/-- The hypotheses of clause 7 of TileRuns hold together. -/
theorem met_TileRuns_7 : ∃ s : State, ∃ h : Nat, ∃ op : Nat, ∃ l : TileList, ∃ c : Cmd, ∃ o : OpRec, s.hearths.length = 2 ∧ h < 2 ∧ (s.he h).lists.find? (fun m => m.cmd == l.cmd) = some l ∧ s.cmd? l.cmd = some c ∧ (∀ k, k < h → ∀ m ∈ (s.he k).lists, m.cmd ≠ l.cmd) ∧ l.ops[op]? = some o ∧ o.phase = .issued ∧ dAcc o.desc ≠ 2 ∧ s.layer? l.allot (dLayer o.desc) = none ∧ s.Clean l.allot ∧ c.id = l.cmd ∧ (∀ (j : Nat) (p : OpRec), j ≠ op → l.ops[j]? = some p → p.phase = .finished) ∧ (∀ k, (s.he k).newlyShort = false ∧ ∀ v ∈ (s.he k).anvils, v.failing = false) :=
  ⟨poolTileRuns 8, 0, 2, ((poolTileRuns 8).he 0).lists.head (by decide +kernel), cmd4 (poolTileRuns 8),
    (((poolTileRuns 8).he 0).lists.head (by decide +kernel)).ops[2]'(by decide +kernel), and_append11 (by decide +kernel)
    ⟨fun j p hj hp => forall_get _ (fun j p => j ≠ 2 → p.phase = .finished) (by decide +kernel) j p hp hj,
    forall_hearth _ (fun x => x.newlyShort = false ∧ ∀ v ∈ x.anvils, v.failing = false) (by decide +kernel) (by decide +kernel)⟩⟩

/-- The hypotheses of each clause of TileSums hold together. -/
theorem met_TileSums :
    (∃ l : Line, l.1 = false) ∧
    (∃ ls : List Line, ∃ l : Line, ls ≠ [] ∧ (∀ k ∈ ls, k.1 = false) ∧ l.1 = false) ∧
    (∃ ls : List Line, ls ≠ [] ∧ (∀ k ∈ ls, k.1 = false ∧ (enterProduct (k.2.1.num.mul k.2.2.num)).1 = 0x80000000#32)) ∧
    (∃ a, ∃ b, (dec32 a).isFin = true ∧ (dec32 b).isFin = true) :=
  ⟨⟨(false, ⟨.fin false 1 0, none, none⟩, ⟨.fin false 1 0, none, none⟩), rfl⟩,
   ⟨[(false, ⟨.fin false 1 0, none, none⟩, ⟨.fin false 1 0, none, none⟩)], (false, ⟨.fin true 1 0, none, none⟩, ⟨.fin false 1 0, none, none⟩), by decide, by decide, rfl⟩,
   ⟨[(false, ⟨.fin true 0 0, none, none⟩, ⟨.fin false 1 0, none, none⟩)], by decide +kernel⟩,
   ⟨0x3F800000#32, 0x7F7FFFFF#32, by decide +kernel⟩⟩

/-- The hypotheses of each clause of GridLoad hold together. -/
theorem met_GridLoad :
    (∃ s : State, ∃ id, ∃ c : Cmd, ∃ o, s.Runs id 0x0405 gridLoadFields c ∧ c.allot < s.allots.length ∧ (s.named c).obj? c.allot (c.par 0 4) = some o ∧ c.par 4 1 = 1) ∧
    (∃ s : State, ∃ id, ∃ c : Cmd, ∃ o, s.Runs id 0x0405 gridLoadFields c ∧ c.allot < s.allots.length ∧ (s.named c).obj? c.allot (c.par 0 4) = some o ∧ c.par 4 1 = 0) ∧
    (∃ s : State, ∃ id, ∃ c : Cmd, ∃ o, s.Runs id 0x0405 gridLoadFields c ∧ c.allot < s.allots.length ∧ (s.named c).obj? c.allot (c.par 0 4) = some o ∧ c.par 4 1 = 0) ∧
    (∃ s : State, ∃ id, ∃ c : Cmd, ∃ i, s.fresh? id 0x0405 = some c ∧ s.ready c = true ∧ s.nameable c.allot (c.par 0 4) = true ∧ (s.objD c.allot (c.par 0 4)).t.raw = false ∧ (s.objD c.allot (c.par 0 4)).t.fmt = 1 ∧ c.par 4 4 = 0 ∧ gridBad ((List.range 16).map (fun i => c.par (8 + i) 1)) = some i) :=
  ⟨⟨poolGridLoad 1, 4, cmd4 (poolGridLoad 1), (((poolGridLoad 1).named (cmd4 (poolGridLoad 1))).obj? (cmd4 (poolGridLoad 1)).allot ((cmd4 (poolGridLoad 1)).par 0 4)).get (by decide +kernel), by decide +kernel⟩,
   ⟨poolGridLoad 0, 4, cmd4 (poolGridLoad 0), (((poolGridLoad 0).named (cmd4 (poolGridLoad 0))).obj? (cmd4 (poolGridLoad 0)).allot ((cmd4 (poolGridLoad 0)).par 0 4)).get (by decide +kernel), by decide +kernel⟩,
   ⟨poolGridLoad 0, 4, cmd4 (poolGridLoad 0), (((poolGridLoad 0).named (cmd4 (poolGridLoad 0))).obj? (cmd4 (poolGridLoad 0)).allot ((cmd4 (poolGridLoad 0)).par 0 4)).get (by decide +kernel), by decide +kernel⟩,
   ⟨poolGridLoad 2, 4, cmd4 (poolGridLoad 2), 3, by decide +kernel⟩⟩

end Tiles

namespace Steering

def lrec (layer lo hi en : Nat) (wm : Nat := 0) : Nat := F [(0,2,layer),(2,1,0),(3,1,lo+16*hi),(5,1,en),(6,1,16),(7,1,1),(8,2,10),(0xA,2,200),(0xC,2,100),(0xE,2,200),(0x10,2,32),(0x14,4,wm),(0x18,4,3),(0x1C,1,1)]
def so : State := withObjs up 0 [(1, raw 65536 (bytesOf 0 (F [(0,64,lrec 3 0 1 1), (64,64, lrec 4 0 1 1)]) 512)), (2, ten 4 0 8 64), (3, ten 4 0 8 64), (4, raw 8192 [])]
def ts (ref n : Nat) (inl : Nat := 0) (s : State := so) : State := start s 0x0401 (F [(0,1,0),(2,2,n),(8,8,ref)] + inl * 256^16)
def small (n : Nat) (s : State) : State := s.modAl 0 (fun x => { x with pools := List.replicate 6 { quota := n } })
def layered (s : State) (l : Layer := { ladder := 0, lo := 0, hi := 2, rung := 1 }) : State := s.modAl 0 (fun x => { x with temper := { x.temper with layers := [(3, l), (9, { l with rung := 0 })], storm := true } })
def pS : List State := [ts 1 2, ts 0 1 (lrec 3 0 1 1), ts 1 3, ts (1 + 2^32) 2, small 0 (ts 1 2), 
  start (layered so) 0x0406 (F [(0,1,0),(2,2,3),(4,4,1),(8,4,64),(0xC,1,3),(0xD,1,4),(0xE,1,2)]), start (layered so) 0x0406 (F [(0,1,4),(4,4,2)]),
  start (layered so) 0x0404 (F [(0,2,3),(2,1,3),(3,1,1),(4,1,100)]), 
  start (layered so) 0x0402 (F [(0,2,0),(2,2,100),(4,1,2),(8,8,4 + 2^32)]), start (layered so { ladder := 0, lo := 0, hi := 2, rung := 1, boundHigh := true, dry := true, storm := true }) 0x0402 (F [(0,2,2),(2,2,4),(4,1,1),(8,8,4)]),
  start (layered so) 0x0403 (F [(0,2,0),(2,2,100),(4,1,1),(8,8,4 + 2^32)]), start (layered so) 0x0403 (F [(0,2,0),(2,2,100),(4,1,0),(8,8,4)])]
def st1 : StepStats := { ops := 5, hardSat := true }
def mkLayers : List Layer := [ {}, { lo := 0, hi := 2, rung := 1, openStats := st1 }, { lo := 0, hi := 1, rung := 1, openStats := st1, boundHigh := false }, { lo := 0, hi := 2, rung := 1, autoOff := true, openStats := st1 },
  { lo := 0, hi := 2, rung := 1, cleanCount := 200, openStats := { ops := 3 } }, { lo := 0, hi := 2, rung := 1, cleanCount := 198, openStats := { ops := 3 } }, { lo := 1, hi := 2, rung := 1, cleanCount := 199, openStats := { ops := 3 } },
  { lo := 0, hi := 2, rung := 1, openStats := { ops := 3, slots := [{ convBlocks := 1000, satBlocks := 2 }, {}, {}, {}] } },  { lo := 0, hi := 2, rung := 1, openStats := { ops := 3, slots := [{}, { nonzeroIn := 1000, zeroed := 21 }, {}, {}] } },
  { lo := 0, hi := 2, rung := 1, dryCount := 31, dryEps := 100, changeFrac := some 5, openStats := { ops := 3, slots := [{}, {}, {convElems := 1000, nzCodes := 1}, {}] } },
  { lo := 0, hi := 2, rung := 1, openStats := { ops := 3, retries := 1 } }, { lo := 0, hi := 2, rung := 1, openStats := { ops := 3, spillOver := true } }]
def one (l : Layer) : State := up.modAl 0 (fun x => { x with temper := { x.temper with layers := [(3, l)], step := 41 } })
def sync : State := { up with pair := { up.pair with state := .sync, temperSync := true } }
def poolSteering : Nat → State := nth (pS ++ [(nth pS 5).named (cmd4 (nth pS 5))])
def poolStepMark : Nat → State := nth ([other (start up 0x0410 0) 0x0301 0 1, start up 0x0410 0, start (one (mkLayers.getD 1 {})) 0x0410 0, sync, up])

/-- The hypotheses of each clause of Steering hold together. -/
theorem met_Steering :
    (∃ s : State, ∃ id, ∃ c : Cmd, s.Runs id 0x0401 temperSetFields c ∧ c.allot < s.allots.length ∧ (s.named c).setsSettled c = true ∧ (s.named c).Clean c.allot ∧ ∃ i, c.par 8 8 ≠ 0 ∧ ((s.named c).temperRecs c).findIdx? (fun r => ((s.named c).recFlds c.allot (c.par 0 1) r 0).any (fun f => !f.ok)) = some i) ∧
    (∃ s : State, ∃ id, ∃ c : Cmd, s.Runs id 0x0401 temperSetFields c ∧ c.allot < s.allots.length ∧ (s.named c).setsSettled c = true ∧ (s.named c).Clean c.allot ∧ ∃ v, (c.par 8 8 = 0 ∨ ∀ r ∈ ((s.named c).temperRecs c), ∀ f ∈ (s.named c).recFlds c.allot (c.par 0 1) r 0, f.ok = true) ∧ ((if c.par 0 1 = 0 then 3392 * (newLayers (s.al c.allot).temper ((s.named c).temperRecs c)).length else 0) = 0 ∨ (s.named c).fits c.allot 2 (if c.par 0 1 = 0 then 3392 * (newLayers (s.al c.allot).temper ((s.named c).temperRecs c)).length else 0) = true) ∧ ((s.named c).charge c.allot .layers 2 (if c.par 0 1 = 0 then 3392 * (newLayers (s.al c.allot).temper ((s.named c).temperRecs c)).length else 0)).chargeResiduals c.allot ((recsInOrder (((s.named c).temperRecs c).map (pendRec (c.par 0 1)))).foldl Temper.apply (((s.named c).al c.allot).temper.soon)) ((recsInOrder (((s.named c).temperRecs c).map (pendRec (c.par 0 1)))).foldl Temper.apply (((s.named c).al c.allot).temper.soon)).layers = some v) ∧
    (∃ s : State, ∃ id, ∃ c : Cmd, ∃ v, s.Runs id 0x0406 spillSetFields c ∧ c.allot < s.allots.length ∧ (s.named c).setsSettled c = true ∧ (s.named c).chargeResiduals c.allot ((s.al c.allot).temper.soon.setSpill c.params) ((s.al c.allot).temper.soon.setSpill c.params).layers = some v) ∧
    (∃ s : State, ∃ id, ∃ c : Cmd, s.Runs id 0x0404 scaleSetFields c ∧ c.allot < s.allots.length ∧ s.setsSettled c = true) ∧
    (∃ s : State, ∃ id, ∃ c : Cmd, s.Runs id 0x0402 temperReadFields c ∧ c.allot < s.allots.length) ∧
    (∃ s : State, ∃ id, ∃ c : Cmd, s.Runs id 0x0403 statsReadFields c ∧ c.allot < s.allots.length) :=
  ⟨⟨poolSteering 2, 4, cmd4 (poolSteering 2), by decide +kernel, by decide +kernel, by decide +kernel, by decide +kernel, 2, by decide +kernel⟩,
   ⟨poolSteering 0, 4, cmd4 (poolSteering 0), by decide +kernel, by decide +kernel, by decide +kernel, by decide +kernel, ((((poolSteering 0).named (cmd4 (poolSteering 0))).charge (cmd4 (poolSteering 0)).allot .layers 2 (if (cmd4 (poolSteering 0)).par 0 1 = 0 then 3392 * (newLayers ((poolSteering 0).al (cmd4 (poolSteering 0)).allot).temper (((poolSteering 0).named (cmd4 (poolSteering 0))).temperRecs (cmd4 (poolSteering 0)))).length else 0)).chargeResiduals (cmd4 (poolSteering 0)).allot ((recsInOrder ((((poolSteering 0).named (cmd4 (poolSteering 0))).temperRecs (cmd4 (poolSteering 0))).map (pendRec ((cmd4 (poolSteering 0)).par 0 1)))).foldl Temper.apply ((((poolSteering 0).named (cmd4 (poolSteering 0))).al (cmd4 (poolSteering 0)).allot).temper.soon)) ((recsInOrder ((((poolSteering 0).named (cmd4 (poolSteering 0))).temperRecs (cmd4 (poolSteering 0))).map (pendRec ((cmd4 (poolSteering 0)).par 0 1)))).foldl Temper.apply ((((poolSteering 0).named (cmd4 (poolSteering 0))).al (cmd4 (poolSteering 0)).allot).temper.soon)).layers).get (by decide +kernel), by decide +kernel⟩,
   ⟨poolSteering 12, 4, cmd4 (poolSteering 12), (((poolSteering 12).named (cmd4 (poolSteering 12))).chargeResiduals (cmd4 (poolSteering 12)).allot (((poolSteering 12).al (cmd4 (poolSteering 12)).allot).temper.soon.setSpill (cmd4 (poolSteering 12)).params) (((poolSteering 12).al (cmd4 (poolSteering 12)).allot).temper.soon.setSpill (cmd4 (poolSteering 12)).params).layers).get (by decide +kernel), by decide +kernel⟩,
   ⟨poolSteering 7, 4, cmd4 (poolSteering 7), by decide +kernel⟩,
   ⟨poolSteering 8, 4, cmd4 (poolSteering 8), by decide +kernel⟩,
   ⟨poolSteering 10, 4, cmd4 (poolSteering 10), by decide +kernel⟩⟩

/-- The hypotheses of each clause of StepMark hold together. -/
theorem met_StepMark :
    (∃ l : Layer, ∃ st : StepStats, l.triggers st ≠ 0) ∧
    (∃ l : Layer, ∃ st : StepStats, l.triggers st ≠ 0 ∧ l.autoOff = false ∧ l.hi ≤ l.rung) ∧
    (∃ l : Layer, ∃ st : StepStats, l.triggers st ≠ 0 ∧ l.autoOff = true) ∧
    (∃ l : Layer, ∃ st : StepStats, l.triggers st = 0) ∧
    (∃ l : Layer, ∃ st : StepStats, l.triggers st = 0 ∧ st.ops = 0) ∧
    (∃ l : Layer, ∃ st : StepStats, l.triggers st = 0 ∧ 0 < st.ops) ∧
    (∃ s : State, ∃ id, ∃ c : Cmd, s.started? id 0x0410 = some c ∧ c.phase = .started ∧ s.markReady c = false) ∧
    (∃ s : State, ∃ id, ∃ c : Cmd, s.started? id 0x0410 = some c ∧ c.phase = .started ∧ s.markReady c = true ∧ s.recordsJudged c = true ∧ s.allots.length = 16 ∧ c.allot < 16 ∧ s.judgeInline c [] = none ∧ s.pair.state = .unbound ∧ (s.al c.allot).temper.layers = [] ∧ (s.al c.allot).temper.recs = [] ∧ (s.al c.allot).mir.tensors = [] ∧ (s.al c.allot).temper.stormInStep = false ∧ (s.al c.allot).temper.holdInStep = false) ∧
    (∃ s : State, ∃ id, ∃ c : Cmd, ∃ i, ∃ l, s.started? id 0x0410 = some c ∧ c.phase = .started ∧ s.markReady c = true ∧ s.recordsJudged c = true ∧ s.allots.length = 16 ∧ c.allot < 16 ∧ s.judgeInline c [] = none ∧ s.pair.state = .unbound ∧ (s.al c.allot).temper.layers = [(i, l)] ∧ (s.al c.allot).temper.recs = [] ∧ (s.al c.allot).mir.tensors = [] ∧ l.wMaster = 0 ∧ l.copy = none ∧ l.spill.kLen = 0 ∧ l.autoOff = false ∧ l.lo ≤ l.rung ∧ l.rung < l.hi ∧ l.triggers l.openStats ≠ 0) ∧
    (∃ s : State, ∃ a, s.pair.bound = true ∧ s.pair.temperSync = true ∧ a < 16 ∧ (∀ d ∈ s.hg.cmds, ¬ (d.allot = a ∧ d.opcode = 0x0410 ∧ d.phase = .working))) ∧
    (∃ s : State, (s.pair.bound = false ∨ s.pair.temperSync = false)) :=
  ⟨⟨mkLayers.getD 1 {}, st1, by decide +kernel⟩,
   ⟨mkLayers.getD 2 {}, st1, by decide +kernel⟩,
   ⟨mkLayers.getD 3 {}, st1, by decide +kernel⟩,
   ⟨mkLayers.getD 4 {}, { ops := 3 }, by decide +kernel⟩,
   ⟨mkLayers.getD 4 {}, {}, by decide +kernel⟩,
   ⟨mkLayers.getD 4 {}, { ops := 3 }, by decide +kernel⟩,
   ⟨poolStepMark 0, 4, cmd4 (poolStepMark 0), by decide +kernel⟩,
   ⟨poolStepMark 1, 4, cmd4 (poolStepMark 1), by decide +kernel⟩,
   ⟨poolStepMark 2, 4, cmd4 (poolStepMark 2), 3, mkLayers.getD 1 {}, by decide +kernel⟩,
   ⟨poolStepMark 3, 0, by decide +kernel⟩,
   ⟨poolStepMark 4, by decide +kernel⟩⟩

end Steering

namespace Updates

def bf (f : Nat → Nat) (n : Nat) : Bytes := ((List.range n).flatMap (fun i => [(2*i, BitVec.ofNat 8 (f i)), (2*i+1, BitVec.ofNat 8 (f i / 256))])).filter (fun e => e.2 != 0)
def prm (m g mo kind rule r c : Nat) (layer : Nat := 0xFFFF) : Nat := F [(0,4,m),(4,4,g),(8,4,mo),(0xC,2,layer),(0xE,1,kind),(0xF,1,rule),(0x10,4,r),(0x14,4,c),(0x18,4,0x3F800000),(0x1C,4,0x3F800000)]
def rl (n : Nat) : Nat := F ([(0,1,n),(1,1,1),(4,4,0x33800000),(8,4,0x3F800000)] ++ (List.range n).flatMap (fun i => [(0x10+12*i,4,0x40000000),(0x14+12*i,4,0xBFA00000),(0x18+12*i,4,0x3EC00000)]))
def lst (l : List Nat) : Bytes := bytesOf 0 (F (l.zipIdx.map (fun e => (64 * e.2, 64, e.1)))) 512
def so (l : List Nat) : State := withObjs up 0 [(1, raw 8192 (lst l)), (2, ten 4 0 2 4 (bf (fun i => 0x3F80 + i) 8)), (3, ten 4 0 2 4 (bf (fun i => 0xBF80 + 8*i) 8)), (4, ten 8 0 2 4), (5, ten 4 0 2 4 (bf (fun i => 0x3F80 + i) 8)), (6, ten 4 0 2 4), (7, raw 4096 [])]
def p2 : List Nat := [prm 2 3 4 1 0 2 4, prm 5 3 6 0 0 2 4]
def frz (l : List Nat) (s : State) : State := s.modAl 0 (fun x => { x with upd := { x.upd with frozen := l } })
def ruleS (n : Nat) : State := withObjs up 0 [(1, raw 8192 (bytesOf 0 (rl n) 128))]
def pU : List State := [start (ruleS 3) 0x0504 (F [(0,1,2),(8,8,1)]), start (ruleS 0) 0x0504 (F [(0,1,2),(8,8,1)]),
  start (frz [2] (so [])) 0x0503 (F [(0,1,0),(2,2,2),(0x10,4,2),(0x14,4,3)]), start (frz [2] (so [])) 0x0503 (F [(0,1,1),(2,2,3),(0x10,4,2),(0x14,4,3),(0x18,4,3)]), start (so [2 + 3 * 2^32]) 0x0503 (F [(0,1,1),(2,2,2),(8,8,1)]),
  start (so p2) 0x0501 (F [(0,8,1),(8,4,2),(0xC,1,3)]), start (frz [2] (so p2)) 0x0501 (F [(0,8,1),(8,4,2),(0xC,1,1)])]
def ap (s : State) (n : Nat) (flags : Nat := 0) (slot : Nat := 4) : State := start s 0x0502 (F [(0,8,1),(8,4,n),(0xC,1,slot),(0x10,4,0x3C23D70A),(0x14,4,0x3F000000),(0x18,4,0x3DCCCCCD),(0x1C,4,0),(0x20,8,5)]) 0 false flags
def pA : List State := [ap (so [prm 2 3 4 1 0 2 4]) 1, ap (so p2) 2, ap (frz [2] (so p2)) 2, ap (frz [2,5] (so p2)) 2, ap (so [prm 2 3 4 1 0 2 4, prm 2 3 4 1 0 2 4]) 2, ap (so [prm 2 3 4 1 7 2 4]) 1, ap (so p2) 2 512, setPhase (ap (so p2) 2) .working,
   setPhase (ap (so p2) 2) .held, setP (fun c => { c with stage := 1 }) (setPhase (ap (so p2) 2) .working)]
def poolUpdateSetup : Nat → State := nth (pU)
def poolUpdApply : Nat → State := nth (pA)

theorem not_own (x y : Nat) {o : Option Nat} (h : y ≠ x) (ho : o = none) : ¬ (y = x ∨ ∃ f, o = some f ∧ y = handleIndex f) := by
  subst ho
  rintro (e | ⟨f, e, _⟩)
  · exact h e
  · cases e

theorem and_append9 {a b c d e f g h i r : Prop} (x : a ∧ b ∧ c ∧ d ∧ e ∧ f ∧ g ∧ h ∧ i) (y : r) : a ∧ b ∧ c ∧ d ∧ e ∧ f ∧ g ∧ h ∧ i ∧ r := by
  simp only [x, y, and_self]

/-- The hypotheses of each clause of UpdateSetup hold together. -/
theorem met_UpdateSetup :
    (∃ s : State, ∃ id, ∃ c : Cmd, s.Runs id 0x0504 updRuleFields c ∧ c.allot < s.allots.length ∧ ∃ x, (s.named c).before c 0x0502 none = false ∧ (s.named c).Clean c.allot ∧ ruleOf (leNat ((s.named c).readRef c.allot (c.par 8 8) 64 128)) = some x) ∧
    (∃ s : State, ∃ id, ∃ c : Cmd, s.Runs id 0x0504 updRuleFields c ∧ c.allot < s.allots.length ∧ (s.named c).before c 0x0502 none = false ∧ (s.named c).Clean c.allot ∧ ruleOf (leNat ((s.named c).readRef c.allot (c.par 8 8) 64 128)) = none) ∧
    (∃ s : State, ∃ id, ∃ c : Cmd, s.Runs id 0x0503 updFreezeFields c ∧ c.allot < s.allots.length ∧ (s.named c).Clean c.allot ∧ (s.named c).before c 0x0501 none = false ∧ (s.named c).before c 0x0502 none = false ∧ (∀ h ∈ ((s.named c).freezeHandles c), (s.named c).nameable c.allot h = true)) ∧
    (∃ s : State, ∃ id, ∃ c : Cmd, s.Runs id 0x0501 updNormFields c ∧ c.allot < s.allots.length ∧ (s.named c).Clean c.allot ∧ (s.named c).badParamRec c ((s.named c).paramsOf c) = none ∧ (s.named c).reachable c ((s.named c).namesNow c) = none ∧ (s.named c).before c 0x0502 (some (c.par 0xC 1)) = false ∧ c.par 0xD 1 = 0 ∧ c.par 0x10 8 = 0) :=
  ⟨⟨poolUpdateSetup 0, 4, cmd4 (poolUpdateSetup 0), by decide +kernel, by decide +kernel, (ruleOf (leNat (((poolUpdateSetup 0).named (cmd4 (poolUpdateSetup 0))).readRef (cmd4 (poolUpdateSetup 0)).allot ((cmd4 (poolUpdateSetup 0)).par 8 8) 64 128))).get (by decide +kernel), by decide +kernel⟩,
   ⟨poolUpdateSetup 1, 4, cmd4 (poolUpdateSetup 1), by decide +kernel⟩,
   ⟨poolUpdateSetup 2, 4, cmd4 (poolUpdateSetup 2), by decide +kernel⟩,
   ⟨poolUpdateSetup 5, 4, cmd4 (poolUpdateSetup 5), by decide +kernel⟩⟩

/-- The hypotheses of each clause of UpdApply hold together. -/
theorem met_UpdApply :
    (∃ s : State, ∃ id, ∃ c : Cmd, ∃ j, s.ApplyStarts id c ∧ s.badParamRec c (s.paramsOf c) = some j) ∧
    (∃ s : State, ∃ id, ∃ c : Cmd, ∃ u, s.ApplyStarts id c ∧ s.badParamRec c (s.paramsOf c) = none ∧ s.reachable c (s.namesNow c) = none ∧ (s.named c).takeWork c (s.paramsOf c) = some u ∧ (s.al c.allot).temper.holdOpen = false ∧ c.opflag 1 = true) ∧
    (∃ s : State, ∃ id, ∃ c : Cmd, s.ApplyStarts id c ∧ s.ApplyGoes c ∧ (∀ p ∈ s.paramsOf c, p.master ∈ (s.al c.allot).upd.frozen)) ∧
    (∃ s : State, ∃ id, ∃ c : Cmd, ∃ p, s.ApplyStarts id c ∧ s.ApplyGoes c ∧ s.paramsOf c = [p] ∧ c.par 8 4 = 1 ∧ p.kind = 1 ∧ p.layer = 0xFFFF ∧ p.master ∉ (s.al c.allot).upd.frozen ∧ s.pair.bound = false ∧ (s.al c.allot).upd.runs = [] ∧ ¬ (handleIndex (refHandle (c.par 0 8)) = handleIndex p.mom ∨ ∃ f, (s.objD c.allot p.mom).flagMap = some f ∧ handleIndex (refHandle (c.par 0 8)) = handleIndex f) ∧ ¬ (handleIndex p.master = handleIndex p.mom ∨ ∃ f, (s.objD c.allot p.mom).flagMap = some f ∧ handleIndex p.master = handleIndex f) ∧ ¬ (handleIndex p.mom = handleIndex p.master ∨ ∃ f, (s.objD c.allot p.master).flagMap = some f ∧ handleIndex p.mom = handleIndex f)) ∧
    (∃ s : State, ∃ id, ∃ c : Cmd, s.started? id 0x0502 = some c ∧ c.phase = .working) ∧
    (∃ s : State, ∃ id, ∃ c : Cmd, s.started? id 0x0502 = some c ∧ c.phase = .working) ∧
    (∃ s : State, ∃ id, ∃ c : Cmd, s.cmd? id = some c ∧ c.phase ≠ .working) :=
  ⟨⟨poolUpdApply 4, 4, cmd4 (poolUpdApply 4), 1, by decide +kernel⟩,
   ⟨poolUpdApply 6, 4, cmd4 (poolUpdApply 6), (((poolUpdApply 6).named (cmd4 (poolUpdApply 6))).takeWork (cmd4 (poolUpdApply 6)) ((poolUpdApply 6).paramsOf (cmd4 (poolUpdApply 6)))).get (by decide +kernel), by decide +kernel⟩,
   ⟨poolUpdApply 3, 4, cmd4 (poolUpdApply 3), by decide +kernel⟩,
   ⟨poolUpdApply 0, 4, cmd4 (poolUpdApply 0), ((poolUpdApply 0).paramsOf (cmd4 (poolUpdApply 0))).head (by decide +kernel),
    and_append9 (by decide +kernel) ⟨not_own _ _ (by decide +kernel) (by decide +kernel), not_own _ _ (by decide +kernel) (by decide +kernel), not_own _ _ (by decide +kernel) (by decide +kernel)⟩⟩,
   ⟨poolUpdApply 7, 4, cmd4 (poolUpdApply 7), by decide +kernel⟩,
   ⟨poolUpdApply 7, 4, cmd4 (poolUpdApply 7), by decide +kernel⟩,
   ⟨poolUpdApply 0, 4, cmd4 (poolUpdApply 0), by decide +kernel⟩⟩

end Updates

namespace Allotments

def noA (s : State) : State := s.modAl 3 (fun x => { x with live := false })
def obj1 (s : State) (a : Nat) : State := (withObjs s a [(1, raw 4096 [(1,1)])]).modAl a (fun x => { x with tokens := [(3,4)], reuse := [(1, 7)], upd := { x.upd with frozen := [1] }, dbErr := { reason := 2 } })
def r1 (s : State) (a : Nat) : State := qs [(0, q0), (1, r0)] s a
def pA : List State := [ord (noA up) 0x0110 (F [(0,1,3)]), ord up 0x0110 (F [(0,1,4)]), ord { up with dev := { up.dev with vfEnable := false } } 0x0110 (F [(0,1,3)]),
  ord (r1 (obj1 up 1) 1) 0x0A40 (F [(0,1,1)]), other (ord (r1 (obj1 up 1) 1) 0x0A40 (F [(0,1,1)])) 0x301 0 2 1, ord (r1 (obj1 up 1) 1) 0x0A40 (F [(0,1,1)]) 1, ord (r1 (obj1 upq 0) 1) 0x0A40 (F [(0,1,0)]) 0,
  ord (r1 (obj1 up 1) 1) 0x0111 (F [(0,1,1)]), other (ord (r1 (obj1 up 1) 1) 0x0111 (F [(0,1,1)])) 0x301 0 2 1 0 .working]
def pR : List State := [obj1 (r1 up 1) 1, other (obj1 (r1 up 1) 1) 0x301 0 2 1 0 .working, { up with dev := { up.dev with perst := true, linkWaits := false } }, ord (obj1 (r1 up 1) 1) 0x0A41 0,
  other (ord (obj1 (r1 up 1) 1) 0x0A41 0) 0x0100 0 3 ,{ up with dev := { up.dev with vfEnable := false } }]
def poolAllotments : Nat → State := nth (pA)
def poolResets : Nat → State := nth (pR)

/-- The hypotheses of each clause of Allotments hold together. -/
theorem met_Allotments :
    (∃ s : State, ∃ id, ∃ c : Cmd, s.OrderRuns id 0x0110 allotCreateFields c ∧ s.allots.length = 16 ∧ s.dev.vfEnable = true ∧ c.par 0 1 ≤ s.dev.numVfs) ∧
    (∃ s : State, ∃ id, ∃ c : Cmd, s.OrderRuns id 0x0110 allotCreateFields c ∧ s.allots.length = 16 ∧ (s.dev.vfEnable = false ∨ s.dev.numVfs < c.par 0 1)) ∧
    (∃ s : State, ∃ id, ∃ c : Cmd, s.OrderRuns id 0x0A40 allotResetFields c ∧ s.allots.length = 16 ∧ s.host.bad = [] ∧ (¬ (c.master = .allot ∧ c.allot = c.par 0 1))) ∧
    (∃ s : State, ∃ id, ∃ c : Cmd, s.OrderRuns id 0x0A40 allotResetFields c ∧ s.allots.length = 16 ∧ s.host.bad = [] ∧ c.master = .allot ∧ c.allot = c.par 0 1) ∧
    (∃ s : State, ∃ id, ∃ c : Cmd, s.OrderRuns id 0x0111 allotDestroyFields c ∧ s.allots.length = 16 ∧ s.host.bad = [] ∧ (¬ (c.master = .allot ∧ c.allot = c.par 0 1))) :=
  ⟨⟨poolAllotments 0, 4, cmd4 (poolAllotments 0), by decide +kernel⟩,
   ⟨poolAllotments 1, 4, cmd4 (poolAllotments 1), by decide +kernel⟩,
   ⟨poolAllotments 3, 4, cmd4 (poolAllotments 3), by decide +kernel⟩,
   ⟨poolAllotments 5, 4, cmd4 (poolAllotments 5), by decide +kernel⟩,
   ⟨poolAllotments 7, 4, cmd4 (poolAllotments 7), by decide +kernel⟩⟩

/-- The hypotheses of each clause of Resets hold together. -/
theorem met_Resets :
    (∃ s : State, ∃ vf, s.reaches vf = true ∧ 1 ≤ vf ∧ vf ≤ 15 ∧ s.allots.length = 16 ∧ s.AtOnce opFlrVf ∧ s.NoOrderWorks ∧ s.host.bad = [] ∧ (s.al vf).live = true) ∧
    (∃ s : State, ∃ on, ∃ n, s.dev.linkUp = true ∧ n ≤ 16 ∧ vfCount on n < vfCount s.dev.vfEnable s.dev.numVfs ∧ s.allots.length = 16 ∧ s.AtOnce opVfRemove ∧ s.NoOrderWorks ∧ s.host.bad = []) ∧
    (∃ s : State, ∃ n, s.dev.linkUp = true ∧ n ≤ 16 ∧ vfCount s.dev.vfEnable s.dev.numVfs ≤ n) ∧
    (∃ s : State, ∃ id, ∃ c : Cmd, s.OrderRuns id 0x0A41 devResetFields c ∧ s.allots.length = 16) ∧
    (∃ s : State, s.dev.linkUp = true ∧ s.AtOnce 0x0A41 ∧ s.NoOrderWorks ∧ s.allots.length = 16) ∧
    (∃ s : State, s.dev.perst = false ∧ s.dev.mainRails = true ∧ s.allots.length = 16) ∧
    (∃ s : State, s.dev.linkUp = true ∧ s.allots.length = 16) ∧
    (∃ s : State, s.dev.linkUp = true ∧ s.allots.length = 16) ∧
    (∃ s : State, s.dev.perst = true ∧ s.dev.linkWaits = false) :=
  ⟨⟨poolResets 0, 1, by decide +kernel⟩,
   ⟨poolResets 0, false, 0, by decide +kernel⟩,
   ⟨poolResets 0, 3, by decide +kernel⟩,
   ⟨poolResets 3, 4, cmd4 (poolResets 3), by decide +kernel⟩,
   ⟨poolResets 0, by decide +kernel⟩,
   ⟨poolResets 0, by decide +kernel⟩,
   ⟨poolResets 0, by decide +kernel⟩,
   ⟨poolResets 0, by decide +kernel⟩,
   ⟨poolResets 2, by decide +kernel⟩⟩

end Allotments

namespace Peers

def ent (valid n port : Nat) : Nat := F [(0,1,valid),(1,1,n),(8,8,port + 32)]
def objF : List (Nat × Obj) := [(1, raw 65536 (bytesOf 0 (F [(0,32,ent 1 1 1),(32,32,ent 1 1 2)]) 64)), (2, ten 4 0 4 64 [(0,1),(3,0x3F)]), (3, ten 4 0 4 64 []), (4, raw 8192 (bytesOf 0 (5 + 7 * 2^32) 8)), (5, ten 4 0 4 64 [])]
def rt (p : Nat) : Route := { valid := true, npath := 1, epoch := 3, paths := [{ port := p, valid := true }, {}, {}] }
def fab0 : State := let s := withObjs up 0 objF; { s with fab := { s.fab with routes := [(7, rt 1), (9, rt 2)] } }
def grp : Group := { allot := 0, members := [(5, 0), (7, 0)], tail := 1, deadline := 1000, digest := 9 }
def strm (peer : Nat) : Sys2Proof.Machine.Stream := { allot := 0, group := 10, rank := 1, peer := peer, channel := 3, far := some 33 }
def fab1 : State := { fab0 with fab := { fab0.fab with groups := [(10, grp)], streams := [(20, strm 7)], streamReuse := [(20, 2), (21, 1)] } }
def fab1r : State := { fab1 with fab := { fab1.fab with streams := [(20, { strm 7 with reuse := 2 })] } }
def pm (s : State) (kind : Nat) (l : List (Nat × Nat × Nat)) (ref : Nat := 0) : State := ord s 0x0601 (F ([(0,1,kind),(8,8,ref)] ++ l))
def bnd (s : State) (p : Nat) (m : PortMode) : State := { s with fab := { s.fab with ports := s.fab.ports.set p { (s.port p) with bound := true, mode := m } } }
def pP : List State := [pm fab0 0 [(0x10,2,6),(0x12,2,99),(0x14,1,8),(0x16,2,10),(0x18,2,100),(0x1A,2,0x88B5)], pm fab1 0 [(0x10,2,6),(0x12,2,99),(0x14,1,8),(0x16,2,10),(0x18,2,100),(0x1A,2,0x88B5)],
  pm fab1 1 [(0x10,2,20),(0x12,2,2)] 1, pm fab1 1 [(0x10,2,20),(0x12,2,3)] 1, pm fab1 1 [(0x10,2,7),(0x12,2,2)] 1, pm (fab0.modAl 0 (fun x => { x with objs := [(1, raw 4096 [(2, 7)])] })) 1 [(0x10,2,7),(0x12,2,2)] 1,
  pm fab0 2 [(0x10,2,10),(0x12,1,1),(0x14,2,2),(0x16,1,2),(0x18,4,55)] 4, pm fab1 2 [(0x10,2,10),(0x12,1,1),(0x14,2,2),(0x16,1,2),(0x18,4,55)] 4, pm fab1 2 [(0x10,2,10)], pm fab1 2 [(0x10,2,11)],
  pm fab1 3 [(0x10,2,1),(0x12,2,2),(0x14,2,0 + 4 * 5),(0x16,2,3 + 4 * 127),(0x18,2,2)],
  pm fab1 4 [(0x10,1,3),(0x11,1,0),(0x12,1,1),(0x13,1,2)], pm fab1 4 [(0x10,1,3),(0x11,1,2),(0x12,1,1),(0x13,1,2)], pm fab1 4 [(0x10,1,3),(0x11,1,1),(0x12,1,1),(0x13,1,2)], pm ([4,5,6,7].foldl (fun s p => port p (fun x => { x with mode := .longReach }) s) fab1) 4 [(0x10,1,3),(0x11,1,1),(0x12,1,1),(0x13,1,2)],  pm fab1 4 [(0x10,1,3),(0x11,1,3),(0x12,1,1),(0x13,1,2)], pm (bnd fab1 3 .longReach) 4 [(0x10,1,3),(0x11,1,3)],
  pm fab1 5 [(0x10,1,0),(0x12,2,6),(0x14,2,4)] (1 + 64 * 2^32), pm fab1 5 [(0x10,1,1)] 1,
  ord { fab1 with fab := { fab1.fab with streams := fab1.fab.streams ++ [(21, strm 9)], unacked := [{ vc := 1, peer := 9, own := 3, allot := 0, far := 0, seq := 1 }, { vc := 1, peer := 7, own := 3, allot := 0, far := 0, seq := 1 }] } } 0x0602 (F [(0,2,7),(8,1,1),(9,1,2),(0x10,8,33),(0x18,8,34)]), ord fab0 0x0602 (F [(0,2,11),(8,1,1),(9,1,1),(0x10,8,33)])]
def so (s : State) (g r ch : Nat) : State := start s 0x0620 (F [(0,2,g),(2,2,r),(4,4,ch)])
def held1 (s : State) : State := { s with fab := { s.fab with held := [{ group := 10, slot := 2, peer := 7, index := 3, sig := 5, data := [1,2], bytes := 2 }, { group := 11, slot := 2, peer := 7, index := 3, sig := 5, data := [1,2], bytes := 2 }], tails := [{ group := 10, rank := 1, late := 7 }, { group := 12, rank := 1, late := 7 }] } }
def pSt : List State := [so fab1 10 1 3, so fab1 10 1 4, so { fab1 with fab := { fab1.fab with streams := [] } } 10 1 3, start fab1r 0x0621 (F [(0,4,20 + 2 * 2^17)]), other (start fab1r 0x0621 (F [(0,4,20 + 2 * 2^17)])) 0x610 (F [(0,1,5),(0x34,4,20 + 2 * 2^17)]),
  start (held1 fab1) 0x0611 (F [(0,1,0),(1,1,3),(2,2,10),(4,4,77)]), start (held1 fab1) 0x0611 (F [(0,1,1),(2,2,10),(8,8,1)]), start (held1 fab1) 0x0611 (F [(0,1,2),(2,2,10)]), start (held1 fab1) 0x0611 (F [(0,1,3),(2,2,10),(0x10,1,2)])]
def cb (s : State) (op : Nat) (l : List (Nat × Nat × Nat)) : State := start s 0x0610 (F ([(0,1,op),(0x20,4,0xFFFFFFFF)] ++ l))
def recv (s : State) : State := cb s 6 [(0x10,8,3),(0x18,8,64),(0x34,4,20 + 2 * 2^17)]
def inb (b : List Byte) (closed : Bool := false) : State := { fab1r with fab := { fab1r.fab with streams := [(20, { strm 7 with reuse := 2, inbox := b, closed := closed })] } }
def msg : List Byte := leBytes (64 + 4 * 2^64) 16 ++ List.replicate 128 3#8
def ar (s : State) (n : Nat := 64) (dl : Nat := 100) : State := start s 0x0610 (F [(0,1,0),(2,2,10),(8,8,2),(0x10,8,3),(0x18,8,n),(0x20,4,dl)])
def collS : State := nx (.collBegin 4) (ar fab1)
def pC : List State := [ar fab1, ar { fab1 with fab := { fab1.fab with groups := [(10, { grp with begun := 6, gone := [7, 9] })] } }, recv fab1r, recv (inb [] true), recv (inb msg), recv (inb (msg ++ msg.take 50)), recv (inb (leBytes (64 + 5 * 2^64) 16 ++ msg.drop 16)), collS, { collS with fab := { collS.fab with colls := collS.fab.colls.map (fun x => { x with closed := true }) } },
  { ar fab1 with fab := { fab1.fab with colls := List.replicate 16 { cmd := 77, allot := 0, group := 10, index := 1, op := 0, started := 0, sig := 0 } } }]
def poolPeerMapping : Nat → State := nth (pP)
def poolStreams : Nat → State := nth (pSt)
def poolCollectives : Nat → State := nth (pC)

/-- A group of n members in a collective, and one stream. -/
def manyOf (n : Nat) : State := { so fab1 10 1 4 with fab := { fab1.fab with groups := fab1.fab.groups ++ [(11, { grp with members := List.replicate n (5, 0) })], colls := [{ cmd := 77, allot := 0, group := 11, index := 1, op := 0, started := 0, sig := 0 }] } }

theorem many_taken (n : Nat) : (manyOf n).streamsTaken = 1 + (n - 1) := by
  have h : ((manyOf n).group 11).members = List.replicate n (5, 0) := rfl
  unfold State.streamsTaken
  show 1 + (0 + (((manyOf n).group 11).members.length - 1)) + 0 = 1 + (n - 1)
  rw [h, List.length_replicate]
  omega

/-- The hypotheses of each clause of PeerMapping hold together. -/
theorem met_PeerMapping :
    (∃ s : State, ∃ id, ∃ c : Cmd, s.MapRuns id c 0 ∧ s.fab.streams = [] ∧ s.fab.groups = []) ∧
    (∃ s : State, ∃ id, ∃ c : Cmd, s.MapRuns id c 0 ∧ (s.fab.streams ≠ [] ∨ s.fab.groups ≠ [])) ∧
    (∃ s : State, ∃ id, ∃ c : Cmd, s.MapRuns id c 1 ∧ ∃ es, es = (recordsOf 32 ((s.taken id c).readRef c.allot (c.par 8 8) 1 (32 * c.par 0x12 2))).map leNat ∧ (∀ e ∈ es, s.routeOk e = true) ∧ (∀ i, i < es.length → s.streamTo (c.par 0x10 2 + i) = false)) ∧
    (∃ s : State, ∃ id, ∃ c : Cmd, ∃ i, s.MapRuns id c 1 ∧ ((recordsOf 32 ((s.taken id c).readRef c.allot (c.par 8 8) 1 (32 * c.par 0x12 2))).map leNat).findIdx? (fun e => !s.routeOk e) = some i) ∧
    (∃ s : State, ∃ id, ∃ c : Cmd, s.MapRuns id c 2 ∧ s.groupBusy (c.par 0x10 2) = false ∧ c.par 0x14 2 = 0) ∧
    (∃ s : State, ∃ id, ∃ c : Cmd, s.MapRuns id c 2 ∧ s.groupBusy (c.par 0x10 2) = false ∧ c.par 0x14 2 ≠ 0 ∧ ∃ bs, bs = (s.taken id c).readRef c.allot (c.par 8 8) 1 (4 * c.par 0x14 2) ∧ s.badMember bs = none ∧ sumN ((s.fab.groups.filter (fun e => e.1 != c.par 0x10 2)).map (fun e => e.2.members.length)) + c.par 0x14 2 ≤ 1048576) ∧
    (∃ s : State, ∃ id, ∃ c : Cmd, s.MapRuns id c 2 ∧ s.groupBusy (c.par 0x10 2) = true ∧ c.par 0x14 2 = 0) ∧
    (∃ s : State, ∃ id, ∃ c : Cmd, s.MapRuns id c 3) ∧
    (∃ s : State, ∃ id, ∃ c : Cmd, s.MapRuns id c 4 ∧ s.fab.ports.length = 24 ∧ (s.port (c.par 0x10 1)).bound = false ∧ (c.par 0x11 1 ≠ 1 ∨ (((List.range 24).filter (fun q => q != c.par 0x10 1 && (s.port q).isLong)).length < 4 ∧ s.reservesMetWithout 2 (256 * mib) = true))) ∧
    (∃ s : State, ∃ id, ∃ c : Cmd, s.MapRuns id c 4 ∧ (s.port (c.par 0x10 1)).bound = false ∧ c.par 0x11 1 = 1 ∧ 4 ≤ ((List.range 24).filter (fun q => q != c.par 0x10 1 && (s.port q).isLong)).length ∧ (s.port (c.par 0x10 1)).isLong = false) ∧
    (∃ s : State, ∃ id, ∃ c : Cmd, s.MapRuns id c 4 ∧ (s.port (c.par 0x10 1)).bound = true) ∧
    (∃ s : State, ∃ id, ∃ c : Cmd, s.MapRuns id c 5 ∧ c.par 0x10 1 = 0) ∧
    (∃ s : State, ∃ id, ∃ c : Cmd, s.MapRuns id c 5 ∧ c.par 0x10 1 = 1) ∧
    (∃ s : State, ∃ id, ∃ c : Cmd, s.OrderRuns id 0x0602 routeRewriteFields c ∧ s.NoTraffic ∧ s.fab.colls = [] ∧ s.normsWith (c.par 0 2) = []) ∧
    (∃ s : State, ∃ id, ∃ c : Cmd, s.OrderRuns id 0x0602 routeRewriteFields c ∧ s.NoTraffic ∧ s.normsWith (c.par 0 2) = []) :=
  ⟨⟨poolPeerMapping 0, 4, cmd4 (poolPeerMapping 0), by decide +kernel⟩,
   ⟨poolPeerMapping 1, 4, cmd4 (poolPeerMapping 1), by decide +kernel⟩,
   ⟨poolPeerMapping 2, 4, cmd4 (poolPeerMapping 2), by decide +kernel, _, rfl, by decide +kernel⟩,
   ⟨poolPeerMapping 5, 4, cmd4 (poolPeerMapping 5), 0, by decide +kernel⟩,
   ⟨poolPeerMapping 9, 4, cmd4 (poolPeerMapping 9), by decide +kernel⟩,
   ⟨poolPeerMapping 6, 4, cmd4 (poolPeerMapping 6), by decide +kernel, by decide +kernel, by decide +kernel, _, rfl, by decide +kernel⟩,
   ⟨poolPeerMapping 8, 4, cmd4 (poolPeerMapping 8), by decide +kernel⟩,
   ⟨poolPeerMapping 10, 4, cmd4 (poolPeerMapping 10), by decide +kernel⟩,
   ⟨poolPeerMapping 11, 4, cmd4 (poolPeerMapping 11), by decide +kernel⟩,
   ⟨poolPeerMapping 14, 4, cmd4 (poolPeerMapping 14), by decide +kernel⟩,
   ⟨poolPeerMapping 16, 4, cmd4 (poolPeerMapping 16), by decide +kernel⟩,
   ⟨poolPeerMapping 17, 4, cmd4 (poolPeerMapping 17), by decide +kernel⟩,
   ⟨poolPeerMapping 18, 4, cmd4 (poolPeerMapping 18), by decide +kernel⟩,
   ⟨poolPeerMapping 19, 4, cmd4 (poolPeerMapping 19), by decide +kernel⟩,
   ⟨poolPeerMapping 19, 4, cmd4 (poolPeerMapping 19), by decide +kernel⟩⟩

/-- The hypotheses of each clause of Streams hold together. -/
theorem met_Streams :
    (∃ s : State, ∃ id, ∃ c : Cmd, s.Runs id 0x0620 streamOpenFields c ∧ s.streamsTaken < 131072 ∧ s.fab.streamsUsed.length < 131072) ∧
    (∃ s : State, ∃ id, ∃ c : Cmd, s.Runs id 0x0620 streamOpenFields c ∧ 131072 ≤ s.streamsTaken) ∧
    (∃ s : State, ∃ id, ∃ c : Cmd, s.Runs id 0x0621 streamCloseFields c ∧ s.streamBusy c = true) ∧
    (∃ s : State, ∃ id, ∃ c : Cmd, ∃ x, s.Runs id 0x0621 streamCloseFields c ∧ s.streamBusy c = false ∧ look (bitsOf (c.par 0 4) 0 17) s.fab.streams = some x) ∧
    (∃ s : State, ∃ id, ∃ c : Cmd, ∃ g, s.Runs id 0x0611 tailPolicyFields c ∧ look (c.par 2 2) s.fab.groups = some g ∧ c.par 0 1 = 0) ∧
    (∃ s : State, ∃ id, ∃ c : Cmd, ∃ g, s.Runs id 0x0611 tailPolicyFields c ∧ s.Clean c.allot ∧ c.allot < s.allots.length ∧ look (c.par 2 2) s.fab.groups = some g ∧ c.par 0 1 = 1) ∧
    (∃ s : State, ∃ id, ∃ c : Cmd, s.Runs id 0x0611 tailPolicyFields c ∧ c.par 0 1 = 2) ∧
    (∃ s : State, ∃ id, ∃ c : Cmd, s.Runs id 0x0611 tailPolicyFields c ∧ c.par 0 1 = 3) :=
  ⟨⟨poolStreams 1, 4, cmd4 (poolStreams 1), by decide +kernel⟩,
   ⟨manyOf 131072, 4, cmd4 (manyOf 131072), by decide +kernel, by rw [many_taken] <;> decide⟩,
   ⟨poolStreams 4, 4, cmd4 (poolStreams 4), by decide +kernel⟩,
   ⟨poolStreams 3, 4, cmd4 (poolStreams 3), (look (bitsOf ((cmd4 (poolStreams 3)).par 0 4) 0 17) (poolStreams 3).fab.streams).get (by decide +kernel), by decide +kernel⟩,
   ⟨poolStreams 5, 4, cmd4 (poolStreams 5), (look ((cmd4 (poolStreams 5)).par 2 2) (poolStreams 5).fab.groups).get (by decide +kernel), by decide +kernel⟩,
   ⟨poolStreams 6, 4, cmd4 (poolStreams 6), (look ((cmd4 (poolStreams 6)).par 2 2) (poolStreams 6).fab.groups).get (by decide +kernel), by decide +kernel⟩,
   ⟨poolStreams 7, 4, cmd4 (poolStreams 7), by decide +kernel⟩,
   ⟨poolStreams 8, 4, cmd4 (poolStreams 8), by decide +kernel⟩⟩

/-- The hypotheses of each clause of Collectives hold together. -/
theorem met_Collectives :
    (∃ s : State, ∃ id, ∃ c : Cmd, ∃ g, s.Runs id 0x0610 collBeginFields c ∧ c.cOp ≤ 1 ∧ s.collWaits c = false ∧ s.Clean c.allot ∧ c.allot < s.allots.length ∧ look (c.par 2 2) s.fab.groups = some g ∧ s.others g ≠ [] ∧ s.fab.inbound = [] ∧ s.fab.aborts = [] ∧ s.fab.peersDown = []) ∧
    (∃ s : State, ∃ id, ∃ c : Cmd, ∃ x, s.Runs id 0x0610 collBeginFields c ∧ c.cOp = 6 ∧ s.NoTraffic ∧ s.Clean c.allot ∧ c.allot < s.allots.length ∧ (∀ d ∈ s.hg.cmds, d.id = id → d = c) ∧ look (bitsOf (c.par 0x34 4) 0 17) s.fab.streams = some x ∧ x.inbox.length < 16 ∧ x.closed = false) ∧
    (∃ s : State, ∃ id, ∃ c : Cmd, ∃ x, s.Runs id 0x0610 collBeginFields c ∧ c.cOp = 6 ∧ s.NoTraffic ∧ s.Clean c.allot ∧ c.allot < s.allots.length ∧ (∀ d ∈ s.hg.cmds, d.id = id → d = c) ∧ look (bitsOf (c.par 0x34 4) 0 17) s.fab.streams = some x ∧ x.inbox.length < 16 ∧ x.closed = true) ∧
    (∃ s : State, ∃ id, ∃ c : Cmd, ∃ x, s.Runs id 0x0610 collBeginFields c ∧ c.cOp = 6 ∧ s.NoTraffic ∧ s.Clean c.allot ∧ c.allot < s.allots.length ∧ (∀ d ∈ s.hg.cmds, d.id = id → d = c) ∧ look (bitsOf (c.par 0x34 4) 0 17) s.fab.streams = some x ∧ 16 + messageBytes x.inbox ≤ x.inbox.length ∧ 16 ≤ x.inbox.length ∧ bytesField x.inbox 0 8 = c.par 0x18 8 ∧ bytesField x.inbox 8 1 = (s.objD c.allot c.cDst).t.fmt ∧ bytesField x.inbox 9 1 = (s.objD c.allot c.cDst).t.smode) ∧
    (∃ s : State, ∃ id, ∃ c : Cmd, s.fresh? id 0x0610 = some c ∧ c.cOp ≤ 4 ∧ 16 ≤ (s.fab.colls.filter (fun x => x.group == c.par 2 2)).length) ∧
    (∃ s : State, ∃ id, ∃ c : Cmd, ∃ x, ∃ d, s.cmd? id = some c ∧ s.fab.colls.find? (fun y => y.cmd == id) = some x ∧ x.deadline = some d ∧ x.closed = true) ∧
    (∃ s : State, ∃ id, ∃ c : Cmd, ∃ x, ∃ d, s.cmd? id = some c ∧ c.phase = .working ∧ s.fab.colls = [x] ∧ x.cmd = id ∧ x.deadline = some d ∧ x.closed = false ∧ c.cOp = 0 ∧ c.par 0x28 1 = 0 ∧ (∃ p ∈ s.others (s.group x.group), s.arrived x 1 p = false) ∧ (∀ l ∈ x.lost, l.1 ∉ s.others (s.group x.group))) :=
  ⟨⟨poolCollectives 0, 4, cmd4 (poolCollectives 0), (look ((cmd4 (poolCollectives 0)).par 2 2) (poolCollectives 0).fab.groups).get (by decide +kernel), by decide +kernel⟩,
   ⟨poolCollectives 2, 4, cmd4 (poolCollectives 2), (look (bitsOf ((cmd4 (poolCollectives 2)).par 0x34 4) 0 17) (poolCollectives 2).fab.streams).get (by decide +kernel), by decide +kernel⟩,
   ⟨poolCollectives 3, 4, cmd4 (poolCollectives 3), (look (bitsOf ((cmd4 (poolCollectives 3)).par 0x34 4) 0 17) (poolCollectives 3).fab.streams).get (by decide +kernel), by decide +kernel⟩,
   ⟨poolCollectives 4, 4, cmd4 (poolCollectives 4), (look (bitsOf ((cmd4 (poolCollectives 4)).par 0x34 4) 0 17) (poolCollectives 4).fab.streams).get (by decide +kernel), by decide +kernel⟩,
   ⟨poolCollectives 9, 4, ((poolCollectives 9).fresh? (4) 0x0610).get (by decide +kernel), by decide +kernel⟩,
   ⟨poolCollectives 8, 4, cmd4 (poolCollectives 8), ((poolCollectives 8).fab.colls.find? (fun y => y.cmd == (4))).get (by decide +kernel), 100, by decide +kernel⟩,
   ⟨poolCollectives 7, 4, cmd4 (poolCollectives 7), (poolCollectives 7).fab.colls.head (by decide +kernel), 100, by decide +kernel⟩⟩

end Peers

namespace Links

def rt (p : Nat) : Route := { valid := true, npath := 1, epoch := 3, paths := [{ port := p, valid := true }, {}, {}] }
def strm (peer : Nat) : Sys2Proof.Machine.Stream := { allot := 0, group := 10, rank := 1, peer := peer, channel := 3, far := some 33 }
def fab1 : State := { up with fab := { up.fab with routes := [(7, rt 1), (9, rt 2)], groups := [(10, { allot := 0, members := [(5, 0), (7, 0)], tail := 1, deadline := 1000, digest := 9 })], streams := [(20, strm 7)] } }
def mkFrame (kind seq sz first : Nat) : List Byte :=
  let h := leBytes (F [(0,1,kind),(2,2,seq),(6,1,sz),(7,1,first)]) 12
  let p := List.replicate 240 5#8
  h ++ leBytes ((polyOf 2).check (h ++ p)) 4 ++ p
def mkPkt (dst src dom vc stream allot seq kind len : Nat) : List Byte :=
  let h := leBytes (F [(0,2,dst),(2,2,src),(4,2,dom),(6,1,vc),(8,4,stream + allot * 2 ^ 17),(0xC,4,seq),(0x14,1,kind),(0x16,2,len),(0x18,4,9)]) 32
  let d := List.replicate len 9#8
  h ++ d ++ leBytes ((polyOf 2).check (h ++ d ++ foldBlock dst allot stream seq)) 4
def sent (sends : Nat) : Sent := { vc := 1, peer := 7, own := 20, allot := 0, far := 0, seq := 1, data := [1,2,3], sends := sends, port := 1, since := 0 }
def un (n : Nat) (s : State) : State := { s with fab := { s.fab with unacked := [sent n, { sent n with peer := 9, seq := 2 }] } }
def pL : List State := [fab1, port 3 (fun p => { p with mode := .longReach }) fab1, port 1 (fun p => { p with mode := .longReach, replay := [{ seq := 4, sends := 16, vc := 0, first := true, last := true, payload := [] }, { seq := 5, sends := 2, vc := 0, first := true, last := true, payload := [] }] }) fab1, port 1 (fun p => { p with up := false, training := true }) fab1,
  port 1 (fun p => { p with up := false, training := true }) { fab1 with fab := { fab1.fab with lanesFailed := [4], spareUse := [] } }, un 1 fab1, un 9 fab1, un 3 { fab1 with fab := { fab1.fab with colls := [] } }, { un 1 fab1 with fab := { (un 1 fab1).fab with heard := [(7, 3)] } }]
def pK : List State := [fab1, port 3 (fun p => { p with mode := .longReach, bound := true }) fab1, port 3 (fun p => { p with mode := .longReach, bound := true, keyed := true, keyTx := 5, invocTx := 6 }) fab1,
  { fab1 with pair := { fab1.pair with state := .mirror }, mgt := { fab1.mgt with brownLog := [⟨3990000000,5,4700,0⟩, ⟨4980000000, 5, 4700, 0⟩] } },
  { fab1 with pair := { fab1.pair with state := .mirror }, mgt := { fab1.mgt with brownLog := [⟨1980000000, 5, 4700, 0⟩] } }]
def poolLinkEvents : Nat → State := nth (pL)
def poolPortKeys : Nat → State := nth (pK)

/-- The hypotheses of each clause of LinkEvents hold together. -/
theorem met_LinkEvents :
    (∃ s : State, ∃ p, ∃ f, s.portUsable p = true ∧ (s.port p).mode = .native ∧ frameOk f = false) ∧
    (∃ s : State, ∃ p, ∃ f, s.portUsable p = true ∧ (s.port p).mode = .longReach ∧ frameOk f = false) ∧
    (∃ s : State, ∃ p, ∃ f, s.portUsable p = true ∧ ((s.port p).mode = .native ∨ (s.port p).mode = .longReach) ∧ frameOk f = true ∧ bytesField f 0 1 = 0 ∧ bitsOf (bytesField f 2 2) 0 12 = ((s.port p).rxSeq + 1) % 4096 ∧ bitsOf (bytesField f 7 1) 0 2 = 1 ∧ (s.port p).rxSeq < 4096) ∧
    (∃ s : State, ∃ p, s.portUsable p = false) ∧
    (∃ s : State, ∃ p, ∃ b, s.portUsable p = true ∧ (s.port p).mode = .native ∧ 32 ≤ b.length ∧ ((headerOf b).dst ≠ s.fab.self ∨ (headerOf b).domain ≠ s.fab.domain) ∧ (s.port p).misTimes.length < 999) ∧
    (∃ s : State, ∃ p, ∃ b, s.portUsable p = true ∧ (s.port p).mode = .native ∧ (s.port p).bound = false ∧ 32 ≤ b.length ∧ ∃ h, h = headerOf b ∧ ∃ x, h.dst = s.fab.self ∧ h.domain = s.fab.domain ∧ h.vc = 1 ∧ h.kind = 0 ∧ s.checkOk h b = true ∧ look h.stream s.fab.streams = some x ∧ x.peer = h.src ∧ x.allot = h.allot ∧ (s.group x.group).digest = h.sig ∧ h.seq = seqNext x.rxSeq ∧ x.rxSeq < 2 ^ 32 ∧ x.early = [] ∧ (∀ e ∈ s.fab.streams, e.2.gone = false) ∧ s.NoTraffic) ∧
    (∃ s : State, ∃ p, (s.port p).up = true ∧ (∃ f ∈ (s.port p).replay, 16 ≤ f.sends) ∧ p < 24 ∧ s.Mild (0x5202 + 8 * p)) ∧
    (∃ s : State, ∃ p, (s.port p).training = true ∧ p < 24 ∧ s.pair.state = .unbound ∧ s.Mild (0x5200 + 8 * p)) ∧
    (∃ s : State, ∃ p, (s.port p).training = true ∧ p < 24 ∧ s.flt.portsFenced.contains p = false ∧ s.NoTraffic ∧ 3 ≤ (s.spareLanes p).lanesUp p) ∧
    (∃ s : State, ∃ vc, ∃ peer, ∃ own, ∃ seq, ∃ x, ∃ q, s.fab.unacked.find? (fun y => y.vc == vc && y.peer == peer && y.own == own && y.seq == seq) = some x ∧ peer ∉ s.fab.peersDown ∧ 0 < x.sends ∧ x.sends ≤ s.fab.retryLimit ∧ s.portFor peer vc own seq = some q ∧ s.room q vc x.data.length = true ∧ (∃ n, s.farNumber x = some n)) ∧
    (∃ s : State, ∃ vc, ∃ peer, ∃ own, ∃ seq, ∃ x, s.fab.unacked.find? (fun y => y.vc == vc && y.peer == peer && y.own == own && y.seq == seq) = some x ∧ peer ∉ s.fab.peersDown ∧ 0 < x.sends ∧ s.fab.retryLimit < x.sends ∧ s.NoTraffic ∧ s.Mild 0x5300) ∧
    (∃ s : State, ∃ peer, (∃ x ∈ s.fab.unacked, x.peer = peer) ∧ peer ∉ s.fab.peersDown ∧ s.NoTraffic ∧ s.Mild 0x5300) :=
  ⟨⟨poolLinkEvents 0, 0, [], by decide +kernel⟩,
   ⟨poolLinkEvents 1, 3, [], by decide +kernel⟩,
   ⟨poolLinkEvents 0, 0, mkFrame 0 1 240 1, by decide +kernel⟩,
   ⟨poolLinkEvents 0, 33, by decide +kernel⟩,
   ⟨poolLinkEvents 0, 0, mkPkt 99 7 0 1 20 0 1 0 64, by decide +kernel⟩,
   ⟨poolLinkEvents 0, 0, mkPkt 5 7 0 1 20 0 1 0 64, by decide +kernel, by decide +kernel, by decide +kernel, by decide +kernel,
    headerOf (mkPkt 5 7 0 1 20 0 1 0 64), rfl, strm 7, by decide +kernel⟩,
   ⟨poolLinkEvents 2, 1, by decide +kernel⟩,
   ⟨poolLinkEvents 3, 1, by decide +kernel⟩,
   ⟨poolLinkEvents 3, 1, by decide +kernel⟩,
   ⟨poolLinkEvents 5, 1, 7, 20, 1, ((poolLinkEvents 5).fab.unacked.find? (fun y => y.vc == (1) && y.peer == (7) && y.own == (20) && y.seq == (1))).get (by decide +kernel), 1, by decide +kernel, by decide +kernel, by decide +kernel, by decide +kernel, by decide +kernel, by decide +kernel, ⟨33, by decide +kernel⟩⟩,
   ⟨poolLinkEvents 6, 1, 7, 20, 1, ((poolLinkEvents 6).fab.unacked.find? (fun y => y.vc == (1) && y.peer == (7) && y.own == (20) && y.seq == (1))).get (by decide +kernel), by decide +kernel⟩,
   ⟨poolLinkEvents 5, 7, by decide +kernel⟩⟩

/-- The hypotheses of each clause of PortKeys hold together. -/
theorem met_PortKeys :
    (∃ s : State, ∃ p, s.dev.standby = true ∧ s.mgt.restarting = false ∧ s.AtOnce opKeys ∧ p < 24 ∧ s.fab.ports.length = 24 ∧ (s.port p).bound = true ∧ (s.port p).mode = .longReach) ∧
    (∃ s : State, ∃ p, s.dev.standby = true ∧ s.mgt.restarting = false ∧ s.AtOnce opKeys ∧ p < 24 ∧ s.fab.ports.length = 24 ∧ (s.port p).bound = true ∧ (s.port p).mode = .longReach) ∧
    (∃ s : State, ∃ p, s.dev.standby = true ∧ s.mgt.restarting = false ∧ s.AtOnce opKeys ∧ p < 24 ∧ s.fab.ports.length = 24 ∧ (s.port p).bound = true ∧ (s.port p).mode = .longReach ∧ (s.port p).keyed = true) ∧
    (∃ s : State, ∃ p, s.dev.standby = true ∧ s.mgt.restarting = false ∧ s.AtOnce opKeys ∧ p < 24 ∧ (s.port p).bound = false) ∧
    (∃ s : State, ∃ log, s.pair.bound = true ∧ s.correlates log = []) ∧
    (∃ s : State, ∃ log, ∃ a, ∃ b, s.pair.bound = true ∧ s.pair.correlated = [] ∧ s.correlates log = [a, b] ∧ a < b ∧ b - a ≤ 30 * 86400 * 1000000000) ∧
    (∃ s : State, s.pair.bound = false) :=
  ⟨⟨poolPortKeys 1, 3, by decide +kernel⟩,
   ⟨poolPortKeys 1, 3, by decide +kernel⟩,
   ⟨poolPortKeys 2, 3, by decide +kernel⟩,
   ⟨poolPortKeys 0, 0, by decide +kernel⟩,
   ⟨poolPortKeys 3, [], by decide +kernel⟩,
   ⟨poolPortKeys 3, (poolPortKeys 3).mgt.brownLog, 3990000000, 4980000000, by decide +kernel⟩,
   ⟨poolPortKeys 0, by decide +kernel⟩⟩

end Links

namespace Pairing

def big (s : State) : State := { s with dev := { s.dev with mirrorGib := 512, ckptGib := 0 } }
def pb (s : State) (gib : Nat := 4) : State := ord s 0x0701 (F [(0,2,7),(2,1,1),(3,1,3),(4,1,255),(8,4,gib)])
def bndg (s : State) : State := nx (.pairBind 4) (pb s)
def mirrored (s : State) : State := port 3 (fun p => { p with bound := true }) (pr (fun p => { p with state := .mirror, partner := 7, role := 1, portA := 3, logGib := 100, partnerMirrorGib := 300 }) s)
def m0 : State := mirrored (big up)
def ep (i : Nat) : Store := { kind := 1, allot := 0, id := i, step := i }
def withEp (l : List Store) (s : State) : State := s.modAl 0 (fun x => { x with mir := { x.mir with epochs := l } })
def lg (s : State) : State := pr (fun p => { p with log := [{ allot := 0, epoch := 1, mirrorId := 1, page := 0, data := [1] }, { allot := 0, epoch := 2, mirrorId := 1, page := 0, data := [1] }, { allot := 1, epoch := 1, mirrorId := 1, page := 0, data := [1] }] }) s
def t3 (s : State) : State := withObjs s 1 [(1, ten 4 0 4 64 [] 3), (2, ten 4 0 4 64 [] 1)]
def PL : List State := [pb (big up), pb up 512, pb (big up) 300, pb m0, bndg (big up), bndg (port 3 (fun p => { p with mode := .longReach }) (big up)),
  bndg { big up with mgt := { up.mgt with feedInEffect := 2 } },
  ord (t3 m0) 0x0702 0, ord up 0x0702 0, ord (t3 (withEp [ep 1] m0)) 0x0702 1, ord (t3 (withEp [ep 1] m0)) 0x0702 0, pr (fun p => { p with state := .suspended }) (t3 m0), t3 m0, { t3 m0 with hg := { m0.hg with arb := [] } }]
def objs (s : State) : State := withObjs s 0 [(1, raw 4096 [(0, 5), (1, 0), (6, 3), (8, 2), (0xC, 7)]), (2, ten 4 0 4 64 [(0, 1), (3, 0x3F)]), (3, raw 4096 [(7, 9)])]
def mset (s : State) (k : Nat) (h : Nat := 1) : State := start s 0x0703 (F [(0,1,k),(2,2,1),(8,8,h + 64 * 2 ^ 0 * 0)])
def stv (i : Nat) : List Byte := Store.bytes { kind := 1, allot := 0, id := i, step := 9, committed := true, digest := Store.digestNow { kind := 1, allot := 0, id := i, step := 9, committed := true } }
def peer1 (s : State) : State := pr (fun p => { p with peerStores := [{ kind := 1, allot := 0, id := 2, step := 3, committed := true }] }) s
def PO : List State := [mset (objs up) 0, mset (objs m0) 0, mset (objs up) 1, mset (objs up) 1 3, mset (objs up) 2, lg (withEp [ep 1, ep 2] m0), lg (withEp [ep 1] (pr (fun p => { p with state := .sync }) m0)), peer1 m0, m0, up, { m0 with dev := { m0.dev with mirrorGib := 0 } },
  pr (fun p => { p with peerReserved := [(0 + 1 * 2 ^ 32, 900), (5, 6)] }) m0,
  ord m0 0x0730 0, ord m0 0x0730 (F [(1,1,1)]), ord (pr (fun p => { p with state := .sync }) m0) 0x0730 (F [(1,1,1)]), ord up 0x0730 0, ord (pr (fun p => { p with state := .quenched, holdOpen := true }) m0) 0x0730 1,
  ord (m0.modAl 0 (fun x => { x with mir := { x.mir with tensors := [{ handle := 2, mirrorId := 1, inForce := 1 }] } }) |> pr (fun p => { p with state := .quenched, holdOpen := true })) 0x0730 1,
  ord m0 0x0750 (F [(4,4,0x3F800000)]), ord m0 0x0750 1]
def poolPairLifecycle : Nat → State := nth (PL)
def poolPairOrders : Nat → State := nth (PO)

/-- The hypotheses of each clause of PairLifecycle hold together. -/
theorem met_PairLifecycle :
    (∃ s : State, ∃ id, ∃ c : Cmd, s.OrderRuns id 0x0701 pairBindFields c ∧ s.pair.state ≠ .unbound) ∧
    (∃ s : State, ∃ id, ∃ c : Cmd, s.OrderRuns id 0x0701 pairBindFields c ∧ s.pair.state = .unbound ∧ (s.taken id c).fits 0 4 (orDefault (c.par 8 4) 256 * 2 ^ 30) = false) ∧
    (∃ s : State, ∃ id, ∃ c : Cmd, s.OrderRuns id 0x0701 pairBindFields c ∧ s.pair.state = .unbound ∧ (s.taken id c).fits 0 4 (orDefault (c.par 8 4) 256 * 2 ^ 30) = true) ∧
    (∃ s : State, ∃ i, s.pair.cmd = some i ∧ s.pair.state = .binding ∧ (s.cmd? i).isSome = true) ∧
    (∃ s : State, ∃ p, s.pair.state = .binding ∧ s.matchesBind p = false) ∧
    (∃ s : State, ∃ i, ∃ p, s.pair.cmd = some i ∧ s.pair.state = .binding ∧ (s.cmd? i).isSome = true ∧ s.matchesBind p = true ∧ p.mirrorGib * 2 ^ 30 < s.pair.logGib * 2 ^ 30 + 64 * 2 ^ 20) ∧
    (∃ s : State, ∃ i, ∃ p, s.pair.cmd = some i ∧ s.pair.state = .binding ∧ (s.cmd? i).isSome = true ∧ s.matchesBind p = true ∧ s.pair.logGib * 2 ^ 30 + 64 * 2 ^ 20 ≤ p.mirrorGib * 2 ^ 30 ∧ p.keysOk = false) ∧
    (∃ s : State, ∃ i, ∃ p, s.pair.cmd = some i ∧ s.pair.state = .binding ∧ (s.cmd? i).isSome = true ∧ s.matchesBind p = true ∧ s.pair.logGib * 2 ^ 30 + 64 * 2 ^ 20 ≤ p.mirrorGib * 2 ^ 30 ∧ p.keysOk = true ∧ s.pairPortUp = true ∧ s.pair.portA < 24 ∧ s.fab.ports.length = 24 ∧ s.AtOnce opKeys ∧ s.mgmtUp = true) ∧
    (∃ s : State, s.pair.state ≠ .binding) ∧
    (∃ s : State, ∃ id, ∃ c : Cmd, s.OrderRuns id 0x0702 pairUnbindFields c ∧ s.pair.bound = false) ∧
    (∃ s : State, ∃ id, ∃ c : Cmd, s.OrderRuns id 0x0702 pairUnbindFields c ∧ s.pair.bound = true ∧ c.par 0 1 = 1) ∧
    (∃ s : State, ∃ id, ∃ c : Cmd, s.OrderRuns id 0x0702 pairUnbindFields c ∧ s.pair.bound = true ∧ c.par 0 1 = 0 ∧ s.epochsDone = true) ∧
    (∃ s : State, ∃ id, ∃ c : Cmd, s.OrderRuns id 0x0702 pairUnbindFields c ∧ s.pair.bound = true ∧ c.par 0 1 = 0 ∧ s.epochsDone = false) ∧
    (∃ s : State, s.pair.state = .suspended) ∧
    (∃ s : State, s.pair.state ≠ .suspended) ∧
    (∃ s : State, s.AtOnce opUnbindOrder ∧ s.pair.bound = true) ∧
    (∃ s : State, s.AtOnce opUnbindOrder ∧ s.pair.bound = false) :=
  ⟨⟨poolPairLifecycle 3, 4, cmd4 (poolPairLifecycle 3), by decide +kernel⟩,
   ⟨poolPairLifecycle 1, 4, cmd4 (poolPairLifecycle 1), by decide +kernel⟩,
   ⟨poolPairLifecycle 0, 4, cmd4 (poolPairLifecycle 0), by decide +kernel⟩,
   ⟨poolPairLifecycle 4, ((poolPairLifecycle 4).pair.cmd).get (by decide +kernel), by decide +kernel⟩,
   ⟨poolPairLifecycle 4, { peer := 9, names := 0, role := 0, lagSteps := 0, temperSync := false, feedId := 2, variant := 0, mirrorGib := 384, portA := 0, portB := 0, logGib := 256, keysOk := true, secret := 99 }, by decide +kernel⟩,
   ⟨poolPairLifecycle 4, 4, { peer := 7, names := 5, role := 2, lagSteps := 2, temperSync := false, feedId := 2, variant := 0, mirrorGib := 3, portA := 3, portB := 255, logGib := 256, keysOk := true, secret := 99 }, by decide +kernel⟩,
   ⟨poolPairLifecycle 4, 4, { peer := 7, names := 5, role := 2, lagSteps := 2, temperSync := false, feedId := 2, variant := 0, mirrorGib := 384, portA := 3, portB := 255, logGib := 256, keysOk := false, secret := 99 }, by decide +kernel⟩,
   ⟨poolPairLifecycle 4, 4, { peer := 7, names := 5, role := 2, lagSteps := 2, temperSync := false, feedId := 2, variant := 0, mirrorGib := 384, portA := 3, portB := 255, logGib := 256, keysOk := true, secret := 99 }, by decide +kernel⟩,
   ⟨poolPairLifecycle 0, by decide +kernel⟩,
   ⟨poolPairLifecycle 8, 4, cmd4 (poolPairLifecycle 8), by decide +kernel⟩,
   ⟨poolPairLifecycle 9, 4, cmd4 (poolPairLifecycle 9), by decide +kernel⟩,
   ⟨poolPairLifecycle 7, 4, cmd4 (poolPairLifecycle 7), by decide +kernel⟩,
   ⟨poolPairLifecycle 10, 4, cmd4 (poolPairLifecycle 10), by decide +kernel⟩,
   ⟨poolPairLifecycle 11, by decide +kernel⟩,
   ⟨poolPairLifecycle 0, by decide +kernel⟩,
   ⟨poolPairLifecycle 11, by decide +kernel⟩,
   ⟨poolPairLifecycle 4, by decide +kernel⟩⟩

/-- The hypotheses of each clause of PairOrders hold together. -/
theorem met_PairOrders :
    (∃ s : State, ∃ id, ∃ c : Cmd, s.Runs id 0x0703 mirrorSetFields c ∧ s.Clean c.allot ∧ c.allot < s.allots.length ∧ c.par 0 1 = 0 ∧ s.pair.bound = false) ∧
    (∃ s : State, ∃ id, ∃ c : Cmd, s.Runs id 0x0703 mirrorSetFields c ∧ s.Clean c.allot ∧ c.allot < s.allots.length ∧ c.par 0 1 = 1 ∧ ∃ b, b = leNat ((s.named c).readRef c.allot (c.par 8 8) 1 64) ∧ mirPolicyOk b = true) ∧
    (∃ s : State, ∃ id, ∃ c : Cmd, s.Runs id 0x0703 mirrorSetFields c ∧ s.Clean c.allot ∧ c.allot < s.allots.length ∧ c.par 0 1 = 1 ∧ mirPolicyOk (leNat ((s.named c).readRef c.allot (c.par 8 8) 1 64)) = false) ∧
    (∃ s : State, ∃ id, ∃ c : Cmd, s.Runs id 0x0703 mirrorSetFields c ∧ s.Clean c.allot ∧ c.allot < s.allots.length ∧ c.par 0 1 = 2 ∧ c.par 1 1 = 0) ∧
    (∃ s : State, ∃ a, ∃ e, ∃ x, ∃ r, s.pair.bound = true ∧ s.pairPortUp = true ∧ s.markIdle a e = true ∧ (s.al a).mir.epochs = x :: r ∧ x.id = e) ∧
    (∃ s : State, ∃ a, ∃ e, ∃ x, ∃ r, (s.al a).mir.epochs = x :: r ∧ x.id ≠ e) ∧
    (∃ s : State, ∃ w, s.pair.bound = true ∧ s.pairPortUp = true ∧ ∃ x, x = storeOf w ∧ x.allot < 16 ∧ s.pair.expect = [] ∧ s.pair.role ≠ 2 ∧ (∀ y, s.pair.peerStore x.kind x.allot = some y → y.id < x.id)) ∧
    (∃ s : State, (s.pair.bound = false ∨ s.pairPortUp = false)) ∧
    (∃ s : State, ∃ n, s.AtOnce opTier3 ∧ s.pair.bound = true ∧ s.mirrorRoom n = true) ∧
    (∃ s : State, ∃ n, s.AtOnce opTier3 ∧ (s.pair.bound = false ∨ s.mirrorRoom n = false)) ∧
    (∃ s : State, ∃ a, ∃ m, ∃ n, s.AtOnce opReserve ∧ a < 2 ^ 32 ∧ m < 2 ^ 32 ∧ s.pair.bound = true ∧ ∃ old, old = lookN (a + m * 2 ^ 32) s.pair.peerReserved ∧ (3 * n ≤ old ∨ s.mirrorRoom (3 * n - old) = true)) ∧
    (∃ s : State, ∃ a, ∃ m, ∃ n, s.AtOnce opReserve ∧ a < 2 ^ 32 ∧ m < 2 ^ 32 ∧ s.pair.bound = true ∧ ∃ old, old = lookN (a + m * 2 ^ 32) s.pair.peerReserved ∧ old < 3 * n ∧ s.mirrorRoom (3 * n - old) = false) ∧
    (∃ s : State, ∃ id, ∃ c : Cmd, s.OrderRuns id 0x0730 quenchFields c ∧ c.master = .allot ∧ c.par 0 1 = 0 ∧ (s.pair.state = .mirror ∨ s.pair.state = .sync) ∧ s.pairPortUp = true ∧ s.epochsDone = true) ∧
    (∃ s : State, ∃ id, ∃ c : Cmd, s.OrderRuns id 0x0730 quenchFields c ∧ c.master = .allot ∧ c.par 0 1 = 0 ∧ s.pair.bound = false) ∧
    (∃ s : State, ∃ id, ∃ c : Cmd, s.OrderRuns id 0x0730 quenchFields c ∧ c.master = .allot ∧ c.par 0 1 = 1 ∧ s.pair.state = .quenched ∧ s.pairPortUp = true) ∧
    (∃ s : State, ∃ id, ∃ c : Cmd, s.OrderRuns id 0x0750 fleetRateFields c) :=
  ⟨⟨poolPairOrders 0, 4, cmd4 (poolPairOrders 0), by decide +kernel⟩,
   ⟨poolPairOrders 2, 4, cmd4 (poolPairOrders 2), by decide +kernel, by decide +kernel, by decide +kernel, by decide +kernel, _, rfl, by decide +kernel⟩,
   ⟨poolPairOrders 3, 4, cmd4 (poolPairOrders 3), by decide +kernel⟩,
   ⟨poolPairOrders 4, 4, cmd4 (poolPairOrders 4), by decide +kernel⟩,
   ⟨poolPairOrders 5, 0, 1, ep 1, [ep 2], by decide +kernel⟩,
   ⟨poolPairOrders 5, 0, 0, ep 1, [ep 2], by decide +kernel⟩,
   ⟨poolPairOrders 8, stv 5, by decide +kernel, by decide +kernel, storeOf (stv 5), rfl, by decide +kernel, by decide +kernel, by decide +kernel, fun y h => by
    rw [show (poolPairOrders 8).pair.peerStore (storeOf (stv 5)).kind (storeOf (stv 5)).allot = none by decide +kernel] at h
    cases h⟩,
   ⟨poolPairOrders 0, by decide +kernel⟩,
   ⟨poolPairOrders 1, 0, by decide +kernel⟩,
   ⟨poolPairOrders 0, 0, by decide +kernel⟩,
   ⟨poolPairOrders 1, 0, 0, 0, by decide +kernel, by decide +kernel, by decide +kernel, by decide +kernel, _, rfl, by decide +kernel⟩,
   ⟨poolPairOrders 1, 0, 0, 1000000000000, by decide +kernel, by decide +kernel, by decide +kernel, by decide +kernel, _, rfl, by decide +kernel⟩,
   ⟨poolPairOrders 12, 4, cmd4 (poolPairOrders 12), by decide +kernel⟩,
   ⟨poolPairOrders 15, 4, cmd4 (poolPairOrders 15), by decide +kernel⟩,
   ⟨poolPairOrders 16, 4, cmd4 (poolPairOrders 16), by decide +kernel⟩,
   ⟨poolPairOrders 18, 4, cmd4 (poolPairOrders 18), by decide +kernel⟩⟩

end Pairing

namespace Recovery

def mir (f : AllotMirror → AllotMirror) (s : State) : State := s.modAl 0 (fun x => { x with mir := f x.mir })
def objs (s : State) : State := withObjs s 0 [(1, raw 4096 [(0, 5), (1, 0), (6, 3), (8, 2), (0xC, 7)]), (2, ten 4 0 1 32 [(0, 1), (3, 0x3F)]), (3, raw 64 [(7, 9)])]
def m0 : State := port 3 (fun p => { p with bound := true }) (pr (fun p => { p with state := .mirror, partner := 7, role := 1, portA := 3, logGib := 100, partnerMirrorGib := 300 }) up)
def snap (s : State) : State := start (mir (fun m => { m with tensors := [{ handle := 2, mirrorId := 1, inForce := 2 }, { handle := 3, mirrorId := 2, inForce := 2 }, { handle := 33, mirrorId := 4, inForce := 2 }], snapNext := 4 }) (objs s)) 0x0710 0
def taken : State := { nx (.snapTake 4 70) (snap up) with hg := up.hg }
def takenM : State := { nx (.snapTake 4 70) (snap m0) with hg := up.hg }
def sc (s : State) (k : Nat) : State := start s 0x0711 (F [(0,4,k)])
def done : State := { nx (.snapCommit 4) (sc taken 4) with hg := up.hg }
def rv (s : State) (k i : Nat) (rf : Nat := 0) : State := start s 0x0740 (F [(0,1,k),(8,8,i),(0x10,8,rf)])
def bad (s : State) : State := mir (fun m => { m with snapDone := m.snapDone.map (fun x => { x with tensors := x.tensors.map (fun d => { d with data := (0, 77) :: d.data.drop 1 }) }) }) s
def exq (k len : Nat) : State := start taken 0x0711 (F [(0,4,4),(4,1,1),(8,8,0x7000),(0x10,8,len),(0x18,4,k)])
def PS : List State := [exq 0 64, exq 1 64, exq 0 4096, snap up, snap m0, sc taken 4, sc taken 5, sc up 4, sc takenM 4, sc (port 3 (fun p => { p with up := false }) takenM) 4, rv done 0 4, rv done 0 0, rv done 0 9, rv done 1 4, rv (bad done) 0 4]
def fb (s : State) (i src : Nat) : State := ord s 0x0720 (F [(0,4,5),(4,1,1),(5,1,src),(6,2,7),(8,8,i)])
def grants (l : List Grant) (s : State) : State := pr (fun p => { p with grants := l }) s
def gr (i : Nat) (src : Nat := 1) : Grant := { fillId := i, target := 7, source := src, kind := 0, storeId := 4, made := 9 }
def ft (dg : Option Nat := none) (h : Nat := 2) : FillTensor := { mirrorId := 1, fmt := 4, smode := 0, method := 2, bytes := 64, copyStep := 3, digest := 0, chunks := dg.toList, handle := h }
def wb : List Byte := List.replicate 64 9#8
def fillS (f : Fill → Fill) (s : State) : State := pr (fun p => { p with fill := some (f { allot := 0, fillId := 5, source := 0, peer := 7, temper := false, storeId := 4, step := 3, tensors := [ft (some (crc64 wb))] }) }) s
def fc (s : State) (k : Nat) : State := start s 0x0721 (F [(0,4,5),(4,4,k),(8,4,1)])
def emptyMan : List Byte := Store.bytes { kind := 0, allot := 0, id := 4, step := 3, committed := true, digest := Store.digestNow { kind := 0, allot := 0, id := 4, step := 3, committed := true } }
def fcm (s : State) (i : Nat := 5) : State := ord s 0x0722 (F [(0,4,i)])
def o2 : State := objs up
def PF : List State := [fb done 4 1, fb done 5 1, fb (grants [gr 1] done) 4 1, fb done 4 0, grants [gr 5, gr 6] done, grants [gr 5 0] done, fc (fillS id o2) 0, fc (fillS (fun f => { f with tensors := [ft none 0, ft none 2], verified := [] }) o2) 1,
  fc (fillS (fun f => { f with source := 2 }) (cells (bytesOf 0 (leNat wb) 64) o2)) 0,
  fcm (fillS id o2), fcm (fillS id o2) 6, fcm (fillS (fun f => { f with committed := true }) o2), fcm (fillS (fun f => { f with verified := [0], manifest := emptyMan, tensors := [ft none 0] }) o2),
  fcm (fillS (fun f => { f with verified := [0], manifest := emptyMan }) o2), fcm (fillS (fun f => { f with verified := [0], manifest := emptyMan, tensors := [{ ft none 2 with digest := tensorDigest ((o2.objD 0 2).t.data) 64 }] }) o2)]
def poolSnapshots : Nat → State := nth (PS)
def poolFills : Nat → State := nth (PF)

/-- The hypotheses of each clause of Snapshots hold together. -/
theorem met_Snapshots :
    (∃ s : State, ∃ id, ∃ c : Cmd, s.Runs id 0x0710 (fun _ _ => []) c ∧ (s.named c).earlier c = [] ∧ s.Clean c.allot ∧ c.allot < s.allots.length) ∧
    (∃ s : State, ∃ id, ∃ c : Cmd, s.CommitRuns id c ∧ (s.al c.allot).mir.snapOpen = none ∧ c.par 4 1 = 0) ∧
    (∃ s : State, ∃ id, ∃ c : Cmd, ∃ x, s.CommitRuns id c ∧ (s.al c.allot).mir.snapOpen = some x ∧ x.id % 2 ^ 32 ≠ c.par 0 4) ∧
    (∃ s : State, ∃ id, ∃ c : Cmd, ∃ x, s.CommitRuns id c ∧ (s.al c.allot).mir.snapOpen = some x ∧ x.id % 2 ^ 32 = c.par 0 4 ∧ s.transferWaits = true) ∧
    (∃ s : State, ∃ id, ∃ c : Cmd, ∃ x, s.CommitRuns id c ∧ (s.al c.allot).mir.snapOpen = some x ∧ x.id % 2 ^ 32 = c.par 0 4 ∧ c.par 4 1 = 0 ∧ s.pair.bound = false) ∧
    (∃ s : State, ∃ id, ∃ c : Cmd, ∃ x, s.CommitRuns id c ∧ (s.al c.allot).mir.snapOpen = some x ∧ x.id % 2 ^ 32 = c.par 0 4 ∧ c.par 4 1 = 1 ∧ s.pair.bound = false ∧ s.host.bad = []) ∧
    (∃ s : State, ∃ id, ∃ c : Cmd, ∃ x, s.CommitRuns id c ∧ (s.al c.allot).mir.snapOpen = some x ∧ x.id % 2 ^ 32 = c.par 0 4 ∧ c.par 4 1 = 0 ∧ s.pair.bound = true ∧ s.transferWaits = false ∧ (∀ y, (s.al c.allot).mir.remoteSnap = some y → y.id ≠ x.id)) ∧
    (∃ s : State, ∃ id, ∃ c : Cmd, s.started? id 0x0740 = some c ∧ s.ready c = true ∧ s.judgeInline c (restoreVerifyFields s c) = none ∧ c.par 0 1 < 2 ∧ s.verifyStore c = none) ∧
    (∃ s : State, ∃ id, ∃ c : Cmd, ∃ x, s.started? id 0x0740 = some c ∧ s.ready c = true ∧ s.judgeInline c (restoreVerifyFields s c) = none ∧ c.par 0 1 < 2 ∧ s.verifyStore c = some x ∧ (∀ d ∈ x.tensors, digestOf (chunkDigests d.data d.bytes) = d.digest) ∧ x.digestNow = x.digest ∧ x.isSigned = false) ∧
    (∃ s : State, ∃ id, ∃ c : Cmd, ∃ x, s.started? id 0x0740 = some c ∧ s.ready c = true ∧ s.judgeInline c (restoreVerifyFields s c) = none ∧ c.par 0 1 < 2 ∧ s.verifyStore c = some x ∧ (∃ d ∈ x.tensors, digestOf (chunkDigests d.data d.bytes) ≠ d.digest)) :=
  ⟨⟨poolSnapshots 3, 4, cmd4 (poolSnapshots 3), by decide +kernel⟩,
   ⟨poolSnapshots 7, 4, cmd4 (poolSnapshots 7), by decide +kernel⟩,
   ⟨poolSnapshots 6, 4, cmd4 (poolSnapshots 6), (((poolSnapshots 6).al (cmd4 (poolSnapshots 6)).allot).mir.snapOpen).get (by decide +kernel), by decide +kernel⟩,
   ⟨poolSnapshots 9, 4, cmd4 (poolSnapshots 9), (((poolSnapshots 9).al (cmd4 (poolSnapshots 9)).allot).mir.snapOpen).get (by decide +kernel), by decide +kernel⟩,
   ⟨poolSnapshots 5, 4, cmd4 (poolSnapshots 5), (((poolSnapshots 5).al (cmd4 (poolSnapshots 5)).allot).mir.snapOpen).get (by decide +kernel), by decide +kernel⟩,
   ⟨poolSnapshots 0, 4, cmd4 (poolSnapshots 0), (((poolSnapshots 0).al (cmd4 (poolSnapshots 0)).allot).mir.snapOpen).get (by decide +kernel), by decide +kernel⟩,
   ⟨poolSnapshots 8, 4, cmd4 (poolSnapshots 8), (((poolSnapshots 8).al (cmd4 (poolSnapshots 8)).allot).mir.snapOpen).get (by decide +kernel), by decide +kernel⟩,
   ⟨poolSnapshots 12, 4, cmd4 (poolSnapshots 12), by decide +kernel⟩,
   ⟨poolSnapshots 10, 4, cmd4 (poolSnapshots 10), ((poolSnapshots 10).verifyStore (cmd4 (poolSnapshots 10))).get (by decide +kernel), by decide +kernel⟩,
   ⟨poolSnapshots 14, 4, cmd4 (poolSnapshots 14), ((poolSnapshots 14).verifyStore (cmd4 (poolSnapshots 14))).get (by decide +kernel), by decide +kernel⟩⟩

/-- The hypotheses of each clause of Fills hold together. -/
theorem met_Fills :
    (∃ s : State, ∃ id, ∃ c : Cmd, s.OrderRuns id 0x0720 fillBeginFields c ∧ s.ready c = true ∧ c.par 4 1 = 1 ∧ s.sourceStore (c.par 5 1) c.allot (c.par 8 8) = none) ∧
    (∃ s : State, ∃ id, ∃ c : Cmd, ∃ x, s.OrderRuns id 0x0720 fillBeginFields c ∧ s.ready c = true ∧ c.par 4 1 = 1 ∧ s.sourceStore (c.par 5 1) c.allot (c.par 8 8) = some x ∧ (∀ g ∈ s.pair.grants, g.fillId ≠ c.par 0 4) ∧ s.pair.grants.length < 8) ∧
    (∃ s : State, ∃ i, ∃ g, s.pair.grants.find? (fun (y : Grant) => y.fillId == i) = some g) ∧
    (∃ s : State, ∃ i, ∃ g, ∃ x, s.pair.grants.find? (fun (y : Grant) => y.fillId == i) = some g ∧ (if g.source = 0 then s.pair.peerStores else s.allots.filterMap (fun y => y.mir.snapDone)).find?
      (fun y => y.allot == 0 && y.kind == g.kind && y.id == g.storeId) = some x) ∧
    (∃ s : State, ∃ id, ∃ ch, ∃ c : Cmd, ∃ f, ∃ d, ∃ j, ∃ o, ∃ x, ∃ y, s.ChunkRuns id c f d j ∧ (s.named c).obj? f.allot d.handle = some o ∧ (s.named c).chunkPresent f d j = false ∧ (s.named c).chunkReads f { wire := ch, host := c.par 0x10 8, first := c.par 4 4 } (c.par 4 4) (chunkLen d.bytes j) = .ok (x, y) ∧ chunkGood d j x = true) ∧
    (∃ s : State, ∃ id, ∃ ch, ∃ c : Cmd, ∃ f, ∃ d, ∃ j, ∃ o, ∃ x, ∃ y, s.ChunkRuns id c f d j ∧ (s.named c).obj? f.allot d.handle = some o ∧ (s.named c).chunkPresent f d j = false ∧ (s.named c).chunkReads f { wire := ch, host := c.par 0x10 8, first := c.par 4 4 } (c.par 4 4) (chunkLen d.bytes j) = .ok (x, y) ∧ chunkGood d j x = false ∧ chunkGood d j y = false) ∧
    (∃ s : State, ∃ id, ∃ c : Cmd, ∃ f, s.OrderRuns id 0x0722 fillCommitFields c ∧ s.pair.fill = some f ∧ (f.committed = true ∨ f.fillId ≠ c.par 0 4)) ∧
    (∃ s : State, ∃ id, ∃ c : Cmd, ∃ f, s.OrderRuns id 0x0722 fillCommitFields c ∧ s.pair.fill = some f ∧ f.committed = false ∧ f.fillId = c.par 0 4 ∧ f.cursor < f.total) ∧
    (∃ s : State, ∃ id, ∃ c : Cmd, ∃ f, s.OrderRuns id 0x0722 fillCommitFields c ∧ s.pair.fill = some f ∧ f.committed = false ∧ f.fillId = c.par 0 4 ∧ f.total ≤ f.cursor ∧ s.Clean f.allot ∧ (s.al c.allot).temper.layers = [] ∧ f.temper = false ∧ s.fillSound f = true) ∧
    (∃ s : State, ∃ id, ∃ c : Cmd, ∃ f, s.OrderRuns id 0x0722 fillCommitFields c ∧ s.pair.fill = some f ∧ f.committed = false ∧ f.fillId = c.par 0 4 ∧ f.total ≤ f.cursor ∧ s.Clean f.allot ∧ s.fillSound f = false) :=
  ⟨⟨poolFills 1, 4, cmd4 (poolFills 1), by decide +kernel⟩,
   ⟨poolFills 0, 4, cmd4 (poolFills 0), ((poolFills 0).sourceStore ((cmd4 (poolFills 0)).par 5 1) (cmd4 (poolFills 0)).allot ((cmd4 (poolFills 0)).par 8 8)).get (by decide +kernel), by decide +kernel⟩,
   ⟨poolFills 4, 5, ((poolFills 4).pair.grants.find? (fun (y : Grant) => y.fillId == (5))).get (by decide +kernel), by decide +kernel⟩,
   ⟨poolFills 2, 1, ((poolFills 2).pair.grants.find? (fun (y : Grant) => y.fillId == (1))).get (by decide +kernel), ((if (((poolFills 2).pair.grants.find? (fun (y : Grant) => y.fillId == (1))).get (by decide +kernel)).source = 0 then (poolFills 2).pair.peerStores else (poolFills 2).allots.filterMap (fun y => y.mir.snapDone)).find?
      (fun y => y.allot == 0 && y.kind == (((poolFills 2).pair.grants.find? (fun (y : Grant) => y.fillId == (1))).get (by decide +kernel)).kind && y.id == (((poolFills 2).pair.grants.find? (fun (y : Grant) => y.fillId == (1))).get (by decide +kernel)).storeId)).get (by decide +kernel), by decide +kernel⟩,
   ⟨poolFills 6, 4, [(0, wb, wb)], cmd4 (poolFills 6), (poolFills 6).pair.fill.get (by decide +kernel), ft (some (crc64 wb)), 0, ((poolFills 6).objD 0 2), wb, wb, by decide +kernel, by decide +kernel, by decide +kernel, rfl, by decide +kernel⟩,
   ⟨poolFills 6, 4, [(0, (wb.map (fun b => b + 1)), (wb.map (fun b => b + 1)))], cmd4 (poolFills 6), (poolFills 6).pair.fill.get (by decide +kernel), ft (some (crc64 wb)), 0, ((poolFills 6).objD 0 2), (wb.map (fun b => b + 1)), (wb.map (fun b => b + 1)), by decide +kernel, by decide +kernel, by decide +kernel, rfl, by decide +kernel⟩,
   ⟨poolFills 10, 4, cmd4 (poolFills 10), ((poolFills 10).pair.fill).get (by decide +kernel), by decide +kernel⟩,
   ⟨poolFills 9, 4, cmd4 (poolFills 9), ((poolFills 9).pair.fill).get (by decide +kernel), by decide +kernel⟩,
   ⟨poolFills 12, 4, cmd4 (poolFills 12), ((poolFills 12).pair.fill).get (by decide +kernel), by decide +kernel⟩,
   ⟨poolFills 13, 4, cmd4 (poolFills 13), ((poolFills 13).pair.fill).get (by decide +kernel), by decide +kernel⟩⟩

end Recovery

namespace Observing

def ob (n : Nat) : State := withObjs up 0 [(1, raw n [(0, 5)])]
def cc (s : State) (l : List (Nat × Nat × Nat)) : State := start s 0x0801 (F l)
def open1 : DeltaSet := { cmd := 3, acc := 9 }
def tr (f : TraceRing → TraceRing) (s : State) : State := { s with hearths := s.hearths.map (fun h => { h with trace := f h.trace }) }
def ents : List TraceEntry := [.record 1 2 3 4 5 6 7, .gap 4 9, .record 2 2 3 4 5 6 7, .record 3 2 3 4 5 6 7, .record 4 2 3 4 5 6 7]
def PC : List State := [cc (up.modAl 0 (fun x => { x with ctr := { x.ctr with sel := [(2, 7), (5, 8)], prog := [(2, 100), (3, 4), (7, 7)] } })) [(2,2,2),(4,2,3),(0x10,4,1),(0x14,4,0xFFFF0102),(0x18,4,0xFFFF0003)],
  cc up [(0,1,2),(2,2,0xFFFF)], cc (qs [(0, q0), (1, r0)] up) [(0,1,2),(2,2,0)], cc (up.modAl 0 (fun x => { x with ctr := { x.ctr with sets := [open1] } })) [(0,1,2),(2,2,0xFFFF)],
  ord up 0x0801 (F [(0,1,1),(2,2,2),(4,2,3),(0x10,4,1),(0x14,4,0xFFFF0102),(0x18,4,0xFFFF0003)]),
  start (ob 8192) 0x0802 (F [(8,8,1)]), start (ob 8192) 0x0802 (F [(0,1,1),(8,8,1)]), start (ob 8192) 0x0802 (F [(0,1,2),(8,8,1)]),
  ord up 0x0810 (F [(2,2,6),(0xE,2,8)]), ord (tr (fun r => { r with state := .armed }) up) 0x0810 (F [(2,2,6),(0xE,2,8)]), ord (tr (fun r => { r with state := .armed }) up) 0x0810 (F [(2,2,6)]),
  ord (tr (fun r => { r with state := .armed }) up) 0x0810 (F [(0,1,1)]), ord up 0x0810 (F [(0,1,1)]), ord (tr (fun r => { r with state := .post, entries := ents }) up) 0x0810 (F [(0,1,2)]),
  ord (tr (fun r => { r with state := .done, entries := ents }) up) 0x0810 (F [(0,1,2)]), ord (tr (fun r => { r with state := .done, entries := ents }) up) 0x0810 (F [(0,1,3)]),
  start (ob 4096) 0x0811 (F [(8,8,1),(0x10,8,96)]), start (tr (fun r => { r with state := .done, entries := ents, readPos := 1 }) (ob 4096)) 0x0811 (F [(0,1,1),(8,8,1),(0x10,8,96)]),
  start (tr (fun r => { r with state := .done, entries := ents, readPos := 3 }) (ob 4096)) 0x0811 (F [(8,8,1),(0x10,8,96)]), start (tr (fun r => { r with state := .armed, entries := ents }) (ob 4096)) 0x0811 (F [(8,8,1),(0x10,8,96)])]
def rt (p : Nat) : Route := { valid := true, npath := 1, epoch := 3, paths := [{ port := p, valid := true }, {}, {}] }
def tf : State := let s := ob 4096; { s with fab := { s.fab with routes := [(1, rt 1), (2, rt 2), (9, rt 2)], offsets := [(1, { offset := 5, rtt := 2, err := 1, measured := 9, valid := true }), (9, { offset := 4, rtt := 2, err := 1, measured := 9, valid := true })] } }
def PT : List State := [ord tf 0x0820 (F [(2,2,1),(4,2,3)]), ord tf 0x0820 (F [(2,2,0),(4,2,300)]), start tf 0x0820 (F [(0,1,1),(2,2,0),(4,2,11),(8,8,1)]), start tf 0x0820 (F [(0,1,2)]), start { tf with clk := { tf.clk with holdover := true } } 0x0820 (F [(0,1,2)]), tf,
  { tf with clk := { tf.clk with present := false, holdover := true } }, { tf with clk := { tf.clk with present := false, holdover := true, ts := 0xFFFFFFFFFFFFFFFF#64 } }, { tf with pending := [.nop 4] }]
def rec1 : Fer := { valid := true, cls := 1, source := 0x0102, time := 77 }
def fo (f : Faults → Faults) : State := fl f (ob 8192)
def recs : State := fo (fun f => { f with own := f.own.set 0 rec1, device := rec1, counts := [(3, 4), (5, 6)], force := [(0xB080, 1)], lanesFenced := [3] })
def PFc : List State := [start recs 0x0901 (F [(8,8,1)]), start recs 0x0901 (F [(0,1,1),(8,8,1)]), start recs 0x0901 (F [(0,1,2),(2,2,9),(8,8,1)]), start recs 0x0901 (F [(0,1,3),(2,2,9),(4,2,0xB07C),(8,8,1)]), start recs 0x0901 (F [(0,1,4),(8,8,1)]),
  start recs 0x0902 0, start recs 0x0902 (F [(1,1,1),(8,8,77)]), start recs 0x0902 (F [(1,1,1),(8,8,78)]), start recs 0x0902 (F [(0,1,2)]), ord recs 0x0902 (F [(0,1,1),(1,1,1),(8,8,77)]), ord recs 0x0902 (F [(0,1,1),(1,1,1),(8,8,7)]),
  ord recs 0x0903 (F [(0,1,1),(2,2,0x0102)]), ord recs 0x0903 (F [(1,1,2),(2,2,0xB07E),(4,2,5)]), ord recs 0x0903 (F [(1,1,3),(2,2,0x0000),(4,2,20)]), ord recs 0x0903 (F [(1,1,0),(2,2,0x0000),(4,2,20)]), ord recs 0x0903 (F [(1,1,0),(2,2,0xFFF0),(4,2,4)]),
  ord recs 0x0904 (F [(0,2,0xB080),(8,8,3)]), ord recs 0x0904 (F [(0,2,0x0000),(8,8,3)])]
def poolCountersAndTrace : Nat → State := nth (PC)
def poolTime : Nat → State := nth (PT)
def poolFaultCommands : Nat → State := nth (PFc)

/-- The hypotheses of each clause of CountersAndTrace hold together. -/
theorem met_CountersAndTrace :
    (∃ s : State, ∃ id, ∃ c : Cmd, s.Runs id 0x0801 ctrConfigFields c ∧ c.par 0 1 ≠ 1 ∧ c.allot < s.allots.length ∧ c.master = .allot ∧ (s.al c.allot).ctr.sets ≠ []) ∧
    (∃ s : State, ∃ id, ∃ c : Cmd, s.Runs id 0x0801 ctrConfigFields c ∧ c.par 0 1 ≠ 1 ∧ c.allot < s.allots.length ∧ c.master = .allot ∧ (s.al c.allot).ctr.sets = [] ∧ c.par 0 1 = 0 ∧ c.par 8 8 = 0) ∧
    (∃ s : State, ∃ id, ∃ c : Cmd, s.Runs id 0x0801 ctrConfigFields c ∧ c.par 0 1 ≠ 1 ∧ c.allot < s.allots.length ∧ c.master = .allot ∧ (s.al c.allot).ctr.sets = [] ∧ c.par 0 1 = 2) ∧
    (∃ s : State, ∃ id, ∃ c : Cmd, s.OrderRuns id 0x0801 ctrConfigFields c ∧ s.ready c = true ∧ c.master = .allot ∧ c.par 0 1 = 1 ∧ c.par 8 8 = 0) ∧
    (∃ s : State, ∃ id, ∃ c : Cmd, s.Runs id 0x0802 ctrReadFields c ∧ s.Clean c.allot) ∧
    (∃ s : State, ∃ id, ∃ c : Cmd, s.OrderRuns id 0x0810 traceConfigFields c ∧ c.par 0 1 = 0 ∧ s.spillFits (c.par 0xE 2) = true ∧ (∀ x ∈ s.hearths, x.trace.state = .off) ∧ c.par 1 1 = 0) ∧
    (∃ s : State, ∃ id, ∃ c : Cmd, s.OrderRuns id 0x0810 traceConfigFields c ∧ c.par 0 1 = 0 ∧ (∃ h, h < 2 ∧ s.hearthUp h = true ∧ (s.he h).trace.spillMib ≠ c.par 0xE 2) ∧ (∃ x ∈ s.hearths, x.trace.state ≠ .off)) ∧
    (∃ s : State, ∃ id, ∃ c : Cmd, s.OrderRuns id 0x0810 traceConfigFields c ∧ c.par 0 1 = 1) ∧
    (∃ s : State, ∃ id, ∃ c : Cmd, s.OrderRuns id 0x0810 traceConfigFields c ∧ c.par 0 1 = 2) ∧
    (∃ s : State, ∃ id, ∃ c : Cmd, s.OrderRuns id 0x0810 traceConfigFields c ∧ c.par 0 1 = 3) ∧
    (∃ s : State, ∃ id, ∃ c : Cmd, s.Runs id 0x0811 traceReadFields c ∧ s.Clean c.allot ∧ (((s.he (c.par 0 1)).trace).state = .off ∨ ((s.he (c.par 0 1)).trace).state = .armed)) ∧
    (∃ s : State, ∃ id, ∃ c : Cmd, s.Runs id 0x0811 traceReadFields c ∧ s.Clean c.allot ∧ (((s.he (c.par 0 1)).trace).state = .post ∨ ((s.he (c.par 0 1)).trace).state = .done) ∧ c.par 1 1 = 0) :=
  ⟨⟨poolCountersAndTrace 3, 4, cmd4 (poolCountersAndTrace 3), by decide +kernel⟩,
   ⟨poolCountersAndTrace 0, 4, cmd4 (poolCountersAndTrace 0), by decide +kernel⟩,
   ⟨poolCountersAndTrace 1, 4, cmd4 (poolCountersAndTrace 1), by decide +kernel⟩,
   ⟨poolCountersAndTrace 4, 4, cmd4 (poolCountersAndTrace 4), by decide +kernel⟩,
   ⟨poolCountersAndTrace 5, 4, cmd4 (poolCountersAndTrace 5), by decide +kernel⟩,
   ⟨poolCountersAndTrace 8, 4, cmd4 (poolCountersAndTrace 8), by decide +kernel⟩,
   ⟨poolCountersAndTrace 9, 4, cmd4 (poolCountersAndTrace 9), by decide +kernel⟩,
   ⟨poolCountersAndTrace 11, 4, cmd4 (poolCountersAndTrace 11), by decide +kernel⟩,
   ⟨poolCountersAndTrace 13, 4, cmd4 (poolCountersAndTrace 13), by decide +kernel⟩,
   ⟨poolCountersAndTrace 15, 4, cmd4 (poolCountersAndTrace 15), by decide +kernel⟩,
   ⟨poolCountersAndTrace 16, 4, cmd4 (poolCountersAndTrace 16), by decide +kernel⟩,
   ⟨poolCountersAndTrace 17, 4, cmd4 (poolCountersAndTrace 17), by decide +kernel⟩⟩

/-- The hypotheses of each clause of Time hold together. -/
theorem met_Time :
    (∃ s : State, ∃ id, ∃ c : Cmd, s.OrderRuns id 0x0820 timeMeasureFields c ∧ c.par 0 1 = 0) ∧
    (∃ s : State, ∃ id, ∃ c : Cmd, s.Runs id 0x0820 timeMeasureFields c ∧ s.Clean c.allot ∧ c.par 0 1 = 1) ∧
    (∃ s : State, ∃ id, ∃ c : Cmd, s.Runs id 0x0820 timeMeasureFields c ∧ s.Clean c.allot ∧ c.par 0 1 = 2) ∧
    (∃ s : State, ∃ p, ∃ r, look p s.fab.routes = some r ∧ r.valid = true) ∧
    (∃ s : State, ∃ p, ∃ r, look p s.fab.routes = some r ∧ r.valid = true ∧ ∃ o, look p s.fab.offsets = some o ∧ o.valid = true) ∧
    (∃ s : State, ∃ m : PeerTiming, look m.peer s.fab.routes = none) ∧
    (∃ s : State, s.clk.present = true) ∧
    (∃ s : State, s.clk.present = false) ∧
    (∃ s : State, s.pending = []) :=
  ⟨⟨poolTime 0, 4, cmd4 (poolTime 0), by decide +kernel⟩,
   ⟨poolTime 2, 4, cmd4 (poolTime 2), by decide +kernel⟩,
   ⟨poolTime 3, 4, cmd4 (poolTime 3), by decide +kernel⟩,
   ⟨poolTime 0, 1, (look (1) (poolTime 0).fab.routes).get (by decide +kernel), by decide +kernel⟩,
   ⟨poolTime 0, 1, (look (1) (poolTime 0).fab.routes).get (by decide +kernel), by decide +kernel, by decide +kernel, (look (1) (poolTime 0).fab.offsets).get (by decide +kernel), by decide +kernel⟩,
   ⟨poolTime 5, { peer := 99 }, by decide +kernel⟩,
   ⟨poolTime 0, by decide +kernel⟩,
   ⟨poolTime 6, by decide +kernel⟩,
   ⟨poolTime 0, by decide +kernel⟩⟩

/-- The hypotheses of each clause of FaultCommands hold together. -/
theorem met_FaultCommands :
    (∃ s : State, ∃ id, ∃ c : Cmd, s.Runs id 0x0901 faultReadFields c ∧ s.Clean c.allot) ∧
    (∃ s : State, ∃ id, ∃ c : Cmd, s.Runs id 0x0902 faultClearFields c ∧ c.par 0 1 ≠ 1 ∧ c.par 0 1 = 0 ∧ (s.flt.own.getD c.allot {}).matched c = true) ∧
    (∃ s : State, ∃ id, ∃ c : Cmd, s.Runs id 0x0902 faultClearFields c ∧ c.par 0 1 ≠ 1 ∧ c.par 0 1 = 0 ∧ (s.flt.own.getD c.allot {}).matched c = false) ∧
    (∃ s : State, ∃ id, ∃ c : Cmd, s.Runs id 0x0902 faultClearFields c ∧ c.par 0 1 ≠ 1 ∧ c.par 0 1 = 2) ∧
    (∃ s : State, ∃ id, ∃ c : Cmd, s.OrderRuns id 0x0902 faultClearFields c ∧ c.par 0 1 = 1 ∧ s.flt.device.matched c = true) ∧
    (∃ s : State, ∃ id, ∃ c : Cmd, s.OrderRuns id 0x0902 faultClearFields c ∧ c.par 0 1 = 1 ∧ s.flt.device.matched c = false) ∧
    (∃ s : State, ∃ id, ∃ c : Cmd, s.OrderRuns id 0x0903 faultSeverityFields c ∧ c.par 0 1 = 1) ∧
    (∃ s : State, ∃ id, ∃ c : Cmd, s.OrderRuns id 0x0903 faultSeverityFields c ∧ c.par 0 1 = 0 ∧ (∀ i x, i < c.par 4 2 → s.srcPresent (c.par 2 2 + i) = true → srcInfo (c.par 2 2 + i) = some x → x.floor ≤ c.par 1 1)) ∧
    (∃ s : State, ∃ id, ∃ c : Cmd, s.OrderRuns id 0x0903 faultSeverityFields c ∧ c.par 0 1 = 0 ∧ (∃ i x, i < c.par 4 2 ∧ s.srcPresent (c.par 2 2 + i) = true ∧ srcInfo (c.par 2 2 + i) = some x ∧ c.par 1 1 < x.floor)) ∧
    (∃ s : State, ∃ id, ∃ c : Cmd, s.OrderRuns id 0x0904 faultForceFields c ∧ (∀ e ∈ s.flt.force, e.1 ≠ c.par 0 2)) ∧
    (∃ s : State, ∃ id, ∃ c : Cmd, s.OrderRuns id 0x0904 faultForceFields c ∧ (∃ e ∈ s.flt.force, e.1 = c.par 0 2)) :=
  ⟨⟨poolFaultCommands 0, 4, cmd4 (poolFaultCommands 0), by decide +kernel⟩,
   ⟨poolFaultCommands 5, 4, cmd4 (poolFaultCommands 5), by decide +kernel⟩,
   ⟨poolFaultCommands 7, 4, cmd4 (poolFaultCommands 7), by decide +kernel⟩,
   ⟨poolFaultCommands 8, 4, cmd4 (poolFaultCommands 8), by decide +kernel⟩,
   ⟨poolFaultCommands 9, 4, cmd4 (poolFaultCommands 9), by decide +kernel⟩,
   ⟨poolFaultCommands 10, 4, cmd4 (poolFaultCommands 10), by decide +kernel⟩,
   ⟨poolFaultCommands 11, 4, cmd4 (poolFaultCommands 11), by decide +kernel⟩,
   ⟨poolFaultCommands 13, 4, cmd4 (poolFaultCommands 13), by decide +kernel, by decide +kernel, fun i x hi hp hx =>
    (by decide +kernel : ∀ i < (cmd4 (poolFaultCommands 13)).par 4 2, (poolFaultCommands 13).srcPresent ((cmd4 (poolFaultCommands 13)).par 2 2 + i) = true → ∀ y ∈ (srcInfo ((cmd4 (poolFaultCommands 13)).par 2 2 + i)).toList, y.floor ≤ (cmd4 (poolFaultCommands 13)).par 1 1)
      i hi hp x (by simp [hx])⟩,
   ⟨poolFaultCommands 14, 4, cmd4 (poolFaultCommands 14), by decide +kernel, by decide +kernel, 0,
    (srcInfo ((cmd4 (poolFaultCommands 14)).par 2 2 + 0)).get (by decide +kernel), by decide +kernel⟩,
   ⟨poolFaultCommands 17, 4, cmd4 (poolFaultCommands 17), by decide +kernel⟩,
   ⟨poolFaultCommands 16, 4, cmd4 (poolFaultCommands 16), by decide +kernel⟩⟩

end Observing

namespace Faulting

def PE : List State := [up, fl (fun f => { f with device := { valid := true, cls := 2, source := 5, time := 9 }, counts := [(0x0003, 65535)] }) up, fl (fun f => { f with severity := [(0xB080, 3), (0xD000, 3), (0x0002, 3)] }) (start (other up 0x1 0) 0x1 0),
  start up 0x500 0, fl (fun f => { f with corrected := [(0x1003, List.replicate 64 5), (0x3004, List.replicate 63 5)] }) up, { up with hearths := up.hearths.map (fun h => { h with remapping := [(0x12, 3), (0x13, 4)] }) }]
def u (t h i : Nat) : Nat := t + h * 16 + i * 256
def fe (s : State) (w m : Nat) : State := ord s 0x0910 (F [(0,4,w),(4,1,m)])
def un (s : State) (w : Nat) : State := ord s 0x0911 (F [(0,4,w)])
def fenced : State := { fl (fun f => { f with lanesFenced := [8], portsFenced := [2] }) up with hearths := up.hearths.map (fun h => { h with anvils := h.anvils.set 4 { role := .failed, fenced := true }, engines := h.engines.set 3 { fenced := true }, banksFenced := [6], pcsFenced := [7] }), allots := up.allots.set 2 { (up.al 2) with fenced := true } }
def PFe : List State := [fe fenced (u 4 0 8) 0, fe fenced (u 5 0 2) 0, fe fenced (u 0 0 4) 0, fe fenced (u 1 1 3) 1, fe fenced (u 2 1 6) 1, fe fenced (u 7 0 2) 1, fe up (u 5 0 2) 0, fe { up with fab := { up.fab with unacked := [{ vc := 1, peer := 7, own := 33, allot := 0, far := 0, seq := 1, sends := 1, port := 2 }] } } (u 5 0 2) 0,
  fe up (u 1 1 3) 0, fe up (u 7 0 2) 0, fe (other up 0x1 0 3 2) (u 7 0 2) 0, fe up (u 4 0 8) 1, fe up (u 5 0 8) 1, fe (other up 0x1 0 3 2) (u 5 0 8) 1,
  un up (u 5 0 2), un fenced (u 5 0 2), un fenced (u 1 1 3), un fenced (u 7 0 2), un up (u 1 1 3), un up (u 7 0 2)]
def st (s : State) (l : List (Nat × Nat × Nat)) : State := ord s 0x0920 (F l)
def anv (a : Nat) (v : Anvil) (s : State) : State := { s with hearths := s.hearths.map (fun h => { h with anvils := h.anvils.set a v }) }
def PAn : List State := [st up [(2,1,5)], st { up with hearths := [hearth true, hearth false] } [(1,1,1),(2,1,5)], st up [(0,1,1),(4,2,60)], st up [(0,1,1)], st up [(0,1,2)],
  up, mg (fun m => { m with patrolMin := 0 }) up, { up with hearths := up.hearths.map (fun h => { h with requests := [(66, 4)] }) }, anv 5 { role := .active, pos := 5, target := true } up, anv 5 { role := .failed, pos := 5, target := true } up,
  anv 5 { role := .underTest, pos := 5, target := true, testing := true } up, (let s := st up [(2,1,5)]; nx (.selftest (.cmd 4)) s |> anv 5 { role := .underTest, pos := 5, target := true, testing := true }), anv 5 { role := .spare, entry := true, pos := 7 } up, anv 65 { role := .underTest, target := true, testing := true } up]
def poolFaultEvents : Nat → State := nth (PE)
def poolFences : Nat → State := nth (PFe)
def poolAnvils : Nat → State := nth (PAn)

/-- Anvil 5 of hearth 0 is targeted and holds an op. -/
def atWork : State := anv 5 { role := .active, pos := 5, target := true } { up with hearths :=
  [{ hearth true with lists := [{ cmd := 4, allot := 0, seq := 0, key := 0, base := 0, order := 0, ops := [{ desc := 0, phase := .issued, anvil := 5 }] }] }, hearth true] }

/-- The hypotheses of each clause of FaultEvents hold together. -/
theorem met_FaultEvents :
    (∃ s : State, ∃ src, ∃ i, srcInfo src = some i ∧ s.carries i.die = true ∧ i.fence = .never ∧ i.kind = none ∧ s.srcClass src = 1 ∧ s.flt.force = [] ∧ (∀ h, h < 2 → (s.he h).newlyShort = false) ∧ warnSensor src = none ∧ src ≠ 0xF010 ∧ src ≠ 0xF011) ∧
    (∃ s : State, ∃ src, ∃ i, srcInfo src = some i ∧ s.carries i.die = true ∧ s.srcClass src = 3 ∧ s.flt.force = [] ∧ warnSensor src = none ∧ (s.hg.cmds.map (·.id)).Nodup ∧ bitsOf src 12 4 ≠ 9 ∧ bitsOf src 12 4 ≠ 10) ∧
    (∃ s : State, ∃ id, ∃ c : Cmd, s.cmd? id = some c ∧ c.master = .allot ∧ c.phase ≠ .done ∧ c.id = id ∧ s.Mild 0x8002 ∧ s.srcClass 0x8002 = 2) ∧
    (∃ src, isWatchdog src = false) ∧
    (∃ s : State, ∃ src, ∃ lim, ∃ i, limitSource src = some lim ∧ srcInfo lim = some i ∧ s.carries i.die = true ∧ s.flt.force = [] ∧ 64 ≤ ((look src s.flt.corrected).getD []).length) ∧
    (∃ s : State, ∃ src, ∃ lim, ∃ i, limitSource src = some lim ∧ srcInfo lim = some i ∧ s.carries i.die = true ∧ s.flt.force = [] ∧ ((look src s.flt.corrected).getD []).length < 64) :=
  ⟨⟨poolFaultEvents 0, 45184, (srcInfo (45184)).get (by decide +kernel), by decide +kernel⟩,
   ⟨poolFaultEvents 0, 53249, (srcInfo (53249)).get (by decide +kernel), by decide +kernel⟩,
   ⟨poolFaultEvents 2, 3, ((poolFaultEvents 2).cmd? 3).get (by decide +kernel), by decide +kernel⟩,
   ⟨0, by decide +kernel⟩,
   ⟨poolFaultEvents 4, 4099, 4495, (srcInfo (4495)).get (by decide +kernel), by decide +kernel⟩,
   ⟨poolFaultEvents 0, 4099, 4495, (srcInfo (4495)).get (by decide +kernel), by decide +kernel⟩⟩

/-- The hypotheses of each clause of Fences hold together. -/
theorem met_Fences :
    (∃ s : State, ∃ id, ∃ c : Cmd, s.OrderRuns id 0x0910 fenceFields c ∧ c.master = .allot ∧ s.unitFenced (c.par 0 4) = true) ∧
    (∃ s : State, ∃ id, ∃ c : Cmd, s.OrderRuns id 0x0910 fenceFields c ∧ c.master = .allot ∧ s.unitFenced (c.par 0 4) = false ∧ c.par 4 1 = 0 ∧ s.Mild 0xF010 ∧ s.pair.state = .unbound ∧ unitType (c.par 0 4) = 5 ∧ s.portQuiet (unitIndex (c.par 0 4)) = true) ∧
    (∃ s : State, ∃ id, ∃ c : Cmd, s.OrderRuns id 0x0910 fenceFields c ∧ c.master = .allot ∧ s.unitFenced (c.par 0 4) = false ∧ c.par 4 1 = 0 ∧ s.Mild 0xF010 ∧ s.pair.state = .unbound ∧ unitType (c.par 0 4) = 1 ∧ (unitIndex (c.par 0 4)) < (s.he (unitHearth (c.par 0 4))).engines.length ∧ unitHearth (c.par 0 4) < s.hearths.length ∧ (s.engine (unitHearth (c.par 0 4)) (unitIndex (c.par 0 4))).run = none) ∧
    (∃ s : State, ∃ id, ∃ c : Cmd, s.OrderRuns id 0x0910 fenceFields c ∧ c.master = .allot ∧ s.unitFenced (c.par 0 4) = false ∧ c.par 4 1 = 0 ∧ s.Mild 0xF010 ∧ s.pair.state = .unbound ∧ unitType (c.par 0 4) = 7 ∧ s.allots.length = 16 ∧ (∀ d ∈ s.hg.cmds, d.master = .allot → d.allot = (unitIndex (c.par 0 4)) → d.phase ≠ .done → d.id = id)) ∧
    (∃ s : State, ∃ id, ∃ c : Cmd, s.OrderRuns id 0x0910 fenceFields c ∧ c.master = .allot ∧ s.unitFenced (c.par 0 4) = false ∧ c.par 4 1 = 1 ∧ s.Mild 0xF011 ∧ s.pair.state = .unbound ∧ (s.hg.cmds.map (·.id)).Nodup ∧ (unitType (c.par 0 4) = 4 ∨ unitType (c.par 0 4) = 5)) ∧
    (∃ s : State, ∃ id, ∃ c : Cmd, s.OrderRuns id 0x0911 unfenceFields c ∧ c.master = .allot ∧ s.unitFenced (c.par 0 4) = false ∧ s.unitFailed (c.par 0 4) = false) ∧
    (∃ s : State, ∃ id, ∃ pass, ∃ c : Cmd, s.OrderRuns id 0x0911 unfenceFields c ∧ c.master = .allot ∧ s.unitFenced (c.par 0 4) = true ∧ unitType (c.par 0 4) = 5 ∧ pass = false) ∧
    (∃ s : State, ∃ id, ∃ pass, ∃ c : Cmd, s.OrderRuns id 0x0911 unfenceFields c ∧ c.master = .allot ∧ s.unitFenced (c.par 0 4) = true ∧ unitType (c.par 0 4) = 5 ∧ pass = true ∧ s.NoTraffic) ∧
    (∃ s : State, ∃ id, ∃ pass, ∃ c : Cmd, s.OrderRuns id 0x0911 unfenceFields c ∧ c.master = .allot ∧ s.unitFenced (c.par 0 4) = true ∧ unitType (c.par 0 4) = 1 ∧ pass = true) ∧
    (∃ s : State, ∃ id, ∃ c : Cmd, s.OrderRuns id 0x0911 unfenceFields c ∧ c.master = .allot ∧ s.unitFenced (c.par 0 4) = true ∧ unitType (c.par 0 4) = 7) :=
  ⟨⟨poolFences 0, 4, cmd4 (poolFences 0), by decide +kernel⟩,
   ⟨poolFences 6, 4, cmd4 (poolFences 6), by decide +kernel⟩,
   ⟨poolFences 8, 4, cmd4 (poolFences 8), by decide +kernel⟩,
   ⟨poolFences 9, 4, cmd4 (poolFences 9), by decide +kernel⟩,
   ⟨poolFences 11, 4, cmd4 (poolFences 11), by decide +kernel⟩,
   ⟨poolFences 14, 4, cmd4 (poolFences 14), by decide +kernel⟩,
   ⟨poolFences 15, 4, false, cmd4 (poolFences 15), by decide +kernel⟩,
   ⟨poolFences 15, 4, true, cmd4 (poolFences 15), by decide +kernel⟩,
   ⟨poolFences 16, 4, true, cmd4 (poolFences 16), by decide +kernel⟩,
   ⟨poolFences 17, 4, cmd4 (poolFences 17), by decide +kernel⟩⟩

/-- The hypotheses of each clause of Anvils hold together. -/
theorem met_Anvils :
    (∃ s : State, ∃ id, ∃ c : Cmd, s.OrderRuns id 0x0920 selftestFields c ∧ c.par 0 1 = 0 ∧ s.hearthUp (c.par 1 1) = true ∧ c.par 1 1 < s.hearths.length) ∧
    (∃ s : State, ∃ id, ∃ c : Cmd, s.OrderRuns id 0x0920 selftestFields c ∧ c.par 0 1 = 0 ∧ s.hearthUp (c.par 1 1) = false) ∧
    (∃ s : State, ∃ id, ∃ c : Cmd, s.OrderRuns id 0x0920 selftestFields c ∧ c.par 0 1 = 1) ∧
    (∃ s : State, ∃ id, ∃ c : Cmd, s.OrderRuns id 0x0920 selftestFields c ∧ c.par 0 1 = 2) ∧
    (∃ s : State, ∃ h, ∃ a, h < 2 ∧ h < s.hearths.length ∧ s.hearthUp h = true ∧ (s.mgt.patrolMin ≠ 0 ∨ (s.he h).requests ≠ []) ∧ (s.he h).busyPatrol = false ∧ (s.he h).nextTarget = some a ∧ a < (s.he h).anvils.length ∧ ((s.he h).anvil a).entry = false ∧ ((s.he h).anvil a).role ≠ .active) ∧
    (∃ s : State, ∃ h, ∃ sp, ∃ a, h < 2 ∧ h < s.hearths.length ∧ s.hearthUp h = true ∧ (s.mgt.patrolMin ≠ 0 ∨ (s.he h).requests ≠ []) ∧ (s.he h).busyPatrol = false ∧ (s.he h).nextTarget = some a ∧ a < (s.he h).anvils.length ∧ ((s.he h).anvil a).entry = false ∧ ((s.he h).anvil a).role = .active ∧ sp < 72 ∧ sp ≠ a ∧ ((s.he h).anvil sp).free = true ∧ sp < (s.he h).anvils.length) ∧
    (∃ s : State, ∃ h, ∃ a, h < 2 ∧ a < 72 ∧ ((s.he h).anvil a).target = true ∧ ((s.he h).anvil a).testing = false ∧ (s.he h).idle a = true) ∧
    (∃ s : State, ∃ h, ∃ a, h < 2 ∧ a < 72 ∧ ((s.he h).anvil a).target = true ∧ ((s.he h).anvil a).testing = false ∧ (s.he h).idle a = false) ∧
    (∃ s : State, ∃ h, ∃ a, h < 2 ∧ a < 72 ∧ ((s.he h).anvil a).testing = true ∧ s.mgt.patrolMin < 2 ^ 32) ∧
    (∃ s : State, ∃ h, ∃ a, h < 2 ∧ a < 72 ∧ ((s.he h).anvil a).testing = true ∧ s.mgt.patrolMin < 2 ^ 32 ∧ s.carries h = true ∧ s.Mild (anvilTestSource h a) ∧ ((s.he h).anvil a).role ≠ .failed) ∧
    (∃ s : State, ∃ h, ∃ a, h < 2 ∧ a < 72 ∧ ((s.he h).anvil a).entry = true) ∧
    (∃ s : State, ∃ h, ∃ a, h < 2 ∧ a < 72 ∧ ((s.he h).anvil a).entry = true ∧ s.carries h = true ∧ s.Mild (anvilTestSource h a)) :=
  ⟨⟨poolAnvils 0, 4, cmd4 (poolAnvils 0), by decide +kernel⟩,
   ⟨poolAnvils 1, 4, cmd4 (poolAnvils 1), by decide +kernel⟩,
   ⟨poolAnvils 2, 4, cmd4 (poolAnvils 2), by decide +kernel⟩,
   ⟨poolAnvils 4, 4, cmd4 (poolAnvils 4), by decide +kernel⟩,
   ⟨poolAnvils 7, 0, 66, by decide +kernel⟩,
   ⟨poolAnvils 0, 0, 64, 0, by decide +kernel⟩,
   ⟨poolAnvils 8, 0, 5, by decide +kernel⟩,
   ⟨atWork, 0, 5, by decide +kernel⟩,
   ⟨poolAnvils 10, 0, 5, by decide +kernel⟩,
   ⟨poolAnvils 10, 0, 5, by decide +kernel⟩,
   ⟨poolAnvils 12, 0, 5, by decide +kernel⟩,
   ⟨poolAnvils 12, 0, 5, by decide +kernel⟩⟩

end Faulting

namespace Powering

def ob (n : Nat) (d : Bytes := [(0, 5)]) (s : State := up) : State := withObjs s 0 [(1, raw n d)]
def jr (s : State) : State := mg (fun m => { m with journal := [{ seq := 1, start := 1, kind := 2 }, { seq := 2, start := 1, kind := 3, units := [(4, 5)] }, { seq := 3, start := 1, kind := 3 }], nextSeq := 4, units := [(4, 7), (9, 3)] }) s
def jread (s : State) (l : List (Nat × Nat × Nat)) : State := start s 0x0A20 (F l)
def img : List Byte := List.replicate 5000 9#8
def fw (s : State) (a : Nat) (l : List (Nat × Nat × Nat) := []) : State := ord s 0x0A30 (F ((if a = 0 then [(0,1,a),(8,8,1),(0x10,4,5000)] else [(0,1,a)]) ++ l))
def fwo : State := ob 8192 (bytesOf 0 (leNat img) 5000)
def PD : List State := [start (ob 8192) 0x0A10 (F [(8,8,1)]), start (ob 8192) 0x0A10 (F [(0,1,1),(8,8,1)]), start (ob 8192) 0x0A10 (F [(0,1,2),(8,8,1)]), start (ob 8192) 0x0A10 (F [(0,1,3),(8,8,1)]),
  jread (jr (ob 12288)) [(2,2,3),(8,8,2),(0x10,8,1)], jread (jr (ob 12288)) [(2,2,3),(8,8,0),(0x10,8,1)], jread (jr (ob 4096 [(0,4),(2,9)])) [(0,1,1),(2,2,2),(0x10,8,1),(0x18,8,3)], jread (jr (ob 4096 [(0,4),(2,9)])) [(0,1,1),(2,2,2),(0x10,8,1),(0x18,8,2)],
  fw fwo 0, fw { fwo with dev := { fwo.dev with pwrFail := true } } 0, fw (mg (fun m => { m with staging := true }) fwo) 0, fw fwo 1, fw fwo 2, fw fwo 4, fw (mg (fun m => { m with imageB := { bytes := img, version := 7, valid := true } }) fwo) 4]
def cap (w a : Nat) : State := ord up 0x0A01 (F [(0,1,a),(2,2,w)])
def bm (f : Mgmt → Mgmt) : State := mg f up
def Ppc : List State := [cap 1200 0, cap 100 0, cap 9999 0, cap 0 1, up, State.reset, bm (fun m => { m with capW := 700, vPower := 700, sinceFall := 4 }), bm (fun m => { m with capW := 1600, vPower := 700, sinceFall := 12 }), { up with clk := { up.clk with pace := 0xFF000000#32 } }, { up with hearths := [{ hearth true with tj := 99, vThermal := 800, railMv := 700 }, { hearth false with vThermal := 660 }], dev := { up.dev with bootStep := 6 } }]
def off : State := { up with dev := { up.dev with mainRails := false } }
def PPe : List State := [State.reset, { State.reset with fuse := { svn := 3, sealed := true } }, off, { off with dev := { off.dev with inputUp := false, standby := false } }, up, bm (fun m => { m with brownOpen := [(0, 100), (1, 200)] }), bm (fun m => { m with brownOpen := [(2, 100)], brownHold := true }), bm (fun m => { m with brownHold := true }),
  { bm (fun m => { m with delayed := [{ seq := 3, start := 1, kind := 2 }], journal := [{ seq := 2, start := 1, kind := 2 }] }) with dev := { up.dev with pwrFail := true } }, { start up 5 0 with host := { up.host with bytes := [(4, 5)] } }]
def PPi : List State := [up, State.reset, { up with dev := { up.dev with bootStep := 3 } }, port 3 (fun p => { p with bound := true }) (pr (fun p => { p with state := .mirror, partner := 7, role := 1, portA := 3 }) up), port 3 (fun p => { p with bound := true }) (pr (fun p => { p with state := .mirror, partner := 7, role := 1, portA := 3, quenchHold := true }) up),
  bm (fun m => { m with feedSamples := [3, 3], feedStraps := 1 }), bm (fun m => { m with feedSamples := [3, 4], feedStraps := 1 }), bm (fun m => { m with gpio := [some true, none, some false, none], gpioLevel := [1,0,0,1] }), bm (fun m => { m with slots := [{ seq := 4, feed := 0x13, committed := true }, { seq := 3, feed := 0x17, committed := true }] }) ]
def poolDeviceCommands : Nat → State := nth (PD)
def poolPowerControl : Nat → State := nth (Ppc)
def poolPowerEvents : Nat → State := nth (PPe)
def poolPins : Nat → State := nth (PPi)
def poolDeviceCommandsX : Nat → State := nth ([])

def trial : State := mg (fun m => { m with slots := [{ fwctl := 3, committed := true }] }) { (fw fwo 0) with dev := { up.dev with imageB := true } }
/-- An object that holds the signed image, and a FW_STAGE of it. -/
def staged : State := ord (withObjs up 0 [(1, { t := { data := cellsOf 0 signedImage }, size := 8192, charged := 8192, tier := 2 })]) 0x0A30 (F [(0,1,0),(8,8,1),(0x10,4,4097)])

theorem staged_bytes : ((staged.taken 4 (cmd4 staged)).readRef (cmd4 staged).allot ((cmd4 staged).par 8 8) 1 ((cmd4 staged).par 0x10 4)) = signedImage := by
  have h : (cmd4 staged).par 0x10 4 = signedImage.length := by rw [signedImage_length]; decide +kernel
  have hd : ((staged.taken 4 (cmd4 staged)).objD (cmd4 staged).allot (bitsOf ((cmd4 staged).par 8 8) 0 32)).t.data = cellWrite [] 0 signedImage := by
    rw [show cellWrite [] 0 signedImage = cellsOf 0 signedImage from List.append_nil _]
    rfl
  have ho : bitsOf ((cmd4 staged).par 8 8) 32 32 * 1 = 0 := by decide +kernel
  rw [State.readRef, Obj.read, hd, ho, h]
  exact cellRead_cellWrite rfl 0 signedImage

/-- The hypotheses of each clause of DeviceCommands hold together. -/
theorem met_DeviceCommands :
    (∃ s : State, ∃ id, ∃ c : Cmd, s.Runs id 0x0A10 devInfoFields c ∧ s.Clean c.allot) ∧
    (∃ s : State, ∃ id, ∃ c : Cmd, s.Runs id 0x0A20 journalReadFields c ∧ s.Clean c.allot ∧ c.par 0 1 = 0) ∧
    (∃ s : State, ∃ id, ∃ c : Cmd, s.Runs id 0x0A20 journalReadFields c ∧ s.Clean c.allot ∧ c.par 0 1 = 1 ∧ (∀ u ∈ ((recordsOf 2 ((s.named c).readRef c.allot (c.par 0x10 8) 1 (2 * c.par 2 2))).map leNat), isJournalUnit u = true) ∧ c.par 0x18 8 = s.newestSeq ∧ ((recordsOf 2 ((s.named c).readRef c.allot (c.par 0x10 8) 1 (2 * c.par 2 2))).map leNat).Nodup) ∧
    (∃ s : State, ∃ id, ∃ c : Cmd, s.Runs id 0x0A20 journalReadFields c ∧ s.Clean c.allot ∧ c.par 0 1 = 1 ∧ (∀ u ∈ ((recordsOf 2 ((s.named c).readRef c.allot (c.par 0x10 8) 1 (2 * c.par 2 2))).map leNat), isJournalUnit u = true) ∧ c.par 0x18 8 ≠ s.newestSeq) ∧
    (∃ s : State, ∃ id, ∃ c : Cmd, s.OrderRuns id 0x0A30 fwStageFields c ∧ s.ready c = true ∧ s.dev.pwrFail = true ∧ c.par 0 1 ≠ 4) ∧
    (∃ s : State, ∃ id, ∃ c : Cmd, s.OrderRuns id 0x0A30 fwStageFields c ∧ s.ready c = true ∧ s.mgt.staging = true ∧ s.dev.pwrFail = false) ∧
    (∃ s : State, ∃ id, ∃ c : Cmd, s.OrderRuns id 0x0A30 fwStageFields c ∧ s.ready c = true ∧ s.mgt.staging = false ∧ s.dev.pwrFail = false ∧ c.par 0 1 = 0 ∧ s.trialRuns = true) ∧
    (∃ s : State, ∃ id, ∃ c : Cmd, s.OrderRuns id 0x0A30 fwStageFields c ∧ s.ready c = true ∧ s.mgt.staging = false ∧ s.dev.pwrFail = false ∧ c.par 0 1 = 0 ∧ s.trialRuns = false ∧ s.Clean c.allot ∧ (fwImageOf ((s.taken id c).readRef c.allot (c.par 8 8) 1 (c.par 0x10 4))).authentic s.fuse = true ∧ ((s.taken id c).readRef c.allot (c.par 8 8) 1 (c.par 0x10 4)) ≠ []) ∧
    (∃ s : State, ∃ id, ∃ c : Cmd, s.OrderRuns id 0x0A30 fwStageFields c ∧ s.ready c = true ∧ s.mgt.staging = false ∧ s.dev.pwrFail = false ∧ c.par 0 1 = 0 ∧ s.trialRuns = false ∧ s.Clean c.allot ∧ (fwImageOf ((s.taken id c).readRef c.allot (c.par 8 8) 1 (c.par 0x10 4))).authentic s.fuse = false ∧ s.Mild 0xD000) ∧
    (∃ s : State, ∃ id, ∃ c : Cmd, s.OrderRuns id 0x0A30 fwStageFields c ∧ s.ready c = true ∧ s.mgt.staging = false ∧ s.dev.pwrFail = false ∧ c.par 0 1 = 1 ∧ s.staged = false) ∧
    (∃ s : State, ∃ id, ∃ c : Cmd, s.OrderRuns id 0x0A30 fwStageFields c ∧ s.ready c = true ∧ s.mgt.staging = false ∧ s.dev.pwrFail = false ∧ c.par 0 1 = 2 ∧ s.trialRuns = false) ∧
    (∃ s : State, ∃ id, ∃ c : Cmd, s.OrderRuns id 0x0A30 fwStageFields c ∧ s.ready c = true ∧ s.mgt.staging = false ∧ s.dev.pwrFail = false ∧ c.par 0 1 = 4) :=
  ⟨⟨poolDeviceCommands 0, 4, cmd4 (poolDeviceCommands 0), by decide +kernel⟩,
   ⟨poolDeviceCommands 4, 4, cmd4 (poolDeviceCommands 4), by decide +kernel⟩,
   ⟨poolDeviceCommands 6, 4, cmd4 (poolDeviceCommands 6), by decide +kernel⟩,
   ⟨poolDeviceCommands 7, 4, cmd4 (poolDeviceCommands 7), by decide +kernel⟩,
   ⟨poolDeviceCommands 9, 4, cmd4 (poolDeviceCommands 9), by decide +kernel⟩,
   ⟨poolDeviceCommands 10, 4, cmd4 (poolDeviceCommands 10), by decide +kernel⟩,
   ⟨trial, 4, cmd4 trial, by decide +kernel⟩,
   ⟨staged, 4, cmd4 staged, by decide +kernel, by decide +kernel, by decide +kernel, by decide +kernel, by decide +kernel, by decide +kernel, by decide +kernel,
    by rw [staged_bytes]; exact signedImage_authentic _ (by decide +kernel) (by decide +kernel), by rw [staged_bytes]; exact signedImage_ne⟩,
   ⟨poolDeviceCommands 8, 4, cmd4 (poolDeviceCommands 8), by decide +kernel⟩,
   ⟨poolDeviceCommands 11, 4, cmd4 (poolDeviceCommands 11), by decide +kernel⟩,
   ⟨poolDeviceCommands 12, 4, cmd4 (poolDeviceCommands 12), by decide +kernel⟩,
   ⟨poolDeviceCommands 13, 4, cmd4 (poolDeviceCommands 13), by decide +kernel⟩⟩

/-- The hypotheses of each clause of PowerControl hold together. -/
theorem met_PowerControl :
    (∃ s : State, ∃ id, ∃ c : Cmd, s.OrderRuns id 0x0A01 powerCapFields c ∧ c.par 0 1 = 1) ∧
    (∃ s : State, ∃ id, ∃ c : Cmd, s.OrderRuns id 0x0A01 powerCapFields c ∧ c.par 0 1 = 0) ∧
    (∃ s : State, ∃ v, s.dev.standby = true ∧ s.mgt.restarting = false ∧ v < 65536 ∧ s.AtOnce opVTarget) ∧
    (∃ s : State, ∃ v, s.dev.standby = true ∧ s.mgt.restarting = false ∧ v < 65536 ∧ s.AtOnce opTjLimit) ∧
    (∃ s : State, s.dev.mainRails = true) ∧
    (∃ s : State, s.dev.mainRails = false) ∧
    (∃ s : State, s.dev.mainRails = true ∧ s.mgt.restarting = false) ∧
    (∃ s : State, (s.dev.mainRails = false ∨ s.mgt.restarting = true)) :=
  ⟨⟨poolPowerControl 3, 4, cmd4 (poolPowerControl 3), by decide +kernel⟩,
   ⟨poolPowerControl 0, 4, cmd4 (poolPowerControl 0), by decide +kernel⟩,
   ⟨poolPowerControl 4, 0, by decide +kernel⟩,
   ⟨poolPowerControl 4, 0, by decide +kernel⟩,
   ⟨poolPowerControl 0, by decide +kernel⟩,
   ⟨poolPowerControl 5, by decide +kernel⟩,
   ⟨poolPowerControl 0, by decide +kernel⟩,
   ⟨poolPowerControl 5, by decide +kernel⟩⟩

/-- The hypotheses of each clause of PowerEvents hold together. -/
theorem met_PowerEvents :
    (∃ s : State, s.dev.inputUp = false) ∧
    (∃ s : State, s.dev.inputUp = true) ∧
    (∃ s : State, s.dev.starts ≠ 0 ∧ s.dev.mainRails = false) ∧
    (∃ s : State, s.dev.mainRails = true) ∧
    (∃ s : State, ∃ v, s.dev.standby = true ∧ 4000 ≤ v ∧ v < 4800 ∧ s.Mild 0xB080) ∧
    (∃ s : State, ∃ v, (s.dev.standby = false ∨ v < 4000 ∨ 4800 ≤ v)) ∧
    (∃ s : State, ∃ k, ∃ t0, look k s.mgt.brownOpen = some t0 ∧ s.dev.standby = true ∧ (k ≠ 1 ∨ s.dev.pwrFail = false) ∧ s.mgt.brownLog.length < 1024) ∧
    (∃ s : State, ∃ rail, s.dev.mainRails = true ∧ rail < 24) ∧
    (∃ s : State, ∃ v, s.dev.standby = true ∧ 6400 < v) ∧
    (∃ s : State, ∃ v, s.dev.standby = true ∧ 6000 < v ∧ v ≤ 6400 ∧ s.srcClass 0xB081 = 3) ∧
    (∃ s : State, s.mgt.brownHold = true ∧ (∀ e ∈ s.mgt.brownOpen, e.1 = 2) ∧ s.dev.pwrFail = false) ∧
    (∃ s : State, s.dev.pwrFail = false) ∧
    (∃ s : State, s.dev.pwrFail = true ∧ s.dev.paused = none) :=
  ⟨⟨poolPowerEvents 0, by decide +kernel⟩,
   ⟨poolPowerEvents 2, by decide +kernel⟩,
   ⟨poolPowerEvents 2, by decide +kernel⟩,
   ⟨poolPowerEvents 4, by decide +kernel⟩,
   ⟨poolPowerEvents 2, 4500, by decide +kernel⟩,
   ⟨poolPowerEvents 0, 0, by decide +kernel⟩,
   ⟨poolPowerEvents 5, 0, (look (0) (poolPowerEvents 5).mgt.brownOpen).get (by decide +kernel), by decide +kernel⟩,
   ⟨poolPowerEvents 4, 0, by decide +kernel⟩,
   ⟨poolPowerEvents 2, 7000, by decide +kernel⟩,
   ⟨poolPowerEvents 2, 6200, by decide +kernel⟩,
   ⟨poolPowerEvents 6, by decide +kernel⟩,
   ⟨poolPowerEvents 0, by decide +kernel⟩,
   ⟨poolPowerEvents 8, by decide +kernel⟩⟩

/-- The hypotheses of each clause of Pins hold together. -/
theorem met_Pins :
    (∃ s : State, s.arbUp = true ∧ s.pair.bound = false) ∧
    (∃ s : State, s.arbUp = false) ∧
    (∃ s : State, s.arbUp = true ∧ s.hg.arb = [] ∧ s.pair.state = .mirror ∧ s.pairPortUp = true ∧ s.epochsDone = true) ∧
    (∃ s : State, ∃ x, s.dev.standby = true ∧ s.mgt.restarting = false ∧ x < 16) ∧
    (∃ s : State, s.dev.standby = true ∧ s.mgt.restarting = false ∧ s.AtOnce opFeedId ∧ s.mgt.slots.length = 2) ∧
    (∃ s : State, ∃ pin, ∃ lv, s.dev.standby = true ∧ s.mgt.restarting = false ∧ pin < 4 ∧ lv < 2 ∧ s.mgt.gpio.length = 4 ∧ s.mgt.gpioLevel.length = 4) ∧
    (∃ s : State, s.dev.standby = true) :=
  ⟨⟨poolPins 0, by decide +kernel⟩,
   ⟨poolPins 1, by decide +kernel⟩,
   ⟨poolPins 3, by decide +kernel⟩,
   ⟨poolPins 0, 0, by decide +kernel⟩,
   ⟨poolPins 0, by decide +kernel⟩,
   ⟨poolPins 0, 0, 0, by decide +kernel⟩,
   ⟨poolPins 0, by decide +kernel⟩⟩

end Powering

namespace Managing

def sp (p : SpdmPhase) (k : Nat := 0) : State := mg (fun m => { m with spdm := { m.spdm with phase := p, sessions := k } }) up
def PSp : List State := [up, sp .version, sp .capabilities, sp .algorithms, sp .exchanging 1, sp .session 2]
def pl (p : PldmPhase) (f : Pldm → Pldm := id) : State := mg (fun m => { m with pldm := f { m.pldm with phase := p }, staging := p != .idle }) up
def d5 : List Byte := List.replicate 4999 1#8
def PPl : List State := [up, pl .learn, pl .ready, pl .download (fun p => { p with length := 5000, received := d5 }), pl .download (fun p => { p with length := 4999, received := d5 }), pl .verify (fun p => { p with length := 4999, received := d5 }), pl .apply, pl .activate, mg (fun m => { m with stagedOk := true }) (pl .activate), mg (fun m => { m with stagedOk := true, imageB := { bytes := d5, valid := true } }) (pl .activate)]
def sl (s : State) : State := { s with fuse := { s.fuse with sealed := true } }
def PDb : List State := [up, sl up, sp .session, sl (sp .session), mg (fun m => { m with jtag := { boundary := 9 } }) up, { up with dev := { up.dev with perst := true } }, mg (fun m => { m with debugUnlocked := true }) up]
def poolSpdmRequests : Nat → State := nth (PSp)
def poolPldmUpdate : Nat → State := nth (PPl)
def poolDebugAccess : Nat → State := nth (PDb)
def poolStepRunsFront : Nat → State := nth ([{ up with pending := [.nop 4, .nop 5] }])
def poolResetValues : Nat → State := nth ([up])

def signedPldm : State := pl .verify (fun p => { p with length := 4097, received := signedImage })
/-- A module whose start-up has failed (R448). -/
def failed : State := { up with dev := { up.dev with bootState := 2 } }
/-- A token that the key of debug tokens has signed for the module's challenge. -/
def token : DebugToken := { challenge := failed.debugAsk, signature := Config.ecdsaSign 4 failed.tokenDigest % 2 ^ 768 }

theorem token_ok : failed.tokenOk token = true := by
  simp only [State.tokenOk, token, ecdsaValid, beq_self_eq_true, Bool.true_or, Bool.and_true]
  decide +kernel

/-- The hypotheses of RowsKeepQueue hold together. -/
theorem met_RowsKeepQueue : ∃ (c : Instr) (s t : State), exec c s = .next t :=
  ⟨.vfEnable 3, up, { up with dev := { up.dev with vfEnable := true, numVfs := 3 } }, rfl⟩

/-- The hypotheses of FusesStay hold together. -/
theorem met_FusesStay : ∃ s t : State, step s = .next t ∧ s.fuse.sealed = true ∧ s.fuse.revoked.testBit 1 = true :=
  ⟨{ up with fuse := { sealed := true, revoked := 2 }, pending := [.vfEnable 3] },
   { up with fuse := { sealed := true, revoked := 2 }, pending := [], dev := { up.dev with vfEnable := true, numVfs := 3 } }, rfl, by decide +kernel, by decide +kernel⟩

/-- The hypotheses of StepRunsFront hold together. -/
theorem met_StepRunsFront : ∃ s : State, ∃ c : Instr, ∃ rest : List Instr, s.pending = c :: rest :=
  ⟨poolStepRunsFront 0, .nop 4, [.nop 5], by decide +kernel⟩

/-- The hypotheses of SpdmRequests hold together. -/
theorem met_SpdmRequests : ∃ s : State, s.dev.standby = true ∧ s.mgt.restarting = false :=
  ⟨poolSpdmRequests 0, by decide +kernel⟩

/-- The hypotheses of each clause of PldmUpdate hold together. -/
theorem met_PldmUpdate :
    (∃ s : State, s.dev.standby = true ∧ s.mgt.restarting = false ∧ (s.mgt.pldm).phase = .idle ∧ s.mgt.staging = false ∧ s.trialRuns = false) ∧
    (∃ s : State, s.dev.standby = true ∧ s.mgt.restarting = false ∧ ∃ n, ((s.mgt.pldm).phase ≠ .idle ∨ s.mgt.staging = true ∨ s.trialRuns = true ∨ n ≠ 1)) ∧
    (∃ s : State, s.dev.standby = true ∧ s.mgt.restarting = false ∧ (s.mgt.pldm).phase = .learn) ∧
    (∃ s : State, s.dev.standby = true ∧ s.mgt.restarting = false ∧ ∃ n, ((s.mgt.pldm).phase ≠ .learn ∨ n ≠ 1)) ∧
    (∃ s : State, s.dev.standby = true ∧ s.mgt.restarting = false ∧ ∃ n, (s.mgt.pldm).phase = .ready ∧ 4097 ≤ n ∧ n ≤ 29360128) ∧
    (∃ s : State, s.dev.standby = true ∧ s.mgt.restarting = false ∧ ∃ n, ((s.mgt.pldm).phase ≠ .ready ∨ n < 4097 ∨ 29360128 < n)) ∧
    (∃ s : State, s.dev.standby = true ∧ s.mgt.restarting = false ∧ ∃ d : Wire, (s.mgt.pldm).phase = .download ∧ (s.mgt.pldm).received.length + d.length ≤ (s.mgt.pldm).length) ∧
    (∃ s : State, s.dev.standby = true ∧ s.mgt.restarting = false ∧ ∃ o, ((s.mgt.pldm).phase ≠ .download ∨ o ≠ (s.mgt.pldm).received.length)) ∧
    (∃ s : State, s.dev.standby = true ∧ s.mgt.restarting = false ∧ (s.mgt.pldm).phase = .download ∧ (s.mgt.pldm).received.length = (s.mgt.pldm).length) ∧
    (∃ s : State, s.dev.standby = true ∧ s.mgt.restarting = false ∧ ((s.mgt.pldm).phase ≠ .download ∨ (s.mgt.pldm).received.length ≠ (s.mgt.pldm).length)) ∧
    (∃ s : State, s.dev.standby = true ∧ s.mgt.restarting = false ∧ (s.mgt.pldm).phase = .verify ∧ s.dev.pwrFail = false ∧ s.AtOnce opPldmStage ∧ (fwImageOf (s.mgt.pldm).received).authentic s.fuse = true ∧ (s.mgt.pldm).received ≠ []) ∧
    (∃ s : State, s.dev.standby = true ∧ s.mgt.restarting = false ∧ (s.mgt.pldm).phase ≠ .verify) ∧
    (∃ s : State, s.dev.standby = true ∧ s.mgt.restarting = false ∧ (s.mgt.pldm).phase = .apply) ∧
    (∃ s : State, s.dev.standby = true ∧ s.mgt.restarting = false ∧ (s.mgt.pldm).phase ≠ .apply) ∧
    (∃ s : State, s.dev.standby = true ∧ s.mgt.restarting = false ∧ (s.mgt.pldm).phase = .activate ∧ s.AtOnce opPldmActivate ∧ s.staged = true) ∧
    (∃ s : State, s.dev.standby = true ∧ s.mgt.restarting = false ∧ ∃ b, ((s.mgt.pldm).phase ≠ .activate ∨ b = true)) :=
  ⟨⟨poolPldmUpdate 0, by decide +kernel⟩,
   ⟨poolPldmUpdate 0, by decide +kernel, by decide +kernel, 0, by decide +kernel⟩,
   ⟨poolPldmUpdate 1, by decide +kernel⟩,
   ⟨poolPldmUpdate 0, by decide +kernel, by decide +kernel, 0, by decide +kernel⟩,
   ⟨poolPldmUpdate 2, by decide +kernel, by decide +kernel, 4097, by decide +kernel⟩,
   ⟨poolPldmUpdate 0, by decide +kernel, by decide +kernel, 0, by decide +kernel⟩,
   ⟨poolPldmUpdate 3, by decide +kernel, by decide +kernel, [], by decide +kernel⟩,
   ⟨poolPldmUpdate 0, by decide +kernel, by decide +kernel, 0, by decide +kernel⟩,
   ⟨poolPldmUpdate 4, by decide +kernel⟩,
   ⟨poolPldmUpdate 0, by decide +kernel⟩,
   ⟨signedPldm, by decide +kernel, by decide +kernel, by decide +kernel, by decide +kernel, by decide +kernel, signedImage_authentic _ (by decide +kernel) (by decide +kernel), signedImage_ne⟩,
   ⟨poolPldmUpdate 0, by decide +kernel⟩,
   ⟨poolPldmUpdate 6, by decide +kernel⟩,
   ⟨poolPldmUpdate 0, by decide +kernel⟩,
   ⟨poolPldmUpdate 8, by decide +kernel⟩,
   ⟨poolPldmUpdate 0, by decide +kernel, by decide +kernel, false, by decide +kernel⟩⟩

/-- The hypotheses of each clause of DebugAccess hold together. -/
theorem met_DebugAccess :
    (∃ s : State, ∃ tok, s.dev.standby = true ∧ s.tokenOk tok = false) ∧
    (∃ s : State, ∃ tok, s.dev.standby = true ∧ s.tokenOk tok = true ∧ s.pair.bound = false) ∧
    (∃ s : State, s.dev.standby = true ∧ s.fuse.sealed = true) ∧
    (∃ s : State, s.dev.standby = true ∧ s.mgt.restarting = false ∧ s.mgt.spdm.phase = .session) ∧
    (∃ s : State, s.dev.standby = true ∧ s.mgt.restarting = false ∧ ∃ inS, ∃ n, (inS = false ∨ s.mgt.spdm.phase ≠ .session ∨ n ≠ s.dev.serial)) :=
  ⟨⟨poolDebugAccess 1, { challenge := 0, signature := 0 }, by decide +kernel⟩,
   ⟨failed, token, by decide +kernel, token_ok, by decide +kernel⟩,
   ⟨poolDebugAccess 1, by decide +kernel⟩,
   ⟨poolDebugAccess 2, by decide +kernel⟩,
   ⟨poolDebugAccess 0, by decide +kernel, by decide +kernel, false, 0, by decide +kernel⟩⟩

/-- The hypotheses of each clause of ResetValues hold together. -/
theorem met_ResetValues :
    (∃ a, a < 16) ∧
    (∃ a, a < 16) ∧
    (∃ a, a < 16) ∧
    (∃ a, a < 16) ∧
    (∃ a, a < 16) ∧
    (∃ a, a < 16) ∧
    (∃ h, h < 2) ∧
    (∃ h, h < 2) ∧
    (∃ h, h < 2) ∧
    (∃ h, h < 2) :=
  ⟨⟨0, by decide +kernel⟩,
   ⟨0, by decide +kernel⟩,
   ⟨0, by decide +kernel⟩,
   ⟨0, by decide +kernel⟩,
   ⟨0, by decide +kernel⟩,
   ⟨0, by decide +kernel⟩,
   ⟨0, by decide +kernel⟩,
   ⟨0, by decide +kernel⟩,
   ⟨0, by decide +kernel⟩,
   ⟨0, by decide +kernel⟩⟩

end Managing

/-! ## Ill-formed commands -/

/-- One term that each range of WellFormed refuses: a unit, function, allotment, queue, peer or size that the PZ8 does not have. -/
theorem test_wellFormed_refuses : ∀ i ∈ ([.tileRun 0 4, .progRun 0 [32], .updNorm 0 [(16384, 0)], .fillGrantExpiry (2 ^ 32), .fillRead (2 ^ 32) 0,
    .timeMeasure 0 [{ peer := 16384 }], .commandAccept 16 0, .commandAccept 0 65536, .doorbellCommandWrite 17 0 8 {}, .doorbellCommandWrite 0 0 3 {},
    .doorbellReplyRead 17 0 8, .doorbellReplyRead 0 0 5, .gapSeen 16 0, .gapSeen 0 65536, .doorbellErr 17, .adminqEnable 17 0, .adminqDisable 17 0,
    .timestampLowRead 17, .registerWrite 17 0 8 0, .registerWrite 0 65536 8 0, .registerWrite 0 0 16 0, .unsupportedRequest 17 0,
    .unsupportedRequest 0 65536, .functionLevelResetVf 0, .functionLevelResetVf 17, .vfRemoval true 17, .vfEnable 17] : List Instr), i.wellFormed = false := by
  decide +kernel

theorem test_wellFormed_refuses_units : ∀ i ∈ ([.tileOpIssue 2 0 0, .tileOpIssue 0 0 72, .tileOpIssue 0 4 0, .tileOpComplete 0 65535, .epochCommit true 16 0 [],
    .temperSyncStats 16 0 [], .mirrorReservation 16 0 0, .mirrorReservation 0 (2 ^ 32) 0, .keyInstallation 24 0 0, .keyInstallation 0 2 0,
    .keyRotation 24 0 0, .keyRotation 0 2 0, .frameReceive 24 [], .replayLimit 24, .portRetrainTimeout 24, .portTrained 24 [], .portTrained 0 [104],
    .packetReceive 24 [], .retransmitTimeout 2 0 0 0, .retransmitTimeout 0 16384 0 0, .peerTimeout 16384, .offsetMeasurement { peer := 16384 },
    .faultEvent [{ source := 65536 }], .remapComplete (2 ^ 32), .correctedEventLimit 65536, .handshakeWatchdog 65536 none, .patrolRotation 2 0,
    .patrolRotation 0 72, .anvilTestStart 0 72, .anvilTestComplete 2 0 true 0, .entryCheckComplete 0 72 true, .paceWindow 32768 0, .paceWindow 0 32768,
    .bellowsTick 0 0 0 0 [169], .mainRailsOff 256, .feedIdSample 16, .feedIdOverride true 16, .gpioEffecter 4 none 0, .getCertificate 8 0 0,
    .getMeasurements 256 0, .progBudgetExhausted 0 32, .add 2 0, .halt 0 32] : List Instr), i.wellFormed = false := by
  decide +kernel

/-- The last value of each range is well formed. -/
theorem test_wellFormed_accepts : ∀ i ∈ ([.tileRun 0 3, .progRun 0 [31], .commandAccept 15 65535, .doorbellCommandWrite 16 0 1 {}, .registerWrite 16 65535 8 0,
    .tileOpIssue 1 3 71, .portTrained 23 [103], .retransmitTimeout 1 16383 0 0, .bellowsTick 0 0 0 0 [168], .getCertificate 7 0 0, .halt 1 31] : List Instr),
    i.wellFormed = true := by
  decide +kernel

/-- The opcode table gives no row bits, so no word spells a command. -/
theorem test_decodeTableWord : decodeTableWord 32 0x0100 = none ∧ State.reset.withFetchWord 32 0x0100 = State.reset := ⟨rfl, rfl⟩

/-! ## Values that the specification gives -/

/-- "123456789" and its check values: the table Check polynomials of spec/12. -/
theorem test_check_values : (List.range 4).map (fun k => (polyOf k).check (leBytes 0x393837363534333231 9)) =
    [0x29B1, 0xCBF43926, 0xE3069283, 0x6C40DF5F0B497347] := by
  decide +kernel

/-- The block of the worked example of spec/03: 10.0, -2.5, 0.75, 0.5, -0.3, 3.5, 2.9 and 25 zeros. -/
def fp4Block : List CvIn :=
  ([0x41200000#32, 0xC0200000#32, 0x3F400000#32, 0x3F000000#32, 0xBE99999A#32, 0x40600000#32, 0x4039999A#32] ++ List.replicate 25 0).map (fun w => .val (dec32 w))

/-- Without the spillway: scale 0x80, bytes 0xA6, 0x01, 0x48, 0x03, ZEROED 2. -/
theorem test_fp4_block : let r := convertBlock { fmt := 0, block := true } (fun _ => none) fp4Block
    r.scale = 0x80 ∧ r.codes.take 8 = [0x6, 0xA, 0x1, 0x0, 0x8, 0x4, 0x3, 0x0] ∧ r.stats.zeroed = 2 ∧ r.stats.saturated = 0 ∧ r.marker = false := by
  decide +kernel

/-- With 10.0 lifted: scale 0x7F, bytes 0xC0, 0x12, 0x69, 0x05, the bfloat16 10.0 at index 0, and the maximum counts it (0x82). -/
theorem test_fp4_spillway : let r := convertBlock { fmt := 0, block := true, spill := some { perBlock := 1, gap := 1, free := 1 } } (fun _ => none) fp4Block
    r.scale = 0x7F ∧ r.codes.take 8 = [0x0, 0xC, 0x2, 0x1, 0x9, 0x6, 0x5, 0x0] ∧ r.lifted = [(0, 0x4120)] ∧ r.stats.zeroed = 0 ∧ r.blkmax = 0x82 := by
  decide +kernel

/-- FP8 E4M3 under scale code 0x7D: 100.0, 116.0, 117.0 and -2^-13 (the worked example of spec/03). -/
theorem test_e4m3_tensor : let r := convertBlock { fmt := 2, given := some 0x7D } (fun _ => none) ([0x42C80000#32, 0x42E80000#32, 0x42EA0000#32, 0xB9000000#32].map (fun w => .val (dec32 w)))
    r.codes = [0x7C, 0x7E, 0x7E, 0x80] ∧ r.stats.saturated = 1 ∧ r.stats.zeroed = 1 := by
  decide +kernel

/-- The same in non-saturating mode gives NaN, and the draw 0x9A3F10 rounds -2^-13 down to -0. -/
theorem test_e4m3_modes :
    (convertBlock { fmt := 2, given := some 0x7D, nonsat := true } (fun _ => none) [.val (dec32 0x42EA0000#32)]).codes = [0x7F] ∧
    (convertBlock { fmt := 2, given := some 0x7D } (fun _ => some 0x9A3F10) [.val (dec32 0xB9000000#32)]).codes = [0x80] ∧
    (convertBlock { fmt := 2, given := some 0x7D } (fun _ => some 12582912) [.val (dec32 0xB9000000#32)]).codes = [0x81] := by
  decide +kernel

/-- The lines of the worked example of spec/04: products 2^24, 1, 1, 1, -2^24 and 0.5. -/
def cancelLines : List Line :=
  [(0x4580, 0x4580), (0x3F80, 0x3F80), (0x3F80, 0x3F80), (0x3F80, 0x3F80), (0xC580, 0x4580), (0x3F00, 0x3F80)].map (fun e => (false, ⟨decB16 e.1, none, none⟩, ⟨decB16 e.2, none, none⟩))

/-- The default accumulation gives 0.5, and the compensated one s + c = 3.5. -/
theorem test_cancellation : (sumLines false false cancelLines).s = 0x3F000000#32 ∧
    lane32 false (fun p q _ => p.add q) (sumLines false true cancelLines).s (sumLines false true cancelLines).c 0 = 0x40600000#32 := by
  decide +kernel

/-- The storm of spec/05: 60 of 96 layers pass a threshold of 5,000; 48 do not. -/
theorem test_storm : ({ stormThresh := 5000, steeredAtOpen := 96 } : Temper).stormy 60 = true ∧ ({ stormThresh := 5000, steeredAtOpen := 96 } : Temper).stormy 48 = false := by
  decide +kernel

/-- The gap of spec/10: 17 slots from pointer 14: FFFF 0100 11000000 0E000000 00000000. -/
theorem test_gap_marker : leBytes ({ dropped := 17, first := 14 } : Gap).marker 16 = leBytes 0x000000000000000E000000110001FFFF 16 := by decide +kernel

/-- The same ring: after WR = 22 and RD = 14, PTR 31 is 17 slots ahead of a ring of 16, and stops it. -/
theorem test_ring_overfilled :
    let s := qs [(5, { q0 with log2 := 4, devPtr := 14, hostPtr := 22 }), (1, r0)] up
    ((nx (.doorbellCommandWrite 0 (BitVec.ofNat 64 (5 + 31 * 2 ^ 32)) 8 {}) s).queue? 0 5).map (fun d => (d.stopped, d.gap)) = some (true, some { dropped := 17, first := 14 }) := by
  decide +kernel

/-- The same ring: from RD = 10, PTR 22 publishes 12 slots. -/
theorem test_ring_published :
    let s := qs [(5, { q0 with log2 := 4, devPtr := 10, hostPtr := 10 }), (1, r0)] up
    ((nx (.doorbellCommandWrite 0 (BitVec.ofNat 64 (5 + 22 * 2 ^ 32)) 8 {}) s).queue? 0 5).map (fun d => (d.hostPtr, d.count)) = some (22, 12) := by
  decide +kernel

/-- A reply ring of 64 entries: pointers 0 to 9 carry lap tag 1, pointer 64 carries 0. -/
theorem test_lap_tag : lapTag 6 0 = 1 ∧ lapTag 6 9 = 1 ∧ lapTag 6 64 = 0 := by decide

/-- The exchange of spec/16: OFFSET 7,000,200 ns, round trip 1,200,000 ns, ERR 600,000 ns. -/
theorem test_offset :
    (look 2 (up.measure { peer := 2, exchanges := [⟨1000000000, 1007600200, 1007605200, 1001205000⟩] }).1.fab.offsets).map (fun e => (e.offset, e.rtt, e.err, e.measured)) =
      some (7000200, 1200000, 600000, 1001205000) := by
  decide +kernel

/-- The cap of spec/17 at 1,200 W: 1,203 W falls by 5 mV, 1,189 W (above 98 %) stays, and 1,176 W may rise 10 ms after a fall. -/
theorem test_power_step : powerStep 685 0 1200 1203 1210 = (680, 0) ∧ powerStep 680 20 1200 1189 1189 = (680, 21) ∧ powerStep 680 9 1200 1176 1176 = (685, 10) ∧
    powerStep 680 8 1200 1176 1176 = (680, 9) := by
  decide +kernel

/-! ## Single steps -/

/-- How command 4 stands: phase, code, DETAIL and RESULT. -/
def ended (s : State) : Option (Phase × Code × Nat × Nat) := (s.cmd? 4).map (fun c => (c.phase, c.code, c.detail.toNat, c.result.toNat))

/-- R322: NOP returns its first 16 parameter bytes. -/
theorem test_nop : ended (nx (.nop 4) (start up 0x0100 0x123456789)) = some (.done, .ok, 0, 0x123456789) := by decide +kernel

/-- R320: a cell counts modulo 2^20. -/
theorem test_barrier_wraps :
    ended (nx (.barrier 4) ((start up 0x0320 (F [(0,2,5),(2,1,0)])).modAl 0 (fun x => { x with tokens := [(5, 1048575)] }))) = some (.done, .ok, 0, 0) := by
  decide +kernel

/-- R321: count 3 passes value 2 and not value 4; the comparison is modulo 2^20. -/
theorem test_tokenWait :
    let t := fun v => ended (nx (.tokenWait 4) ((start up 0x0321 (F [(0,4,5 + 4096 * v)])).modAl 0 (fun x => { x with tokens := [(5, 3)] })))
    t 2 = some (.done, .ok, 0, 3) ∧ (t 4).map (·.1) = some .working ∧ t 1048575 = some (.done, .ok, 0, 3) := by
  decide +kernel

/-- R324: a reply ring that a command ring names stays: BAD_PARAM with OFFSET 0x08 of QID. -/
theorem test_qDestroy_named : (ended (nx (.qDestroy 4) (start (qs [(0, q0), (1, r0), (2, q0)] up) 0x0102 (F [(0,2,1)])))).map (fun e => (e.1, e.2.1)) =
    some (.done, .badParam) := by
  decide +kernel

/-- R302, R310: a function that is not enabled reads all ones, and an offset beyond the window does not exist. -/
theorem test_unsupported : (nx (.unsupportedRequest 9 0x10) up).hg.readData = BitVec.allOnes 64 ∧
    (match exec (.unsupportedRequest 0 0x10000) up with
     | .fault .outsideBar0 => true
     | _ => false) = true := by
  decide +kernel

/-- R250: the new object of 5,000 bytes has the size and the charge that R254 gives, and RESULT holds its handle. -/
theorem test_objCreate_charge : (((nx (.objCreate 4 0) (start up 0x0201 (F [(0,1,1),(3,1,2),(0x10,8,5000)]))).al 0).objs).map (fun e => (e.2.size, e.2.charged)) =
    [(5000, 8192)] := by
  decide +kernel

/-- R86: a stored grid table is read back by the tensor's decode; ACTION 1 restores the default grid. -/
theorem test_gridLoad_default : ((nx (.gridLoad 4) (start (withObjs up 0 [(1, { (ten 1 0 4 64 []) with t := { (ten 1 0 4 64 []).t with grid := defaultGrid.set 1 0x4C } })]) 0x0405 (F [(0,4,1),(4,1,1)]))).objD 0 1).t.grid = [] := by
  decide +kernel

/-- R464: a read of the low half latches the upper half. -/
theorem test_timestamp : let t := nx (.timestampLowRead 0) { up with clk := { up.clk with ts := 0x1122334455667788#64 } }
    t.hg.readData = 0x55667788#64 ∧ look 0 t.hg.tsLatch = some 0x11223344#32 := by
  decide +kernel

/-- R303: NumVFs follows the host's write. -/
theorem test_vfEnable : (nx (.vfEnable 16) up).dev.numVfs = 16 := by decide +kernel

/-- R491: a new value takes effect when three consecutive samples agree. -/
theorem test_feedId : let one := nx (.feedIdSample 5)
    (one (one up)).mgt.feedInEffect = 0 ∧ (one (one (one up))).mgt.feedInEffect = 5 := by decide +kernel

/-- R330: POWER_CAP sets the cap. -/
theorem test_powerCap : (nx (.powerCap (.cmd 4)) (ord up 0x0A01 (F [(0,1,0),(2,2,1200)]))).mgt.capW = 1200 := by decide +kernel

/-- An empty queue passes a nanosecond (log 4, a choice of the model). -/
theorem test_idle : (match step up with
    | .next t => t.clk.ts
    | _ => 0#64) = 5000000001#64 := by
  decide +kernel

end Sys2Proof.Tests
end

section
/-! Rules for the BAR0 window: what the settling of the attention keeps, the registers, the ring bases, a narrow doorbell. -/

namespace Sys2Proof.Machine

/-! ## Tables, allotments and conditions -/

@[simp] theorem look_put_same {α : Type} (k : Nat) (v : α) (m : List (Nat × α)) : look k (put k v m) = some v := by
  induction m with
  | nil => simp [put, look]
  | cons e r ih =>
    obtain ⟨j, w⟩ := e
    unfold put
    split
    · simp [look]
    · rename_i hj
      split
      · simp [look]
      · simpa [look, hj] using ih

theorem State.modAl_al_same (s : State) {a : Nat} (f : Allot → Allot) (h : a < s.allots.length) : (s.modAl a f).al a = f (s.al a) := by
  rw [State.modAl_al, if_pos ⟨rfl, h⟩]

/-- An update of an allotment that leaves its rings leaves every ring. -/
theorem State.modAl_queue? (s : State) (a : Nat) (f : Allot → Allot) (hf : ∀ x, (f x).queues = x.queues) (b q : Nat) :
    (s.modAl a f).queue? b q = s.queue? b q := by
  unfold State.queue?
  rw [State.modAl_al]
  split
  · rename_i h
    rw [hf, h.1]
  · rfl

theorem State.modAl_onlyAllot (s : State) (a : Nat) (f : Allot → Allot) : s.OnlyAllot (s.modAl a f) a :=
  ⟨rfl, fun _ hb => State.modAl_al_ne s f hb⟩

@[simp] theorem State.setCond_hasCond (s : State) (a : Nat) (n : CondName) (level : Nat) : (s.setCond a n level).hasCond a n = true := by
  simp [State.setCond, State.hasCond]

theorem State.setCond_hasCond_ne (s : State) (a b level : Nat) {n m : CondName} (h : m ≠ n) : (s.setCond a n level).hasCond b m = s.hasCond b m := by
  have hn : ∀ c : Cond, (!(c.allot == a && c.name == n) && (c.allot == b && c.name == m)) = (c.allot == b && c.name == m) := by
    intro c
    by_cases hm : c.name = m
    · simp [hm, h]
    · simp [hm]
  have hnew : (n == m) = false := by simpa using Ne.symm h
  simp only [State.setCond, State.hasCond, List.any_append, List.any_filter, hn, List.any_cons, List.any_nil, hnew, Bool.and_false, Bool.or_false]

@[simp] theorem State.dropCond_hasCond (s : State) (a : Nat) (n : CondName) : (s.dropCond a n).hasCond a n = false := by
  simp only [State.dropCond, State.hasCond, List.any_filter, Bool.not_and_self, List.any_eq_false]
  simp

@[simp] theorem State.setCond_al (s : State) (a : Nat) (n : CondName) (level b : Nat) : (s.setCond a n level).al b = s.al b := rfl

@[simp] theorem State.dropCond_al (s : State) (a : Nat) (n : CondName) (b : Nat) : (s.dropCond a n).al b = s.al b := rfl

@[simp] theorem State.setCond_queue? (s : State) (a : Nat) (n : CondName) (level b q : Nat) : (s.setCond a n level).queue? b q = s.queue? b q := rfl

@[simp] theorem State.dropCond_queue? (s : State) (a : Nat) (n : CondName) (b q : Nat) : (s.dropCond a n).queue? b q = s.queue? b q := rfl

/-! ## The attention settles: the conditions but for the trace condition, and every allotment, stand -/

@[simp] theorem State.traceAt_conds (s : State) (h typ : Nat) (a : Option Nat) (acc data : Nat) :
    (s.traceAt h typ a acc data).conds = s.conds := by
  unfold State.traceAt
  split <;> rfl

theorem foldl_conds {α : Type} (f : State → α → State) (h : ∀ s x, (f s x).conds = s.conds) (l : List α) (s : State) :
    (l.foldl f s).conds = s.conds := by
  induction l generalizing s with
  | nil => rfl
  | cons x r ih => exact (ih _).trans (h s x)

@[simp] theorem State.attend_conds (s : State) : s.attend.conds = s.conds := by
  unfold State.attend
  refine (foldl_conds _ (fun u a => ?_) _ _).trans rfl
  dsimp only
  split
  · rfl
  · exact State.traceAt_conds _ _ _ _ _ _

@[simp] theorem State.attend_hasCond (s : State) (a : Nat) (n : CondName) : s.attend.hasCond a n = s.hasCond a n := by
  simp [State.hasCond]

theorem State.fire_hasCond (s : State) (causes src a : Nat) {n : CondName} (h : n ≠ .trace) : (s.fire causes src).hasCond a n = s.hasCond a n := by
  unfold State.fire
  split
  · exact State.setCond_hasCond_ne _ _ _ _ h
  · rfl

/-- A trigger that fires sets the counter/trace condition (R462); no other condition changes. -/
theorem State.settle_hasCond (s : State) (a : Nat) {n : CondName} (h : n ≠ .trace) : s.settle.hasCond a n = s.hasCond a n := by
  unfold State.settle State.settleWith
  dsimp only
  split
  · exact State.attend_hasCond s a n
  · rw [State.attend_hasCond, State.fire_hasCond _ _ _ _ h, State.attend_hasCond]

@[simp] theorem State.settle_al (s : State) (a : Nat) : s.settle.al a = s.al a := by simp [State.al]

@[simp] theorem State.settle_queue? (s : State) (a q : Nat) : s.settle.queue? a q = s.queue? a q := by simp [State.queue?]

/-! ## Doorbell errors (R312) -/

@[simp] theorem State.doorbellError_queue? (s : State) (a qid reason b q : Nat) : (s.doorbellError a qid reason).queue? b q = s.queue? b q := by
  rw [State.doorbellError, State.setCond_queue?, State.modAl_queue?]
  exact fun _ => rfl

theorem State.doorbellError_latched (s : State) {a : Nat} (qid reason : Nat) (h : a < s.allots.length) :
    s.Latched (s.doorbellError a qid reason) a qid reason := by
  unfold State.Latched State.doorbellError
  rw [State.setCond_al, State.modAl_al_same s _ h]

@[simp] theorem State.doorbellError_hasCond (s : State) (a qid reason : Nat) : (s.doorbellError a qid reason).hasCond a .doorbell = true :=
  State.setCond_hasCond _ _ _ _

/-- A doorbell error of queue qid, as the host finds it (R312): it is latched, its condition stands, and no ring has changed. -/
def State.Erred (s t : State) (a qid reason : Nat) : Prop :=
  (∀ b r, t.queue? b r = s.queue? b r) ∧ s.Latched t a qid reason ∧ t.hasCond a .doorbell = true

theorem State.doorbellError_erred (s : State) {a : Nat} (qid reason : Nat) (h : a < s.allots.length) :
    s.Erred (s.doorbellError a qid reason).settle a qid reason := by
  refine ⟨fun b r => by simp, ?_, ?_⟩
  · unfold State.Latched
    rw [State.settle_al]
    exact State.doorbellError_latched s qid reason h
  · rw [State.settle_hasCond _ _ (by decide)]
    exact State.doorbellError_hasCond s a qid reason

/-- Loading a descriptor changes the cache and the global counters alone (R301). -/
@[simp] theorem State.cacheDoorbell_allots (s : State) (a q : Nat) : (s.cacheDoorbell a q).allots = s.allots := by
  unfold State.cacheDoorbell
  dsimp only
  split <;> rfl

/-- An error that shows in the state behind the load of a descriptor shows in the state before it. -/
theorem State.Erred.of_allots {s u t : State} {a qid reason : Nat} (h : u.Erred t a qid reason) (hu : u.allots = s.allots) :
    s.Erred t a qid reason := by
  have hal : ∀ b, u.al b = s.al b := fun b => by simp [State.al, hu]
  obtain ⟨hq, hl, hc⟩ := h
  refine ⟨fun b r => (hq b r).trans ?_, ?_, hc⟩
  · simp [State.queue?, hal]
  · simpa [State.Latched, hal] using hl

theorem doorbellReason_narrow (d : Option QDesc) (v : Nat) {size : Nat} (h : size < 8) : doorbellReason d v size = 4 :=
  if_pos (.inl h)

/-- A write to DOORBELL narrower than 8 bytes is an error with reason 4, whatever queue it names. -/
theorem State.doorbell_narrow (s : State) {a size : Nat} (v : Nat) (ha : a < s.allots.length) (h : size < 8) :
    s.Erred (s.doorbell a v size) a (dbQid v) 4 := by
  unfold State.doorbell
  simp only [doorbellReason_narrow _ v h]
  split
  · exact State.doorbellError_erred s _ _ ha
  · exact (State.doorbellError_erred (s.cacheDoorbell a (dbQid v)) _ _ (by simpa using ha)).of_allots (by simp)

/-! ## Reads of the window (R310, R312) -/

theorem b2n_le_one (b : Bool) : b2n b ≤ 1 := by cases b <;> decide

theorem State.adminqCtrl_lt (s : State) (fn : Nat) : s.adminqCtrl fn < 2 ^ 32 := by
  have hb := b2n_le_one (s.al fn).adminEnable
  simp only [State.adminqCtrl]
  omega

theorem DbErr.word_eq (d : DbErr) : d.word = d.qid + d.reason * 2 ^ 16 + (if d.more then 2 ^ 31 else 0) := by
  unfold DbErr.word
  cases d.more <;> rfl

theorem State.bar0Word_dbErr (s : State) (fn : Nat) : s.bar0Word fn 6 = s.adminqCtrl fn + (s.al fn).dbErr.word * 2 ^ 32 := rfl

theorem State.bar0Read_dbErr (s : State) (fn : Nat) : s.bar0Read fn 0x34 4 = (s.al fn).dbErr.word % 2 ^ 32 := by
  have hread : s.bar0Read fn 0x34 4 = s.bar0Word fn 6 / 2 ^ 32 % 2 ^ 32 := if_neg (by decide)
  have hc := s.adminqCtrl_lt fn
  rw [hread, State.bar0Word_dbErr]
  omega

theorem State.bar0Read_timestampLow (s : State) (fn : Nat) : s.bar0Read fn 0x10 4 = s.now % 2 ^ 32 := by
  show s.now / 2 ^ 0 % 2 ^ 32 = _
  rw [Nat.pow_zero, Nat.div_one]

/-! ## Writes of the window (R13, R14, R310 to R312) -/

/-- A write of all 8 bytes of a ring base leaves nothing of the old base; bits [11:0] are RSVD (R14). -/
theorem baseWritten_whole (old : Nat) (v : W64) : baseWritten old 0 8 v.toNat = v.toNat / 4096 * 4096 := by
  have hv : v.toNat &&& (2 ^ 64 - 1) = v.toNat := by rw [Nat.and_two_pow_sub_one_eq_mod, Nat.mod_eq_of_lt v.isLt]
  show ((old &&& ((2 ^ 64 - 1) ^^^ (2 ^ 64 - 1))) ||| (v.toNat &&& (2 ^ 64 - 1))) % 2 ^ 64 / 4096 * 4096 = _
  rw [Nat.xor_self, Nat.and_zero, Nat.zero_or, hv, Nat.mod_eq_of_lt v.isLt]

/-- A request that reaches a function writes the bytes of its access at an offset of the window. -/
theorem exec_registerWrite {s : State} {fn off : Nat} (hr : s.reaches fn = true) (ho : off < 0x10000) (size : Nat) (v : W64) :
    exec (.registerWrite fn off size v) s = .next (s.bar0Write fn off size (v.toNat % 2 ^ (8 * size))) := by
  show execRegisterWrite fn off size v s = _
  rw [execRegisterWrite, if_neg (by simpa [bar0Size] using ho), if_pos hr]

theorem State.bar0Write_adminC (s : State) {fn : Nat} (v : Nat) (hf : fn < 16) (hu : (s.al fn).adminUp = false) :
    s.bar0Write fn 0x20 8 v = s.modAl fn (fun x => { x with adminC := w64 (baseWritten x.adminC.toNat 0 8 v) }) := by
  simp [State.bar0Write, Nat.not_le.mpr hf, hu]

theorem State.bar0Write_adminR (s : State) {fn : Nat} (v : Nat) (hf : fn < 16) (hu : (s.al fn).adminUp = false) :
    s.bar0Write fn 0x28 8 v = s.modAl fn (fun x => { x with adminR := w64 (baseWritten x.adminR.toNat 0 8 v) }) := by
  simp [State.bar0Write, Nat.not_le.mpr hf, hu]

/-- While ADMIN_UP is 1 the ring bases take no write (R311). -/
theorem State.bar0Write_basesStand (s : State) {fn off size : Nat} (v : Nat) (hu : (s.al fn).adminUp = true)
    (h : off + size ≤ 0x30) : s.bar0Write fn off size v = s := by
  have h3 : ¬ (off = 0x30 ∧ size = 4) := by omega
  have h4 : ¬ (off = 0x40 ∧ size = 8) := by omega
  have h5 : ¬ (0x40 ≤ off ∧ off < 0x48) := by omega
  simp [State.bar0Write, hu, h3, h4, h5]

theorem State.bar0Write_adminCtrl (s : State) {fn : Nat} (v : Nat) (hf : fn < 16) : s.bar0Write fn 0x30 4 v = s.adminCtrl fn v := by
  simp [State.bar0Write, Nat.not_le.mpr hf]

theorem State.bar0Write_doorbell (s : State) {fn : Nat} (v : Nat) (hf : fn < 16) : s.bar0Write fn 0x40 8 v = s.doorbell fn v 8 := by
  simp [State.bar0Write, Nat.not_le.mpr hf]

theorem State.bar0Write_doorbellNarrow (s : State) {fn off size : Nat} (v : Nat) (hf : fn < 16) (h1 : 0x40 ≤ off) (h2 : off < 0x48)
    (h3 : size < 8) : s.bar0Write fn off size v = s.doorbell fn (doorbellValue off size v) 4 := by
  have hc : ¬ (0x20 ≤ off ∧ off + size ≤ 0x28) := by omega
  have hr : ¬ (0x28 ≤ off ∧ off + size ≤ 0x30) := by omega
  have ha : ¬ (off = 0x30 ∧ size = 4) := by omega
  have hd : ¬ (off = 0x40 ∧ size = 8) := by omega
  rw [State.bar0Write, if_neg (Nat.not_le.mpr hf), if_neg hc, if_neg hr, if_neg ha, if_neg hd, if_pos ⟨h1, h2⟩]

/-- The offsets of read-only and reserved registers, and every offset of the monitor function, take no write (R13, R14). -/
theorem State.bar0Write_readOnly (s : State) {fn off size : Nat} (v : Nat)
    (h : (off < 0x20 ∧ off + size ≤ 0x20) ∨ (0x34 ≤ off ∧ off < 0x40 ∧ off + size ≤ 0x40) ∨ 0x48 ≤ off ∨ 16 ≤ fn) :
    s.bar0Write fn off size v = s := by
  unfold State.bar0Write
  by_cases hf : 16 ≤ fn
  · rw [if_pos hf]
  · have hc : ¬ (0x20 ≤ off ∧ off + size ≤ 0x28) := by omega
    have hr : ¬ (0x28 ≤ off ∧ off + size ≤ 0x30) := by omega
    have ha : ¬ (off = 0x30 ∧ size = 4) := by omega
    have hd : ¬ (off = 0x40 ∧ size = 8) := by omega
    have hn : ¬ (0x40 ≤ off ∧ off < 0x48) := by omega
    rw [if_neg hf, if_neg hc, if_neg hr, if_neg ha, if_neg hd, if_neg hn]

/-! ## The rows of the window -/

/-- DOORBELL_ERR and its level-1 condition are cleared (R305, R312). -/
def State.clearDbErr (s : State) (fn : Nat) : State := (s.modAl fn (fun x => { x with dbErr := {} })).dropCond fn .doorbell

theorem State.clearDbErr_dbErr (s : State) {fn : Nat} (h : fn < s.allots.length) : ((s.clearDbErr fn).al fn).dbErr = {} := by
  rw [State.clearDbErr, State.dropCond_al, State.modAl_al_same s _ h]

theorem State.clearDbErr_hasCond (s : State) (fn : Nat) : (s.clearDbErr fn).hasCond fn .doorbell = false := State.dropCond_hasCond _ _ _

theorem State.clearDbErr_queue? (s : State) (fn b q : Nat) : (s.clearDbErr fn).queue? b q = s.queue? b q := by
  rw [State.clearDbErr, State.dropCond_queue?, State.modAl_queue?]
  exact fun _ => rfl

/-- A read of the host returns v. -/
def State.answer (s : State) (v : W64) : State := { s with hg := { s.hg with readData := v } }

/-- A read of DOORBELL_ERR returns the register, and clears it. -/
theorem exec_doorbellErr {s : State} {fn : Nat} (hr : s.reaches fn = true) (hf : fn < 16) :
    exec (.doorbellErr fn) s = .next ((s.clearDbErr fn).answer (w64 ((s.al fn).dbErr.word % 2 ^ 32))).settle := by
  rw [← State.bar0Read_dbErr]
  exact if_pos ⟨hr, hf⟩

/-- The settling keeps what the read has cleared and answered. -/
theorem State.clearDbErr_settled (s : State) {fn : Nat} (v : W64) (h : fn < s.allots.length) :
    let t := ((s.clearDbErr fn).answer v).settle
    t.hg.readData = v ∧ (t.al fn).dbErr = {} ∧ t.hasCond fn .doorbell = false ∧ (∀ b q, t.queue? b q = s.queue? b q) ∧
      t.hg.cmds = s.hg.cmds ∧ t.host = s.host := by
  refine ⟨?_, ?_, ?_, fun b q => ?_, ?_, ?_⟩
  · rw [State.settle_hg]; rfl
  · rw [State.settle_al]; exact s.clearDbErr_dbErr h
  · rw [State.settle_hasCond _ _ (by decide)]; exact s.clearDbErr_hasCond fn
  · rw [State.settle_queue?]; exact s.clearDbErr_queue? fn b q
  · rw [State.settle_hg]; rfl
  · rw [State.settle_host]; rfl

/-- A 4-byte read of TIMESTAMP returns the low half and latches the upper half for the function. -/
theorem exec_timestampLowRead {s : State} {fn : Nat} (hr : s.reaches fn = true) (hf : fn ≤ 16) :
    exec (.timestampLowRead fn) s =
      .next { s with hg := { s.hg with readData := w64 (s.now % 2 ^ 32), tsLatch := put fn (w32 (s.now / 2 ^ 32)) s.hg.tsLatch } } := by
  show execTimestampLowRead fn s = _
  rw [execTimestampLowRead, if_pos ⟨hr, hf⟩, State.bar0Read_timestampLow]

theorem State.fnUp_disabled {s : State} {fn : Nat} (h0 : fn ≠ 0) (h : s.dev.vfEnable = false ∨ s.dev.numVfs < fn) : s.fnUp fn = false := by
  rcases h with h | h
  · simp [State.fnUp, h0, h]
  · simp [State.fnUp, h0, Nat.not_le.mpr h]

theorem exec_unsupportedRequest {s : State} {fn off : Nat} (ho : off < 0x10000) (hl : s.dev.linkUp = true) (hf : s.fnUp fn = false) :
    exec (.unsupportedRequest fn off) s = .next { s with hg := { s.hg with readData := BitVec.allOnes 64 } } := by
  show execUnsupportedRequest fn off s = _
  rw [execUnsupportedRequest, if_neg (by simpa [bar0Size] using ho), if_pos ⟨hl, hf⟩]
  rfl

/-- An offset behind the window does not exist (R310). -/
theorem exec_outsideWindow (s : State) (fn size : Nat) (v : W64) {off : Nat} (h : 0x10000 ≤ off) :
    exec (.registerWrite fn off size v) s = .fault .outsideBar0 ∧ exec (.unsupportedRequest fn off) s = .fault .outsideBar0 :=
  ⟨if_pos h, if_pos h⟩

/-- A write of 8 bytes to ADMINQ_CBASE sets the base. -/
theorem exec_registerWrite_adminC {s : State} {fn : Nat} (v : W64) (hr : s.reaches fn = true) (hf : fn < 16)
    (hu : (s.al fn).adminUp = false) :
    exec (.registerWrite fn 0x20 8 v) s = .next (s.modAl fn (fun x => { x with adminC := w64 (v.toNat / 4096 * 4096) })) := by
  rw [exec_registerWrite hr (by decide), State.bar0Write_adminC s _ hf hu, Nat.mod_eq_of_lt v.isLt]
  simp only [baseWritten_whole]

/-- A write of 8 bytes to ADMINQ_RBASE sets the base. -/
theorem exec_registerWrite_adminR {s : State} {fn : Nat} (v : W64) (hr : s.reaches fn = true) (hf : fn < 16)
    (hu : (s.al fn).adminUp = false) :
    exec (.registerWrite fn 0x28 8 v) s = .next (s.modAl fn (fun x => { x with adminR := w64 (v.toNat / 4096 * 4096) })) := by
  rw [exec_registerWrite hr (by decide), State.bar0Write_adminR s _ hf hu, Nat.mod_eq_of_lt v.isLt]
  simp only [baseWritten_whole]

/-- A write of ADMINQ_CTRL is the row that ENABLE names (R311). -/
theorem exec_registerWrite_adminCtrl {s : State} {fn : Nat} (v : W64) (hr : s.reaches fn = true) (hf : fn < 16) :
    exec (.registerWrite fn 0x30 4 v) s =
      exec (if v.getLsbD 16 then .adminqEnable fn (BitVec.setWidth 32 v) else .adminqDisable fn (BitVec.setWidth 32 v)) s := by
  have hw : (BitVec.setWidth 32 v).toNat = v.toNat % 2 ^ 32 := BitVec.toNat_setWidth 32 v
  have hb : bitOf (BitVec.setWidth 32 v).toNat 16 = v.getLsbD 16 := by
    show (BitVec.setWidth 32 v).getLsbD 16 = _
    simp
  rw [exec_registerWrite hr (by decide), State.bar0Write_adminCtrl s _ hf, show 8 * 4 = 32 from rfl, ← hw]
  cases h : v.getLsbD 16 with
  | true => exact (if_pos ⟨hr, hf, hb.trans h⟩).symm
  | false => exact (if_pos ⟨hr, hf, hb.trans h⟩).symm

/-- A write of 8 bytes to DOORBELL is the row that KIND names; no host store comes with it. -/
theorem exec_registerWrite_doorbell {s : State} {fn : Nat} (v : W64) (hr : s.reaches fn = true) (hf : fn < 16) :
    exec (.registerWrite fn 0x40 8 v) s = exec (if dbKind v.toNat then .doorbellReplyRead fn v 8 else .doorbellCommandWrite fn v 8 {}) s := by
  rw [exec_registerWrite hr (by decide), State.bar0Write_doorbell s _ hf, Nat.mod_eq_of_lt v.isLt]
  cases h : dbKind v.toNat with
  | true => exact (if_pos ⟨hr, hf, h⟩).symm
  | false => exact (if_pos ⟨hr, hf, h⟩).symm

/-- A write that holds bytes of DOORBELL and is narrower than 8 bytes records reason 4 (R312). -/
theorem exec_registerWrite_doorbellNarrow {s : State} {fn off size : Nat} (v : W64) (hr : s.reaches fn = true) (hf : fn < 16)
    (hl : s.allots.length = 16) (h1 : 0x40 ≤ off) (h2 : off < 0x48) (h3 : size < 8) :
    ∃ t q, exec (.registerWrite fn off size v) s = .next t ∧ s.Erred t fn q 4 := by
  have hw := exec_registerWrite (off := off) hr (by omega) size v
  rw [State.bar0Write_doorbellNarrow s _ hf h1 h2 h3] at hw
  exact ⟨_, _, hw, State.doorbell_narrow s _ (hl ▸ hf) (by decide)⟩

/-- Settles O16, each clause by the equation of its row, or of the write at its offsets. -/
theorem window : Obligations.Window := by
  refine ⟨?_, ?_, ?_, ?_, ?_, ?_, ?_, ?_, ?_, ?_, ?_⟩
  · intro s fn hr hf hl
    rw [← DbErr.word_eq]
    exact ⟨_, exec_doorbellErr hr hf, s.clearDbErr_settled _ (hl ▸ hf)⟩
  · exact fun s fn hr hf => ⟨_, exec_timestampLowRead hr hf, rfl, look_put_same _ _ _, rfl⟩
  · exact fun s fn off ho hl h0 hd => ⟨_, exec_unsupportedRequest ho hl (State.fnUp_disabled h0 hd), rfl, rfl⟩
  · exact fun s fn off size v ho => exec_outsideWindow s fn size v ho
  · intro s fn v hr hf hl hu
    have hal := State.modAl_al_same s (fun x => { x with adminC := w64 (v.toNat / 4096 * 4096) }) (hl ▸ hf)
    exact ⟨_, exec_registerWrite_adminC v hr hf hu, by rw [hal], by rw [hal], State.modAl_onlyAllot _ _ _⟩
  · intro s fn v hr hf hl hu
    have hal := State.modAl_al_same s (fun x => { x with adminR := w64 (v.toNat / 4096 * 4096) }) (hl ▸ hf)
    exact ⟨_, exec_registerWrite_adminR v hr hf hu, by rw [hal], by rw [hal], State.modAl_onlyAllot _ _ _⟩
  · intro s fn off size v hr hu h1 h2
    rw [exec_registerWrite hr (by omega), State.bar0Write_basesStand s _ hu h2]
  · intro s fn off size v hr ho h
    rw [exec_registerWrite hr ho, State.bar0Write_readOnly s _ h]
  · exact fun s fn v hr hf => exec_registerWrite_adminCtrl v hr hf
  · exact fun s fn v hr hf => exec_registerWrite_doorbell v hr hf
  · exact fun s fn off size v hr hf hl h1 h2 h3 => exec_registerWrite_doorbellNarrow v hr hf hl h1 h2 h3

end Sys2Proof.Machine
end

section
/-! The module before power-on: its allotments, its hearths and the values that reset leaves (log 2, log 3). -/

namespace Sys2Proof.Machine

/-- Every allotment has its default values before power-on. -/
@[simp] theorem State.reset_al (a : Nat) : State.reset.al a = {} := by
  simp only [State.al, State.reset, List.getD_eq_getElem?_getD, List.getElem?_replicate]
  split <;> rfl

/-- Both hearths have their default values before power-on. -/
@[simp] theorem State.reset_he (h : Nat) : State.reset.he h = {} := by
  simp only [State.he, State.reset, List.getD_eq_getElem?_getD, List.getElem?_replicate]
  split <;> rfl

theorem State.reset_sized : State.reset.Sized := ⟨List.length_replicate, List.length_replicate, List.length_replicate⟩

/-- Settles O58: each allotment and each hearth has the values of its type's defaults, and the other fields stand in State.reset. -/
theorem resetValues : Obligations.ResetValues := by
  refine ⟨State.reset_sized, rfl, rfl, rfl, rfl, rfl, rfl, fun a _ => ?_, fun h _ => ?_, rfl, rfl, rfl, rfl⟩
  · rw [State.reset_al]
    exact ⟨rfl, rfl, rfl, rfl, rfl, rfl⟩
  · rw [State.reset_he]
    exact ⟨rfl, rfl, List.length_replicate, List.length_replicate⟩

end Sys2Proof.Machine
end

section
/-! Rules for orders of the management controller that are executed at once, for the ports and their keys, and for conditions of every
allotment. -/

namespace Sys2Proof.Machine

/-! ## Orders of a master without a command (R23, R332) -/

/-- The state in which an order of a master without a command is executed: the order stands among the commands. -/
def State.withOrder (s : State) (c : Cmd) : State :=
  { s with hg := { s.hg with cmds := s.hg.cmds ++ [c], nextId := s.hg.nextId + 1 } }

/-- An order of the management controller is executed at once when none waits, unless it is a reset (R338). -/
theorem State.lone_mgmt {s : State} {op : Nat} (p : Nat) (body : State → Cmd → State) (hs : s.dev.standby = true)
    (hr : s.mgt.restarting = false) (ho : s.AtOnce op) (hw : s.resetWaits (s.mgmtCmd op p) = false) :
    s.lone .mgmt op p body = body (s.withOrder (s.mgmtCmd op p)) (s.mgmtCmd op p) := by
  have hup : ¬ (Master.mgmt = .mgmt ∧ s.mgmtUp = false) := by simp [State.mgmtUp, hs, hr]
  exact (if_neg hup).trans (if_pos ⟨ho.1, ho.2, hw⟩)

/-- Only a reset waits for orders at work (R338). -/
theorem State.resetWaits_of_opcode (s : State) {c : Cmd} (hd : c.opcode ≠ 0x0A41)
    (ho : [0x0A40, 0x0111, 0xF006, 0xF007].contains c.opcode = false) : s.resetWaits c = false := by
  simp only [State.resetWaits, hd, ho, if_false, Bool.false_and, Bool.and_false, List.any_eq_false]
  simp

theorem State.mgmtCmd_par (s : State) (op p off size : Nat) : (s.mgmtCmd op p).par off size = fieldOf p off size := rfl

theorem fieldOf_first (p size : Nat) : fieldOf p 0 size = p % 2 ^ (8 * size) := rfl

/-! ## Ports -/

/-- Reading a port behind an update of a port. -/
theorem State.modPort_port (s : State) (p q : Nat) (f : Port → Port) :
    (s.modPort p f).port q = if p = q ∧ p < s.fab.ports.length then f (s.port p) else s.port q := by
  simp only [State.modPort, State.port, modAt, List.getD_eq_getElem?_getD, List.getElem?_modify]
  by_cases h : p = q
  · subst h
    by_cases h2 : p < s.fab.ports.length <;> simp [h2]
  · simp [h]

theorem State.modPort_port_same (s : State) {p : Nat} (f : Port → Port) (h : p < s.fab.ports.length) :
    (s.modPort p f).port p = f (s.port p) := by
  rw [State.modPort_port, if_pos ⟨rfl, h⟩]

theorem State.modPort_portsStand (s : State) (p : Nat) (f : Port → Port) : s.PortsStand (s.modPort p f) p := by
  intro q hq
  rw [State.modPort_port, if_neg (fun h => hq h.1.symm)]

@[simp] theorem State.withOrder_port (s : State) (c : Cmd) (p : Nat) : (s.withOrder c).port p = s.port p := rfl

/-! ## Keys (R24, R346) -/

theorem keyParams_port (dir key : Nat) {p : Nat} (h : p < 24) : fieldOf (keyParams p dir key) 0 1 = p := by
  simp only [fieldOf_first, keyParams]; omega

theorem keyParams_dir (p key : Nat) {dir : Nat} (h : dir < 2) : fieldOf (keyParams p dir key) 1 1 = dir := by
  simp only [fieldOf, keyParams, Nat.shiftRight_eq_div_pow]; omega

theorem keyParams_key (p dir key : Nat) : keyParams p dir key / 65536 = key := by
  simp only [keyParams]; omega

theorem State.keyOrder_notWaiting (s : State) (p : Nat) : s.resetWaits (s.mgmtCmd opKeys p) = false :=
  s.resetWaits_of_opcode (by decide : opKeys ≠ 0x0A41) (by decide : [0x0A40, 0x0111, 0xF006, 0xF007].contains opKeys = false)

/-- The state with a key in the cipher of port p, and the order that brought it complete. -/
def State.keyTaken (s : State) (p dir key : Nat) : State :=
  ((s.withOrder (s.mgmtCmd opKeys (keyParams p dir key))).modPort p (fun x => x.setKey dir key s.now)).finishOk s.hg.nextId 0

section
variable {s : State} {p : Nat} (hs : s.dev.standby = true) (hr : s.mgt.restarting = false) (ho : s.AtOnce opKeys) (hp : p < 24)
include hs hr ho hp

/-- A key crosses at once to the cipher of a bound long-reach port. -/
theorem State.lone_key (key : Nat) {dir : Nat} (hd : dir < 2) (hb : (s.port p).bound = true) (hm : (s.port p).mode = .longReach) :
    s.lone .mgmt opKeys (keyParams p dir key) State.keyOrder = s.keyTaken p dir key := by
  rw [State.lone_mgmt _ _ hs hr ho (s.keyOrder_notWaiting _)]
  have hl : (s.port p).isLong = true := by simp [Port.isLong, hm]
  simp only [State.keyOrder, State.mgmtCmd_par, keyParams_port _ _ hp, keyParams_dir _ _ hd, State.withOrder_port, hb, hl, Bool.and_self, if_true]
  simp only [State.mgmtCmd, keyParams_key]
  rfl

/-- A port that is not bound takes no key. -/
theorem State.lone_key_unbound (dir key : Nat) (hb : (s.port p).bound = false) :
    (s.lone .mgmt opKeys (keyParams p dir key) State.keyOrder).fab = s.fab := by
  rw [State.lone_mgmt _ _ hs hr ho (s.keyOrder_notWaiting _)]
  simp only [State.keyOrder, State.mgmtCmd_par, keyParams_port _ _ hp, State.withOrder_port, hb, Bool.false_and]
  rfl
end

theorem State.keyTaken_portsStand (s : State) (p dir key : Nat) : s.PortsStand (s.keyTaken p dir key) p :=
  (s.withOrder _).modPort_portsStand p _

theorem State.keyTaken_port (s : State) {p : Nat} (dir key : Nat) (h : p < s.fab.ports.length) :
    (s.keyTaken p dir key).port p = (s.port p).setKey dir key s.now :=
  (s.withOrder _).modPort_port_same _ h

/-! ## Time passes (R465) -/

@[simp] theorem State.passTo_hg (s : State) (t : Nat) : (s.passTo t).hg = s.hg := by unfold State.passTo; split <;> rfl
@[simp] theorem State.passTo_hearths (s : State) (t : Nat) : (s.passTo t).hearths = s.hearths := by unfold State.passTo; split <;> rfl
@[simp] theorem State.passTo_flt (s : State) (t : Nat) : (s.passTo t).flt = s.flt := by unfold State.passTo; split <;> rfl
@[simp] theorem State.passTo_mgt (s : State) (t : Nat) : (s.passTo t).mgt = s.mgt := by unfold State.passTo; split <;> rfl
@[simp] theorem State.passTo_fab (s : State) (t : Nat) : (s.passTo t).fab = s.fab := by unfold State.passTo; split <;> rfl

theorem State.passTo_clock (s : State) (t : Nat) : ∃ ts, s.passTo t = { s with clk := { s.clk with ts := ts } } := by
  unfold State.passTo
  split
  · exact ⟨_, rfl⟩
  · exact ⟨s.clk.ts, rfl⟩

/-- A rotation waits for its 24 hours or its 2^40 invocations, and then installs the next key (R346). -/
theorem exec_keyRotation {s : State} {p secret : Nat} (hb : (s.port p).bound = true) (hm : (s.port p).mode = .longReach)
    (hk : (s.port p).keyed = true) : ∃ ts, exec (.keyRotation p 0 secret) s =
      .next (({ s with clk := { s.clk with ts := ts } } : State).lone .mgmt opKeys (keyParams p 0 (Config.portKey secret p 0)) State.keyOrder) := by
  have hl : (s.port p).isLong = true := by simp [Port.isLong, hm]
  show ∃ ts, execKeyRotation p 0 secret s = _
  simp only [execKeyRotation, hb, hl, hk, Bool.and_self, Bool.not_true, Bool.false_eq_true, if_false, if_true]
  split
  · exact ⟨s.clk.ts, rfl⟩
  · obtain ⟨ts, h⟩ := s.passTo_clock ((s.port p).keyTime + 24 * 3600 * 1000000000)
    exact ⟨ts, by rw [h]⟩

/-! ## Conditions of every allotment (R305) -/

theorem State.setCond_hasCond_mono (s : State) (a b level : Nat) {n m : CondName} (h : s.hasCond b m = true) :
    (s.setCond a n level).hasCond b m = true := by
  by_cases hab : b = a ∧ m = n
  · obtain ⟨rfl, rfl⟩ := hab
    exact State.setCond_hasCond _ _ _ _
  · simp only [State.hasCond, List.any_eq_true, Bool.and_eq_true, beq_iff_eq] at h
    obtain ⟨c, hc, hb, hm⟩ := h
    have hk : ¬ (c.allot = a ∧ c.name = n) := by rwa [hb, hm]
    simp only [State.setCond, State.hasCond, List.any_append, List.any_filter, Bool.or_eq_true, List.any_eq_true]
    refine .inl ⟨c, hc, ?_⟩
    have hother : (c.allot == a && c.name == n) = false := by
      rw [Bool.eq_false_iff, ne_eq, Bool.and_eq_true, beq_iff_eq, beq_iff_eq]
      exact hk
    have hthis : (c.allot == b && c.name == m) = true := by
      rw [Bool.and_eq_true, beq_iff_eq, beq_iff_eq]
      exact ⟨hb, hm⟩
    rw [hother, hthis]
    rfl

/-- A condition that is set on every allotment stands on each. -/
theorem State.setCondAll_hasCond (s : State) (n : CondName) (level : Nat) {a : Nat} (h : a < 16) : (s.setCondAll n level).hasCond a n = true := by
  have hset : ∀ (l : List Nat) (t : State), (a ∈ l ∨ t.hasCond a n = true) → (l.foldl (fun t b => t.setCond b n level) t).hasCond a n = true := by
    intro l
    induction l with
    | nil => simp
    | cons b l ih =>
      intro t ht
      refine ih _ ?_
      rcases ht with ht | ht
      · rcases List.mem_cons.mp ht with rfl | hl
        · exact .inr (State.setCond_hasCond _ _ _ _)
        · exact .inl hl
      · exact .inr (State.setCond_hasCond_mono _ _ _ _ ht)
  exact hset allotNumbers s (.inl (List.mem_range.mpr h))

/-- Setting a condition on every allotment changes conditions alone. -/
theorem State.setCondAll_eq (s : State) (n : CondName) (level : Nat) : ∃ cs, s.setCondAll n level = { s with conds := cs } :=
  List.foldlRecOn (motive := fun t : State => ∃ cs, t = { s with conds := cs }) allotNumbers _ ⟨s.conds, rfl⟩
    (fun t ⟨cs, h⟩ a _ => ⟨(t.setCond a n level).conds, by rw [h]; rfl⟩)

@[simp] theorem State.setCondAll_clk (s : State) (n : CondName) (level : Nat) : (s.setCondAll n level).clk = s.clk := by
  obtain ⟨cs, h⟩ := s.setCondAll_eq n level
  rw [h]

@[simp] theorem State.setCondAll_hg (s : State) (n : CondName) (level : Nat) : (s.setCondAll n level).hg = s.hg := by
  obtain ⟨cs, h⟩ := s.setCondAll_eq n level
  rw [h]

@[simp] theorem State.setCondAll_hearths (s : State) (n : CondName) (level : Nat) : (s.setCondAll n level).hearths = s.hearths := by
  obtain ⟨cs, h⟩ := s.setCondAll_eq n level
  rw [h]

@[simp] theorem State.setCondAll_fab (s : State) (n : CondName) (level : Nat) : (s.setCondAll n level).fab = s.fab := by
  obtain ⟨cs, h⟩ := s.setCondAll_eq n level
  rw [h]

@[simp] theorem State.setCondAll_pair (s : State) (n : CondName) (level : Nat) : (s.setCondAll n level).pair = s.pair := by
  obtain ⟨cs, h⟩ := s.setCondAll_eq n level
  rw [h]

@[simp] theorem State.setCondAll_flt (s : State) (n : CondName) (level : Nat) : (s.setCondAll n level).flt = s.flt := by
  obtain ⟨cs, h⟩ := s.setCondAll_eq n level
  rw [h]

@[simp] theorem State.setCondAll_mgt (s : State) (n : CondName) (level : Nat) : (s.setCondAll n level).mgt = s.mgt := by
  obtain ⟨cs, h⟩ := s.setCondAll_eq n level
  rw [h]

/-! ## Brown-outs of both sides (R375) -/

/-- The pair after the partner's log has come, with the new marks. -/
def Pair.exchanged (p : Pair) (log : List BrownOut) (all : List Nat) (marks : Bool) : Pair :=
  { p with partnerLog := log, correlated := all, suspectFeed := p.suspectFeed || marks }

theorem exec_brownOutLogExchange_unbound {s : State} (log : List BrownOut) (h : s.pair.bound = false) :
    exec (.brownOutLogExchange log) s = .next s :=
  if_neg (by simp [h])

theorem exec_brownOutLogExchange_none {s : State} {log : List BrownOut} (h : s.pair.bound = true) (hc : s.correlates log = []) :
    exec (.brownOutLogExchange log) s =
      .next ({ s with pair := s.pair.exchanged log (sortN s.pair.correlated) false } : State).settle := by
  show execBrownOutLogExchange log s = _
  simp only [execBrownOutLogExchange, if_pos h, hc, List.append_nil, List.filter_nil, List.any_nil]
  rfl

/-- Two correlated events within 30 days mark the pair. -/
theorem exec_brownOutLogExchange_two {s : State} {log : List BrownOut} {a b : Nat} (h : s.pair.bound = true) (h0 : s.pair.correlated = [])
    (hc : s.correlates log = [a, b]) (hab : a < b) (hd : b - a ≤ 30 * 86400 * 1000000000) :
    exec (.brownOutLogExchange log) s =
      .next ((({ s with pair := s.pair.exchanged log [a, b] true } : State).setCondAll .suspectFeed 1).settle) := by
  have hsort : sortN [a, b] = [a, b] := by simp [sortN, insertN, Nat.ne_of_gt hab, Nat.not_lt_of_gt hab]
  have hmax : max a b - min a b ≤ 30 * 86400 * 1000000000 := by omega
  have hnew : [a, b].filter (fun t => !List.contains [] t) = [a, b] := rfl
  have hmark : [a, b].any (fun t => [a, b].any (fun u => u != t && decide (max t u - min t u ≤ 30 * 86400 * 1000000000))) = true :=
    List.any_eq_true.mpr ⟨a, by simp, List.any_eq_true.mpr ⟨b, by simp, by simpa [Nat.ne_of_gt hab] using hmax⟩⟩
  show execBrownOutLogExchange log s = _
  simp only [execBrownOutLogExchange, if_pos h, h0, hc, List.nil_append, hsort, hnew, hmark, if_true]
  rfl

/-- Settles O40: a key by what the order leaves in its port, the exchange by its marks. -/
theorem portKeys : Obligations.PortKeys := by
  refine ⟨?_, ?_, ?_, ?_, ?_, ?_, fun s log h => exec_brownOutLogExchange_unbound log h⟩
  · intro s p key hs hr ho hp hn hb hm
    refine ⟨s.keyTaken p 0 key, congrArg _ (State.lone_key hs hr ho hp key (by decide) hb hm), s.keyTaken_portsStand p 0 key, ?_⟩
    exact s.keyTaken_port 0 key (hn ▸ hp)
  · intro s p key hs hr ho hp hn hb hm
    refine ⟨s.keyTaken p 1 key, congrArg _ (State.lone_key hs hr ho hp key (by decide) hb hm), s.keyTaken_portsStand p 1 key, ?_⟩
    exact s.keyTaken_port 1 key (hn ▸ hp)
  · intro s p secret hs hr ho hp hn hb hm hk
    obtain ⟨ts, he⟩ := exec_keyRotation (secret := secret) hb hm hk
    let u : State := { s with clk := { s.clk with ts := ts } }
    have hl : u.lone .mgmt opKeys (keyParams p 0 (Config.portKey secret p 0)) State.keyOrder = u.keyTaken p 0 (Config.portKey secret p 0) :=
      State.lone_key (s := u) hs hr ho hp _ (by decide) hb hm
    have ht := u.keyTaken_port 0 (Config.portKey secret p 0) (hn ▸ hp)
    refine ⟨_, he.trans (congrArg _ hl), u.keyTaken_portsStand p 0 _, ?_, ?_, ?_⟩
    · rw [ht]; rfl
    · rw [ht]; rfl
    · rw [ht]; rfl
  · exact fun s p dir key hs hr ho hp hb => ⟨_, rfl, State.lone_key_unbound hs hr ho hp dir key hb⟩
  · intro s log hb hc
    exact ⟨_, exec_brownOutLogExchange_none hb hc, by simp [Pair.exchanged], by simp, by simp [Pair.exchanged]⟩
  · intro s log a b hb h0 hc hab hd
    refine ⟨_, exec_brownOutLogExchange_two hb h0 hc hab hd, ?_⟩
    refine ⟨by simp [Pair.exchanged], by simp, by simp [Pair.exchanged], ?_⟩
    rw [State.settle_hasCond _ _ (by decide)]
    exact State.setCondAll_hasCond _ _ _ (by decide)

end Sys2Proof.Machine
end

section
/-! Rules for the power/thermal condition, the pace word and the bellows (R26, R29, R474, R475, R477). -/

namespace Sys2Proof.Machine

/-! ## The settling leaves all of a hearth but its trace ring -/

/-- Every hearth stands but for its trace ring. -/
def State.HearthsStand (s t : State) : Prop := ∀ h, { t.he h with trace := (s.he h).trace } = s.he h

theorem State.HearthsStand.refl (s : State) : s.HearthsStand s := fun _ => rfl

theorem State.HearthsStand.trans {s t u : State} (h : s.HearthsStand t) (k : t.HearthsStand u) : s.HearthsStand u := by
  intro i
  have hi := h i
  rwa [← k i] at hi

theorem State.HearthsStand.of_hearths {s t : State} (h : t.hearths = s.hearths) : s.HearthsStand t := by
  intro i
  simp [State.he, h]

theorem State.modHe_hearthsStand (s : State) (h : Nat) (f : Hearth → Hearth) (hf : ∀ x, { f x with trace := x.trace } = x) :
    s.HearthsStand (s.modHe h f) := by
  intro i
  rw [State.modHe_he]
  split
  · rename_i k
    rw [← k.1]
    exact hf _
  · rfl

theorem State.traceAt_hearthsStand (s : State) (h typ : Nat) (a : Option Nat) (acc data : Nat) : s.HearthsStand (s.traceAt h typ a acc data) := by
  unfold State.traceAt
  split
  · exact s.modHe_hearthsStand h _ (fun _ => rfl)
  · exact .refl s

theorem State.he_mapIdx (s : State) (f : Nat → Hearth → Hearth) {h : Nat} (hh : h < s.hearths.length) :
    (s.hearths.mapIdx f).getD h {} = f h (s.he h) := by
  simp [State.he, List.getD_eq_getElem?_getD, hh]

theorem State.fire_hearthsStand (s : State) (causes src : Nat) : s.HearthsStand (s.fire causes src) := by
  unfold State.fire
  split
  · intro h
    by_cases hh : h < s.hearths.length
    · dsimp only [State.setCond, State.he]
      rw [State.he_mapIdx s _ hh]
      rfl
    · simp [State.setCond, State.he, List.getD_eq_getElem?_getD, List.getElem?_mapIdx, List.getElem?_eq_none (Nat.le_of_not_lt hh)]
  · exact .refl s

theorem State.attend_hearthsStand (s : State) : s.HearthsStand s.attend := by
  unfold State.attend
  refine List.foldlRecOn (motive := fun t => s.HearthsStand t) allotNumbers _ (.of_hearths rfl) (fun t ht a _ => ?_)
  dsimp only
  split
  · exact ht
  · exact ht.trans (t.traceAt_hearthsStand _ _ _ _ _)

theorem State.settleWith_hearthsStand (s : State) (causes src : Nat) : s.HearthsStand (s.settleWith causes src) := by
  unfold State.settleWith
  dsimp only
  split
  · exact s.attend_hearthsStand
  · exact (s.attend_hearthsStand.trans (State.fire_hearthsStand _ _ _)).trans (State.attend_hearthsStand _)

@[simp] theorem State.settleWith_hg (s : State) (causes src : Nat) : (s.settleWith causes src).hg = s.hg := by
  have h := congrArg State.hg (s.settleWith_same causes src)
  exact h

@[simp] theorem State.settleWith_clk (s : State) (causes src : Nat) : (s.settleWith causes src).clk = s.clk := by
  have h := congrArg State.clk (s.settleWith_same causes src)
  exact h

/-! ## The power/thermal condition (R477) -/

/-- The state in which the condition has the level n. -/
def State.powerAt (s : State) (n : Nat) : State :=
  let t : State := { s with mgt := { s.mgt with powerLimit := n } }
  (if n = 0 then t.dropCondAll .power else t.setCondAll .power n).settle

/-- The condition follows its level, or stands at it. -/
theorem State.powerCond_eq (s : State) : s.powerCond = s ∨ ∃ n, s.powerCond = s.powerAt n := by
  unfold State.powerCond
  dsimp only
  split
  · exact .inl rfl
  · exact .inr ⟨s.powerLevel, rfl⟩

@[simp] theorem State.powerAt_hg (s : State) (n : Nat) : (s.powerAt n).hg = s.hg := by unfold State.powerAt; split <;> simp
@[simp] theorem State.powerAt_clk (s : State) (n : Nat) : (s.powerAt n).clk = s.clk := by unfold State.powerAt; split <;> simp
@[simp] theorem State.powerAt_flt (s : State) (n : Nat) : (s.powerAt n).flt = s.flt := by unfold State.powerAt; split <;> simp
@[simp] theorem State.powerAt_mgt (s : State) (n : Nat) : (s.powerAt n).mgt = { s.mgt with powerLimit := n } := by
  unfold State.powerAt; split <;> simp

theorem State.powerAt_hearthsStand (s : State) (n : Nat) : s.HearthsStand (s.powerAt n) := by
  unfold State.powerAt
  refine State.HearthsStand.trans (.of_hearths ?_) (State.settleWith_hearthsStand _ 0 0)
  split <;> simp

@[simp] theorem State.powerCond_hg (s : State) : s.powerCond.hg = s.hg := by
  obtain h | ⟨n, h⟩ := s.powerCond_eq <;> simp [h]

@[simp] theorem State.powerCond_clk (s : State) : s.powerCond.clk = s.clk := by
  obtain h | ⟨n, h⟩ := s.powerCond_eq <;> simp [h]

@[simp] theorem State.powerCond_flt (s : State) : s.powerCond.flt = s.flt := by
  obtain h | ⟨n, h⟩ := s.powerCond_eq <;> simp [h]

/-- Of the management controller's state the condition changes its own level alone. -/
theorem State.powerCond_mgt (s : State) : ∃ n, s.powerCond.mgt = { s.mgt with powerLimit := n } := by
  obtain h | ⟨n, h⟩ := s.powerCond_eq
  · exact ⟨s.mgt.powerLimit, by rw [h]⟩
  · exact ⟨n, by simp [h]⟩

theorem State.powerCond_hearthsStand (s : State) : s.HearthsStand s.powerCond := by
  obtain h | ⟨n, h⟩ := s.powerCond_eq
  · rw [h]; exact .refl s
  · rw [h]; exact s.powerAt_hearthsStand n

/-! ## POWER_CAP (R474) -/

@[simp] theorem State.taken_cmd? (s : State) (id : Nat) (c : Cmd) (j : Nat) : (s.taken id c).cmd? j = s.cmd? j := by simp [State.taken]

@[simp] theorem State.taken_mgt (s : State) (id : Nat) (c : Cmd) : (s.taken id c).mgt = s.mgt := by
  have h := congrArg State.mgt ((s.takeOrder id).named_same c).1
  exact h

@[simp] theorem State.taken_capRange (s : State) (id : Nat) (c : Cmd) : (s.taken id c).capRange = s.capRange := by
  have h := congrArg State.capRange ((s.takeOrder id).named_same c).1
  exact h

@[simp] theorem State.taken_capResult (s : State) (id : Nat) (c : Cmd) : (s.taken id c).capResult = s.capResult := by
  have h := congrArg State.capResult ((s.takeOrder id).named_same c).1
  exact h

theorem State.finish_onlyCmds (s : State) (id : Nat) (code : Code) (detail : W32) (result : W128) :
    s.OnlyCmds (s.finish id code detail result) := rfl

theorem exec_powerCap {s : State} {id : Nat} {c : Cmd} (h : s.OrderRuns id 0x0A01 powerCapFields c) :
    exec (.powerCap (.cmd id)) s = .next ((s.taken id c).powerCap c) :=
  State.order_runs h State.powerCap

/-- ACTION 1 reads. -/
theorem State.powerCap_reads (s : State) {c : Cmd} (h : c.par 0 1 = 1) : s.powerCap c = s.finishOk c.id s.capResult := if_pos h

/-- ACTION 0 takes the value within the range of the part, with a note where it differs. -/
theorem State.powerCap_sets (s : State) {c : Cmd} (h : c.par 0 1 = 0) :
    let v := max s.capRange.1 (min s.capRange.2 (c.par 2 2))
    let t : State := { s with mgt := { s.mgt with capW := v } }
    s.powerCap c = t.finish c.id (if v = c.par 2 2 then .ok else .okWithNote) (if v = c.par 2 2 then 0 else 1) (w128 t.capResult) := by
  intro v t
  rw [State.powerCap, if_neg (by omega)]
  by_cases hv : v = c.par 2 2
  · rw [if_pos hv, if_pos hv, if_pos hv]
    rfl
  · rw [if_neg hv, if_neg hv, if_neg hv]

/-! ## V_TARGET and TJ_LIMIT (R23, R26, R475) -/

theorem State.mgmtCmd_par16 (s : State) (op : Nat) {v : Nat} (h : v < 65536) : (s.mgmtCmd op v).par 0 2 = v := by
  rw [State.mgmtCmd_par, fieldOf_first]
  exact Nat.mod_eq_of_lt h

theorem exec_vTarget {s : State} {v : Nat} (hs : s.dev.standby = true) (hr : s.mgt.restarting = false) (ho : s.AtOnce opVTarget) :
    exec (.vTarget v) s = .next ((s.withOrder (s.mgmtCmd opVTarget v)).vTargetOrder (s.mgmtCmd opVTarget v)) :=
  congrArg _ (State.lone_mgmt v _ hs hr ho (s.resetWaits_of_opcode (by decide : opVTarget ≠ 0x0A41)
    (by decide : [0x0A40, 0x0111, 0xF006, 0xF007].contains opVTarget = false)))

theorem exec_tjLimit {s : State} {v : Nat} (hs : s.dev.standby = true) (hr : s.mgt.restarting = false) (ho : s.AtOnce opTjLimit) :
    exec (.tjLimit v) s = .next ((s.withOrder (s.mgmtCmd opTjLimit v)).tjLimitOrder (s.mgmtCmd opTjLimit v)) :=
  congrArg _ (State.lone_mgmt v _ hs hr ho (s.resetWaits_of_opcode (by decide : opTjLimit ≠ 0x0A41)
    (by decide : [0x0A40, 0x0111, 0xF006, 0xF007].contains opTjLimit = false)))

theorem State.vTargetOrder_mgt (s : State) (c : Cmd) : ∃ n, (s.vTargetOrder c).mgt =
    { s.mgt with powerLimit := n, vTarget := if 620 ≤ c.par 0 2 ∧ c.par 0 2 ≤ 850 then c.par 0 2 else s.mgt.vTarget } := by
  unfold State.vTargetOrder
  by_cases h : 620 ≤ c.par 0 2 ∧ c.par 0 2 ≤ 850
  · obtain ⟨n, hn⟩ := State.powerCond_mgt { s with mgt := { s.mgt with vTarget := c.par 0 2 } }
    have hi : inRange 620 850 (c.par 0 2) = true := by simp [inRange, h]
    exact ⟨n, by simp only [hi, if_true, if_pos h]; exact hn⟩
  · have hi : ¬ inRange 620 850 (c.par 0 2) = true := by simpa [inRange] using h
    exact ⟨s.mgt.powerLimit, by simp only [hi, if_neg h]; rfl⟩

theorem State.tjLimitOrder_mgt (s : State) (c : Cmd) : (s.tjLimitOrder c).mgt =
    { s.mgt with tjLimit := if 85 ≤ c.par 0 2 ∧ c.par 0 2 ≤ 100 then c.par 0 2 else s.mgt.tjLimit } := by
  unfold State.tjLimitOrder
  by_cases h : 85 ≤ c.par 0 2 ∧ c.par 0 2 ≤ 100
  · have hi : inRange 85 100 (c.par 0 2) = true := by simp [inRange, h]
    simp only [hi, if_true, if_pos h]
    rfl
  · have hi : ¬ inRange 85 100 (c.par 0 2) = true := by simpa [inRange] using h
    simp only [hi, if_neg h]
    rfl

/-! ## The pace word (R29) -/

theorem satTo_eq_min (limit v : Nat) : satTo limit v = min limit v := by
  unfold satTo
  split <;> omega

theorem b2n_or_mul (b : Bool) (p : Prop) [Decidable p] (n : Nat) : b2n (b || decide p) * n = if b = true ∨ p then n else 0 := by
  by_cases h : b = true ∨ p
  · have hb : (b || decide p) = true := by simpa using h
    rw [if_pos h, hb]
    exact Nat.one_mul n
  · have hb : (b || decide p) = false := by simpa using h
    rw [if_neg h, hb]
    exact Nat.zero_mul n

theorem State.count_hg (s : State) (ev : Nat) (h a layer cmd : Option Nat) (n : Nat) : (s.count ev h a layer cmd n).hg = s.hg := by
  have k := congrArg State.hg (s.count_frame ev h a layer cmd n).1
  exact k

theorem State.count_clk (s : State) (ev : Nat) (h a layer cmd : Option Nat) (n : Nat) : (s.count ev h a layer cmd n).clk = s.clk := by
  have k := congrArg State.clk (s.count_frame ev h a layer cmd n).1
  exact k

@[simp] theorem State.traceAt_hg (s : State) (h typ : Nat) (a : Option Nat) (acc data : Nat) : (s.traceAt h typ a acc data).hg = s.hg := by
  have k := congrArg State.hg (s.traceAt_same h typ a acc data)
  exact k

@[simp] theorem State.traceAt_clk (s : State) (h typ : Nat) (a : Option Nat) (acc data : Nat) : (s.traceAt h typ a acc data).clk = s.clk := by
  have k := congrArg State.clk (s.traceAt_same h typ a acc data)
  exact k

@[simp] theorem State.tracePace_hg (s : State) (h : Nat) : (s.tracePace h).hg = s.hg := by
  unfold State.tracePace
  dsimp only
  split <;> simp

@[simp] theorem State.tracePace_clk (s : State) (h : Nat) : (s.tracePace h).clk = s.clk := by
  unfold State.tracePace
  dsimp only
  split <;> simp

/-- The window that ends writes the pace word: the means, the next sequence number, and VALID once the pace runs. -/
theorem exec_paceWindow {s : State} (m0 m1 : Nat) (h : s.dev.mainRails = true) :
    ∃ t, exec (.paceWindow m0 m1) s = .next t ∧ t.hg = s.hg ∧
      t.clk.pace = w32 (satTo 0xFFF m0 + (if (s.he 1).present then satTo 0xFFF m1 else 0) * 2 ^ 12 +
        ((bitsOf s.clk.pace.toNat 24 7 + 1) % 128) * 2 ^ 24 + b2n (s.clk.pace.toNat.testBit 31 || decide (7 ≤ s.dev.bootStep)) * 2 ^ 31) := by
  refine ⟨_, if_pos h, ?_, ?_⟩
  · simp only [State.powerCond_hg, State.settleWith_hg, State.tracePace_hg, apply_ite State.hg, State.count_hg, ite_self, State.passTo_hg]
  · simp only [State.powerCond_clk, State.settleWith_clk, State.tracePace_clk, apply_ite State.clk, State.count_clk, ite_self]

/-! ## The bellows (R475) -/

/-- V_POWER after a tick with the averages a1 and a10, and the milliseconds since it fell. -/
def State.powerAfter (s : State) (a1 a10 : Nat) : Nat × Nat := powerStep s.mgt.vPower s.mgt.sinceFall s.mgt.capW a1 a10

/-- The state that a tick leaves but for the power/thermal condition. -/
def State.ticked (s : State) (a1 a10 t0 t1 : Nat) (cooled : List Nat) : State :=
  let t := s.passTo (s.clk.lastTick + 1000000)
  { t with
    clk := { t.clk with lastTick := t.now }
    mgt := { t.mgt with vPower := (s.powerAfter a1 a10).1, sinceFall := (s.powerAfter a1 a10).2, inputW := a10 }
    flt := { t.flt with warned := t.flt.warned.filter (fun w => !cooled.contains w) }
    hearths := t.hearths.mapIdx (fun h x => x.tick t.mgt.vTarget (s.powerAfter a1 a10).1 t.mgt.tjLimit (if h = 0 then t0 else t1)) }

theorem exec_bellowsTick {s : State} (a1 a10 t0 t1 : Nat) (cooled : List Nat) (hm : s.dev.mainRails = true) (hr : s.mgt.restarting = false) :
    exec (.bellowsTick a1 a10 t0 t1 cooled) s = .next (s.ticked a1 a10 t0 t1 cooled).powerCond :=
  if_pos ⟨hm, hr⟩

section
variable (s : State) (a1 a10 t0 t1 : Nat) (cooled : List Nat)

theorem State.ticked_hg : (s.ticked a1 a10 t0 t1 cooled).hg = s.hg := by
  simp only [State.ticked, State.passTo_hg]

theorem State.ticked_mgt : (s.ticked a1 a10 t0 t1 cooled).mgt =
    { s.mgt with vPower := (s.powerAfter a1 a10).1, sinceFall := (s.powerAfter a1 a10).2, inputW := a10 } := by
  simp only [State.ticked, State.passTo_mgt]

theorem State.ticked_warned : (s.ticked a1 a10 t0 t1 cooled).flt.warned = s.flt.warned.filter (fun w => !cooled.contains w) := by
  simp only [State.ticked, State.passTo_flt]

theorem State.ticked_he {h : Nat} (hh : h < s.hearths.length) : (s.ticked a1 a10 t0 t1 cooled).he h =
    (s.he h).tick s.mgt.vTarget (s.powerAfter a1 a10).1 s.mgt.tjLimit (if h = 0 then t0 else t1) := by
  rw [State.he]
  simp only [State.ticked, State.passTo_mgt, State.passTo_hearths]
  exact State.he_mapIdx s _ hh
end

theorem powerStep_above {cap a1 : Nat} (v since a10 : Nat) (h : cap < a1) : powerStep v since cap a1 a10 = (max 620 (v - 5), 0) := if_pos h

theorem powerStep_below {cap a1 a10 since : Nat} (v : Nat) (h : a1 ≤ cap) (hl : 100 * a10 ≤ 98 * cap) (hs : 9 ≤ since) :
    (powerStep v since cap a1 a10).1 = min 850 (v + 5) := by
  rw [powerStep, if_neg (by omega), if_pos ⟨hl, by omega⟩]
  rfl

theorem powerStep_holds {cap a1 a10 since : Nat} (v : Nat) (h : a1 ≤ cap) (hl : 98 * cap < 100 * a10 ∨ since < 9) :
    (powerStep v since cap a1 a10).1 = v := by
  rw [powerStep, if_neg (by omega), if_neg (by omega)]

/-- A hearth of equal parts but its trace has the same sensor, limit and rail. -/
theorem State.HearthsStand.rail {s t : State} (h : s.HearthsStand t) (k : Nat) :
    (t.he k).tj = (s.he k).tj ∧ (t.he k).vThermal = (s.he k).vThermal ∧ (t.he k).railMv = (s.he k).railMv := by
  rw [← h k]
  exact ⟨rfl, rfl, rfl⟩

/-- Settles O52: POWER_CAP by its two actions, the limits by the orders that set them, the window and the tick by what they leave. -/
theorem powerControl : Obligations.PowerControl := by
  refine ⟨?_, ?_, ?_, fun s m0 m1 h => if_neg (by simp [h]), ?_, fun s a1 a10 t0 t1 cooled h => if_neg (by rintro ⟨hm, hr⟩; simp [hm, hr] at h)⟩
  · intro s id c h v
    have hf := h.1
    have hid : c.id = id := State.fresh?_id hf
    have hc : ((s.taken id c).cmd? id).isSome = true := by simp [State.fresh?_cmd hf]
    refine ⟨fun h1 => ?_, fun h0 => ?_⟩
    · refine ⟨_, exec_powerCap h, ?_, ?_⟩
      · rw [State.powerCap_reads _ h1, State.taken_capResult, hid]
        exact State.finish_ended hc _ _ _
      · rw [State.powerCap_reads _ h1]
        exact State.finish_onlyCmds _ _ _ _ _
    · have hv : max (s.taken id c).capRange.1 (min (s.taken id c).capRange.2 (c.par 2 2)) = v := by rw [State.taken_capRange]
      have he := (s.taken id c).powerCap_sets h0
      rw [hv, hid] at he
      refine ⟨_, (exec_powerCap h).trans (congrArg _ he), rfl, by simp, ?_⟩
      exact State.finish_ended hc _ _ _
  · intro s v hs hr hv
    refine ⟨fun ho => ?_, fun ho => ?_⟩
    · obtain ⟨n, hm⟩ := (s.withOrder (s.mgmtCmd opVTarget v)).vTargetOrder_mgt (s.mgmtCmd opVTarget v)
      rw [State.mgmtCmd_par16 _ _ hv] at hm
      exact ⟨_, exec_vTarget hs hr ho, by rw [hm]; rfl, by rw [hm]; rfl⟩
    · have hm := (s.withOrder (s.mgmtCmd opTjLimit v)).tjLimitOrder_mgt (s.mgmtCmd opTjLimit v)
      rw [State.mgmtCmd_par16 _ _ hv] at hm
      exact ⟨_, exec_tjLimit hs hr ho, hm⟩
  · intro s m0 m1 h
    obtain ⟨t, he, hh, hp⟩ := exec_paceWindow m0 m1 h
    rw [satTo_eq_min, satTo_eq_min, b2n_or_mul] at hp
    exact ⟨t, he, by rw [hh], hp⟩
  · intro s a1 a10 t0 t1 cooled hm hr
    let u := s.ticked a1 a10 t0 t1 cooled
    obtain ⟨n, hn⟩ := u.powerCond_mgt
    rw [s.ticked_mgt] at hn
    refine ⟨u.powerCond, exec_bellowsTick a1 a10 t0 t1 cooled hm hr, by rw [hn], ?_, ?_, ?_, ?_, ?_, ?_⟩
    · rw [State.powerCond_hg, s.ticked_hg]
    · intro h
      rw [hn, State.powerAfter, powerStep_above _ _ _ h]
      exact ⟨rfl, rfl⟩
    · intro h hl h9
      rw [hn]
      exact powerStep_below _ h hl h9
    · intro h hl
      rw [hn]
      exact powerStep_holds _ h hl
    · intro w
      rw [State.powerCond_flt, s.ticked_warned]
      simp
    · intro h hh
      obtain ⟨htj, hvt, hrail⟩ := u.powerCond_hearthsStand.rail h
      rw [htj, hrail, hvt, hn, s.ticked_he a1 a10 t0 t1 cooled hh]
      exact ⟨rfl, rfl, rfl⟩

end Sys2Proof.Machine
end

section
/-! What leaves the ports as they are or takes them down: sending, discarding, fencing and the collector (R342, R348, R413 to R420). -/

namespace Sys2Proof.Machine

/-! ## Ports that do not come back -/

/-- No port comes up, and none begins to train. -/
def State.PortsFall (s t : State) : Prop :=
  ∀ p, ((t.port p).up = true → (s.port p).up = true) ∧ ((t.port p).training = true → (s.port p).training = true)

/-- Port p is down: it is not up and does not train (R342). -/
def State.PortIsDown (s : State) (p : Nat) : Prop := (s.port p).up = false ∧ (s.port p).training = false

theorem State.PortsFall.refl (s : State) : s.PortsFall s := fun _ => ⟨id, id⟩

theorem State.PortsFall.trans {s t u : State} (h : s.PortsFall t) (k : t.PortsFall u) : s.PortsFall u := by
  intro p
  obtain ⟨hu, ht⟩ := h p
  obtain ⟨ku, kt⟩ := k p
  exact ⟨hu ∘ ku, ht ∘ kt⟩

theorem State.PortsFall.of_fab {s t : State} (h : t.fab = s.fab) : s.PortsFall t := by
  intro p
  simp [State.port, h]

theorem State.PortsFall.foldl {α : Type} {f : State → α → State} (h : ∀ (s : State) x, s.PortsFall (f s x)) (l : List α) (s : State) :
    s.PortsFall (l.foldl f s) :=
  List.foldlRecOn (motive := fun t => s.PortsFall t) l f (.refl s) (fun t ht x _ => ht.trans (h t x))

/-- A port that is down stays down. -/
theorem State.PortsFall.down {s t : State} (h : s.PortsFall t) {p : Nat} (hd : s.PortIsDown p) : t.PortIsDown p := by
  obtain ⟨hu, ht⟩ := h p
  obtain ⟨du, dt⟩ := hd
  exact ⟨Bool.eq_false_iff.mpr (fun k => Bool.eq_false_iff.mp du (hu k)), Bool.eq_false_iff.mpr (fun k => Bool.eq_false_iff.mp dt (ht k))⟩

theorem State.modPort_portsFall (s : State) (p : Nat) {f : Port → Port}
    (hf : ∀ x, ((f x).up = true → x.up = true) ∧ ((f x).training = true → x.training = true)) : s.PortsFall (s.modPort p f) := by
  intro q
  rw [State.modPort_port]
  split
  · rename_i h
    rw [← h.1]
    exact hf _
  · exact ⟨id, id⟩

/-! ## Frames and packets (R341, R342, R353) -/

/-- The port keeps its state of training. -/
def Port.Stands (x y : Port) : Prop := y.up = x.up ∧ y.training = x.training

theorem Port.frameOut_foldl_stands (fs : List LinkFrame) (x : Port) : x.Stands (fs.foldl Port.frameOut x) :=
  List.foldlRecOn (motive := fun y => x.Stands y) fs Port.frameOut ⟨rfl, rfl⟩ (fun _ h _ _ => h)

theorem Port.sendFrames_stands (x : Port) (vc : Nat) (bs : List Byte) : x.Stands (x.sendFrames vc bs) :=
  Port.frameOut_foldl_stands _ { x with
    replay := if x.isLong then x.replay else x.replay ++ _, txSeq := (x.txSeq + (pieces 240 bs).length) % 4096 }

theorem Port.flush_stands (l : List (Nat × List Byte)) (x : Port) : x.Stands (Port.flush l x) := by
  induction l generalizing x with
  | nil => exact ⟨rfl, rfl⟩
  | cons e r ih =>
    unfold Port.flush
    split
    · obtain ⟨hu, ht⟩ := ih (x.sendFrames e.1 e.2)
      obtain ⟨ku, kt⟩ := x.sendFrames_stands e.1 e.2
      exact ⟨hu.trans ku, ht.trans kt⟩
    · exact ⟨rfl, rfl⟩

theorem State.modPort_stands (s : State) (p : Nat) {f : Port → Port} (hf : ∀ x : Port, x.Stands (f x)) : s.PortsFall (s.modPort p f) :=
  s.modPort_portsFall p (fun x => by
    obtain ⟨hu, ht⟩ := hf x
    rw [hu, ht]
    exact ⟨id, id⟩)

/-- A packet or several leave: the fabric and the counters differ, and no port comes back. -/
def State.Sends (s t : State) : Prop := { t with fab := s.fab, allots := s.allots, glob := s.glob } = s ∧ s.PortsFall t

theorem State.Sends.refl (s : State) : s.Sends s := ⟨rfl, .refl s⟩

theorem State.Sends.trans {s t u : State} (h : s.Sends t) (k : t.Sends u) : s.Sends u := by
  obtain ⟨hs, hp⟩ := h
  obtain ⟨ks, kp⟩ := k
  refine ⟨?_, hp.trans kp⟩
  rw [← hs, ← ks]

theorem State.Sends.foldl {α : Type} {f : State → α → State} (h : ∀ (s : State) x, s.Sends (f s x)) (l : List α) (s : State) : s.Sends (l.foldl f s) :=
  List.foldlRecOn (motive := fun t => s.Sends t) l f (.refl s) (fun t ht x _ => ht.trans (h t x))

theorem State.Sends.mgt {s t : State} (h : s.Sends t) : t.mgt = s.mgt := by
  have k := congrArg State.mgt h.1
  exact k

/-- What changes the fabric but no port. -/
theorem State.Sends.of_ports {s t : State} (h : { t with fab := s.fab } = s) (hp : t.fab.ports = s.fab.ports) : s.Sends t := by
  refine ⟨?_, fun p => by simp [State.port, hp]⟩
  rw [← h]

/-- The fabric changes but no port, and packets leave. -/
theorem State.Sends.after {s t u : State} (k : t.Sends u) (h : { t with fab := s.fab } = s) (hp : t.fab.ports = s.fab.ports) : s.Sends u :=
  (State.Sends.of_ports h hp).trans k

theorem State.count_sends (s : State) (ev : Nat) (h a layer cmd : Option Nat) (n : Nat) : s.Sends (s.count ev h a layer cmd n) := by
  have hc := (s.count_frame ev h a layer cmd n).1
  have hf := congrArg State.fab hc
  refine ⟨?_, .of_fab hf⟩
  rw [← hf]
  exact hc

theorem State.emit_sends (s : State) (p peer vc : Nat) (bs : List Byte) : s.Sends (s.emit p peer vc bs) := by
  refine ⟨rfl, s.modPort_stands p (fun x => ?_)⟩
  dsimp only
  split
  · exact Port.flush_stands _ x
  · exact Port.sendFrames_stands { x with invocTx := x.invocTx + 1 } _ _
  · exact ⟨rfl, rfl⟩
  · exact ⟨rfl, rfl⟩

theorem Port.countAlive_stands (x : Port) (vc : Nat) : x.Stands (x.countAlive vc) := by
  unfold Port.countAlive
  split <;> exact ⟨rfl, rfl⟩

theorem State.putPacket_sends (s : State) (p : Nat) (x : Packet) : s.Sends (s.putPacket p x) := by
  have hc : s.Sends (s.modPort p (fun y => y.countAlive x.vc)) := ⟨rfl, s.modPort_stands p (fun y => y.countAlive_stands x.vc)⟩
  unfold State.putPacket
  exact (hc.trans (State.emit_sends _ _ _ _ _)).trans (.of_ports rfl rfl)

theorem State.modSent_sends (s : State) (x : Sent) (f : Sent → Sent) : s.Sends (s.modSent x f) := .of_ports rfl rfl

theorem State.sendNow_sends (s : State) (x : Sent) (again : Bool) : s.Sends (s.sendNow x again) := by
  unfold State.sendNow
  split
  · split
    · exact .refl s
    · have hp : ∀ q y f, s.Sends ((s.putPacket q y).modSent x f) := fun q y f => (s.putPacket_sends q y).trans (State.modSent_sends _ x f)
      dsimp only
      split
      · exact (hp _ _ _).trans (State.count_sends _ _ _ _ _ _ _)
      · refine State.Sends.trans ?_ (State.count_sends _ _ _ _ _ _ _)
        split
        · exact (hp _ _ _).trans (State.count_sends _ _ _ _ _ _ _)
        · exact hp _ _ _
  · exact .refl s

theorem State.trySend_sends (s : State) (x : Sent) : s.Sends (s.trySend x) := by
  unfold State.trySend
  split
  · split
    · exact s.sendNow_sends x false
    · exact .refl s
  · exact .refl s

theorem State.pump_sends (s : State) : s.Sends s.pump := .foldl State.trySend_sends s.fab.unacked s

theorem State.enqueue_sends (s : State) (xs : List Sent) : s.Sends (s.enqueue xs) :=
  (State.pump_sends _).after rfl rfl

theorem State.sendOn_sends (s : State) (peer stream allot far : Nat) (sig : W32) (ps : List (Nat × List Byte)) (served : Option Nat) :
    s.Sends (s.sendOn peer stream allot far sig ps served) :=
  (State.enqueue_sends _ _).after rfl rfl

theorem State.sendPair_sends (s : State) (vc own allot : Nat) (first : Bool) (ps : List (Nat × W32 × List Byte)) :
    s.Sends (s.sendPair vc own allot first ps) := by
  unfold State.sendPair
  dsimp only
  split
  · exact (State.pump_sends _).after rfl rfl
  · exact .refl s

theorem State.sendMgmt_sends (s : State) (type : Nat) (data : List Byte) : s.Sends (s.sendMgmt type data) := s.sendPair_sends _ _ _ _ _

theorem State.sendAborts_sends (s : State) (gid index reason : Nat) : s.Sends (s.sendAborts gid index reason) := by
  unfold State.sendAborts
  split
  · exact .refl s
  · exact .foldl (fun t m => t.sendOn_sends _ _ _ _ _ _ _) _ s

theorem State.skipColl_sends (s : State) (gid : Nat) (g : Group) (norm : Bool) (id : Nat) : s.Sends (s.skipColl gid g norm id) :=
  (State.sendAborts_sends _ _ _ _).after rfl rfl

theorem State.dropColl_sends (s : State) (id : Nat) : s.Sends (s.dropColl id) := by
  unfold State.dropColl
  split
  · exact (State.sendAborts_sends _ _ _ _).after rfl rfl
  · split
    · exact .refl s
    · split
      · exact .refl s
      · split
        · exact .refl s
        · split
          · exact .refl s
          · split
            · exact s.skipColl_sends _ _ _ _
            · exact s.skipColl_sends _ _ _ _
            · split
              · exact s.sendAborts_sends _ _ _
              · exact .refl s
            · exact .refl s
            · exact .refl s

/-! ## Discards, the pair and ports that go down (R307, R348, R376) -/

theorem State.dropWork_portsFall (s : State) (id : Nat) : s.PortsFall (s.dropWork id) :=
  (s.dropColl_sends id).2.trans (.of_fab rfl)

theorem State.discard_portsFall (s : State) (id : Nat) (code : Code) (source cause : Nat) : s.PortsFall (s.discard id code source cause) := by
  unfold State.discard
  split
  · split
    · exact .refl s
    · exact (s.dropWork_portsFall id).trans (.of_fab rfl)
  · exact .refl s

theorem State.quenchFail_portsFall (s : State) : s.PortsFall s.quenchFail :=
  State.PortsFall.trans (.foldl (fun t _ => t.discard_portsFall _ _ _ _) s.pair.quenchCmds s) (.of_fab rfl)

theorem State.pairPorts_portsFall (s : State) : s.PortsFall s.pairPorts := by
  have hsusp : ∀ t : State, ∀ p : Pair, t.PortsFall (({ t with pair := p } : State).setCondAll .suspended 1) :=
    fun t p => .of_fab (State.setCondAll_fab _ _ _)
  unfold State.pairPorts
  split
  · split
    · exact .refl s
    · exact hsusp s _
  · split
    · exact .refl s
    · exact hsusp s _
  · split
    · exact .of_fab rfl
    · exact .refl s
  · split
    · exact .refl s
    · refine s.quenchFail_portsFall.trans ?_
      dsimp only
      split
      · exact hsusp _ _
      · exact hsusp _ _
      all_goals exact .refl _
  all_goals exact .refl s

theorem State.portDown_portsFall (s : State) (p : Nat) : s.PortsFall (s.portDown p) :=
  (s.modPort_portsFall p (fun _ => ⟨Bool.noConfusion, Bool.noConfusion⟩)).trans (State.pairPorts_portsFall _)

theorem State.port_absent (s : State) {p : Nat} (h : s.fab.ports.length ≤ p) : s.port p = {} := by
  simp [State.port, List.getD_eq_getElem?_getD, List.getElem?_eq_none h]

/-- A port that goes down is down. -/
theorem State.portDown_down (s : State) (p : Nat) : (s.portDown p).PortIsDown p := by
  refine (State.pairPorts_portsFall _).down ?_
  unfold State.PortIsDown
  by_cases hp : p < s.fab.ports.length
  · rw [State.modPort_port_same s _ hp]
    exact ⟨rfl, rfl⟩
  · rw [State.modPort_port, if_neg (fun h => hp h.2), s.port_absent (Nat.le_of_not_lt hp)]
    exact ⟨rfl, rfl⟩

/-- Ports that go down one after the other are all down. -/
theorem State.portDown_foldl_down {l : List Nat} {p : Nat} (h : p ∈ l) (s : State) : (l.foldl (fun u q => u.portDown q) s).PortIsDown p := by
  induction l generalizing s with
  | nil => cases h
  | cons q l ih =>
    rcases List.mem_cons.mp h with rfl | hl
    · exact (State.PortsFall.foldl (fun t q => t.portDown_portsFall q) l (s.portDown p)).down (s.portDown_down p)
    · exact ih hl (s.portDown q)

/-! ## Fences (R414, R422) -/

theorem State.evacuate_fab (s : State) (h b : Nat) : (s.evacuate h b).fab = s.fab := by
  unfold State.evacuate
  refine List.foldlRecOn (motive := fun t : State => t.fab = s.fab) allotNumbers _ rfl (fun t ht a _ => ?_)
  refine List.foldlRecOn (motive := fun u : State => u.fab = s.fab) (List.range (t.al a).charges.length) _ ht (fun u hu i _ => ?_)
  split
  · split
    · split
      · exact hu
      · exact hu
    all_goals exact hu
  · exact hu

theorem State.poisonUnit_fab (s : State) (tier h unit src : Nat) : (s.poisonUnit tier h unit src).fab = s.fab := rfl

theorem State.fenceBank_fab (s : State) (h b : Nat) : (s.fenceBank h b).1.fab = s.fab := by
  unfold State.fenceBank
  dsimp only
  split
  · rfl
  · split
    · rfl
    · split
      · simp only [State.setHe_fab, State.evacuate_fab]
      · split
        · simp only [State.setHe_fab, State.evacuate_fab]
        · simp only [State.poisonUnit_fab, State.setHe_fab, State.evacuate_fab]

theorem State.fenceChannel_fab (s : State) (u : Nat) : (s.fenceChannel u).1.fab = s.fab := by
  unfold State.fenceChannel
  dsimp only
  split
  · rfl
  · split <;> rfl

theorem State.fenceUnit_portsFall (s : State) (u : Nat) : s.PortsFall (s.fenceUnit u).1 := by
  unfold State.fenceUnit
  dsimp only
  split
  · exact .of_fab rfl
  · exact .of_fab rfl
  · exact .of_fab (s.fenceBank_fab _ _)
  · exact .of_fab (s.fenceChannel_fab _)
  · exact .of_fab rfl
  · exact State.PortsFall.trans (.of_fab rfl) (State.portDown_portsFall _ _)
  · exact .of_fab rfl
  · exact .of_fab rfl
  · exact .refl s

theorem State.fenceStack_fab (s : State) (first : Nat) : (s.fenceStack first).1.fab = s.fab := by
  unfold State.fenceStack
  exact List.foldlRecOn (motive := fun a : State × Nat => a.1.fab = s.fab) (List.range 64) _ rfl
    (fun a ha c _ => (a.1.fenceChannel_fab (first + c)).trans ha)

@[simp] theorem State.journal_fab (s : State) (r : JRec) : (s.journal r).fab = s.fab := by
  unfold State.journal
  dsimp only
  split <;> rfl

@[simp] theorem State.unitFails_fab (s : State) (u reason : Nat) : (s.unitFails u reason).fab = s.fab := State.journal_fab _ _

theorem State.PortsFall.ite {s : State} {β : Type} {c : Prop} [Decidable c] {x y : State × β} (hx : s.PortsFall x.1) (hy : s.PortsFall y.1) :
    s.PortsFall (if c then x else y).1 := by
  split
  · exact hx
  · exact hy

/-- The fence of an event takes ports down at most. -/
theorem State.eventFence_portsFall (s : State) (d : Detected) (i : SrcInfo) (cls : Nat) (once : Bool) :
    s.PortsFall (s.eventFence d i cls once).1 := by
  have hfails : ∀ (t : State) u r, s.PortsFall t → s.PortsFall (t.unitFails u r) := fun t u r h => h.trans (.of_fab (t.unitFails_fab u r))
  unfold State.eventFence
  refine .ite (.refl s) (.ite (.refl s) (.ite (.refl s) (.ite ?_ (.ite ?_ ?_))))
  · dsimp only
    exact .of_fab (s.fenceStack_fab _)
  · dsimp only
    exact hfails _ _ _ (.of_fab rfl)
  · dsimp only
    split
    · exact hfails _ _ _ (s.fenceUnit_portsFall _)
    · exact s.fenceUnit_portsFall _

/-! ## The collector (R411 to R420) -/

theorem State.eventPoison_fab (s : State) (r : Raise) (i : SrcInfo) : (s.eventPoison r i).1.fab = s.fab := by
  unfold State.eventPoison
  split
  · split <;> rfl
  · rfl

theorem State.halt_portsFall (s : State) (src : Nat) : s.PortsFall (s.halt src) := by
  refine State.PortsFall.trans (.foldl (fun t c => t.discard_portsFall c.id .faultFatal src 0) s.inFlight s) (.of_fab ?_)
  unfold State.halt
  rw [State.journal_fab]
  dsimp only
  split <;> split <;> rfl

theorem State.count_fab (s : State) (ev : Nat) (h a layer cmd : Option Nat) (n : Nat) : (s.count ev h a layer cmd n).fab = s.fab := by
  have k := congrArg State.fab (s.count_frame ev h a layer cmd n).1
  exact k

theorem State.traceAt_fab (s : State) (h typ : Nat) (a : Option Nat) (acc data : Nat) : (s.traceAt h typ a acc data).fab = s.fab := by
  have k := congrArg State.fab (s.traceAt_same h typ a acc data)
  exact k

theorem State.settleWith_fab (s : State) (causes src : Nat) : (s.settleWith causes src).fab = s.fab := by
  have k := congrArg State.fab (s.settleWith_same causes src)
  exact k

/-- An event takes ports down by its fence and its discards at most. -/
theorem State.latchEvent_portsFall (s : State) (r : Raise) (i : SrcInfo) (cls : Nat) : s.PortsFall (s.latchEvent r i cls) := by
  unfold State.latchEvent
  extract_lets d scope hit mem spared t causes
  have hfence := s.eventFence_portsFall d i cls r.once
  split
  rename_i s1 facts unit he
  rw [he] at hfence
  have hpoison := s1.eventPoison_fab r i
  split
  rename_i s2 pacts hq
  rw [hq] at hpoison
  extract_lets base wide acts f s3 s4 s5 flt s6 s7 s8
  have h4 : s4.fab = s2.fab := by unfold s4; split <;> rfl
  have h5 : s5.fab = s4.fab := by
    unfold s5
    split
    · split <;> rfl
    · rfl
  have h6 : s6.fab = s5.fab := by unfold s6; split <;> rfl
  have h8 : s8.fab = s6.fab := by
    unfold s8 s7
    rw [State.settleWith_fab, State.traceAt_fab, State.count_fab]
  have hs8 : s.PortsFall s8 := hfence.trans (.of_fab (by rw [h8, h6, h5, h4, hpoison]))
  split
  · exact hs8.trans (s8.halt_portsFall _)
  · exact hs8.trans (.foldl (fun u c => u.discard_portsFall c.id .discarded d.source 0) hit s8)

theorem State.raiseOne_portsFall (s : State) (r : Raise) : s.PortsFall (s.raiseOne r) := by
  unfold State.raiseOne
  split
  · exact .refl s
  · split
    · exact .refl s
    · extract_lets src cls flt s1 s2
      have h2 : s2.fab = s.fab := by unfold s2; split <;> rfl
      split
      · exact State.PortsFall.trans (.of_fab h2) (s2.eventFence_portsFall _ _ _ _)
      · exact State.PortsFall.trans (.of_fab h2) (s2.latchEvent_portsFall _ _ _)

theorem State.raiseShort_portsFall (s : State) : s.PortsFall s.raiseShort := by
  refine .foldl (fun t h => ?_) [0, 1] s
  split
  · exact State.PortsFall.trans (.of_fab rfl) (State.raiseOne_portsFall _ _)
  · exact .refl t

/-- A collector round brings no port back. -/
theorem State.collect_portsFall (s : State) (evs : List Detected) : s.PortsFall (s.collect evs) := by
  have hforce : s.PortsFall { s with flt := { s.flt with force := [] } } := .of_fab rfl
  exact (hforce.trans (.foldl (fun t r => t.raiseOne_portsFall r) _ _)).trans (State.raiseShort_portsFall _)

end Sys2Proof.Machine
end

section
/-! Rules for the pins of the standby island: SITE_ALARM_N, FEED_ID, GPIO, and the loss of REFCLK_SERDES (R342, R374, R399, R490 to R492). -/

namespace Sys2Proof.Machine

/-! ## SITE_ALARM_N (R399, R490) -/

theorem exec_siteAlarmN_unbound {s : State} (h : s.arbUp = true) (hb : s.pair.bound = false) : exec .siteAlarmN s = .next s :=
  (if_pos h).trans (if_neg (by simp [hb]))

/-- With no arbiter the edge waits, as far as the standby rail keeps it. -/
theorem exec_siteAlarmN_waits {s : State} (h : s.arbUp = false) :
    exec .siteAlarmN s = .next { s with pair := { s.pair with alarmWaits := s.dev.standby } } :=
  if_neg (by simp [h])

/-- The quench order that the pin gives. -/
def State.alarmOrder (s : State) : Cmd := { s.mgmtCmd 0x0730 0 with master := .siteAlarm }

/-- With no order before it the alarm quenches a bound pair at once, with the hold of its binding. -/
theorem exec_siteAlarmN {s : State} (h : s.arbUp = true) (ha : s.hg.arb = []) (hb : s.pair.bound = true) :
    exec .siteAlarmN s = .next ((s.withOrder s.alarmOrder).startQuench s.hg.nextId s.pair.quenchHold).settle := by
  have hw : s.resetWaits s.alarmOrder = false :=
    s.resetWaits_of_opcode (by decide : (0x0730 : Nat) ≠ 0x0A41) (by decide : [0x0A40, 0x0111, 0xF006, 0xF007].contains 0x0730 = false)
  have ht : s.arbTakes 0x0730 = true := by simp [State.arbTakes, h]
  have hlone : s.lone .siteAlarm 0x0730 0 State.quench = (s.withOrder s.alarmOrder).quench s.alarmOrder := by
    rw [State.lone, if_neg (by simp), if_pos ⟨ha, ht, hw⟩]
    rfl
  refine (if_pos h).trans ((if_pos hb).trans (congrArg _ ?_))
  rw [hlone]
  rfl

/-! ## A quench that has nothing to wait for (R398) -/

/-- The state with a quench begun for command id. -/
def State.quenchBegun (s : State) (id : Nat) (hold : Bool) : State :=
  let t := s.dropTransfers
  ({ t with pair := { t.pair with
    state := .quenching, before := t.pair.state, quenchCmds := [id], wantHold := hold, quenchAt := t.now
    pushedBytes := lagBytes t.pair.log } } : State).goOn id []

theorem State.startQuench_mirror {s : State} (h : s.pair.state = .mirror) (id : Nat) (hold : Bool) :
    s.startQuench id hold = (s.quenchBegun id hold).quenchGo := by
  simp only [State.startQuench, h]
  rfl

theorem State.quenchBegun_epochsDone {s : State} (h : s.epochsDone = true) (id : Nat) (hold : Bool) :
    (s.quenchBegun id hold).epochsDone = true := by
  refine List.all_eq_true.mpr (fun x hx => ?_)
  obtain ⟨i, hi, rfl⟩ := List.mem_mapIdx.mp hx
  have hdone := List.all_eq_true.mp h _ (List.getElem_mem hi)
  split
  · exact hdone
  · exact hdone

theorem State.quenchGo_ends {s : State} (h : s.pair.state = .quenching) (hp : s.pairPortUp = true) (he : s.epochsDone = true) :
    s.quenchGo = s.quenchEnd := by
  simp only [State.quenchGo, h, hp, he, Bool.not_true, Bool.false_eq_true, if_false, if_true]

/-- A quench from MIRROR with a port up and every closed epoch committed ends at once. -/
theorem State.startQuench_ends {s : State} (hm : s.pair.state = .mirror) (hp : s.pairPortUp = true) (he : s.epochsDone = true) (id : Nat)
    (hold : Bool) : s.startQuench id hold = (s.quenchBegun id hold).quenchEnd := by
  rw [State.startQuench_mirror hm]
  exact State.quenchGo_ends rfl hp (State.quenchBegun_epochsDone he id hold)

theorem State.finishOk_foldl (l : List Nat) (r : Nat) (s : State) : (l.foldl (fun u i => u.finishOk i r) s).pair = s.pair ∧
    ∀ a n, (l.foldl (fun u i => u.finishOk i r) s).hasCond a n = s.hasCond a n :=
  List.foldlRecOn (motive := fun t : State => t.pair = s.pair ∧ ∀ a n, t.hasCond a n = s.hasCond a n) l _ ⟨rfl, fun _ _ => rfl⟩ (fun _ h _ _ => h)

/-- The end of a quench from MIRROR: with the hold QUENCHED, else MIRROR; the log is empty and the condition stands. -/
theorem State.quenchEnd_mirror {s : State} (h : s.pair.before = .mirror) :
    s.quenchEnd.pair.state = (if s.pair.wantHold then .quenched else .mirror) ∧ s.quenchEnd.pair.log = [] ∧
      s.quenchEnd.hasCond 0 .quenched = true := by
  unfold State.quenchEnd
  extract_lets p back t res
  obtain ⟨hpair, hconds⟩ := State.finishOk_foldl p.quenchCmds res (t.setCondAll .quenched 2)
  rw [State.settle_pair, State.settle_hasCond _ _ (by decide), hpair, State.setCondAll_pair, hconds]
  refine ⟨?_, rfl, ?_⟩
  · have hback : back = .mirror := by simp only [back, p, h]
    simp only [t, hback, p]
  · exact State.setCondAll_hasCond t .quenched 2 (by decide)

/-! ## FEED_ID (R374, R491) -/

@[simp] theorem State.feedMarks_mgt (s : State) : s.feedMarks.mgt = s.mgt := by
  unfold State.feedMarks
  split
  · dsimp only
    split <;> split <;> simp
  · rfl

/-- The value in effect follows, and nothing else of the management controller's state changes. -/
theorem State.feedChanges_mgt (s : State) : s.feedChanges.mgt = { s.mgt with feedInEffect := feedValue s.config.feed s.mgt.feedStraps } := by
  unfold State.feedChanges
  extract_lets v m
  split
  · rename_i h
    rw [← show v = feedValue s.config.feed s.mgt.feedStraps from rfl, h]
  · rw [State.settle_mgt, (State.sendMgmt_sends _ _ _).mgt, State.feedMarks_mgt]

/-- The state with a sample of the straps taken, before the value in effect follows. -/
def State.sampled (s : State) (x : Nat) : State :=
  let l := (x :: s.mgt.feedSamples).take 3
  { s with mgt := { s.mgt with
    feedSamples := l, feedStraps := if decide (l.length = 3) && l.all (· == x) then x else s.mgt.feedStraps } }

theorem exec_feedIdSample {s : State} {x : Nat} (hs : s.dev.standby = true) (hr : s.mgt.restarting = false) (hx : x < 16) :
    exec (.feedIdSample x) s = .next (s.sampled x).feedChanges :=
  if_pos ⟨hs, hr, hx⟩

/-- Three equal samples change the straps. -/
theorem State.sampled_straps (s : State) (x : Nat) : (s.sampled x).mgt.feedStraps =
    if 2 ≤ s.mgt.feedSamples.length ∧ (∀ y ∈ s.mgt.feedSamples.take 2, y = x) then x else s.mgt.feedStraps := by
  have hc : (decide (((x :: s.mgt.feedSamples).take 3).length = 3) && ((x :: s.mgt.feedSamples).take 3).all (· == x)) = true ↔
      2 ≤ s.mgt.feedSamples.length ∧ ∀ y ∈ s.mgt.feedSamples.take 2, y = x := by
    simp only [List.take_succ_cons, List.length_cons, List.length_take, List.all_cons, beq_self_eq_true, Bool.true_and, Bool.and_eq_true,
      decide_eq_true_eq, List.all_eq_true, beq_iff_eq]
    refine and_congr_left fun _ => ?_
    omega
  simp only [State.sampled, hc]

theorem State.config_first {s : State} {n b : Config} (h : s.mgt.slots = [n, b]) (hn : n.committed = true)
    (hb : b.committed = true → b.seq ≤ n.seq) : s.config = n := by
  by_cases hc : b.committed = true
  · simp [State.config, h, hn, hc, Nat.not_lt.mpr (hb hc)]
  · simp [State.config, h, hn, hc]

theorem State.config_second {s : State} {a n : Config} (h : s.mgt.slots = [a, n]) (hn : n.committed = true)
    (ha : a.committed = true → a.seq < n.seq) : s.config = n := by
  by_cases hc : a.committed = true
  · simp [State.config, h, hn, hc, ha hc]
  · simp [State.config, h, hn, hc]

/-- The record in use is the newest of the two. -/
theorem State.seq_le_config {s : State} {a b : Config} (h : s.mgt.slots = [a, b]) :
    (a.committed = true → a.seq ≤ s.config.seq) ∧ (b.committed = true → b.seq ≤ s.config.seq) := by
  by_cases hb : b.committed = true
  · by_cases hab : a.committed = true → a.seq < b.seq
    · rw [State.config_second h hb hab]
      exact ⟨fun ha => Nat.le_of_lt (hab ha), fun _ => Nat.le_refl _⟩
    · obtain ⟨ha, hle⟩ := Classical.not_imp.mp hab
      rw [State.config_first h ha (fun _ => Nat.not_lt.mp hle)]
      exact ⟨fun _ => Nat.le_refl _, fun _ => Nat.not_lt.mp hle⟩
  · refine ⟨fun ha => ?_, fun hc => absurd hc hb⟩
    exact Nat.le_of_eq (congrArg Config.seq (State.config_first h ha (fun hc => absurd hc hb)).symm)

/-- A write replaces one slot of the two. -/
theorem State.writeConfig_slots {s : State} {a b : Config} (f : Config → Config) (h : s.mgt.slots = [a, b]) :
    let n : Config := { f s.config with seq := s.config.seq + 1, committed := true }
    (s.writeConfig f).mgt.slots = [a, n] ∨ (s.writeConfig f).mgt.slots = [n, b] := by
  have hset : ∀ (c : Prop) [Decidable c] (n : Config), [a, b].set (if c then 1 else 0) n = [a, n] ∨ [a, b].set (if c then 1 else 0) n = [n, b] := by
    intro c _ n
    split
    · exact .inl rfl
    · exact .inr rfl
  unfold State.writeConfig
  rw [h]
  exact hset _ _

/-- The record in use after a write to one of two slots: the record written. -/
theorem State.writeConfig_config {s t : State} (f : Config → Config) (hl : s.mgt.slots.length = 2)
    (ht : t.mgt.slots = (s.writeConfig f).mgt.slots) : t.config = { f s.config with seq := s.config.seq + 1, committed := true } := by
  obtain ⟨a, b, hab⟩ : ∃ a b, s.mgt.slots = [a, b] := by
    match hs : s.mgt.slots, hl with
    | [a, b], _ => exact ⟨a, b, rfl⟩
  obtain ⟨ha, hb⟩ := State.seq_le_config hab
  obtain h | h := State.writeConfig_slots f hab
  · exact State.config_second (ht.trans h) rfl (fun hc => Nat.lt_succ_of_le (ha hc))
  · exact State.config_first (ht.trans h) rfl (fun hc => Nat.le_succ_of_le (hb hc))

/-- What the override order leaves of the management controller's state: the slots written, and the value in effect. -/
theorem State.feedOrder_mgt (s : State) (c : Cmd) :
    let u := s.writeConfig (fun r => { r with feed := c.par 0 1 })
    (s.feedOrder c).mgt = { u.mgt with feedInEffect := feedValue u.config.feed s.mgt.feedStraps } :=
  State.feedChanges_mgt _

theorem exec_feedIdOverride {s : State} (on : Bool) (v : Nat) (hs : s.dev.standby = true) (hr : s.mgt.restarting = false) (ho : s.AtOnce opFeedId) :
    exec (.feedIdOverride on v) s = .next ((s.withOrder (s.mgmtCmd opFeedId (v % 16 + 16 * b2n on))).feedOrder
      (s.mgmtCmd opFeedId (v % 16 + 16 * b2n on))) :=
  congrArg _ (State.lone_mgmt _ _ hs hr ho (s.resetWaits_of_opcode (by decide : opFeedId ≠ 0x0A41)
    (by decide : [0x0A40, 0x0111, 0xF006, 0xF007].contains opFeedId = false)))

theorem feedValue_override (on : Bool) (v straps : Nat) : feedValue (v % 16 + 16 * b2n on) straps = if on then v % 16 else straps := by
  have hv : v % 16 < 2 ^ 4 := Nat.mod_lt _ (by decide)
  cases on with
  | false => simp [feedValue, b2n, Nat.testBit_lt_two_pow hv]
  | true =>
    have hb : (v % 16 + 16).testBit 4 = true := by
      rw [Nat.add_comm, show 16 = 2 ^ 4 from rfl, Nat.testBit_two_pow_add_eq]
      simp [Nat.testBit_lt_two_pow hv]
    simp [feedValue, b2n, hb]

/-! ## GPIO (R492) -/

/-- The state with pin set to d, where the outside puts lv on it. -/
def State.gpioSet (s : State) (pin : Nat) (d : Option Bool) (lv : Nat) : State :=
  let v := if d = some false then 0 else lv
  { s with mgt := { s.mgt with gpio := s.mgt.gpio.set pin d, gpioLevel := s.mgt.gpioLevel.set pin v, gpioRead := v } }

theorem exec_gpioEffecter {s : State} {pin lv : Nat} (drive : Option Bool) (hs : s.dev.standby = true) (hr : s.mgt.restarting = false)
    (hp : pin < 4) (hl : lv < 2) : exec (.gpioEffecter pin drive lv) s = .next (s.gpioSet pin (drive.or (s.mgt.gpio.getD pin none)) lv) := by
  refine (if_pos ⟨by simp [State.mgmtUp, hs, hr], hp, hl⟩).trans ?_
  cases drive <;> rfl

/-! ## REFCLK_SERDES (R342) -/

/-- A port that does not retrain stands. -/
theorem State.retrain_foldl_port {l : List Nat} {p : Nat} (h : p ∉ l) (s : State) : (l.foldl (fun u q => u.retrain q) s).port p = s.port p := by
  induction l generalizing s with
  | nil => rfl
  | cons q l ih =>
    obtain ⟨hq, hl⟩ := not_or.mp (fun k => h (List.mem_cons.mpr k))
    exact (ih hl _).trans (State.modPort_portsStand s q _ p hq)

/-- The ports that are up or train, which the loss of the reference clock takes down. -/
def State.livePorts (s : State) : List Nat := (List.range (portCount s)).filter (fun p => (s.port p).up || (s.port p).training)

theorem State.not_live {s : State} {p : Nat} (hp : p < portCount s) (h : p ∉ s.livePorts) : s.PortIsDown p := by
  simpa [State.livePorts, hp, State.PortIsDown] using h

/-- Once the live ports go down, every port is. -/
theorem State.livePorts_down {s t : State} (h : ∀ p, p ∉ s.livePorts → t.port p = s.port p) {p : Nat} (hp : p < portCount s) :
    (s.livePorts.foldl (fun u q => u.portDown q) t).PortIsDown p := by
  by_cases hl : p ∈ s.livePorts
  · exact State.portDown_foldl_down hl t
  · refine (State.PortsFall.foldl (fun t q => t.portDown_portsFall q) s.livePorts t).down ?_
    rw [State.PortIsDown, h p hl]
    exact State.not_live hp hl

/-- The live ports have retrained and time has passed: every other port stands. -/
theorem State.retrained_port (s : State) (n : Nat) {l : List Nat} {p : Nat} (h : p ∉ l) :
    ((l.foldl (fun u q => u.retrain q) s).passTo n).port p = s.port p := by
  rw [State.port, State.passTo_fab]
  exact State.retrain_foldl_port h s

theorem exec_refclkSerdesLoss_none {s : State} (h : s.livePorts = []) : exec .refclkSerdesLoss s = .next s := if_pos h

theorem exec_refclkSerdesLoss_some {s : State} (h : s.livePorts ≠ []) : ∃ n evs, exec .refclkSerdesLoss s =
    .next ((s.livePorts.foldl (fun u q => u.portDown q) ((s.livePorts.foldl (fun u q => u.retrain q) s).passTo n)).collect evs).settle :=
  ⟨_, _, if_neg h⟩

/-- The loss of the reference clock leaves every port of the part down. -/
theorem exec_refclkSerdesLoss_down (s : State) : ∃ t, exec .refclkSerdesLoss s = .next t ∧ ∀ p, p < portCount s → t.PortIsDown p := by
  by_cases h : s.livePorts = []
  · exact ⟨s, exec_refclkSerdesLoss_none h, fun p hp => State.not_live hp (by simp [h])⟩
  · obtain ⟨n, evs, he⟩ := exec_refclkSerdesLoss_some h
    refine ⟨_, he, fun p hp => ?_⟩
    refine (State.PortsFall.trans (State.collect_portsFall _ evs) (.of_fab (State.settle_fab _))).down ?_
    exact State.livePorts_down (fun q hq => s.retrained_port n hq) hp

/-- Settles O54: each pin by the equation of its row. -/
theorem pins : Obligations.Pins := by
  refine ⟨fun s => ⟨exec_siteAlarmN_unbound, exec_siteAlarmN_waits, ?_⟩, ?_, ?_, ?_, fun s => ⟨fun h => if_pos h, rfl⟩,
    exec_refclkSerdesLoss_down⟩
  · intro h ha hm hp he
    let t := s.withOrder s.alarmOrder
    obtain ⟨hstate, hlog, hcond⟩ := State.quenchEnd_mirror (s := t.quenchBegun s.hg.nextId s.pair.quenchHold) hm
    refine ⟨_, exec_siteAlarmN h ha (by simp [Pair.bound, hm]), ?_⟩
    rw [State.startQuench_ends (s := t) hm hp he, State.settle_pair, State.settle_hasCond _ _ (by decide)]
    exact ⟨hstate, hlog, hcond⟩
  · intro s x hs hr hx
    refine ⟨_, exec_feedIdSample hs hr hx, ?_⟩
    rw [State.feedChanges_mgt]
    exact ⟨rfl, s.sampled_straps x, rfl⟩
  · intro s on v hs hr ho hl
    let c := s.mgmtCmd opFeedId (v % 16 + 16 * b2n on)
    have hpar : c.par 0 1 = v % 16 + 16 * b2n on := by
      have hb := b2n_le_one on
      show (v % 16 + 16 * b2n on) % 256 = _
      omega
    have hm := (s.withOrder c).feedOrder_mgt c
    refine ⟨_, exec_feedIdOverride on v hs hr ho, ?_, ?_, ?_⟩
    · rw [State.writeConfig_config (s := s.withOrder c) (fun r => { r with feed := c.par 0 1 }) hl (by rw [hm])]
      exact hpar
    · rw [hm, State.writeConfig_config (s := s.withOrder c) (fun r => { r with feed := c.par 0 1 }) hl rfl, hpar]
      exact feedValue_override on v _
    · rw [hm]
      rfl
  · intro s pin drive lv hs hr hp hlv hg hgl
    have hgpio : pin < s.mgt.gpio.length := hg ▸ hp
    have hlevel : pin < s.mgt.gpioLevel.length := hgl ▸ hp
    refine ⟨_, exec_gpioEffecter drive hs hr hp hlv, rfl, ?_, ?_, ?_, ?_, ?_⟩
    · rintro b rfl
      exact List.getElem?_set_self hgpio
    · rintro rfl
      simp [State.gpioSet, List.getD_eq_getElem?_getD, hgpio]
    · intro k hk
      exact ⟨List.getElem?_set_ne hk.symm, List.getElem?_set_ne hk.symm⟩
    · exact List.getElem?_set_self hlevel
    · simp [State.gpioSet, List.getElem?_set_self hgpio]

end Sys2Proof.Machine
end

section
/-! The test of a target that no spare relieved waits for the command boundary of its anvil (R71). -/

namespace Sys2Proof.Machine

/-- A target that no spare relieved does not start its test before its anvil stands at a command boundary (R71). -/
theorem exec_anvilTestStart_waits {s : State} {h a : Nat} (hr : ((s.he h).anvil a).relieved = false) (hb : (s.he h).boundary a = false) :
    exec (.anvilTestStart h a) s = .next s :=
  if_neg (by simp [hr, hb])

/-- No spare is free, and active anvil 5 is a target: it has finished an op of a command whose list still has an op to give. -/
def midCommandHearth : Hearth :=
  { present := true
    anvils := (List.range 72).map (fun i => if i < 64 then { role := .active, pos := i, target := decide (i = 5) } else {})
    lists := [{ cmd := 4, allot := 0, seq := 0, key := 0, base := 0, order := 4
                ops := [{ desc := 0, phase := .finished, anvil := 5 }, { desc := 0 }] }] }

def midCommand : State := { State.reset with hearths := [midCommandHearth, {}] }

/-- Refutes O50: its third clause starts the test of every idle target, but a target that no spare relieved waits for the boundary of the
command that it serves (R71). Anvil 5 of midCommand is an idle target with an op of its command still to come, and nothing happens. -/
theorem not_anvils : ¬ Obligations.Anvils := by
  rintro ⟨-, -, hstart, -, -⟩
  obtain ⟨hidle, -⟩ := hstart midCommand 0 5 (by decide) (by decide) (by decide) (by decide)
  obtain ⟨t, ht, -, htest, -⟩ := hidle (by decide)
  rw [exec_anvilTestStart_waits (by decide) (by decide)] at ht
  cases ht
  exact absurd htest (by decide)

end Sys2Proof.Machine
end

section
/-! What the work of tile ops leaves: commands, host memory, and each hearth but for its trace ring (R451, R459). -/

namespace Sys2Proof.Machine

/-! ## Frames of the work of an op -/

/-- Work on objects, layers, counters and attention: the control plane, host memory and every hearth but for its trace ring stand. -/
structure State.Works (s t : State) : Prop where
  hg : t.hg = s.hg
  host : t.host = s.host
  stand : s.HearthsStand t
  hearths : t.hearths.length = s.hearths.length

/-- Work that changes no object. -/
structure State.Tallies (s t : State) : Prop extends s.Works t where
  objs : ∀ a, (t.al a).objs = (s.al a).objs

theorem State.Works.refl (s : State) : s.Works s := ⟨rfl, rfl, .refl s, rfl⟩

theorem State.Works.trans {s t u : State} (h : s.Works t) (k : t.Works u) : s.Works u :=
  ⟨k.hg.trans h.hg, k.host.trans h.host, h.stand.trans k.stand, k.hearths.trans h.hearths⟩

theorem State.Works.foldl {α : Type} {f : State → α → State} (h : ∀ s x, State.Works s (f s x)) (l : List α) (s : State) : s.Works (l.foldl f s) :=
  List.foldlRecOn (motive := fun t => s.Works t) l f (.refl s) (fun t ht x _ => ht.trans (h t x))

theorem State.Tallies.refl (s : State) : s.Tallies s := ⟨.refl s, fun _ => rfl⟩

theorem State.Tallies.trans {s t u : State} (h : s.Tallies t) (k : t.Tallies u) : s.Tallies u :=
  ⟨h.toWorks.trans k.toWorks, fun a => (k.objs a).trans (h.objs a)⟩

theorem State.Tallies.foldl {α : Type} {f : State → α → State} (h : ∀ s x, State.Tallies s (f s x)) (l : List α) (s : State) :
    s.Tallies (l.foldl f s) :=
  List.foldlRecOn (motive := fun t => s.Tallies t) l f (.refl s) (fun t ht x _ => ht.trans (h t x))

theorem State.Works.cmd? {s t : State} (h : s.Works t) (id : Nat) : t.cmd? id = s.cmd? id := by
  rw [State.cmd?, h.hg, State.cmd?]

/-- A hearth has the lists that it had. -/
theorem State.Works.lists {s t : State} (h : s.Works t) (k : Nat) : (t.he k).lists = (s.he k).lists := by
  rw [← h.stand k]

theorem State.modAl_works (s : State) (a : Nat) (f : Allot → Allot) : s.Works (s.modAl a f) := ⟨rfl, rfl, .of_hearths rfl, rfl⟩

theorem State.modAl_tallies (s : State) (a : Nat) {f : Allot → Allot} (hf : ∀ x, (f x).objs = x.objs) : s.Tallies (s.modAl a f) := by
  refine ⟨s.modAl_works a f, fun b => ?_⟩
  rw [State.modAl_al]
  split
  · rename_i h
    rw [hf, h.1]
  · rfl

theorem State.modLayer_tallies (s : State) (a layer : Nat) (f : Layer → Layer) : s.Tallies (s.modLayer a layer f) :=
  s.modAl_tallies a (fun _ => rfl)

/-! ## Counters and trace (R451, R459) -/

theorem State.count_tallies (s : State) (ev : Nat) (h a layer cmd : Option Nat) (n : Nat) : s.Tallies (s.count ev h a layer cmd n) := by
  obtain ⟨heq, hal⟩ := s.count_frame ev h a layer cmd n
  have hhg := congrArg State.hg heq
  have hhost := congrArg State.host heq
  have hhe := congrArg State.hearths heq
  exact ⟨⟨hhg, hhost, .of_hearths hhe, congrArg List.length hhe⟩, fun b => (hal b).1⟩

theorem State.countFor_tallies (s : State) (c : Cmd) (ev : Nat) (h layer : Option Nat) (n : Nat) : s.Tallies (s.countFor c ev h layer n) :=
  s.count_tallies _ _ _ _ _ _

theorem State.countConv_tallies (s : State) (c : Cmd) (h layer : Option Nat) (st : SlotStats) : s.Tallies (s.countConv c h layer st) :=
  (((s.countFor_tallies _ _ _ _ _).trans (State.countFor_tallies _ _ _ _ _ _)).trans (State.countFor_tallies _ _ _ _ _ _)).trans
    (State.countFor_tallies _ _ _ _ _ _)

theorem State.countRows_tallies (s : State) (c : Cmd) (h : Nat) (o : Obj) (rows ext : Nat) : s.Tallies (s.countRows c h o rows ext) :=
  s.countFor_tallies _ _ _ _ _

theorem State.traceAt_hearths_length (s : State) (h typ : Nat) (a : Option Nat) (acc data : Nat) :
    (s.traceAt h typ a acc data).hearths.length = s.hearths.length := by
  unfold State.traceAt
  split
  · exact s.modHe_length h _
  · rfl

theorem State.traceAt_tallies (s : State) (h typ : Nat) (a : Option Nat) (acc data : Nat) : s.Tallies (s.traceAt h typ a acc data) := by
  have hsame := s.traceAt_same h typ a acc data
  have hhost := congrArg State.host hsame
  have hal := congrArg State.allots hsame
  refine ⟨⟨s.traceAt_hg h typ a acc data, hhost, s.traceAt_hearthsStand h typ a acc data, s.traceAt_hearths_length h typ a acc data⟩, fun b => ?_⟩
  exact congrArg (fun l : List Allot => (l.getD b {}).objs) hal

/-! ## The attention settles -/

theorem State.attend_hearths_length (s : State) : s.attend.hearths.length = s.hearths.length := by
  unfold State.attend
  refine List.foldlRecOn (motive := fun t : State => t.hearths.length = s.hearths.length) allotNumbers _ rfl (fun t ht a _ => ?_)
  dsimp only
  split
  · exact ht
  · exact (t.traceAt_hearths_length _ _ _ _ _).trans ht

theorem State.fire_hearths_length (s : State) (causes src : Nat) : (s.fire causes src).hearths.length = s.hearths.length := by
  unfold State.fire
  split
  · simp
  · rfl

theorem State.settleWith_works (s : State) (causes src : Nat) : s.Works (s.settleWith causes src) := by
  have hhost := congrArg State.host (s.settleWith_same causes src)
  refine ⟨s.settleWith_hg causes src, hhost, s.settleWith_hearthsStand causes src, ?_⟩
  unfold State.settleWith
  dsimp only
  split
  · exact s.attend_hearths_length
  · rw [State.attend_hearths_length, State.fire_hearths_length, State.attend_hearths_length]

/-! ## Writes into tensors (R79, R170 to R190, R381, R417) -/

theorem State.modObj_works (s : State) (a h : Nat) (f : Obj → Obj) : s.Works (s.modObj a h f) := s.modAl_works a _

theorem State.writeObj_works (s : State) (a h off : Nat) (bs : List Byte) : s.Works (s.writeObj a h off bs) := s.modObj_works a h _

theorem State.staleWrite_works (s : State) (a h : Nat) : s.Works (s.staleWrite a h) := by
  have hcond : ∀ t : State, t.Works (t.setCond a .staleTensor 1) := fun _ => ⟨rfl, rfl, .of_hearths rfl, rfl⟩
  unfold State.staleWrite
  split
  · split
    · exact ((s.modAl_works a _).trans (hcond _)).trans (State.settleWith_works _ 0 0)
    · exact .refl s
  · exact .refl s

theorem State.clearLifts_works (s : State) (a h : Nat) (units : List Nat) : s.Works (s.clearLifts a h units) := by
  unfold State.clearLifts
  dsimp only
  split
  · exact .refl s
  · exact .foldl (fun t _ => .foldl (fun u _ => u.modObj_works a _ _) _ t) units s

theorem State.addLifts_works (s : State) (a : Nat) (o : Obj) (i : Nat) (ls : List (Nat × Nat)) : s.Works (s.addLifts a o i ls) := by
  unfold State.addLifts
  split
  · exact .refl s
  · exact s.modObj_works a _ _

theorem State.writeBlock_works (s : State) (a h i : Nat) (blkmax : Bool) (r : CvOut) : s.Works (s.writeBlock a h i blkmax r) := by
  unfold State.writeBlock
  dsimp only
  split
  · exact (s.modObj_works a h _).trans (State.writeObj_works _ a _ _ _)
  · exact s.modObj_works a h _

theorem State.writeSpilled_works (s : State) (a : Nat) (o : Obj) (c : ChanBind) (list : List (Nat × List Nat)) (i : Nat) (xs : List (Nat × Fp)) :
    s.Works (s.writeSpilled a o c list i xs) := by
  unfold State.writeSpilled
  extract_lets w idx rcd s0 s1
  have h0 : s.Works s0 := s.writeObj_works _ _ _ _
  have h1 : s.Works s1 := by
    dsimp only [s1]
    split
    · exact h0.trans (s0.writeObj_works _ _ _ _)
    · exact h0
  refine h1.trans (.foldl (fun u x => ?_) xs s1)
  split
  · exact u.writeObj_works _ _ _ _
  · exact .refl u

theorem WrAcc.unit_works (acc : WrAcc) (a h : Nat) (w : WrSpec) (draws : Nat → Option Nat) (unit : Nat) (xs : List CvIn) :
    acc.s.Works (acc.unit a h w draws unit xs).s := by
  unfold WrAcc.unit
  extract_lets o0 t axis isSp base sp chmax narrow s1 spSat n acc1
  have h1 : acc.s.Works s1 := by
    dsimp only [s1]
    generalize axis = b
    cases b with
    | some c => exact acc.s.writeSpilled_works a o0 c _ _ _
    | none => exact .refl _
  exact List.foldlRecOn (motive := fun q : WrAcc => acc.s.Works q.s) (pieces n narrow).zipIdx _ h1
    (fun q hq e _ => (hq.trans (q.s.writeBlock_works _ _ _ _ _)).trans (State.addLifts_works _ _ _ _ _))

/-! ## The drain (R46, R112, R143) -/

theorem Drain.unit_works (x : Drain) (pre : State) (spec : WrSpec) (i : Nat) (fed : Option Nat) (acc : DrainAcc) (u : Nat) :
    acc.w.s.Works (x.unit pre spec i fed acc u).w.s := by
  unfold Drain.unit
  cases fed with
  | some r => exact acc.w.unit_works _ _ _ _ _ _
  | none =>
    extract_lets d unit cols xs z
    exact WrAcc.unit_works { s := acc.w.s } x.l.allot (dHandle d .o) spec (fun _ => none) unit xs

theorem State.drain_works (s : State) (x : Drain) : s.Works (s.drain x).1 := by
  unfold State.drain
  extract_lets a hd spec units s0 acc t t1
  have h0 : s.Works s0 := s.clearLifts_works a hd units
  have hacc : s.Works acc.w.s :=
    List.foldlRecOn (motive := fun q : DrainAcc => s.Works q.w.s) x.rows _ h0 (fun q hq e _ =>
      List.foldlRecOn (motive := fun q : DrainAcc => s.Works q.w.s) (List.range (ceilDiv (dN x.d) 32)) _ hq
        (fun r hr u _ => hr.trans (x.unit_works s spec e.1 e.2 r u)))
  have ht : s.Works t := hacc.trans (.foldl (fun (u : State) (r : Range) => u.modObj_works r.1 r.2.1 _) _ _)
  have h1 : s.Works t1 := by
    dsimp only [t1]
    split
    · exact (ht.trans (t.modObj_works a hd _)).trans (State.modLayer_tallies _ _ _ _).toWorks
    · exact ht
  dsimp only
  split
  · exact h1
  · exact h1.trans (t1.staleWrite_works a hd)

theorem State.noteOps_works (s : State) (x : Drain) (acc : DrainAcc) : s.Works (s.noteOps x acc) := by
  unfold State.noteOps
  extract_lets a lay t t1
  have ht : s.Works t := .foldl (fun u _ => (u.modLayer_tallies _ _ _).toWorks) x.ops s
  have h1 : s.Works t1 := ht.trans (t.modLayer_tallies _ _ _).toWorks
  split
  · exact h1.trans (t1.modLayer_tallies _ _ _).toWorks
  · exact h1

theorem State.releaseGroup_works (s : State) (l : TileList) (d : Nat) : s.Works (s.releaseGroup l d) := by
  unfold State.releaseGroup
  dsimp only
  split
  · exact .refl s
  · exact s.modAl_works _ _

/-! ## The issue (R451, R459) -/

theorem State.countOp_tallies (s : State) (c : Cmd) (h a d : Nat) (o : OpRec) : s.Tallies (s.countOp c h a d o) := by
  unfold State.countOp
  extract_lets rows lines strip comp r sc tc grid side ev t
  have hev : ∀ (u : State) (code n : Nat), u.Tallies (ev u code n) := fun u _ _ => u.countFor_tallies _ _ _ _ _
  have ht : s.Tallies t := (((hev _ _ _).trans (hev _ _ _)).trans (hev _ _ _)).trans (hev _ _ _)
  split
  · exact ht
  · refine ht.trans (State.Tallies.trans ?_ (State.countRows_tallies _ _ _ _ _ _))
    split
    · exact t.countRows_tallies _ _ _ _ _
    · exact t.countRows_tallies _ _ _ _ _

theorem State.noteFetch_tallies (s : State) (c : Cmd) (h a d : Nat) (x : Side) (f : FetchAcc) : s.Tallies (s.noteFetch c h a d x f) := by
  have hc := s.countConv_tallies c (some h) (some (dLayer d)) f.stats
  unfold State.noteFetch
  dsimp only
  split
  · exact hc.trans (State.modLayer_tallies _ _ _ _)
  · exact hc

end Sys2Proof.Machine
end

section
/-! Ranges of an allotment that has no poisoned block, and the lists of a hearth (R62, R67, R68, R74, R417). -/

namespace Sys2Proof.Machine

/-! ## Ranges of an allotment without poison (R417) -/

theorem look_mem {α : Type} {k : Nat} {v : α} {m : List (Nat × α)} (h : look k m = some v) : (k, v) ∈ m := by
  induction m with
  | nil => cases h
  | cons e r ih =>
    obtain ⟨j, w⟩ := e
    unfold look at h
    split at h
    · rename_i hj
      cases h
      rw [hj]
      exact List.mem_cons_self
    · exact List.mem_cons_of_mem _ (ih h)

theorem State.Clean.objD {s : State} {a : Nat} (h : s.Clean a) (k : Nat) : (s.objD a k).poison = [] := by
  unfold State.objD State.obj? Allot.obj?
  split
  · rename_i o ho
    split
    · exact h _ (look_mem ho)
    · rfl
  · rfl

/-- Every range lies in an object of allotment a. -/
def RangesOf (a : Nat) (rs : List Range) : Prop := ∀ r ∈ rs, r.1 = a

theorem RangesOf.nil (a : Nat) : RangesOf a [] := fun _ h => nomatch h

theorem RangesOf.cons {a : Nat} {x : Nat × Nat × Nat} {rs : List Range} (h : RangesOf a rs) : RangesOf a ((a, x) :: rs) :=
  List.forall_mem_cons.mpr ⟨rfl, h⟩

theorem RangesOf.append {a : Nat} {rs qs : List Range} (h : RangesOf a rs) (k : RangesOf a qs) : RangesOf a (rs ++ qs) :=
  fun r hr => (List.mem_append.mp hr).elim (h r) (k r)

theorem RangesOf.flatMap {α : Type} {a : Nat} {f : α → List Range} (h : ∀ x, RangesOf a (f x)) (l : List α) : RangesOf a (l.flatMap f) := by
  intro r hr
  obtain ⟨x, -, hx⟩ := List.mem_flatMap.mp hr
  exact h x r hx

theorem RangesOf.ite {a : Nat} {c : Prop} [Decidable c] {rs qs : List Range} (h : RangesOf a rs) (k : RangesOf a qs) :
    RangesOf a (if c then rs else qs) := by
  split
  · exact h
  · exact k

theorem Obj.elemRanges_of (o : Obj) (a h i n : Nat) : RangesOf a (o.elemRanges a h i n) :=
  .ite (.cons (.cons (.cons (.nil a)))) (.ite (.cons (.cons (.nil a))) (.cons (.nil a)))

theorem State.sideReads_of (s : State) (a : Nat) (o : Obj) (i n : Nat) : RangesOf a (s.sideReads a o i n) := by
  unfold State.sideReads
  refine .append ?_ ?_
  · split
    · exact .nil a
    · refine .ite (.cons (.nil a)) (.cons ?_)
      split
      · exact .cons (.nil a)
      · exact .nil a
  · split
    · exact .nil a
    · exact .cons (.nil a)

theorem State.sideWrites_of (s : State) (a : Nat) (o : Obj) (i n : Nat) : RangesOf a (s.sideWrites a o i n) := by
  refine (s.sideReads_of a o i n).append ?_
  split
  · exact .cons (.nil a)
  · exact .nil a

theorem State.elemReads_of (s : State) (a h i n : Nat) : RangesOf a (s.elemReads a h i n) :=
  .ite (.nil a) ((Obj.elemRanges_of _ a h i n).append (s.sideReads_of a _ i n))

theorem maskRange_of (a d : Nat) : RangesOf a (maskRange a d) := .ite (.cons (.nil a)) (.nil a)

theorem State.opReads_of (s : State) (a d : Nat) (rows : List Nat) : RangesOf a (s.opReads a d rows) := by
  unfold State.opReads
  extract_lets rowsOf
  have hrows : ∀ x rs, RangesOf a (rowsOf x rs) := fun x rs =>
    .ite (.nil a) (.flatMap (fun r => .flatMap (fun q => s.elemReads_of a _ _ _) _) rs)
  exact .ite (.nil a) ((hrows _ _).append (hrows _ _))

theorem Drain.reads_of (x : Drain) (s : State) : RangesOf x.l.allot (x.reads s) := by
  have hof : ∀ sd, RangesOf x.l.allot (x.head.fedRows.flatMap (fun i =>
      s.elemReads x.l.allot (dHandle x.d sd) (dElem x.d sd i) (dN x.d))) := fun sd => .flatMap (fun i => s.elemReads_of _ _ _ _) _
  exact .append (.ite (hof .o) (.nil _)) (.ite (.nil _) (hof .e))

theorem Drain.writes_of (x : Drain) (s : State) : RangesOf x.l.allot (x.writes s) :=
  .flatMap (fun _ => (Obj.elemRanges_of _ _ _ _ _).append (s.sideWrites_of _ _ _ _)) _

theorem State.Clean.poisonOf {s : State} {a : Nat} (h : s.Clean a) {rs : List Range} (hr : RangesOf a rs) : s.poisonOf rs = none := by
  refine List.findSome?_eq_none_iff.mpr (fun r hm => ?_)
  rw [hr r hm, Obj.poisonIn, h.objD]
  rfl

theorem State.Clean.poisonPartOf {s : State} {a : Nat} (h : s.Clean a) {rs : List Range} (hr : RangesOf a rs) : s.poisonPartOf rs = none := by
  refine List.findSome?_eq_none_iff.mpr (fun r hm => ?_)
  rw [hr r hm, Obj.poisonPart, h.objD]
  rfl

/-! ## The lists of a hearth -/

theorem State.modHe_he_same (s : State) {h : Nat} (f : Hearth → Hearth) (hh : h < s.hearths.length) : (s.modHe h f).he h = f (s.he h) := by
  rw [State.modHe_he, if_pos ⟨rfl, hh⟩]

/-- The list that p finds behind an update of the lists of its command. -/
theorem Hearth.modList_find? {x : Hearth} {p : TileList → Bool} {l : TileList} (h : x.lists.find? p = some l) {f : TileList → TileList}
    (hf : ∀ m, p (f m) = p m) : (x.modList l.cmd f).lists.find? p = some (f l) := by
  have hp : (p ∘ fun m => if m.cmd = l.cmd then f m else m) = p := by
    funext m
    simp only [Function.comp]
    split
    · exact hf m
    · rfl
  rw [Hearth.modList, List.find?_map, hp, h]
  simp

/-- The list that p finds once SHORT is noted. -/
theorem Hearth.noteShort_find? {x : Hearth} {p : TileList → Bool} {l : TileList} (h : x.lists.find? p = some l)
    (hp : ∀ (m : TileList) b, p { m with short := b } = p m) : ∃ b, x.noteShort.lists.find? p = some { l with short := b } := by
  unfold Hearth.noteShort
  split
  · refine ⟨true, ?_⟩
    rw [List.find?_map, show (p ∘ fun m : TileList => { m with short := true }) = p from funext fun m => hp m true, h]
    rfl
  · exact ⟨l.short, h⟩

/-- All of a hearth but its lists and its trace ring stands. -/
def Hearth.UnitsStand (x y : Hearth) : Prop := { y with lists := x.lists, trace := x.trace } = x

theorem Hearth.UnitsStand.trans {x y z : Hearth} (h : x.UnitsStand y) (k : y.UnitsStand z) : x.UnitsStand z := by
  unfold Hearth.UnitsStand at *
  rw [← h, ← k]

theorem Hearth.modList_unitsStand (x : Hearth) (id : Nat) (f : TileList → TileList) : x.UnitsStand (x.modList id f) := rfl

theorem Hearth.noteShort_unitsStand (x : Hearth) : x.UnitsStand x.noteShort := by
  unfold Hearth.noteShort
  split <;> rfl

theorem State.HearthsStand.units {s t : State} (h : s.HearthsStand t) (k : Nat) : (s.he k).UnitsStand (t.he k) := by
  unfold Hearth.UnitsStand
  conv => rhs; rw [← h k]
  rw [← h k]

theorem Hearth.UnitsStand.anvils {x y : Hearth} (h : x.UnitsStand y) : y.anvils = x.anvils := by
  rw [← h]

theorem Hearth.UnitsStand.newlyShort {x y : Hearth} (h : x.UnitsStand y) : y.newlyShort = x.newlyShort := by
  rw [← h]
  rfl

theorem State.modHe_unitsStand (s : State) (h : Nat) {f : Hearth → Hearth} (hf : ∀ x : Hearth, x.UnitsStand (f x)) (k : Nat) :
    (s.he k).UnitsStand ((s.modHe h f).he k) := by
  rw [State.modHe_he]
  split
  · rename_i hk
    rw [← hk.1]
    exact hf _
  · rfl

/-- With no anvil that an event has failed, none leaves service (R68). -/
theorem Hearth.failIdle_eq {x : Hearth} (h : ∀ v ∈ x.anvils, v.failing = false) : x.failIdle = x := by
  have hv : ∀ a, (x.anvil a).failing = false := by
    intro a
    rw [Hearth.anvil, List.getD_eq_getElem?_getD]
    cases ha : x.anvils[a]? with
    | none => rfl
    | some v => exact h v (List.mem_of_getElem? ha)
  refine List.foldlRecOn (motive := fun y => y = x) (List.range 72) _ rfl (fun y hy a _ => ?_)
  rw [hy, hv a]
  rfl

/-- With no hearth newly short, no source is raised (R74). -/
theorem State.raiseShort_eq {s : State} (h : ∀ k, (s.he k).newlyShort = false) : s.raiseShort = s := by
  simp [State.raiseShort, h]

end Sys2Proof.Machine
end

section
/-! Rules for the rows of tile lists: TILE_RUN, TILE_OP_ISSUE and TILE_OP_COMPLETE (R59, R62 to R68, R112, R116, R128). -/

namespace Sys2Proof.Machine

/-! ## TILE_RUN (R59, R62, R116, R128) -/

/-- The object range that holds the descriptors of a TILE_RUN. -/
def Cmd.listRange (c : Cmd) : Range := (c.allot, refHandle (c.par 0 8), bitsOf (c.par 0 8) 32 32 * 64, 64 * c.par 8 4)

/-- A TILE_RUN runs, its hearth takes it, and its descriptors can be read. -/
structure State.TileReads (s : State) (id : Nat) (c : Cmd) : Prop where
  runs : s.Runs id 0x0301 tileRunFields c
  isOpen : (s.named c).hearthOpen c (c.par 0xC 1) = true
  clean : (s.named c).poisonOf [c.listRange] = none

theorem exec_tileRun_badDesc {s : State} {id : Nat} {c : Cmd} (h : s.TileReads id c) (seq : Nat) {j : Nat}
    (hj : (s.named c).badDesc c.allot ((s.named c).descsOf c) = some j) : exec (.tileRun id seq) s = .next ((s.named c).reject id (badIn j)) := by
  have hp := h.clean
  rw [Cmd.listRange] at hp
  show execTileRun id seq s = _
  refine (State.deant_runs h.runs _).trans (congrArg _ ?_)
  simp [h.isOpen, hp, hj]

/-- With every descriptor in order, buffers that fit nowhere end the command (R116). -/
theorem exec_tileRun_noRoom {s : State} {id : Nat} {c : Cmd} (h : s.TileReads id c) (seq : Nat)
    (hd : (s.named c).badDesc c.allot ((s.named c).descsOf c) = none) (hr : (s.named c).reachable c ((s.named c).namesNow c) = none)
    (hu : (s.named c).takeBuffers c.allot id (c.par 0xC 1) ((groupHeads ((s.named c).descsOf c)).flatMap (headNeeds ((s.named c).descsOf c))) = none) :
    exec (.tileRun id seq) s = .next ((s.named c).reject id (.noResource, 0)) := by
  have hp := h.clean
  rw [Cmd.listRange] at hp
  show execTileRun id seq s = _
  refine (State.deant_runs h.runs _).trans (congrArg _ ?_)
  simp only [h.isOpen, hp, hd, hr, hu, Bool.true_eq_false, if_false]

theorem SameOutsideAllots.hearths {s t : State} (h : SameOutsideAllots s t) : t.hearths = s.hearths := by
  have k := congrArg State.hearths h.1
  exact k

theorem SameOutsideAllots.hg {s t : State} (h : SameOutsideAllots s t) : t.hg = s.hg := by
  have k := congrArg State.hg h.1
  exact k

theorem SameOutsideAllots.host {s t : State} (h : SameOutsideAllots s t) : t.host = s.host := by
  have k := congrArg State.host h.1
  exact k

@[simp] theorem State.named_hearths (s : State) (c : Cmd) : (s.named c).hearths = s.hearths := (s.named_same c).hearths

@[simp] theorem State.named_he (s : State) (c : Cmd) (h : Nat) : (s.named c).he h = s.he h := by
  rw [State.he, s.named_hearths, State.he]

/-- With its buffers charged, and nothing before it, the list goes to the free sequencer (R62). -/
theorem exec_tileRun_handsOver {s u : State} {id seq : Nat} {c : Cmd} (h : s.TileReads id c)
    (hd : (s.named c).badDesc c.allot ((s.named c).descsOf c) = none) (hr : (s.named c).reachable c ((s.named c).namesNow c) = none)
    (hu : (s.named c).takeBuffers c.allot id (c.par 0xC 1) ((groupHeads ((s.named c).descsOf c)).flatMap (headNeeds ((s.named c).descsOf c))) = some u)
    (ha : (s.named c).tileAhead c = false) (hk : (s.named c).seqKept c (c.par 0xC 1) = false) (hq : seq < 4)
    (hl : ∀ l ∈ (s.he (c.par 0xC 1)).lists, l.seq ≠ seq) :
    exec (.tileRun id seq) s = .next (u.handOver c (c.par 0xC 1) seq ((s.named c).descsOf c)) := by
  have hp := h.clean
  rw [Cmd.listRange] at hp
  have hfree : (s.he (c.par 0xC 1)).lists.any (fun l => l.seq == seq) = false := by simpa using hl
  show execTileRun id seq s = _
  refine (State.deant_runs h.runs _).trans (congrArg _ ?_)
  simp only [h.isOpen, hp, hd, hr, hu, ha, hk, Nat.not_le.mpr hq, s.named_he, hfree, Bool.true_eq_false, Bool.false_eq_true, or_self, if_false]

/-- Allotments differ, but not in their precision steering. -/
def State.KeepsTemper (s t : State) : Prop := SameOutsideAllots s t ∧ ∀ b, (t.al b).temper = (s.al b).temper

theorem State.KeepsTemper.trans {s t u : State} (h : s.KeepsTemper t) (k : t.KeepsTemper u) : s.KeepsTemper u :=
  ⟨h.1.trans k.1, fun b => (k.2 b).trans (h.2 b)⟩

theorem State.charge_keepsTemper (s : State) (a : Nat) (k : ChargeKind) (p n : Nat) : s.KeepsTemper (s.charge a k p n) := by
  unfold State.charge
  split
  · exact ⟨⟨rfl, rfl⟩, fun _ => rfl⟩
  · refine ⟨s.modAl_same a _, fun b => ?_⟩
    rw [State.modAl_al]
    split
    · rename_i h
      rw [h.1]
    · rfl

/-- Buffers are charged to allotments, and nothing else changes (R116). -/
theorem State.takeBuffers_keepsTemper {a id h : Nat} {ns : List Nat} {s u : State} (k : s.takeBuffers a id h ns = some u) : s.KeepsTemper u := by
  induction ns generalizing s with
  | nil => cases k; exact ⟨⟨rfl, rfl⟩, fun _ => rfl⟩
  | cons n r ih =>
    unfold State.takeBuffers at k
    split at k
    · exact (s.charge_keepsTemper _ _ _ _).trans (ih k)
    · split at k
      · exact (s.charge_keepsTemper _ _ _ _).trans (ih k)
      · cases k

/-- Stamps come from the precision steering alone (R128). -/
theorem State.KeepsTemper.stamp {s u : State} (h : s.KeepsTemper u) (a d : Nat) :
    u.stampOf a d (u.rungNow a d) = s.stampOf a d (s.rungNow a d) := by
  simp only [State.stampOf, State.rungNow, State.layer?, h.2]

/-- The list that a TILE_RUN hands over. -/
def State.listOf (s : State) (c : Cmd) (seq : Nat) (ds : List Nat) : TileList :=
  { cmd := c.id, allot := c.allot, seq := seq, key := w64 (c.par 0x10 8), base := c.par 0x18 4, order := c.id
    ops := ds.map (fun d => { desc := d, stamp := s.stampOf c.allot d (s.rungNow c.allot d) }) }

theorem State.handOver_eq (s : State) (c : Cmd) (h seq : Nat) (ds : List Nat) : s.handOver c h seq ds =
    (s.modHe h (fun x => ({ x with lists := x.lists ++ [s.listOf c seq ds] } : Hearth).noteShort)).goOn c.id [] := rfl

theorem State.goOn_cmd?_ne (s : State) {id j : Nat} (aux : List Nat) (h : j ≠ id) : (s.goOn id aux).cmd? j = s.cmd? j := by
  unfold State.goOn
  refine (State.modCmd_cmd? s id j _ (by intro c; rfl)).trans ?_
  cases hc : s.cmd? j with
  | none => rfl
  | some d =>
    have hd : d.id ≠ id := fun k => h ((State.cmd?_id hc).symm.trans k)
    simp [hd]

/-- The sequencer holds the list that was handed to it, with SHORT as its hearth stands. -/
theorem State.handOver_find? (s : State) (c : Cmd) {h : Nat} (seq : Nat) (ds : List Nat) (hh : h < s.hearths.length)
    (hl : ∀ l ∈ (s.he h).lists, l.seq ≠ seq) :
    ∃ b, ((s.handOver c h seq ds).he h).lists.find? (fun m => m.seq == seq) = some { s.listOf c seq ds with short := b } := by
  have hfind : ((s.he h).lists ++ [s.listOf c seq ds]).find? (fun m => m.seq == seq) = some (s.listOf c seq ds) := by
    have hn : (s.he h).lists.find? (fun m => m.seq == seq) = none := by simpa [List.find?_eq_none] using hl
    rw [List.find?_append, hn]
    simp [State.listOf]
  obtain ⟨b, hb⟩ := Hearth.noteShort_find? (x := { s.he h with lists := (s.he h).lists ++ [s.listOf c seq ds] }) hfind (fun _ _ => rfl)
  refine ⟨b, ?_⟩
  rw [State.handOver_eq, State.goOn, State.modCmd_he, s.modHe_he_same _ hh]
  exact hb

/-- What a list handed over leaves, besides its place: its command is at work, every other stands, and its ops wait with the stamps of the
state before the buffers were charged (R128). -/
theorem State.KeepsTemper.handOver {s u : State} (k : s.KeepsTemper u) (c : Cmd) (h seq : Nat) (ds : List Nat)
    (hc : (s.cmd? c.id).isSome = true) : (u.handOver c h seq ds).AtWork c.id ∧ (u.handOver c h seq ds).host = s.host ∧
      s.OthersStand (u.handOver c h seq ds) c.id ∧
      ∀ o ∈ (u.listOf c seq ds).ops, o.phase = .waiting ∧ o.stamp = s.stampOf c.allot o.desc (s.rungNow c.allot o.desc) := by
  have hcmd : ∀ i, u.cmd? i = s.cmd? i := fun i => by rw [State.cmd?, k.1.hg, State.cmd?]
  rw [State.handOver_eq]
  refine ⟨State.goOn_atWork (s := u.modHe h _) ((congrArg Option.isSome (hcmd c.id)).trans hc) [], k.1.host,
    fun i hi => (State.goOn_cmd?_ne _ [] hi).trans (hcmd i), fun o ho => ?_⟩
  obtain ⟨d, -, rfl⟩ := List.mem_map.mp ho
  exact ⟨rfl, k.stamp c.allot d⟩

/-! ## TILE_OP_ISSUE (R62, R65, R68) -/

/-- Sequencer seq of hearth h holds list l of command c, and anvil v can take its next op. -/
structure State.CanIssue (s : State) (h seq v : Nat) (l : TileList) (c : Cmd) : Prop where
  holds : (s.he h).lists.find? (fun m => m.seq == seq) = some l
  cmd : s.cmd? l.cmd = some c
  free : (s.he h).anvilFree l v = true

theorem exec_tileOpIssue_none {s : State} {h seq v : Nat} {l : TileList} {c : Cmd} (k : s.CanIssue h seq v l c)
    (hn : l.ops.findIdx? (fun o => o.phase == .waiting) = none) : exec (.tileOpIssue h seq v) s = .next s := by
  show execTileOpIssue h seq v s = _
  simp [execTileOpIssue, k.holds, k.cmd, k.free, hn]

theorem exec_tileOpIssue_next {s : State} {h seq v : Nat} {l : TileList} {c : Cmd} (k : s.CanIssue h seq v l c) {j : Nat} {o : OpRec}
    (hj : l.ops.findIdx? (fun o => o.phase == .waiting) = some j) (ho : l.ops[j]? = some o) :
    exec (.tileOpIssue h seq v) s = .next (if s.opBlocked h l j = false then s.issueOp c h l j v
      else if o.waited then s
      else (s.modHe h (fun x => x.modList l.cmd (fun m => m.modOp j (fun p => { p with waited := true })))).countFor
        c 0x05 (some h) (some (dLayer o.desc)) 1) := by
  have hget : l.ops.getD j { desc := 0 } = o := by rw [List.getD_eq_getElem?_getD, ho]; rfl
  show execTileOpIssue h seq v s = _
  simp only [execTileOpIssue, k.holds, k.cmd, k.free, hj, hget]
  cases s.opBlocked h l j with
  | false => rfl
  | true => cases o.waited <;> rfl

theorem State.workOp_spec (s : State) (l : TileList) (o : OpRec) (j v : Nat) :
    (s.workOp l o j v).1.phase = .issued ∧ (s.workOp l o j v).1.anvil = v ∧ (s.workOp l o j v).1.desc = o.desc ∧
      (s.workOp l o j v).1.stamp = o.stamp := by
  unfold State.workOp
  dsimp only
  split
  · exact ⟨rfl, rfl, rfl, rfl⟩
  · exact ⟨rfl, rfl, rfl, rfl⟩

/-- An op that meets no poison goes to the anvil; besides, its fetches are counted and traced. -/
theorem State.issueOp_clean {s : State} {l : TileList} (hs : s.Clean l.allot) (c : Cmd) (h : Nat) {j : Nat} {o : OpRec} (ho : l.ops[j]? = some o)
    (v : Nat) : (s.modHe h (fun x => (x.modList l.cmd (fun m => m.modOp j (fun _ => (s.workOp l o j v).1))).noteShort)).Tallies
      (s.issueOp c h l j v) := by
  have hget : l.ops.getD j { desc := 0 } = o := by rw [List.getD_eq_getElem?_getD, ho]; rfl
  unfold State.issueOp
  simp only [hget, hs.poisonOf (maskRange_of _ _), hs.poisonOf (s.opReads_of _ _ _)]
  exact ((State.countOp_tallies _ _ _ _ _ _).trans (.foldl (fun u f => u.noteFetch_tallies _ _ _ _ _ _) _ _)).trans
    (State.traceAt_tallies _ _ _ _ _ _)

theorem TileList.modOp_same (l : TileList) {j : Nat} {o : OpRec} (h : l.ops[j]? = some o) (f : OpRec → OpRec) : (l.modOp j f).ops[j]? = some (f o) := by
  simp [TileList.modOp, modAt, h]

theorem TileList.modOp_ne (l : TileList) {j k : Nat} (h : k ≠ j) (f : OpRec → OpRec) : (l.modOp j f).ops[k]? = l.ops[k]? := by
  simp [TileList.modOp, modAt, h.symm]

theorem TileList.modOp_phases (l : TileList) (j : Nat) {f : OpRec → OpRec} (hf : ∀ o, (f o).phase = o.phase) :
    (l.modOp j f).ops.map (·.phase) = l.ops.map (·.phase) := by
  refine List.ext_getElem? (fun k => ?_)
  simp only [TileList.modOp, modAt, List.getElem?_map, List.getElem?_modify]
  cases l.ops[k]? with
  | none => rfl
  | some o =>
    by_cases h : j = k
    · simp [h, hf]
    · simp [h]

theorem State.Works.othersStand {s t : State} (h : s.Works t) (id : Nat) : s.OthersStand t id := fun j _ => h.cmd? j

/-- What an op that must wait leaves: no object and no command differs, every op has its phase, and the op has counted its wait (R65). -/
theorem State.issue_waits (s : State) {h seq : Nat} {l : TileList} (hh : h < s.hearths.length)
    (hl : (s.he h).lists.find? (fun m => m.seq == seq) = some l) (c : Cmd) (j layer : Nat) :
    let t := (s.modHe h (fun x => x.modList l.cmd (fun m => m.modOp j (fun p => { p with waited := true })))).countFor
        c 0x05 (some h) (some layer) 1
    (∀ a, (t.al a).objs = (s.al a).objs) ∧ s.OthersStand t l.cmd ∧
      (t.he h).lists.find? (fun m => m.seq == seq) = some (l.modOp j (fun p => { p with waited := true })) := by
  intro t
  have ht := State.countFor_tallies (s.modHe h (fun x => x.modList l.cmd (fun m => m.modOp j (fun p => { p with waited := true }))))
    c 0x05 (some h) (some layer) 1
  refine ⟨ht.objs, ht.othersStand l.cmd, ?_⟩
  rw [ht.lists, s.modHe_he_same _ hh]
  exact Hearth.modList_find? hl (fun _ => rfl)

/-- What an op that runs leaves: no object and no command differs, and of its list the op alone has been issued, to that anvil (R62, R68). -/
theorem State.issue_runs {s : State} {h seq j : Nat} {l : TileList} {o : OpRec} (hh : h < s.hearths.length)
    (hl : (s.he h).lists.find? (fun m => m.seq == seq) = some l) (ho : l.ops[j]? = some o) (hs : s.Clean l.allot) (c : Cmd) (v : Nat) :
    (∀ a, ((s.issueOp c h l j v).al a).objs = (s.al a).objs) ∧ s.OthersStand (s.issueOp c h l j v) l.cmd ∧
      ∃ b, ((s.issueOp c h l j v).he h).lists.find? (fun m => m.seq == seq) =
        some { l.modOp j (fun _ => (s.workOp l o j v).1) with short := b } := by
  have ht := State.issueOp_clean hs c h ho v
  refine ⟨ht.objs, ht.othersStand l.cmd, ?_⟩
  rw [ht.lists, s.modHe_he_same _ hh]
  exact Hearth.noteShort_find? (Hearth.modList_find? hl (fun _ => rfl)) (fun _ _ => rfl)

/-! ## TILE_OP_COMPLETE (R65, R67, R112) -/

/-- The code of a TILE_RUN whose ops have all finished (R67, R152). -/
def TileList.endCode (l : TileList) : Code :=
  if 0 < l.rerunOps then .retriedWider else if l.ops.any (·.spillOver) then .okWithNote else .ok

/-- DETAIL [17] tells a spillway overflow (R67). -/
theorem TileList.detail_spill (l : TileList) : l.detail.getLsbD 17 = l.ops.any (·.spillOver) := by
  have hw : satTo 65535 (l.ops.filter (·.waited)).length ≤ 65535 := by
    unfold satTo
    split <;> omega
  have hm := b2n_le_one (l.ops.any (·.allMasked))
  have hbit : b2n (l.ops.any (·.spillOver)) = 1 ↔ l.ops.any (·.spillOver) = true := by cases l.ops.any (·.spillOver) <;> decide
  rw [TileList.detail, w32, BitVec.getLsbD_ofNat, Nat.testBit_eq_decide_div_mod_eq, Bool.eq_iff_iff, ← hbit]
  have hs := b2n_le_one (l.ops.any (·.spillOver))
  simp only [Nat.reduceLT, decide_true, Bool.true_and, decide_eq_true_eq]
  omega

theorem TileList.endCode_rerun {l : TileList} (h : 0 < l.rerunOps) : l.endCode = .retriedWider := if_pos h

theorem TileList.endCode_once {l : TileList} (h : l.rerunOps = 0) : l.endCode = if l.ops.any (·.spillOver) then .okWithNote else .ok :=
  if_neg (by omega)

theorem TileList.endCode_okWithNote {l : TileList} (h : l.endCode = .okWithNote) : l.detail.getLsbD 17 = true := by
  rw [l.detail_spill]
  unfold TileList.endCode at h
  split at h
  · cases h
  · split at h
    · assumption
    · cases h

theorem TileList.endCode_ok {l : TileList} (h : l.endCode = .ok) : l.detail.getLsbD 17 = false := by
  rw [l.detail_spill]
  unfold TileList.endCode at h
  split at h
  · cases h
  · split at h
    · cases h
    · exact Bool.eq_false_iff.mpr ‹_›

/-- A list whose ops have all finished ends its TILE_RUN and leaves its sequencer (R67). -/
theorem State.endList_ends {s : State} {h id : Nat} {l : TileList} (hh : h < s.hearths.length)
    (hl : (s.he h).lists.find? (fun m => m.cmd == id) = some l) (hf : ∀ o ∈ l.ops, o.phase = .finished) (hc : (s.cmd? id).isSome = true) :
    (s.endList h id).Ended id l.endCode l.detail (w128 (l.ops.length + l.rerunOps * 2 ^ 32)) ∧
      (∀ m ∈ ((s.endList h id).he h).lists, m.cmd ≠ id) ∧ (s.endList h id).host = s.host := by
  let u := s.modHe h (fun x => { x with lists := x.lists.filter (fun m => m.cmd != id) })
  let t := u.finish id l.endCode l.detail (w128 (l.ops.length + l.rerunOps * 2 ^ 32))
  have hall : l.ops.all (fun o => o.phase == .finished) = true := by simpa using hf
  have he : s.endList h id = if l.endCode = .retriedWider then t.settleWith 8 0 else t := by
    simp only [State.endList, hl, hall, if_true]
    rfl
  have hw : t.Works (s.endList h id) := by
    rw [he]
    split
    · exact t.settleWith_works 8 0
    · exact .refl t
  refine ⟨?_, ?_, hw.host⟩
  · obtain ⟨d, hd, hrest⟩ := State.finish_ended (s := u) hc l.endCode l.detail (w128 (l.ops.length + l.rerunOps * 2 ^ 32))
    exact ⟨d, (hw.cmd? id).trans hd, hrest⟩
  · rw [hw.lists, show (t.he h) = u.he h from rfl, s.modHe_he_same _ hh]
    intro m hm
    simpa using (List.mem_filter.mp hm).2

/-- The list once its ops x have finished. -/
def Drain.finishList (x : Drain) (ovf : Bool) (l : TileList) : TileList :=
  x.ops.foldl (fun m e => m.modOp e.2 (fun q => { q with phase := .finished, spillOver := q.spillOver || ovf, sums := [], lifted := [] })) l

theorem Drain.finishList_cmd (x : Drain) (ovf : Bool) (l : TileList) : (x.finishList ovf l).cmd = l.cmd :=
  List.foldlRecOn (motive := fun m : TileList => m.cmd = l.cmd) x.ops _ rfl (fun _ hm _ _ => hm)

/-- The output of x is drained and counted. -/
def State.drainCounted (s : State) (x : Drain) : State :=
  let acc := (s.drain x).2
  let t := (((s.drain x).1.noteOps x acc).countConv x.c (some x.h) (some (dLayer x.d)) acc.w.stats).countRows x.c x.h
    (s.objD x.l.allot (dHandle x.d .o)) (x.rows.length * (if dAcc x.d = 1 ∨ (dAcc x.d = 2 ∧ sumInO x.d x.int = true) then 2 else 1)) (dN x.d)
  if dEpi x.d = 0 then t else t.countRows x.c x.h (s.objD x.l.allot (dHandle x.d .e)) x.head.fedRows.length (dN x.d)

/-- Its ops have finished in their list, and its buffers are released. -/
def State.opsFinished (s : State) (x : Drain) : State :=
  let t := (s.drainCounted x).modHe x.h (fun y => (y.modList x.l.cmd (x.finishList (s.drain x).2.w.ovf)).noteShort)
  let u := if x.rows = [] then t else t.modCmd x.c.id (fun c => { c with wrote := true })
  (x.ops.foldl (fun v e => v.traceAt x.h 5 (some x.l.allot) x.c.acc (s.opTrace x.h e.2 e.1 + b2n e.1.rerun * 2 ^ 56)) u).releaseGroup x.l x.d

theorem State.finishOps_clean {s : State} {x : Drain} (hs : s.Clean x.l.allot) :
    s.finishOps x = ((s.opsFinished x).modHe x.h Hearth.failIdle).raiseShort.endList x.h x.l.cmd := by
  unfold State.finishOps
  rw [hs.poisonOf (x.reads_of s), hs.poisonPartOf (x.writes_of s)]
  rfl

theorem State.drainCounted_works (s : State) (x : Drain) : s.Works (s.drainCounted x) := by
  unfold State.drainCounted
  extract_lets acc t
  have ht : s.Works t := (((s.drain_works x).trans (State.noteOps_works _ _ _)).trans (State.countConv_tallies _ _ _ _ _).toWorks).trans
    (State.countRows_tallies _ _ _ _ _ _).toWorks
  split
  · exact ht
  · exact ht.trans (t.countRows_tallies _ _ _ _ _).toWorks

theorem State.modCmd_isSome (s : State) (id j : Nat) {f : Cmd → Cmd} (hf : ∀ c, (f c).id = c.id) :
    ((s.modCmd id f).cmd? j).isSome = (s.cmd? j).isSome := by
  rw [State.modCmd_cmd? s id j f hf, Option.isSome_map]

/-- The ops that finish leave the host memory, the commands in flight and, but for lists and trace rings, every hearth; in their list
they have finished. -/
theorem State.opsFinished_spec (s : State) (x : Drain) (hh : x.h < s.hearths.length)
    (hl : (s.he x.h).lists.find? (fun m => m.cmd == x.l.cmd) = some x.l) :
    (s.opsFinished x).host = s.host ∧ (s.opsFinished x).hearths.length = s.hearths.length ∧
      (∀ id, ((s.opsFinished x).cmd? id).isSome = (s.cmd? id).isSome) ∧ (∀ k, (s.he k).UnitsStand ((s.opsFinished x).he k)) ∧
      ∃ b, ((s.opsFinished x).he x.h).lists.find? (fun m => m.cmd == x.l.cmd) =
        some { x.finishList (s.drain x).2.w.ovf x.l with short := b } := by
  unfold State.opsFinished
  extract_lets t u
  have hc := s.drainCounted_works x
  have hu : u.host = t.host ∧ u.hearths = t.hearths ∧ ∀ id, (u.cmd? id).isSome = (t.cmd? id).isSome := by
    dsimp only [u]
    split
    · exact ⟨rfl, rfl, fun _ => rfl⟩
    · exact ⟨rfl, rfl, fun id => t.modCmd_isSome x.c.id id (fun _ => rfl)⟩
  obtain ⟨hhost, hhe, hcmd⟩ := hu
  have hw := (State.Works.foldl (fun (v : State) (e : OpRec × Nat) => (v.traceAt_tallies x.h 5 (some x.l.allot) x.c.acc
    (s.opTrace x.h e.2 e.1 + b2n e.1.rerun * 2 ^ 56)).toWorks) x.ops u).trans (State.releaseGroup_works _ x.l x.d)
  have hut : ∀ k, u.he k = t.he k := fun k => by rw [State.he, hhe, State.he]
  refine ⟨hw.host.trans (hhost.trans hc.host), ?_, fun id => ?_, fun k => ?_, ?_⟩
  · rw [hw.hearths, hhe]
    exact (State.modHe_length _ _ _).trans hc.hearths
  · rw [hw.cmd?, hcmd]
    exact congrArg Option.isSome (hc.cmd? id)
  · have hstep := (s.drainCounted x).modHe_unitsStand x.h
      (fun y => (y.modList_unitsStand x.l.cmd (x.finishList (s.drain x).2.w.ovf)).trans (Hearth.noteShort_unitsStand _)) k
    refine ((hc.stand.units k).trans hstep).trans ?_
    have hk := hw.stand.units k
    rwa [hut] at hk
  · rw [hw.lists, hut, State.modHe_he_same _ _ (hc.hearths.symm ▸ hh)]
    refine Hearth.noteShort_find? (Hearth.modList_find? ?_ ?_) (fun _ _ => rfl)
    · rw [hc.lists]
      exact hl
    · intro m
      rw [x.finishList_cmd]

/-- With no anvil that waits to leave service, the row ends with the look at the list (R68, R74). -/
theorem State.finishOps_idle {s : State} {x : Drain} (hs : s.Clean x.l.allot)
    (hi : ∀ k, (s.he k).newlyShort = false ∧ ∀ v ∈ (s.he k).anvils, v.failing = false)
    (hu : ∀ k, (s.he k).UnitsStand ((s.opsFinished x).he k)) :
    ∃ u : State, s.finishOps x = u.endList x.h x.l.cmd ∧ u.host = (s.opsFinished x).host ∧ u.hg = (s.opsFinished x).hg ∧
      u.hearths.length = (s.opsFinished x).hearths.length ∧ u.he x.h = (s.opsFinished x).he x.h := by
  let t := s.opsFinished x
  have hidle : ∀ k, (t.he k).failIdle = t.he k := fun k => Hearth.failIdle_eq (by rw [(hu k).anvils]; exact (hi k).2)
  have hhe : ∀ k, (t.modHe x.h Hearth.failIdle).he k = t.he k := fun k => by
    rw [State.modHe_he]
    split
    · rename_i hk
      rw [hidle, hk.1]
    · rfl
  have hshort : (t.modHe x.h Hearth.failIdle).raiseShort = t.modHe x.h Hearth.failIdle :=
    State.raiseShort_eq (fun k => by rw [hhe, (hu k).newlyShort]; exact (hi k).1)
  refine ⟨t.modHe x.h Hearth.failIdle, ?_, rfl, rfl, State.modHe_length _ _ _, hhe x.h⟩
  rw [State.finishOps_clean hs, hshort]

/-- An issued op of an unsteered layer, outside a K-split group, drains when it completes (R112, R152). -/
theorem exec_tileOpComplete_unsteered {s : State} {h j : Nat} {l : TileList} {c : Cmd} {o : OpRec} (hh : h < 2)
    (hl : (s.he h).lists.find? (fun m => m.cmd == l.cmd) = some l) (hc : s.cmd? l.cmd = some c)
    (hk : ∀ k, k < h → ∀ m ∈ (s.he k).lists, m.cmd ≠ l.cmd) (ho : l.ops[j]? = some o) (hp : o.phase = .issued) (ha : dAcc o.desc ≠ 2)
    (hy : s.layer? l.allot (dLayer o.desc) = none) :
    exec (.tileOpComplete l.cmd j) s = .next (s.finishOps { l := l, h := h, c := c, ops := [(o, j)] }) := by
  have hin : (s.he h).lists.any (fun m => m.cmd == l.cmd) = true :=
    List.any_eq_true.mpr ⟨l, List.mem_of_find?_eq_some hl, beq_self_eq_true _⟩
  have hfind : [0, 1].find? (fun k => (s.he k).lists.any (fun m => m.cmd == l.cmd)) = some h := by
    obtain rfl | rfl : h = 0 ∨ h = 1 := by omega
    · simp only [List.find?_cons, hin]
    · have hn : (s.he 0).lists.any (fun m => m.cmd == l.cmd) = false := by simpa using hk 0 (by decide)
      simp only [List.find?_cons, hn, hin]
  have hj : s.judgeOps { l := l, h := h, c := c, ops := [(o, j)] } = s.finishOps { l := l, h := h, c := c, ops := [(o, j)] } := by
    unfold State.judgeOps
    rw [show s.layer? l.allot (dLayer (Drain.d { l := l, h := h, c := c, ops := [(o, j)] })) = none from hy]
  show execTileOpComplete l.cmd j s = _
  simp only [execTileOpComplete, hfind, hc, hl, ho, hp, ha, ne_eq, not_true_eq_false, not_false_eq_true, if_false, if_true, hj]

/-- The list of an op that was the last to finish. -/
theorem TileList.finished_of_last {l : TileList} {j : Nat} (ho : ∀ (k : Nat) (p : OpRec), k ≠ j → l.ops[k]? = some p → p.phase = .finished)
    {f : OpRec → OpRec} (hf : ∀ o, (f o).phase = .finished) : ∀ p ∈ (l.modOp j f).ops, p.phase = .finished := by
  intro p hp
  obtain ⟨k, hk⟩ := List.mem_iff_getElem?.mp hp
  by_cases h : k = j
  · rw [h] at hk
    obtain ⟨o, -, rfl⟩ : ∃ o, l.ops[j]? = some o ∧ f o = p := by simpa [TileList.modOp, modAt] using hk
    exact hf o
  · rw [l.modOp_ne h] at hk
    exact ho k p h hk

theorem TileList.modOp_spill {l : TileList} (j : Nat) {f : OpRec → OpRec} (hf : ∀ o, o.spillOver = true → (f o).spillOver = true)
    (h : ∃ p ∈ l.ops, p.spillOver = true) : (l.modOp j f).ops.any (·.spillOver) = true := by
  obtain ⟨p, hp, hs⟩ := h
  obtain ⟨k, hk⟩ := List.mem_iff_getElem?.mp hp
  refine List.any_eq_true.mpr ?_
  by_cases hkj : k = j
  · rw [hkj] at hk
    exact ⟨f p, List.mem_of_getElem? (l.modOp_same hk f), hf p hs⟩
  · exact ⟨p, List.mem_of_getElem? ((l.modOp_ne hkj f).trans hk), hs⟩

theorem TileList.modOp_length (l : TileList) (j : Nat) (f : OpRec → OpRec) : (l.modOp j f).ops.length = l.ops.length := by
  simp [TileList.modOp, modAt]

/-- The list with op j finished. -/
def TileList.finishOp (l : TileList) (j : Nat) (ovf : Bool) : TileList :=
  l.modOp j (fun q => { q with phase := .finished, spillOver := q.spillOver || ovf, sums := [], lifted := [] })

/-- The drain of one op of a list: it finishes, and its list is looked at for its end (R65, R67). -/
theorem State.finishOps_single {s : State} {h j : Nat} {l : TileList} {c : Cmd} {o : OpRec} (hh : h < s.hearths.length)
    (hl : (s.he h).lists.find? (fun m => m.cmd == l.cmd) = some l) (hs : s.Clean l.allot)
    (hi : ∀ k, (s.he k).newlyShort = false ∧ ∀ v ∈ (s.he k).anvils, v.failing = false) :
    ∃ (u : State) (ovf b : Bool), s.finishOps { l := l, h := h, c := c, ops := [(o, j)] } = u.endList h l.cmd ∧ u.host = s.host ∧
      h < u.hearths.length ∧ (∀ id, (u.cmd? id).isSome = (s.cmd? id).isSome) ∧
      (u.he h).lists.find? (fun m => m.cmd == l.cmd) = some { l.finishOp j ovf with short := b } := by
  obtain ⟨hhost, hlen, hcmd, hunits, b, hfind⟩ := s.opsFinished_spec { l := l, h := h, c := c, ops := [(o, j)] } hh hl
  obtain ⟨u, hfin, hu, hhg, hul, huh⟩ := State.finishOps_idle (x := { l := l, h := h, c := c, ops := [(o, j)] }) hs hi hunits
  refine ⟨u, _, b, hfin, hu.trans hhost, hul ▸ hlen ▸ hh, fun id => ?_, huh ▸ hfind⟩
  rw [State.cmd?, hhg]
  exact hcmd id

/-- The last op of a list ends its TILE_RUN, with a list m that has the ops and the re-run ones of l, and their overflows (R67). -/
theorem exec_tileOpComplete_last {s : State} {h j : Nat} {l : TileList} {c : Cmd} {o : OpRec} (hh : h < 2) (hlen : h < s.hearths.length)
    (hl : (s.he h).lists.find? (fun m => m.cmd == l.cmd) = some l) (hc : s.cmd? l.cmd = some c)
    (hk : ∀ k, k < h → ∀ m ∈ (s.he k).lists, m.cmd ≠ l.cmd) (ho : l.ops[j]? = some o) (hp : o.phase = .issued) (ha : dAcc o.desc ≠ 2)
    (hy : s.layer? l.allot (dLayer o.desc) = none) (hs : s.Clean l.allot)
    (hlast : ∀ (k : Nat) (p : OpRec), k ≠ j → l.ops[k]? = some p → p.phase = .finished)
    (hi : ∀ k, (s.he k).newlyShort = false ∧ ∀ v ∈ (s.he k).anvils, v.failing = false) :
    ∃ (t : State) (m : TileList), exec (.tileOpComplete l.cmd j) s = .next t ∧
      t.Ended l.cmd m.endCode m.detail (w128 (l.ops.length + l.rerunOps * 2 ^ 32)) ∧ m.rerunOps = l.rerunOps ∧
      ((∃ p ∈ l.ops, p.spillOver = true) → m.ops.any (·.spillOver) = true) ∧ (∀ m ∈ (t.he h).lists, m.cmd ≠ l.cmd) ∧ t.host = s.host := by
  obtain ⟨u, ovf, b, hfin, hhost, hul, hcmd, hfind⟩ := State.finishOps_single (c := c) (o := o) (j := j) hlen hl hs hi
  let m : TileList := { l.finishOp j ovf with short := b }
  have hmf : ∀ p ∈ m.ops, p.phase = .finished := TileList.finished_of_last hlast (fun _ => rfl)
  have hml : m.ops.length = l.ops.length := l.modOp_length j _
  have hcu : (u.cmd? l.cmd).isSome = true := by rw [hcmd, hc]; rfl
  obtain ⟨hended, hleft, hends⟩ := State.endList_ends hul hfind hmf hcu
  rw [hml] at hended
  have he := exec_tileOpComplete_unsteered hh hl hc hk ho hp ha hy
  exact ⟨_, m, he.trans (congrArg _ hfin), hended, rfl, TileList.modOp_spill j (fun q hq => by simp [hq]), hleft, hends.trans hhost⟩

/-- Settles O26: TILE_RUN by what its descriptors and buffers decide, the issue by the next op of the list, the completion by the end of
the list. -/
theorem tileRuns : Obligations.TileRuns := by
  refine ⟨?_, ?_, ?_⟩
  · intro s id seq c hruns hal hlen h ds hh hopen hclean
    obtain rfl : c.id = id := State.fresh?_id hruns.1
    have hread : s.TileReads c.id c := ⟨hruns, hopen, hclean⟩
    have hc : ((s.named c).cmd? c.id).isSome = true := by simp [State.fresh?_cmd hruns.1]
    refine ⟨fun j hj => ?_, fun hd hr => ⟨fun hu => ?_, fun u hu ha hk hq hfree => ?_⟩⟩
    · exact ⟨_, exec_tileRun_badDesc hread seq hj, State.finish_ended hc _ _ _, State.finish_onlyCmds _ _ _ _ _⟩
    · exact ⟨_, exec_tileRun_noRoom hread seq hd hr hu, State.finish_ended hc _ _ _, State.finish_onlyCmds _ _ _ _ _⟩
    · have hkeep := State.takeBuffers_keepsTemper hu
      have hhe : u.hearths = s.hearths := hkeep.1.hearths.trans (s.named_hearths c)
      obtain ⟨hwork, hhost, hothers, hops⟩ := hkeep.handOver c h seq ds hc
      obtain ⟨b, hfind⟩ := u.handOver_find? c seq ds (hhe ▸ hlen ▸ hh) (by rwa [State.he, hhe])
      refine ⟨_, _, exec_tileRun_handsOver hread hd hr hu ha hk hq hfree, hwork, rfl, hhost.trans (s.named_host c), fun i hi => ?_, hfind, rfl,
        rfl, rfl, rfl, List.map_map.trans (List.map_id' ds), hops⟩
      exact (hothers i hi).trans (s.named_cmd? c i)
  · intro s h seq v l c hlen hh hl hc _ hfree
    have hcan : s.CanIssue h seq v l c := ⟨hl, hc, hfree⟩
    have hhl : h < s.hearths.length := hlen ▸ hh
    refine ⟨exec_tileOpIssue_none hcan, fun j o hj ho hb => ?_, fun j o hj ho hb hs => ?_⟩
    · have he := exec_tileOpIssue_next hcan hj ho
      rw [hb, if_neg (by decide)] at he
      by_cases hw : o.waited = true
      · rw [if_pos hw] at he
        exact ⟨s, he, fun _ => rfl, fun _ _ => rfl, l, hl, rfl, o, ho, hw⟩
      · rw [if_neg hw] at he
        obtain ⟨hobjs, hothers, hfind⟩ := s.issue_waits hhl hl c j (dLayer o.desc)
        exact ⟨_, he, hobjs, hothers, _, hfind, l.modOp_phases j (fun _ => rfl), _, l.modOp_same ho _, rfl⟩
    · have he := exec_tileOpIssue_next hcan hj ho
      rw [if_pos hb] at he
      obtain ⟨hobjs, hothers, b, hfind⟩ := State.issue_runs hhl hl ho hs c v
      obtain ⟨hphase, hanvil, hdesc, hstamp⟩ := s.workOp_spec l o j v
      refine ⟨_, he, hobjs, hothers, _, _, hfind, l.modOp_same ho _, hphase, hanvil, hdesc, hstamp, fun k hk => ?_⟩
      rw [List.getElem?_map, List.getElem?_map]
      exact congrArg _ (l.modOp_ne hk _)
  · intro s h j l c o hlen hh hl hc hk ho hp ha hy hs _ hlast hidle
    obtain ⟨t, m, he, hended, hrerun, hspill, hleft, hhost⟩ := exec_tileOpComplete_last hh (hlen ▸ hh) hl hc hk ho hp ha hy hs hlast hidle
    rw [← hrerun] at hended ⊢
    refine ⟨t, m.endCode, m.detail, he, hended, TileList.endCode_rerun, fun h0 => ?_, fun h0 hsp => ?_, TileList.endCode_okWithNote,
      TileList.endCode_ok, hleft, hhost⟩
    · rw [TileList.endCode_once h0]
      split
      · exact .inr rfl
      · exact .inl rfl
    · rw [TileList.endCode_once h0, if_pos (hspill hsp)]

end Sys2Proof.Machine
end

section
/-! Rules for objects behind an update, the judgement of a command's fields, N4 tables and GRID_LOAD (R83 to R85, R294, R318, R328). -/

namespace Sys2Proof.Machine

/-! ## Objects behind an update (R250, R251) -/

/-- Reading a table behind the update of an entry. -/
theorem look_upd {α : Type} (k j : Nat) (f : α → α) (m : List (Nat × α)) :
    look j (upd k f m) = if j = k then (look j m).map f else look j m := by
  induction m with
  | nil => simp [upd, look]
  | cons e r ih =>
    obtain ⟨i, v⟩ := e
    change look j ((if i = k then (i, f v) else (i, v)) :: upd k f r) = _
    by_cases hi : i = j
    · subst hi
      split <;> simp [look]
    · split <;> simp [look, hi, ih]

/-- An object behind an update of it that keeps the REUSE count of its handle. -/
theorem State.modObj_obj?_same {s : State} {a h : Nat} {o : Obj} (ha : a < s.allots.length) (ho : s.obj? a h = some o) {f : Obj → Obj}
    (hf : (f o).reuse = o.reuse) : (s.modObj a h f).obj? a h = some (f o) := by
  unfold State.obj? Allot.obj? at ho ⊢
  rw [State.modObj, State.modAl_al_same s _ ha, look_upd, if_pos rfl]
  cases hl : look (handleIndex h) (s.al a).objs with
  | none => simp [hl] at ho
  | some p =>
    simp only [hl, Option.ite_none_right_eq_some, Option.some.injEq] at ho
    obtain ⟨hr, rfl⟩ := ho
    simp [hf, hr]

/-- An update of an object leaves every other object. -/
theorem State.modObj_objsStand (s : State) (a h : Nat) (f : Obj → Obj) : s.ObjsStand (s.modObj a h f) a (handleIndex h) := by
  intro b j hbj
  rw [State.modObj, State.modAl_al]
  split
  · rename_i hab
    obtain ⟨rfl, _⟩ := hab
    rw [look_upd, if_neg (hbj.resolve_left (fun hne => hne rfl))]
  · rfl

/-! ## The judgement of the fields (R294, R314, R318) -/

/-- Byte i lies in a field of the layout. -/
def inField (fs : List Fld) (i : Nat) : Prop := ∃ f ∈ fs, f.off ≤ i ∧ i < f.off + f.size

theorem inField_iff (fs : List Fld) (i : Nat) : fs.any (fun f => decide (f.off ≤ i) && decide (i < f.off + f.size)) = true ↔ inField fs i := by
  simp [inField]

/-- A failing reserved field is the run of reserved bytes from its start to a nonzero byte. -/
theorem rsvdFrom_run {fs : List Fld} {p n i at0 o : Nat} (hrun : ∀ j, at0 ≤ j → j < i → ¬ inField fs j) (hi : at0 ≤ i)
    (h : rsvdFrom fs p n i at0 = some o) : ∃ k, o ≤ k ∧ fieldOf p k 1 ≠ 0 ∧ ∀ j, o ≤ j → j ≤ k → ¬ inField fs j := by
  induction n generalizing i at0 with
  | zero => cases h
  | succ n ih =>
    unfold rsvdFrom at h
    split at h
    · exact ih (fun j hj hji => absurd hji (Nat.not_lt.mpr hj)) (Nat.le_refl _) h
    · rename_i hin
      rw [inField_iff] at hin
      have hrun' : ∀ j, at0 ≤ j → j ≤ i → ¬ inField fs j := fun j hj hji =>
        (Nat.lt_or_eq_of_le hji).elim (hrun j hj) (fun e => e ▸ hin)
      split at h
      · exact ih (fun j hj hji => hrun' j hj (Nat.le_of_lt_succ hji)) (Nat.le_succ_of_le hi) h
      · rename_i hz
        cases h
        exact ⟨i, hi, hz, hrun'⟩

/-- The first failing offset is the least of the reserved field's and of the failing fields'. -/
theorem firstFail_eq_min? (fs : List Fld) (p plen : Nat) :
    firstFail fs p plen = ((rsvdFrom fs p plen 0 0).toList ++ (fs.filter (fun f => !f.ok)).map (·.off)).min? := by
  unfold firstFail
  cases rsvdFrom fs p plen 0 0 with
  | some o => rfl
  | none => cases (fs.filter (fun f => !f.ok)).map (fun f => f.off) <;> rfl

/-- Where nothing fails, every field meets its rules. -/
theorem ok_of_firstFail_none {fs : List Fld} {p plen : Nat} (h : firstFail fs p plen = none) : ∀ f ∈ fs, f.ok = true := by
  rw [firstFail_eq_min?, List.min?_eq_none_iff, List.append_eq_nil_iff, List.map_eq_nil_iff, List.filter_eq_nil_iff] at h
  obtain ⟨_, hok⟩ := h
  simpa using hok

/-- A failing field is the first failure when no failing field lies before it and no reserved field that fails does. -/
theorem firstFail_of_first {fs : List Fld} {p plen : Nat} {f : Fld} (hf : f ∈ fs) (hbad : f.ok = false)
    (hleast : ∀ g ∈ fs, g.ok = false → f.off ≤ g.off) (hrsvd : ∀ o, rsvdFrom fs p plen 0 0 = some o → f.off ≤ o) :
    firstFail fs p plen = some f.off := by
  rw [firstFail_eq_min?, List.min?_eq_some_iff]
  refine ⟨List.mem_append_right _ (List.mem_map_of_mem (List.mem_filter.mpr ⟨hf, by simp [hbad]⟩)), fun o ho => ?_⟩
  rcases List.mem_append.mp ho with ho | ho
  · exact hrsvd o (Option.mem_toList.mp ho)
  · obtain ⟨g, hg, rfl⟩ := List.mem_map.mp ho
    obtain ⟨hmem, hgbad⟩ := List.mem_filter.mp hg
    exact hleast g hmem (by simpa using hgbad)

/-- The fields of a command that runs meet their rules. -/
theorem State.Runs.ok {s : State} {id op : Nat} {fs : State → Cmd → List Fld} {c : Cmd} (h : s.Runs id op fs c) :
    ∀ f ∈ fs s c, f.ok = true := by
  obtain ⟨_, _, hj⟩ := h
  refine ok_of_firstFail_none (p := c.params) (plen := c.plen) ?_
  cases hff : firstFail (fs s c) c.params c.plen with
  | none => rfl
  | some o => simp [State.judgeInline, firstBad, Cmd.checkFields, hff] at hj

/-- A failing field gives BAD_PARAM with its packet offset (R318). -/
theorem State.judgeInline_of_firstFail (s : State) {c : Cmd} {fs : List Fld} {o : Nat} (h : firstFail fs c.params c.plen = some o) :
    s.judgeInline c fs = some (badParam (16 + o) (c.failIndex o)) := by
  simp [State.judgeInline, firstBad, Cmd.checkFields, h]

theorem State.started?_opcode {s : State} {id op : Nat} {c : Cmd} (h : s.started? id op = some c) : c.opcode = op := by
  unfold State.started? at h
  split at h
  · split at h
    · rename_i hc
      cases h
      exact hc.1
    · cases h
  · cases h

theorem State.fresh?_opcode {s : State} {id op : Nat} {c : Cmd} (h : s.fresh? id op = some c) : c.opcode = op := by
  unfold State.fresh? at h
  split at h
  · split at h
    · rename_i hs _
      cases h
      exact State.started?_opcode hs
    · cases h
  · cases h

/-! ## N4 tables (R83, R84) -/

/-- A table has no failing entry exactly when R84 allows it. -/
theorem gridBad_none_iff (g : List Nat) : gridBad g = none ↔ GridLegal g := by
  simp only [gridBad, List.find?_eq_none, List.mem_range, GridLegal]
  refine forall_congr' fun c => forall_congr' fun _ => ?_
  simp only [bitOf, Bool.or_eq_true, Bool.and_eq_true, bne_iff_ne, beq_iff_eq, decide_eq_true_eq, not_or, not_and, Decidable.not_not, Nat.not_le,
    and_assoc, ne_eq]

theorem gridBad_lt {g : List Nat} {i : Nat} (h : gridBad g = some i) : i < 16 := List.mem_range.mp (List.mem_of_find?_eq_some h)

/-! ## GRID_LOAD (R328) -/

/-- The state in which the N4 tensor that a GRID_LOAD names has the grid g. -/
def State.withGrid (s : State) (c : Cmd) (g : List Nat) : State :=
  (s.modObj c.allot (c.par 0 4) (fun o => { o with t := { o.t with grid := g } })).finishOk c.id 0

/-- A GRID_LOAD that runs loads its table, or with ACTION 1 selects the default grid. -/
theorem exec_gridLoad_runs {s : State} {id : Nat} {c : Cmd} (h : s.Runs id 0x0405 gridLoadFields c) :
    exec (.gridLoad id) s = .next ((s.named c).withGrid c (if c.par 4 1 = 1 then [] else c.gridTable)) := by
  have hid : c.id = id := State.fresh?_id h.1
  subst hid
  show execGridLoad c.id s = _
  exact State.deant_runs h _

/-- The grid alone changes, in the one object that the command names. -/
theorem State.withGrid_spec {s : State} {c : Cmd} {o : Obj} (hc : (s.cmd? c.id).isSome) (ha : c.allot < s.allots.length)
    (ho : s.obj? c.allot (c.par 0 4) = some o) (g : List Nat) :
    (s.withGrid c g).Ended c.id .ok 0 0 ∧ (s.withGrid c g).obj? c.allot (c.par 0 4) = some { o with t := { o.t with grid := g } } ∧
      s.ObjsStand (s.withGrid c g) c.allot (handleIndex (c.par 0 4)) :=
  ⟨State.finish_ended hc _ _ _, State.modObj_obj?_same ha ho rfl, s.modObj_objsStand _ _ _⟩

/-- A GRID_LOAD that runs ends with the grid of its ACTION in the object it names. -/
theorem gridLoad_runs {s : State} {id : Nat} {c : Cmd} {o : Obj} (h : s.Runs id 0x0405 gridLoadFields c) (ha : c.allot < s.allots.length)
    (ho : (s.named c).obj? c.allot (c.par 0 4) = some o) {g : List Nat} (hg : (if c.par 4 1 = 1 then [] else c.gridTable) = g) :
    ∃ t, exec (.gridLoad id) s = .next t ∧ t.Ended id .ok 0 0 ∧ t.obj? c.allot (c.par 0 4) = some { o with t := { o.t with grid := g } } ∧
      (s.named c).ObjsStand t c.allot (handleIndex (c.par 0 4)) := by
  have hf := h.1
  have hid : c.id = id := State.fresh?_id hf
  have hc : ((s.named c).cmd? c.id).isSome := by simp [hid, State.fresh?_cmd hf]
  have ha' : c.allot < (s.named c).allots.length := (s.named_same c).2 ▸ ha
  have hspec := State.withGrid_spec hc ha' ho g
  rw [hid] at hspec
  exact ⟨_, hg ▸ exec_gridLoad_runs h, hspec⟩

/-- The table of a GRID_LOAD with ACTION 0 that runs is legal. -/
theorem State.Runs.gridLegal {s : State} {id : Nat} {c : Cmd} (h : s.Runs id 0x0405 gridLoadFields c) (h0 : c.par 4 1 = 0) :
    GridLegal c.gridTable := by
  have hok := h.ok ⟨8, 16, (gridBad c.gridTable).isNone⟩ (by simp [gridLoadFields, h0])
  exact (gridBad_none_iff _).mp (Option.isNone_iff_eq_none.mp hok)

/-- The bytes of a field of four bytes that is 0 are 0. -/
theorem fieldOf_byte_of_zero {p k : Nat} (h : fieldOf p 4 4 = 0) (hk : 4 ≤ k) (hk' : k < 8) : fieldOf p k 1 = 0 := by
  simp only [fieldOf, Nat.shiftRight_eq_div_pow] at h ⊢
  obtain rfl | rfl | rfl | rfl : k = 4 ∨ k = 5 ∨ k = 6 ∨ k = 7 := by omega
  all_goals omega

/-- With ACTION and the reserved bytes behind it 0, no reserved field before TABLE fails. -/
theorem gridLoad_rsvd {s : State} {c : Cmd} (h : c.par 4 4 = 0) {o : Nat}
    (ho : rsvdFrom (gridLoadFields s c) c.params c.plen 0 0 = some o) : 8 ≤ o := by
  have hin : ∀ j, j < 5 ∨ j = 8 → inField (gridLoadFields s c) j := by
    intro j hj
    rcases hj with hj | rfl
    · rcases Nat.lt_or_ge j 4 with h4 | h4
      · exact ⟨_, List.mem_cons_self, Nat.zero_le _, by simpa using h4⟩
      · exact ⟨c.ranged 4 1 0 1, by simp [gridLoadFields], h4, hj⟩
    · unfold gridLoadFields
      split
      · exact ⟨c.mustBe0 8 16, by simp, by simp [Cmd.mustBe0]⟩
      · exact ⟨⟨8, 16, (gridBad c.gridTable).isNone⟩, by simp, by simp⟩
  obtain ⟨k, hok, hz, hrun⟩ := rsvdFrom_run (fun j _ hj => absurd hj (Nat.not_lt_zero j)) (Nat.le_refl 0) ho
  refine Nat.le_of_not_lt fun hlt => ?_
  have hk8 : k < 8 := Nat.lt_of_not_le (fun hk => hrun 8 (Nat.le_of_lt hlt) hk (hin 8 (.inr rfl)))
  have hk5 : 5 ≤ k := Nat.le_of_not_lt (fun hk => hrun k hok (Nat.le_refl k) (hin k (.inl hk)))
  exact hz (fieldOf_byte_of_zero h (Nat.le_of_succ_le hk5) hk8)

/-- A table that R84 does not allow is the first failing field. -/
theorem gridLoad_firstFail {s : State} {c : Cmd} {i : Nat} (hn : s.nameable c.allot (c.par 0 4) = true)
    (hr : (s.objD c.allot (c.par 0 4)).t.raw = false) (hf : (s.objD c.allot (c.par 0 4)).t.fmt = 1) (h0 : c.par 4 4 = 0)
    (hact : c.par 4 1 = 0) (hg : gridBad c.gridTable = some i) : firstFail (gridLoadFields s c) c.params c.plen = some 8 :=
  firstFail_of_first (f := ⟨8, 16, (gridBad c.gridTable).isNone⟩) (by simp [gridLoadFields, hact]) (by simp [hg])
    (by simp [gridLoadFields, hact, hn, hr, hf, Cmd.ranged, inRange]) (fun _ => gridLoad_rsvd h0)

/-- A table that R84 does not allow gives BAD_PARAM with its first failing entry in INDEX. -/
theorem gridLoad_judged {s : State} {id : Nat} {c : Cmd} {i : Nat} (hc : s.fresh? id 0x0405 = some c)
    (hn : s.nameable c.allot (c.par 0 4) = true) (hr : (s.objD c.allot (c.par 0 4)).t.raw = false)
    (hf : (s.objD c.allot (c.par 0 4)).t.fmt = 1) (h0 : c.par 4 4 = 0) (hg : gridBad c.gridTable = some i) :
    s.judgeInline c (gridLoadFields s c) = some (.badParam, w32 (24 + 65536 * i)) := by
  have hact : c.par 4 1 = 0 := fieldOf_byte_of_zero h0 (Nat.le_refl 4) (by decide)
  have hi := gridBad_lt hg
  have hidx : c.failIndex 8 = i := by simp [Cmd.failIndex, State.fresh?_opcode hc, hact, hg]
  rw [State.judgeInline_of_firstFail s (gridLoad_firstFail hn hr hf h0 hact hg), hidx, badParam, satTo_eq_min, Nat.min_eq_right (by omega)]

theorem exec_gridLoad_rejects {s : State} {id : Nat} {c : Cmd} {v : Code × W32} (hc : s.fresh? id 0x0405 = some c) (hr : s.ready c = true)
    (hv : s.judgeInline c (gridLoadFields s c) = some v) : exec (.gridLoad id) s = .next (s.reject id v) := by
  show execGridLoad id s = _
  exact State.deant_rejects hc hr hv _

/-- Settles O28: a load by the grid it leaves, a table that R84 does not allow by the judgement of its fields. -/
theorem gridLoad : Obligations.GridLoad := by
  refine ⟨gridBad_none_iff, fun s id c o h ha ho => ⟨fun h1 => ?_, fun h0 => ?_⟩, fun s id c i hc hready hn hr hf h0 hg => ?_⟩
  · exact gridLoad_runs h ha ho (if_pos h1)
  · exact ⟨h.gridLegal h0, gridLoad_runs h ha ho (if_neg (by omega))⟩
  · have hcmd : (s.cmd? id).isSome := by simp [State.fresh?_cmd hc]
    exact ⟨_, exec_gridLoad_rejects hc hready (gridLoad_judged hc hn hr hf h0 hg), gridBad_lt hg, State.finish_ended hcmd _ _ _,
      s.finish_onlyCmds _ _ _ _⟩

end Sys2Proof.Machine
end

section
/-! Rules for the sums of an anvil: a product taken into a sum, the sum of lines off the strip, the range of an FP32 rounding. -/

namespace Sys2Proof.Machine

/-! ## The sum of lines (R108) -/

/-- The product of a line off the strip, as it enters the accumulator. -/
def gridProduct (l : Line) : W32 × Nat × Nat := enterProduct (l.2.1.num.mul l.2.2.num)

/-- The sum of lines off the strip, in increasing contraction index. -/
def gridSum (comp : Bool) (ls : List Line) : Sum := ls.foldl (fun a l => a.push comp (gridProduct l)) {}

@[simp] theorem Sum.push_any (x : Sum) (comp : Bool) (p : W32 × Nat × Nat) : (x.push comp p).any = true := by
  unfold Sum.push
  split
  · rfl
  · have hany : x.any = true := by simpa using ‹¬(!x.any) = true›
    split <;> exact hany

theorem Sum.push_s_of_empty {x : Sum} (h : x.any = false) (comp : Bool) (p : W32 × Nat × Nat) : (x.push comp p).s = p.1 := by
  simp [Sum.push, h]

theorem Sum.push_s_of_any {x : Sum} (h : x.any = true) (p : W32 × Nat × Nat) : (x.push false p).s = (accAdd x.s p.1).1 := by
  simp [Sum.push, h]

theorem gridSum_append_singleton (comp : Bool) (ls : List Line) (l : Line) :
    gridSum comp (ls ++ [l]) = (gridSum comp ls).push comp (gridProduct l) := by
  simp [gridSum]

theorem gridSum_any (comp : Bool) {ls : List Line} (h : ls ≠ []) : (gridSum comp ls).any = true := by
  rw [← List.dropLast_concat_getLast h, gridSum_append_singleton, Sum.push_any]

theorem gridSum_singleton_s (comp : Bool) (l : Line) : (gridSum comp [l]).s = (gridProduct l).1 :=
  Sum.push_s_of_empty (x := {}) rfl comp _

/-- A further product is one rounded addition. -/
theorem gridSum_append_singleton_s {ls : List Line} (h : ls ≠ []) (l : Line) :
    (gridSum false (ls ++ [l])).s = (accAdd (gridSum false ls).s (gridProduct l).1).1 := by
  rw [gridSum_append_singleton, Sum.push_s_of_any (gridSum_any false h)]

/-- The strip has no part in a sum none of whose lines runs there. -/
theorem sumLines_eq_gridSum (comp : Bool) {ls : List Line} (h : ∀ k ∈ ls, k.1 = false) : sumLines false comp ls = gridSum comp ls := by
  have hgrid : ls.filter (fun l => !l.1) = ls := List.filter_eq_self.mpr fun k hk => by simp [h k hk]
  have hstrip : ls.filter (fun l => l.1) = [] := List.filter_eq_nil_iff.mpr fun k hk => by simp [h k hk]
  simp only [sumLines, hgrid, hstrip]
  rfl

/-- Further products that are all w leave a sum of w, where the addition of w and w gives w. -/
theorem foldl_push_s_of_forall {w : W32} (hw : (accAdd w w).1 = w) {ls : List Line} (h : ∀ k ∈ ls, (gridProduct k).1 = w) {x : Sum}
    (hany : x.any = true) (hs : x.s = w) : (ls.foldl (fun a l => a.push false (gridProduct l)) x).s = w := by
  induction ls generalizing x with
  | nil => exact hs
  | cons l r ih =>
    have hpush : (x.push false (gridProduct l)).s = w := by
      rw [Sum.push_s_of_any hany, hs, h l List.mem_cons_self, hw]
    exact ih (fun k hk => h k (List.mem_cons_of_mem l hk)) (Sum.push_any x false _) hpush

/-- The sum of lines whose products are all w is w, where the addition of w and w gives w. -/
theorem gridSum_s_of_forall {w : W32} (hw : (accAdd w w).1 = w) {ls : List Line} (hne : ls ≠ []) (h : ∀ k ∈ ls, (gridProduct k).1 = w) :
    (gridSum false ls).s = w := by
  cases ls with
  | nil => exact absurd rfl hne
  | cons l r =>
    have hfirst : (gridSum false [l]).s = w := (gridSum_singleton_s false l).trans (h l List.mem_cons_self)
    exact foldl_push_s_of_forall hw (fun k hk => h k (List.mem_cons_of_mem l hk)) (gridSum_any false (List.cons_ne_nil l [])) hfirst

/-! ## The range of a rounding (R109) -/

@[simp] theorem rne_zero (e q : Int) : rne 0 e q = 0 := by
  simp [rne, alignTo]

/-- A magnitude below 2^(q + k) rounds to at most 2^k multiples of 2^q. -/
theorem rne_le {m k : Nat} {e q : Int} (h : flog2 m e < q + k) : rne m e q ≤ 2 ^ k := by
  have hm : m < 2 ^ (m.log2 + 1) := Nat.lt_log2_self
  unfold flog2 at h
  unfold rne
  split
  · next hqe =>
    calc m <<< (e - q).toNat = m * 2 ^ (e - q).toNat := Nat.shiftLeft_eq _ _
      _ ≤ 2 ^ (m.log2 + 1) * 2 ^ (e - q).toNat := Nat.mul_le_mul_right _ (Nat.le_of_lt hm)
      _ = 2 ^ (m.log2 + 1 + (e - q).toNat) := (Nat.pow_add ..).symm
      _ ≤ 2 ^ k := Nat.pow_le_pow_right (by decide) (by omega)
  · next hqe =>
    have hn : m >>> (q - e).toNat < 2 ^ k := by
      rw [Nat.shiftRight_eq_div_pow, Nat.div_lt_iff_lt_mul (Nat.two_pow_pos _), ← Nat.pow_add]
      exact Nat.lt_of_lt_of_le hm (Nat.pow_le_pow_right (by decide) (by omega))
    simp only
    split <;> omega

/-- A magnitude of at least 2^(q + k) rounds to at least 2^k multiples of 2^q. -/
theorem le_rne {m k : Nat} {e q : Int} (hm : m ≠ 0) (h : q + k ≤ flog2 m e) : 2 ^ k ≤ rne m e q := by
  have hm : 2 ^ m.log2 ≤ m := Nat.log2_self_le hm
  unfold flog2 at h
  unfold rne
  split
  · next hqe =>
    calc 2 ^ k ≤ 2 ^ (m.log2 + (e - q).toNat) := Nat.pow_le_pow_right (by decide) (by omega)
      _ = 2 ^ m.log2 * 2 ^ (e - q).toNat := Nat.pow_add ..
      _ ≤ m * 2 ^ (e - q).toNat := Nat.mul_le_mul_right _ hm
      _ = m <<< (e - q).toNat := (Nat.shiftLeft_eq _ _).symm
  · next hqe =>
    have hn : 2 ^ k ≤ m >>> (q - e).toNat := by
      rw [Nat.shiftRight_eq_div_pow, Nat.le_div_iff_mul_le (Nat.two_pow_pos _), ← Nat.pow_add]
      exact Nat.le_trans (Nat.pow_le_pow_right (by decide) (by omega)) hm
    simp only
    split <;> omega

/-- The multiples of the quantum that an FP32 rounding gives: at most 2^24, at least 2^23 above the smallest quantum. -/
theorem rne_quantum32 (m : Nat) (e : Int) :
    -149 ≤ fmt32.quantum m e ∧ rne m e (fmt32.quantum m e) ≤ 2 ^ 24 ∧
      (-149 < fmt32.quantum m e → 2 ^ 23 ≤ rne m e (fmt32.quantum m e)) := by
  by_cases hm : m = 0
  · simp [hm, BinFmt.quantum, fmt32]
  · have hq : fmt32.quantum m e = max (flog2 m e) (-126) - 23 := by
      simp only [BinFmt.quantum, fmt32, hm, if_false]
      omega
    rw [hq]
    exact ⟨by omega, rne_le (by omega), fun h => le_rne hm (by omega)⟩

/-- Multiples of the quantum that are not beyond the largest finite number have bits below those of infinity. -/
theorem bits32_lt {n : Nat} {q : Int} (hq : -149 ≤ q) (hn : n ≤ 2 ^ 24) (hnorm : -149 < q → 2 ^ 23 ≤ n) (hb : fmt32.beyond n q = false) :
    fmt32.bits n q < 0x7F800000 := by
  have hbits : fmt32.bits n q = (q + 149).toNat * 2 ^ 23 + n := by
    simp [BinFmt.bits, fmt32, Nat.shiftLeft_eq]
  have hmag : alignTo n q (min 104 q) ≤ alignTo 0xFFFFFF 104 (min 104 q) := Nat.le_of_not_lt (of_decide_eq_false hb)
  rw [hbits]
  rcases Int.lt_trichotomy q 104 with hlt | rfl | hgt
  · omega
  · have : n ≤ 0xFFFFFF := by simpa [alignTo] using hmag
    omega
  · have hshift : n * 2 ^ (q - 104).toNat ≤ 0xFFFFFF := by
      simpa [alignTo, Int.min_eq_left (Int.le_of_lt hgt), Nat.shiftLeft_eq] using hmag
    have htwo : 2 ^ 1 ≤ 2 ^ (q - 104).toNat := Nat.pow_le_pow_right (by decide) (by omega)
    have := Nat.mul_le_mul (hnorm (by omega)) htwo
    omega

/-- An FP32 rounding gives the sign and a magnitude below that of infinity. -/
theorem round32_fst (s : Bool) (m : Nat) (e : Int) : ∃ b < 0x7F800000, (round32 s m e).1 = signBit s + b := by
  obtain ⟨hq, hn, hnorm⟩ := rne_quantum32 m e
  unfold round32
  cases hb : fmt32.beyond (rne m e (fmt32.quantum m e)) (fmt32.quantum m e) with
  | true => exact ⟨0x7F7FFFFF, by decide, by simp [hb]⟩
  | false => exact ⟨_, bits32_lt hq hn hnorm hb, by simp [hb]⟩

theorem dec32_isFin_iff (w : W32) : (dec32 w).isFin = true ↔ bitsOf w.toNat 23 8 ≠ 255 := by
  unfold dec32
  simp only
  split
  · next h => split <;> simp [Fp.isFin, h]
  · next h => split <;> simp [Fp.isFin, h]

/-- A sign and a magnitude below that of infinity are a finite number. -/
theorem dec32_isFin_of_lt (s : Bool) {b : Nat} (h : b < 0x7F800000) : (dec32 (w32 (signBit s + b))).isFin = true := by
  rw [dec32_isFin_iff]
  cases s <;> simp [signBit, bitsOf, w32, Nat.shiftRight_eq_div_pow] <;> omega

theorem sat32_fin_fst (s : Bool) (m : Nat) (e : Int) : (sat32 (.fin s m e)).1 = w32 (round32 s m e).1 := by
  rcases h : round32 s m e with ⟨b, _ | _⟩ <;> simp [sat32, h]

/-- The saturating rounding of a finite number is finite. -/
theorem sat32_isFin {x : Fp} (h : x.isFin = true) : (dec32 (sat32 x).1).isFin = true := by
  cases x with
  | nan s => cases h
  | inf s => cases h
  | fin s m e =>
    obtain ⟨b, hb, hr⟩ := round32_fst s m e
    rw [sat32_fin_fst, hr]
    exact dec32_isFin_of_lt s hb

theorem Fp.add_isFin {x y : Fp} (hx : x.isFin = true) (hy : y.isFin = true) : (x.add y).isFin = true := by
  cases x with
  | nan s => cases hx
  | inf s => cases hx
  | fin s m e =>
    cases y with
    | nan t => cases hy
    | inf t => cases hy
    | fin t n f =>
      simp only [Fp.add]
      split <;> rfl

theorem accAdd_isFin {a b : W32} (ha : (dec32 a).isFin = true) (hb : (dec32 b).isFin = true) : (dec32 (accAdd a b).1).isFin = true :=
  sat32_isFin (Fp.add_isFin ha hb)

/-- The sum of infinities of both signs is the canonical NaN. -/
theorem accAdd_inf_inf {a b : W32} {s : Bool} (ha : dec32 a = .inf s) (hb : dec32 b = .inf !s) : (accAdd a b).1 = 0x7FC00000#32 := by
  simp [accAdd, ha, hb, Fp.add, sat32]

/-- Settles O27: the sum off the strip by its last line, the range of the addition by that of the rounding to FP32. -/
theorem tileSums : Obligations.TileSums := by
  have hinf : dec32 0x7F800000#32 = .inf false ∧ dec32 0xFF800000#32 = .inf true := by decide
  refine ⟨fun int comp => ?_, fun l hl => ?_, fun ls l hne hls hl => ?_, fun ls hne h => ?_, fun _ _ => accAdd_isFin,
    accAdd_inf_inf hinf.1 hinf.2, accAdd_inf_inf hinf.2 hinf.1⟩
  · cases int <;> rfl
  · rw [sumLines_eq_gridSum false (List.forall_mem_singleton.mpr hl)]
    exact gridSum_singleton_s false l
  · have hall : ∀ k ∈ ls ++ [l], k.1 = false := List.forall_mem_append.mpr ⟨hls, List.forall_mem_singleton.mpr hl⟩
    rw [sumLines_eq_gridSum false hall, sumLines_eq_gridSum false hls]
    exact gridSum_append_singleton_s hne l
  · rw [sumLines_eq_gridSum false fun k hk => (h k hk).1]
    exact gridSum_s_of_forall (by decide) hne fun k hk => (h k hk).2

end Sys2Proof.Machine
end

section
/-! Rules for the commands of precision steering: what noting names, charging and the attention leave of an allotment, bytes put into a
destination, and the rows of TEMPER_SET, SPILL_SET, SCALE_SET, TEMPER_READ and STATS_READ (R161 to R166, R169, R195). -/

namespace Sys2Proof.Machine

/-! ## Naming keeps precision steering, and every handle (R268, R272) -/

/-- Every allotment keeps its precision steering, and every handle resolves as it did. -/
structure State.Notes (s t : State) : Prop where
  temper : ∀ a, (t.al a).temper = (s.al a).temper
  handles : ∀ a h, (t.obj? a h).isSome = (s.obj? a h).isSome

theorem State.Notes.refl (s : State) : s.Notes s := ⟨fun _ => rfl, fun _ _ => rfl⟩

theorem State.Notes.trans {s t u : State} (h : s.Notes t) (k : t.Notes u) : s.Notes u :=
  ⟨fun a => (k.temper a).trans (h.temper a), fun a i => (k.handles a i).trans (h.handles a i)⟩

/-- An update of objects that keeps their REUSE counts keeps the handles that resolve. -/
theorem Allot.obj?_upd_isSome (x : Allot) (k : Nat) {f : Obj → Obj} (hf : ∀ o, (f o).reuse = o.reuse) (h : Nat) :
    (({ x with objs := Machine.upd k f x.objs } : Allot).obj? h).isSome = (x.obj? h).isSome := by
  unfold Allot.obj?
  dsimp only
  rw [look_upd]
  by_cases hk : handleIndex h = k
  · rw [if_pos hk]
    cases hl : look (handleIndex h) x.objs with
    | none => rfl
    | some o =>
      simp only [Option.map_some, hf]
      split <;> rfl
  · rw [if_neg hk]

theorem State.modAl_notes (s : State) (a : Nat) {f : Allot → Allot} (ht : ∀ x, (f x).temper = x.temper)
    (ho : ∀ x h, ((f x).obj? h).isSome = (x.obj? h).isSome) : s.Notes (s.modAl a f) := by
  refine ⟨fun b => ?_, fun b h => ?_⟩
  · rw [State.modAl_al]
    split
    · rename_i k
      rw [ht, k.1]
    · rfl
  · rw [State.obj?, State.modAl_al]
    split
    · rename_i k
      rw [ho, k.1, State.obj?]
    · rfl

theorem State.modObj_notes (s : State) (a h : Nat) {f : Obj → Obj} (hf : ∀ o, (f o).reuse = o.reuse) : s.Notes (s.modObj a h f) :=
  s.modAl_notes a (fun _ => rfl) (fun x i => x.obj?_upd_isSome _ hf i)

theorem State.touch_notes (s : State) (a h acc : Nat) : s.Notes (s.touch a h acc) := by
  unfold State.touch
  split
  · exact s.modObj_notes a h (fun _ => rfl)
  · exact .refl s

theorem State.dropShadow_notes (s : State) (a h : Nat) : s.Notes (s.dropShadow a h) := by
  unfold State.dropShadow
  split
  · split
    · have hcharge : s.Notes (s.uncharge a (.shadow (handleIndex h))) := s.modAl_notes a (fun _ => rfl) (fun _ _ => rfl)
      exact hcharge.trans (State.modObj_notes _ a h (fun _ => rfl))
    · exact .refl s
  · exact .refl s

theorem State.named_notes (s : State) (c : Cmd) : s.Notes (s.named c) := by
  unfold State.named State.noteNames
  split
  · exact .refl s
  · refine List.foldlRecOn (motive := fun t => s.Notes t) _ _ (.refl s) (fun t ht n _ => ht.trans ?_)
    dsimp only
    split
    · exact (t.dropShadow_notes _ _).trans (State.touch_notes _ _ _ _)
    · exact t.touch_notes _ _ _

@[simp] theorem State.named_temper (s : State) (c : Cmd) (a : Nat) : ((s.named c).al a).temper = (s.al a).temper :=
  (s.named_notes c).temper a

@[simp] theorem State.named_length (s : State) (c : Cmd) : (s.named c).allots.length = s.allots.length := (s.named_same c).2

theorem State.named_of_noNames {s : State} {c : Cmd} (h : s.namesNow c = []) : s.named c = s := by
  simp [State.named, State.noteNames, h]

/-- The state in which a command that runs begins has the command. -/
theorem State.Runs.named_isSome {s : State} {id op : Nat} {fs : State → Cmd → List Fld} {c : Cmd} (h : s.Runs id op fs c) :
    ((s.named c).cmd? c.id).isSome = true := by
  simp [State.fresh?_id h.1, State.fresh?_cmd h.1]

/-! ## Charges (R161, R264) -/

/-- Of the allotments a alone differs, and in its charges alone. -/
structure State.Charges (s t : State) (a : Nat) : Prop where
  same : SameOutsideAllots s t
  others : ∀ b, b ≠ a → t.al b = s.al b
  own : { t.al a with charges := (s.al a).charges } = s.al a

theorem State.Charges.refl (s : State) (a : Nat) : s.Charges s a := ⟨⟨rfl, rfl⟩, fun _ _ => rfl, rfl⟩

theorem State.Charges.trans {s t u : State} {a : Nat} (h : s.Charges t a) (k : t.Charges u a) : s.Charges u a := by
  refine ⟨h.same.trans k.same, fun b hb => (k.others b hb).trans (h.others b hb), ?_⟩
  rw [← h.own, ← k.own]

theorem State.Charges.temper {s t : State} {a : Nat} (h : s.Charges t a) : (t.al a).temper = (s.al a).temper := by
  have k := congrArg Allot.temper h.own
  exact k

theorem State.Charges.objs {s t : State} {a : Nat} (h : s.Charges t a) : (t.al a).objs = (s.al a).objs := by
  have k := congrArg Allot.objs h.own
  exact k

theorem State.charge_charges (s : State) (a : Nat) (k : ChargeKind) (p n : Nat) : s.Charges (s.charge a k p n) a := by
  unfold State.charge
  split
  · exact .refl s a
  · refine ⟨s.modAl_same a _, fun b hb => s.modAl_al_ne _ hb, ?_⟩
    rw [State.modAl_al]
    split <;> rfl

theorem State.chargeResiduals_charges {a : Nat} {x : Temper} {ls : List (Nat × Layer)} {s v : State}
    (h : s.chargeResiduals a x ls = some v) : s.Charges v a := by
  induction ls generalizing s with
  | nil => cases h; exact .refl _ a
  | cons e r ih =>
    unfold State.chargeResiduals at h
    split at h
    · exact ih h
    · dsimp only at h
      split at h
      · exact ih h
      · split at h
        · exact (State.charge_charges _ a _ _ _).trans (ih h)
        · cases h

/-! ## Records that wait for the next STEP_MARK (R161, R169) -/

/-- The precision steering with records of acceptance number n behind those that wait. -/
def Temper.withRecs (x : Temper) (n : Nat) (l : List PendRec) : Temper := { x with recs := x.recs ++ l.map (fun r => (n, r)) }

/-- A command that keeps its records ends, and nothing else of its allotment changes. -/
theorem State.addRecs_spec {s : State} {c : Cmd} (hc : (s.cmd? c.id).isSome = true) (ha : c.allot < s.allots.length) (l : List PendRec) :
    ((s.addRecs c l).finishOk c.id 0).Ended c.id .ok 0 0 ∧ s.OnlyAllot ((s.addRecs c l).finishOk c.id 0) c.allot ∧
      ((s.addRecs c l).finishOk c.id 0).al c.allot = { s.al c.allot with temper := (s.al c.allot).temper.withRecs c.acc l } :=
  ⟨State.finish_ended (s := s.addRecs c l) hc _ _ _, s.modAl_onlyAllot c.allot _,
    s.modAl_al_same (fun x => { x with temper := x.temper.withRecs c.acc l }) ha⟩

/-- The same behind the charges of the records. -/
theorem State.Charges.addRecs_spec {s v : State} {c : Cmd} (h : s.Charges v c.allot) (hc : (s.cmd? c.id).isSome = true)
    (ha : c.allot < s.allots.length) (l : List PendRec) :
    ((v.addRecs c l).finishOk c.id 0).Ended c.id .ok 0 0 ∧ s.OnlyAllot ((v.addRecs c l).finishOk c.id 0) c.allot ∧
      (((v.addRecs c l).finishOk c.id 0).al c.allot).temper = (s.al c.allot).temper.withRecs c.acc l ∧
      (((v.addRecs c l).finishOk c.id 0).al c.allot).objs = (s.al c.allot).objs := by
  have hcv : (v.cmd? c.id).isSome = true := by rwa [State.cmd?, h.same.hg]
  obtain ⟨hended, ⟨_, hothers⟩, hown⟩ := State.addRecs_spec hcv (h.same.2.symm ▸ ha) l
  refine ⟨hended, ⟨?_, fun b hb => (hothers b hb).trans (h.others b hb)⟩, ?_, ?_⟩
  · rw [← h.same.1]
    rfl
  · rw [hown, h.temper]
  · rw [hown]
    exact h.objs

/-! ## TEMPER_SET (R161) -/

theorem exec_temperSet {s : State} {id : Nat} {c : Cmd} (h : s.Runs id 0x0401 temperSetFields c) (hs : (s.named c).setsSettled c = true) :
    exec (.temperSet id) s = .next ((s.named c).temperSet c) := by
  show execTemperSet id s = _
  exact (State.deant_runs h _).trans (congrArg _ (if_pos hs))

/-- The object that a TEMPER_SET reads its records from has no poisoned block. -/
theorem State.Clean.records {s : State} {c : Cmd} (h : s.Clean c.allot) :
    (if c.par 8 8 = 0 then none
      else s.poisonOf [(c.allot, refHandle (c.par 8 8), 64 * bitsOf (c.par 8 8) 32 32, 64 * c.par 2 2)]) = none := by
  split
  · rfl
  · exact h.poisonOf (.cons (.nil _))

/-- The first record of a list that breaks a rule rejects the command with its index. -/
theorem State.temperSet_rejects {s : State} {c : Cmd} (h : s.Clean c.allot) (hr : c.par 8 8 ≠ 0) {i : Nat}
    (hi : (s.temperRecs c).findIdx? (fun r => (s.recFlds c.allot (c.par 0 1) r 0).any (fun f => !f.ok)) = some i) :
    s.temperSet c = s.reject c.id (badIn i) := by
  simp only [State.temperSet, h.records, hi, if_neg hr]

/-- Records that meet their rules and whose charges fit are kept. -/
theorem State.temperSet_keeps {s v : State} {c : Cmd} (h : s.Clean c.allot) {n : Nat}
    (hok : c.par 8 8 = 0 ∨ ∀ r ∈ s.temperRecs c, ∀ f ∈ s.recFlds c.allot (c.par 0 1) r 0, f.ok = true)
    (hn : (if c.par 0 1 = 0 then 3392 * (newLayers (s.al c.allot).temper (s.temperRecs c)).length else 0) = n)
    (hfit : n = 0 ∨ s.fits c.allot 2 n = true) {y : Temper}
    (hy : (recsInOrder ((s.temperRecs c).map (pendRec (c.par 0 1)))).foldl Temper.apply (s.al c.allot).temper.soon = y)
    (hv : (s.charge c.allot .layers 2 n).chargeResiduals c.allot y y.layers = some v) :
    s.temperSet c = (v.addRecs c ((s.temperRecs c).map (pendRec (c.par 0 1)))).finishOk c.id 0 := by
  have hbad : (if c.par 8 8 = 0 then none
      else (s.temperRecs c).findIdx? (fun r => (s.recFlds c.allot (c.par 0 1) r 0).any (fun f => !f.ok))) = none := by
    split
    · rfl
    · rename_i hr
      simpa [List.findIdx?_eq_none_iff] using hok.resolve_left hr
  have hroom : ¬ (n ≠ 0 ∧ s.fits c.allot 2 n = false) := by
    rintro ⟨h0, hf⟩
    simp [hf, h0] at hfit
  simp only [State.temperSet, h.records, hbad, layerRecBytes, hn, hy, hv, if_neg hroom]

/-! ## SPILL_SET and SCALE_SET (R144, R169, R195) -/

theorem exec_spillSet {s v : State} {id : Nat} {c : Cmd} (h : s.Runs id 0x0406 spillSetFields c) (hs : (s.named c).setsSettled c = true)
    {y : Temper} (hy : ((s.named c).al c.allot).temper.soon.setSpill c.params = y)
    (hv : (s.named c).chargeResiduals c.allot y y.layers = some v) :
    exec (.spillSet id) s = .next ((v.addRecs c [.spill c.params]).finishOk id 0) := by
  show execSpillSet id s = _
  refine (State.deant_runs h _).trans (congrArg _ ?_)
  simp only [hs, hy, hv, if_true]

/-- SCALE_SET names no object. -/
theorem State.Runs.scaleSet_named {s : State} {id : Nat} {c : Cmd} (h : s.Runs id 0x0404 scaleSetFields c) : s.named c = s :=
  State.named_of_noNames (by simp [State.namesNow, Cmd.inlineNames, Cmd.listRefs, State.fresh?_opcode h.1])

theorem exec_scaleSet {s : State} {id : Nat} {c : Cmd} (h : s.Runs id 0x0404 scaleSetFields c) (hs : s.setsSettled c = true) :
    exec (.scaleSet id) s = .next ((s.addRecs c [.scale (c.params % 2 ^ 64)]).finishOk id 0) := by
  show execScaleSet id s = _
  refine (State.deant_runs h _).trans (congrArg _ ?_)
  rw [h.scaleSet_named, if_pos hs]

/-! ## Bytes behind a write (R254) -/

theorem cellsFrom_skip {m : Bytes} {a : Nat} (h : ∀ e ∈ m.head?, e.1 ≠ a) (n : Nat) :
    cellsFrom m a (n + 1) = 0#8 :: cellsFrom m (a + 1) n := by
  cases m with
  | nil => cases n <;> rfl
  | cons e m => rw [cellsFrom, if_neg (h e rfl)]

theorem cellsOf_head {bs : List Byte} {a n : Nat} {m : Bytes} (hm : ∀ e ∈ m.head?, n ≤ e.1) (hn : a ≤ n) :
    ∀ e ∈ (cellsOf a bs ++ m).head?, a ≤ e.1 := by
  intro e he
  cases hl : cellsOf a bs with
  | nil =>
    rw [hl, List.nil_append] at he
    exact Nat.le_trans hn (hm e he)
  | cons f l =>
    rw [hl, List.cons_append, List.head?_cons, Option.mem_some_iff] at he
    exact (cellsOf_bounds bs a e (by rw [hl, he]; exact List.mem_cons_self)).1

/-- Entries behind those of bs are not read with them when the first of them lies behind the range. -/
theorem cellsFrom_cellsOf_append (bs : List Byte) {a : Nat} {m : Bytes} (hm : ∀ e ∈ m.head?, a + bs.length ≤ e.1) :
    cellsFrom (cellsOf a bs ++ m) a bs.length = bs := by
  induction bs generalizing a with
  | nil => rw [List.length_nil, cellsFrom]
  | cons b bs ih =>
    have hm' : ∀ e ∈ m.head?, a + 1 + bs.length ≤ e.1 := fun e he => by
      have := hm e he
      simp only [List.length_cons] at this
      omega
    unfold cellsOf
    split
    · rename_i hb
      have hhead := cellsOf_head (bs := bs) hm' (Nat.le_add_right (a + 1) bs.length)
      rw [List.length_cons, cellsFrom_skip (fun e he => Nat.ne_of_gt (hhead e he)), ih hm', hb]
    · rw [List.cons_append, List.length_cons, cellsFrom, if_pos rfl, ih hm']

/-- A read gives the bytes that were written there, whatever form the store has. -/
theorem cellRead_of_cellWrite (m : Bytes) (a : Nat) (bs : List Byte) : cellRead (cellWrite m a bs) a bs.length = bs := by
  have hrest : ∀ e ∈ (m.dropWhile (fun e => e.1 < a + bs.length)).head?, a + bs.length ≤ e.1 := fun e he => by
    have hnot := List.head?_dropWhile_not (fun e => decide (e.1 < a + bs.length)) m
    rw [he] at hnot
    simpa using hnot
  have hhead := cellsOf_head (bs := bs) hrest (Nat.le_add_right a bs.length)
  have hdrop : (cellWrite m a bs).dropWhile (fun e => e.1 < a) = cellsOf a bs ++ m.dropWhile (fun e => e.1 < a + bs.length) := by
    rw [cellWrite, List.append_assoc, List.dropWhile_append_of_pos (fun e he => by simpa using takeWhile_below a e he)]
    cases hl : cellsOf a bs ++ m.dropWhile (fun e => e.1 < a + bs.length) with
    | nil => rfl
    | cons f l =>
      have hf : a ≤ f.1 := hhead f (by rw [hl]; rfl)
      exact List.dropWhile_cons_of_neg (by simpa using hf)
  rw [cellRead, hdrop, cellsFrom_cellsOf_append bs hrest]

/-! ## Records in a destination (R165, R166) -/

@[simp] theorem State.count_temper (s : State) (ev : Nat) (h a layer cmd : Option Nat) (n b : Nat) :
    ((s.count ev h a layer cmd n).al b).temper = (s.al b).temper := by
  unfold State.count
  split
  · rfl
  · dsimp only
    split
    · rfl
    · rw [State.modAl_al]
      split
      · rename_i k
        rw [← k.1]
        rfl
      · rfl

@[simp] theorem State.count_length (s : State) (ev : Nat) (h a layer cmd : Option Nat) (n : Nat) :
    (s.count ev h a layer cmd n).allots.length = s.allots.length := by
  unfold State.count
  split
  · rfl
  · dsimp only
    split
    · rfl
    · exact State.modAl_length _ _ _

/-- A read command has put bs at its destination, in units of 64 bytes: no other object differs, the commands stand and its allotment
keeps its precision steering. -/
structure State.ReadsUnits (s t : State) (c : Cmd) (bs : List Byte) : Prop where
  holds : t.Holds c.allot (refHandle (c.par 8 8)) (64 * bitsOf (c.par 8 8) 32 32) bs
  objs : s.ObjsStand t c.allot (handleIndex (refHandle (c.par 8 8)))
  temper : (t.al c.allot).temper = (s.al c.allot).temper
  hg : t.hg = s.hg
  length : t.allots.length = s.allots.length

/-- The destination keeps its records while no object changes. -/
theorem State.Holds.of_objs {t u : State} {a h off : Nat} {bs : List Byte} (k : t.Holds a h off bs) (ho : (u.al a).objs = (t.al a).objs) :
    u.Holds a h off bs := by
  obtain ⟨o, hobj, hread⟩ := k
  refine ⟨o, ?_, hread⟩
  rw [State.obj?, Allot.obj?] at hobj ⊢
  rwa [ho]

theorem State.ObjsStand.of_objs {s t u : State} {a i : Nat} (k : s.ObjsStand t a i) (ho : ∀ b, (u.al b).objs = (t.al b).objs) :
    s.ObjsStand u a i := by
  intro b j hbj
  rw [ho, k b j hbj]

theorem State.modObj_temper (s : State) (a h : Nat) (f : Obj → Obj) (b : Nat) : ((s.modObj a h f).al b).temper = (s.al b).temper := by
  rw [State.modObj, State.modAl_al]
  split
  · rename_i k
    rw [k.1]
  · rfl

theorem State.writeObj_holds {s : State} {a h : Nat} (ha : a < s.allots.length) (ho : (s.obj? a h).isSome = true) (off : Nat) (bs : List Byte) :
    (s.writeObj a h off bs).Holds a h off bs := by
  obtain ⟨o, ho⟩ := Option.isSome_iff_exists.mp ho
  exact ⟨o.write off bs, State.modObj_obj?_same ha ho rfl, cellRead_of_cellWrite _ _ _⟩

/-- Records are written where the destination exists. -/
theorem State.writeUnitsAt_readsUnits {s : State} {c : Cmd} (ha : c.allot < s.allots.length)
    (ho : (s.obj? c.allot (refHandle (c.par 8 8))).isSome = true) (bs : List Byte) : s.ReadsUnits (s.writeUnitsAt c bs) c bs := by
  have hcount : ∀ (t : State) (tier : Nat) b, ((t.countBytes c tier none bs.length).al b).objs = (t.al b).objs := fun t _ b =>
    (t.countFor_tallies c _ none none _).objs b
  exact ⟨(State.writeObj_holds ha ho _ bs).of_objs (hcount _ _ _), (s.modObj_objsStand _ _ _).of_objs (hcount _ _),
    (State.count_temper _ _ _ _ _ _ _ _).trans (s.modObj_temper _ _ _ _), (State.countFor_tallies _ c _ _ _ _).hg,
    (State.count_length _ _ _ _ _ _ _).trans (s.modAl_length _ _)⟩

/-- The destination of a command that runs exists where its effect begins (R331). -/
theorem State.Runs.dest {s : State} {id op : Nat} {fs : State → Cmd → List Fld} {c : Cmd} (h : s.Runs id op fs c)
    (hd : s.destUnits c ∈ fs s c) : ((s.named c).obj? c.allot (refHandle (c.par 8 8))).isSome = true := by
  have hok : s.rawRefUnits c.allot (c.par 8 8) 64 0 = true := h.ok _ hd
  rw [(s.named_notes c).handles]
  rw [State.rawRefUnits, Bool.and_eq_true, State.isRaw] at hok
  cases ho : s.obj? c.allot (refHandle (c.par 8 8)) with
  | none => simp [ho] at hok
  | some o => rfl

/-! ## TEMPER_READ and STATS_READ (R162, R163, R165, R166) -/

theorem b2n_eq_toNat (b : Bool) : b2n b = b.toNat := by cases b <;> rfl

@[simp] theorem State.steerAttn_allots (s : State) (a : Nat) : (s.steerAttn a).allots = s.allots := by
  unfold State.steerAttn
  dsimp only
  rw [State.settle_allots]
  split <;> split <;> rfl

@[simp] theorem State.steerAttn_hg (s : State) (a : Nat) : (s.steerAttn a).hg = s.hg := by
  unfold State.steerAttn
  dsimp only
  rw [State.settle_hg]
  split <;> split <;> rfl

/-- A layer without its sticky statuses (R162). -/
def Layer.unstuck (l : Layer) : Layer := { l with boundHigh := false, dry := false, storm := false, poolShort := false, wouldPromote := false }

/-- The precision steering after CLEAR acted on the layers ls. -/
def Temper.unstuck (x : Temper) (ls : List (Nat × Layer)) : Temper :=
  { x with layers := x.layers.map (fun e => if ls.any (fun k => k.1 == e.1) then (e.1, e.2.unstuck) else e), storm := false, nonfinite := false }

/-- CLEAR clears the sticky statuses of the layers that were written, and the attention follows. -/
def State.unstick (s : State) (a : Nat) (ls : List (Nat × Layer)) : State :=
  (s.modAl a (fun y => { y with temper := y.temper.unstuck ls })).steerAttn a

theorem State.unstick_al (s : State) (a : Nat) (ls : List (Nat × Layer)) (b : Nat) :
    (s.unstick a ls).al b = (s.modAl a (fun y => { y with temper := y.temper.unstuck ls })).al b := by
  simp only [State.unstick, State.al, State.steerAttn_allots]

theorem State.unstick_temper {s : State} {a : Nat} (ha : a < s.allots.length) (ls : List (Nat × Layer)) :
    ((s.unstick a ls).al a).temper = (s.al a).temper.unstuck ls := by
  rw [State.unstick_al, s.modAl_al_same _ ha]

theorem State.unstick_objs (s : State) (a : Nat) (ls : List (Nat × Layer)) (b : Nat) : ((s.unstick a ls).al b).objs = (s.al b).objs := by
  rw [State.unstick_al]
  exact (s.modAl_tallies a (f := fun y => { y with temper := y.temper.unstuck ls }) (fun _ => rfl)).objs b

theorem Temper.unstuck_layers {x : Temper} {ls : List (Nat × Layer)} {i : Nat} {l : Layer} (h : (i, l) ∈ (x.unstuck ls).layers)
    (hi : ∃ k ∈ ls, k.1 = i) : l.boundHigh = false ∧ l.dry = false ∧ l.storm = false ∧ l.poolShort = false ∧ l.wouldPromote = false := by
  obtain ⟨e, -, he⟩ := List.mem_map.mp h
  by_cases hw : ls.any (fun k => k.1 == e.1) = true
  · rw [if_pos hw] at he
    cases he
    exact ⟨rfl, rfl, rfl, rfl, rfl⟩
  · rw [if_neg hw] at he
    cases he
    exact absurd (by simpa using hi) hw

/-- The ladders that a TEMPER_READ writes, and the layers behind them. -/
def State.laddersRead (s : State) (c : Cmd) : List Nat := (if bitOf (c.par 4 1) 1 then List.range 4 else []).take (s.roomFor c 64)

def State.layersRead (s : State) (c : Cmd) : List (Nat × Layer) := (s.layersIn c).take (s.roomFor c 64 - (s.laddersRead c).length)

/-- The state with the records of a TEMPER_READ at its destination. -/
def State.temperWritten (s : State) (c : Cmd) : State :=
  s.writeUnitsAt c ((s.laddersRead c).flatMap (s.al c.allot).temper.ladderBytes ++
    (s.layersRead c).flatMap (fun e => (s.al c.allot).temper.layerBytes e.1 e.2))

/-- The same after CLEAR, where the command has it. -/
def State.temperCleared (s : State) (c : Cmd) : State :=
  if (c.par 4 1).testBit 0 then (s.temperWritten c).unstick c.allot (s.layersRead c) else s.temperWritten c

/-- RESULT of a TEMPER_READ. -/
def State.temperResult (s : State) (c : Cmd) : Nat :=
  (s.layersRead c).length + b2n (s.al c.allot).temper.storm * 2 ^ 16 + (s.laddersRead c).length * 2 ^ 17

theorem exec_temperRead {s : State} {id : Nat} {c : Cmd} (h : s.Runs id 0x0402 temperReadFields c) :
    exec (.temperRead id) s = .next (((s.named c).temperCleared c).finishOk id ((s.named c).temperResult c)) := by
  show execTemperRead id s = _
  refine (State.deant_runs h _).trans (congrArg _ ?_)
  exact (apply_ite (fun t : State => t.finishOk id ((s.named c).temperResult c)) _ _ _).symm

theorem exec_statsRead {s : State} {id : Nat} {c : Cmd} (h : s.Runs id 0x0403 statsReadFields c) :
    let u := s.named c
    let ls := (u.layersIn c).take (u.roomFor c 1152)
    exec (.statsRead id) s = .next ((u.writeUnitsAt c (ls.flatMap (fun e =>
      (s.al c.allot).temper.statBytes e.1 e.2 (c.par 4 1 == 0)))).finishOk id ls.length) := by
  show execStatsRead id s = _
  refine (State.deant_runs h _).trans (congrArg _ ?_)
  rw [← s.named_temper c c.allot]

@[simp] theorem State.finishOk_al (s : State) (id n a : Nat) : (s.finishOk id n).al a = s.al a := rfl

/-- A read that has put its records down ends with its RESULT. -/
theorem State.ReadsUnits.ended {s t : State} {c : Cmd} {bs : List Byte} (h : s.ReadsUnits t c bs) (hc : (s.cmd? c.id).isSome = true) (n : Nat) :
    (t.finishOk c.id n).Ended c.id .ok 0 (BitVec.ofNat 128 n) :=
  State.finish_ended (by rwa [State.cmd?, h.hg]) _ _ _

/-- CLEAR leaves the records where they are. -/
theorem State.ReadsUnits.unstick_ended {s t : State} {c : Cmd} {bs : List Byte} (h : s.ReadsUnits t c bs) (hc : (s.cmd? c.id).isSome = true)
    (ls : List (Nat × Layer)) (n : Nat) : ((t.unstick c.allot ls).finishOk c.id n).Ended c.id .ok 0 (BitVec.ofNat 128 n) := by
  refine State.finish_ended ?_ _ _ _
  rwa [State.cmd?, State.unstick, State.steerAttn_hg, State.modAl_hg, h.hg]

/-- What a TEMPER_READ leaves: its records whole at the destination and counted in RESULT, and with CLEAR no sticky status in a layer that it
wrote. -/
theorem State.temperRead_spec {s : State} {c : Cmd} (hc : (s.cmd? c.id).isSome = true) (ha : c.allot < s.allots.length)
    (ho : (s.obj? c.allot (refHandle (c.par 8 8))).isSome = true) :
    let x := (s.al c.allot).temper
    let t := (s.temperCleared c).finishOk c.id (s.temperResult c)
    t.Holds c.allot (refHandle (c.par 8 8)) (64 * bitsOf (c.par 8 8) 32 32)
        ((s.laddersRead c).flatMap x.ladderBytes ++ (s.layersRead c).flatMap (fun e => x.layerBytes e.1 e.2)) ∧
      t.Ended c.id .ok 0 (BitVec.ofNat 128 ((s.layersRead c).length + x.storm.toNat * 2 ^ 16 + (s.laddersRead c).length * 2 ^ 17)) ∧
      s.ObjsStand t c.allot (handleIndex (refHandle (c.par 8 8))) ∧
      ((c.par 4 1).testBit 0 = false → (t.al c.allot).temper = x) ∧
      ((c.par 4 1).testBit 0 = true → (t.al c.allot).temper.storm = false ∧
        ∀ i l, (i, l) ∈ (t.al c.allot).temper.layers → (∃ k ∈ s.layersRead c, k.1 = i) →
          l.boundHigh = false ∧ l.dry = false ∧ l.storm = false ∧ l.poolShort = false ∧ l.wouldPromote = false) := by
  intro x t
  have hw : s.ReadsUnits (s.temperWritten c) c _ := State.writeUnitsAt_readsUnits ha ho _
  have hresult : s.temperResult c = (s.layersRead c).length + x.storm.toNat * 2 ^ 16 + (s.laddersRead c).length * 2 ^ 17 := by
    rw [State.temperResult, b2n_eq_toNat]
  rw [← hresult]
  cases hclear : (c.par 4 1).testBit 0 with
  | false =>
    have ht : t = (s.temperWritten c).finishOk c.id (s.temperResult c) := by simp only [t, State.temperCleared, hclear, Bool.false_eq_true, if_false]
    rw [ht]
    exact ⟨hw.holds, hw.ended hc _, hw.objs, fun _ => hw.temper, nofun⟩
  | true =>
    have ht : t = ((s.temperWritten c).unstick c.allot (s.layersRead c)).finishOk c.id (s.temperResult c) := by
      simp only [t, State.temperCleared, hclear, if_true]
    rw [ht]
    refine ⟨hw.holds.of_objs (State.unstick_objs _ _ _ _), hw.unstick_ended hc _ _, hw.objs.of_objs (State.unstick_objs _ _ _), nofun, fun _ => ?_⟩
    rw [State.finishOk_al, State.unstick_temper (hw.length.symm ▸ ha)]
    exact ⟨rfl, fun i l hl hi => Temper.unstuck_layers hl hi⟩

/-- Settles O30: the sets by the records that they keep behind their charges, the reads by what stands at the destination. -/
theorem steering : Obligations.Steering := by
  refine ⟨?_, ?_, ?_, ?_, ?_⟩
  · intro s id c h ha hs hclean u rs x n y
    have hid : c.id = id := State.fresh?_id h.1
    subst hid
    refine ⟨fun i hr hi => ?_, fun v hok hfit hv => ?_⟩
    · refine ⟨_, (exec_temperSet h hs).trans (congrArg _ (State.temperSet_rejects hclean hr hi)), ?_, u.finish_onlyCmds _ _ _ _⟩
      exact State.finish_ended h.named_isSome _ _ _
    · have hkeep := State.temperSet_keeps (n := n) (v := v) (y := y) hclean hok (by rw [s.named_temper]) hfit rfl hv
      have hcharged := (u.charge_charges c.allot .layers 2 n).trans (State.chargeResiduals_charges hv)
      obtain ⟨hended, honly, htemper, hobjs⟩ := hcharged.addRecs_spec h.named_isSome (s.named_length c ▸ ha) (rs.map (pendRec (c.par 0 1)))
      refine ⟨_, (exec_temperSet h hs).trans (congrArg _ hkeep), hended, honly, ?_, hobjs⟩
      rw [htemper, s.named_temper, Temper.withRecs, List.map_map]
      rfl
  · intro s id c v h ha hs hv
    have hid : c.id = id := State.fresh?_id h.1
    subst hid
    obtain ⟨hended, honly, htemper, hobjs⟩ :=
      (State.chargeResiduals_charges hv).addRecs_spec h.named_isSome (s.named_length c ▸ ha) [.spill c.params]
    refine ⟨_, exec_spillSet h hs (by rw [s.named_temper]) hv, hended, honly, hobjs, ?_⟩
    rw [htemper, s.named_temper]
    rfl
  · intro s id c h ha hs
    have hid : c.id = id := State.fresh?_id h.1
    subst hid
    have hc : (s.cmd? c.id).isSome = true := by simp [State.fresh?_cmd h.1]
    exact ⟨_, exec_scaleSet h hs, State.addRecs_spec hc ha _⟩
  · intro s id c h ha u x lads ls
    have hid : c.id = id := State.fresh?_id h.1
    subst hid
    have hspec := State.temperRead_spec (s := s.named c) h.named_isSome (s.named_length c ▸ ha) (h.dest (by simp [temperReadFields]))
    rw [s.named_temper] at hspec
    exact ⟨_, exec_temperRead h, hspec⟩
  · intro s id c h ha u ls
    have hid : c.id = id := State.fresh?_id h.1
    subst hid
    have hdest := h.dest (by simp [statsReadFields])
    have hw := State.writeUnitsAt_readsUnits (s := u) (s.named_length c ▸ ha) hdest
      (ls.flatMap (fun e => (s.al c.allot).temper.statBytes e.1 e.2 (c.par 4 1 == 0)))
    refine ⟨_, exec_statsRead h, hw.ended h.named_isSome _, hw.holds, hw.objs, ?_⟩
    exact hw.temper.trans (s.named_temper c c.allot)

end Sys2Proof.Machine
end

section
/-! A pair that shares its tempers, with a packet that waits: the answer to the partner sends it too, and it counts (R354, R387, R451). -/

namespace Sys2Proof.Machine

/-- The pair is active-active and shares its tempers. Port 0 is up and is the one path to peer 1; a packet of allotment 0 to that peer
has not been sent yet. Allotment 0 steers no layer. -/
def State.sharesWithPacket : State := { State.reset with
  pair := { State.reset.pair with state := .mirror, temperSync := true, portA := 4 }
  fab := { State.reset.fab with
    ports := State.reset.fab.ports.set 0 { up := true }
    routes := [(1, { valid := true, npath := 1, paths := [{ port := 0, valid := true }] })]
    unacked := [{ vc := 0, peer := 1, own := 0, allot := 0, far := 0, seq := 1, data := [0#8] }] } }

/-- Statistics of a layer that the partner steers. -/
def partnerStats : List SyncSlot := [{ layer := 0, slot := 0, runMax := 0, counts := List.replicate 9 0 }]

/-- Before the statistics arrive, none of the four fixed counters of allotment 0 has counted. -/
theorem State.sharesWithPacket_fixed : (State.sharesWithPacket.al 0).ctr.fixed = [0, 0, 0, 0] := by decide

/-- The empty statistics that go back to the partner send the waiting packet, whose one unit of 64 bytes counts for its allotment. -/
theorem State.sharesWithPacket_syncIn_fixed : ((State.sharesWithPacket.syncIn 0 0 partnerStats).al 0).ctr.fixed = [0, 0, 0, 1] := by
  rfl

/-- Refutes O31: statistics for an allotment that steers no layer are answered with empty ones (R387), and what goes out with the answer
takes every packet along whose path is open (R354); in sharesWithPacket that counts for allotment 0 (R451), so its allotments do not stand. -/
theorem not_stepMark : ¬ Obligations.StepMark := by
  rintro ⟨-, -, -, -, hsync, -⟩
  obtain ⟨t, ht, -, -, hallots, -⟩ := hsync State.sharesWithPacket 0 0 partnerStats rfl rfl (by decide) (fun _ hd => nomatch hd)
  have hstep : State.sharesWithPacket.syncIn 0 0 partnerStats = t := Host.Outcome.next.inj ht
  have hal : t.al 0 = State.sharesWithPacket.al 0 := by rw [State.al, hallots, State.al]
  have hfixed := State.sharesWithPacket_syncIn_fixed
  rw [hstep, hal, State.sharesWithPacket_fixed] at hfixed
  exact absurd hfixed (by decide)

end Sys2Proof.Machine
end

section
/-! Rules for the lanes of the vector engines: registers behind a write, a result under a predicate, a row that writes VD in lanes
(R207, R209 to R212, R217). -/

namespace Sys2Proof.Machine

/-! ## Registers behind a write (R207) -/

@[simp] theorem Engine.vreg_setV_same (g : Engine) (n : Nat) (l : List W32) : (g.setV n l).vreg n = l := by simp [Engine.vreg, Engine.setV]

theorem Engine.preg_setP_same (g : Engine) {n : Nat} (h : n ≠ 0) (p : BitVec 256) : (g.setP n p).preg n = p := by
  simp [Engine.preg, Engine.setP, h]

/-! ## Lanes (R207) -/

theorem getElem?_predicated {p : BitVec 256} {zm : Bool} {old new : List W32} {k : Nat} {o v : W32} (ho : old[k]? = some o)
    (hv : new[k]? = some v) : (predicated p zm old new)[k]? = some (if p.getLsbD k then v else if zm then 0 else o) := by
  have hov : (old.zip new)[k]? = some (o, v) := List.getElem?_zip_eq_some.mpr ⟨ho, hv⟩
  simp only [predicated, List.getElem?_map, List.getElem?_zipIdx, hov, Option.map_some, Nat.zero_add]
  rfl

theorem getElem?_zip3 (f : W32 → W32 → W32 → W32) {l m n : List W32} {k : Nat} {a b c : W32} (ha : l[k]? = some a) (hb : m[k]? = some b)
    (hc : n[k]? = some c) : (zip3 f l m n)[k]? = some (f a b c) := by
  have habc : ((l.zip m).zip n)[k]? = some ((a, b), c) :=
    List.getElem?_zip_eq_some.mpr ⟨List.getElem?_zip_eq_some.mpr ⟨ha, hb⟩, hc⟩
  simp [zip3, habc]

/-- An instruction that writes a vector register: it holds the lanes written, and the engine goes on. -/
theorem State.retire_setV {s : State} {h e : Nat} {x : Ctx} (hx : s.ctx? h e = some x) (pc n : Nat) (l : List W32) :
    ((s.retire x pc (fun g => g.setV n l)).engine h e).vreg n = l ∧ s.RegisterOnly (s.retire x pc (fun g => g.setV n l)) h e ∧
    s.Retired (s.retire x pc (fun g => g.setV n l)) h e pc (fun g => g.setV n (((s.retire x pc (fun g => g.setV n l)).engine h e).vreg n)) := by
  obtain ⟨hret, hreg⟩ := State.retire_spec hx pc (fun g => g.setV n l)
  have hv : ((s.retire x pc (fun g => g.setV n l)).engine h e).vreg n = l := by
    rw [hret]
    exact (s.engine h e).vreg_setV_same n l
  refine ⟨hv, hreg, ?_⟩
  rw [hv]
  exact hret

/-! ## Rows that write VD in lanes -/

/-- A row that writes the lanes new to VD gives each active lane what new holds there. -/
theorem LaneResult.of_writeV {i : Nat → Nat → Instr} {op : Nat} {body : State → Ctx → State} {new : Ctx → List W32} {ok : Ctx → Prop}
    {f : Ctx → Nat → W32 → W32 → W32 → W32} (hrow : ∀ h e s, exec (i h e) s = s.vecInstr h e op body)
    (hbody : ∀ s x, body s x = s.writeV x (new x))
    (hnew : ∀ x k a b c, k < 256 → x.srcA[k]? = some a → x.srcB[k]? = some b → x.srcC[k]? = some c →
      ∃ v, (new x)[k]? = some v ∧ (x.pred.getLsbD k = true → v = f x k a b c)) : LaneResult i op ok f := by
  intro s h e x hx _
  obtain ⟨hv, hreg, hret⟩ := State.retire_setV hx.1 (x.eng.pc + 1) x.vd (predicated x.pred x.zm (x.eng.vreg x.vd) (new x))
  refine ⟨s.writeV x (new x), ?_, hret, hreg, fun k a b c o hk ha hb hc ho => ?_⟩
  · rw [hrow, State.vecInstr_runs hx, hbody]
  · obtain ⟨v, hget, hf⟩ := hnew x k a b c hk ha hb hc
    rw [State.writeV, hv, getElem?_predicated ho hget]
    split
    · rw [hf ‹_›]
    · rfl

/-- A row that fills VD from source A, lane by lane. -/
theorem LaneResult.of_map {i : Nat → Nat → Instr} {op : Nat} {body : State → Ctx → State} {ok : Ctx → Prop} {g : Ctx → W32 → W32}
    (hrow : ∀ h e s, exec (i h e) s = s.vecInstr h e op body) (hbody : ∀ s x, body s x = s.writeV x (x.srcA.map (g x))) :
    LaneResult i op ok (fun x _ a _ _ => g x a) :=
  .of_writeV hrow hbody (fun x _ a _ _ _ ha _ _ => ⟨g x a, by simp [ha], fun _ => rfl⟩)

/-- A row whose lanes agree with f' where its form meets ok. -/
theorem LaneResult.congr {i : Nat → Nat → Instr} {op : Nat} {ok : Ctx → Prop} {f f' : Ctx → Nat → W32 → W32 → W32 → W32}
    (h : LaneResult i op ok f) (hf : ∀ x k a b c, ok x → f x k a b c = f' x k a b c) : LaneResult i op ok f' := by
  intro s n e x hx hok
  obtain ⟨t, ht, hret, hreg, hlane⟩ := h s n e x hx hok
  refine ⟨t, ht, hret, hreg, fun k a b c o hk ha hb hc ho => ?_⟩
  rw [hlane k a b c o hk ha hb hc ho, hf x k a b c hok]

/-! ## Arithmetic by TYPE (R209) -/

theorem State.arith_eq (s : State) (x : Ctx) (f : Fp → Fp → Fp → Fp) (g : Int → Int → Int) :
    s.arith x f g = s.writeV x (zip3 (laneOp f (fun a b => wrap32 (g (int32 a) (int32 b))) x 0) x.srcA x.srcB x.srcC) := by
  unfold State.arith laneOp
  generalize x.typ = n
  match n with
  | 0 => rfl
  | 1 => rfl
  | _ + 2 => rfl

theorem laneOp_int {x : Ctx} (h : x.typ = 2) (f : Fp → Fp → Fp → Fp) (g : W32 → W32 → W32) (k : Nat) (a b c : W32) :
    laneOp f g x k a b c = g a b := by simp [laneOp, h]

theorem laneOp_fp {x : Ctx} (h : x.typ < 2) (f : Fp → Fp → Fp → Fp) (g g' : W32 → W32 → W32) (k : Nat) (a b c : W32) :
    laneOp f g x k a b c = laneOp f g' x k a b c := by
  obtain h0 | h1 : x.typ = 0 ∨ x.typ = 1 := by omega
  · simp [laneOp, h0]
  · simp [laneOp, h1]

section
variable {i : Nat → Nat → Instr} {op : Nat} {f : Fp → Fp → Fp → Fp} {g : Int → Int → Int}

/-- An arithmetic row: by TYPE, exact with one rounding, or wrapping. -/
theorem LaneResult.of_arith {ok : Ctx → Prop} (hrow : ∀ h e s, exec (i h e) s = s.vecInstr h e op (fun t x => t.arith x f g)) :
    LaneResult i op ok (laneOp f (fun a b => wrap32 (g (int32 a) (int32 b)))) :=
  .of_writeV hrow (fun s x => s.arith_eq x f g) (fun _ _ _ _ _ _ ha hb hc => ⟨_, getElem?_zip3 _ ha hb hc, fun _ => rfl⟩)

theorem LaneResult.of_arith_int (hrow : ∀ h e s, exec (i h e) s = s.vecInstr h e op (fun t x => t.arith x f g)) {r : W32 → W32 → W32}
    (hr : ∀ a b, wrap32 (g (int32 a) (int32 b)) = r a b) : LaneResult i op (fun x => x.typ = 2) (fun _ _ a b _ => r a b) :=
  (LaneResult.of_arith hrow).congr (fun _ k a b c hx => (laneOp_int hx _ _ k a b c).trans (hr a b))

theorem LaneResult.of_arith_fp (hrow : ∀ h e s, exec (i h e) s = s.vecInstr h e op (fun t x => t.arith x f g)) (r : W32 → W32 → W32) :
    LaneResult i op (fun x => x.typ < 2) (laneOp f r) :=
  (LaneResult.of_arith hrow).congr (fun _ k a b c hx => laneOp_fp hx _ _ _ k a b c)

end

/-! ## INT32 results wrap (R209) -/

theorem wrap32_int32 (a : W32) : wrap32 (int32 a) = a := BitVec.ofInt_toInt

theorem wrap32_add (a b : W32) : wrap32 (int32 a + int32 b) = a + b := by
  rw [wrap32, BitVec.ofInt_add, int32, int32, BitVec.ofInt_toInt, BitVec.ofInt_toInt]

theorem wrap32_sub (a b : W32) : wrap32 (int32 a - int32 b) = a - b := by
  rw [Int.sub_eq_add_neg, wrap32, BitVec.ofInt_add, BitVec.ofInt_neg, int32, int32, BitVec.ofInt_toInt, BitVec.ofInt_toInt, BitVec.sub_eq_add_neg]

theorem wrap32_mul (a b : W32) : wrap32 (int32 a * int32 b) = a * b := by
  rw [wrap32, BitVec.ofInt_mul, int32, int32, BitVec.ofInt_toInt, BitVec.ofInt_toInt]

theorem wrap32_min (a b : W32) : wrap32 (if int32 a ≤ int32 b then int32 a else int32 b) = minS a b := by
  rw [apply_ite wrap32, wrap32_int32, wrap32_int32]
  rfl

theorem wrap32_max (a b : W32) : wrap32 (if int32 a ≤ int32 b then int32 b else int32 a) = maxS a b := by
  rw [apply_ite wrap32, wrap32_int32, wrap32_int32]
  rfl

/-- The most negative number is its own absolute value. -/
theorem wrap32_natAbs (a : W32) : wrap32 ((int32 a).natAbs : Int) = if a.toInt < 0 then -a else a := by
  rw [int32]
  split
  · rename_i hneg
    rw [Int.ofNat_natAbs_of_nonpos (Int.le_of_lt hneg), wrap32, BitVec.ofInt_neg, BitVec.ofInt_toInt]
  · rename_i hpos
    rw [Int.natAbs_of_nonneg (Int.not_lt.mp hpos)]
    exact wrap32_int32 a

/-- Settles O1: each row by its lanes, an integer result by the wrap of the exact one. -/
theorem laneArithmetic : Obligations.LaneArithmetic := by
  unfold Obligations.LaneArithmetic
  exact ⟨.of_arith_int (fun _ _ _ => rfl) wrap32_add, .of_arith_int (fun _ _ _ => rfl) wrap32_sub,
    .of_arith_int (fun _ _ _ => rfl) wrap32_mul, .of_arith_int (fun _ _ _ => rfl) wrap32_min,
    .of_arith_int (fun _ _ _ => rfl) wrap32_max, .of_arith_int (fun _ _ _ => rfl) (fun a _ => wrap32_natAbs a),
    .of_arith_fp (fun _ _ _ => rfl) _, .of_arith_fp (fun _ _ _ => rfl) _, .of_arith_fp (fun _ _ _ => rfl) _,
    .of_arith_fp (fun _ _ _ => rfl) _, .of_arith_fp (fun _ _ _ => rfl) _, .of_arith_fp (fun _ _ _ => rfl) _,
    .of_arith_fp (fun _ _ _ => rfl) _⟩

/-! ## Moves, draws and functions (R210 to R212, R217) -/

/-- What passes through an instruction of a TYPE is the operation that returns its operand. -/
theorem passLane_eq (x : Ctx) (k : Nat) (a : W32) :
    passLane x.typ x.run.ftz a = laneOp (fun p _ _ => p) (fun p _ => p) x k a a a := by
  unfold passLane laneOp
  generalize x.typ = n
  match n with
  | 0 => rfl
  | 1 => rfl
  | _ + 2 => rfl

/-- Settles O3: each row by the lanes that it writes. -/
theorem laneFunctions : Obligations.LaneFunctions := by
  unfold Obligations.LaneFunctions
  have hunary : ∀ {i op} {f : Fp → Fp}, (∀ h e s, exec (i h e) s = s.vecInstr h e op (fun t x => t.unary x f)) →
      LaneResult i op (fun _ => True) (fun x _ a _ _ => lane32 x.run.ftz (fun v _ _ => f v) a 0 0) := fun hrow => .of_map hrow (fun _ _ => rfl)
  have hzip : ∀ {l m : List W32} {k a b}, l[k]? = some a → m[k]? = some b → (l.zip m)[k]? = some (a, b) :=
    fun ha hb => List.getElem?_zip_eq_some.mpr ⟨ha, hb⟩
  refine ⟨?_, .of_map (fun _ _ _ => rfl) (fun _ _ => rfl), .of_map (fun _ _ _ => rfl) (fun _ _ => rfl), ?_, ?_,
    hunary (fun _ _ _ => rfl), hunary (fun _ _ _ => rfl), hunary (fun _ _ _ => rfl), hunary (fun _ _ _ => rfl),
    hunary (fun _ _ _ => rfl), hunary (fun _ _ _ => rfl), hunary (fun _ _ _ => rfl)⟩
  · exact .of_writeV (fun _ _ _ => rfl) (fun _ _ => rfl) (fun x k a b c _ ha hb _ => ⟨_, by simp [hzip ha hb], fun _ => passLane_eq x k _⟩)
  · exact .of_writeV (fun _ _ _ => rfl) (fun _ _ => rfl) (fun x k a b c _ ha hb _ => ⟨_, by simp [hzip ha hb], fun _ => rfl⟩)
  · exact .of_writeV (fun _ _ _ => rfl) (fun _ _ => rfl) (fun x k _ _ _ hk _ _ _ =>
      ⟨_, by rw [List.getElem?_map, List.getElem?_range hk, Option.map_some], fun hp => if_pos hp⟩)

end Sys2Proof.Machine
end

section
/-! Rules for the vector compares and for NaN: the predicate that a compare writes, and the canonical NaN (R207, R211). -/

namespace Sys2Proof.Machine

/-! ## Bits summed into a number -/

/-- Bits n, n + 1 and so on of a sum of powers of two are the Bools summed; the bits below stand. -/
theorem testBit_foldl_twoPow (l : List Bool) (k : Nat) : ∀ n a, a < 2 ^ n →
    ((l.zipIdx n).foldl (fun a b => if b.1 then a + 2 ^ b.2 else a) a).testBit k = if k < n then a.testBit k else l.getD (k - n) false := by
  induction l with
  | nil =>
    intro n a ha
    split
    · rfl
    · rename_i hk
      exact Nat.testBit_lt_two_pow (Nat.lt_of_lt_of_le ha (Nat.pow_le_pow_right (by decide) (Nat.le_of_not_lt hk)))
  | cons b r ih =>
    intro n a ha
    have hn : (if b then a + 2 ^ n else a) < 2 ^ (n + 1) := by
      rw [Nat.pow_succ]
      split <;> omega
    rw [List.zipIdx_cons, List.foldl_cons, ih (n + 1) _ hn]
    obtain hk | rfl | hk := Nat.lt_trichotomy k n
    · rw [if_pos (Nat.lt_succ_of_lt hk), if_pos hk]
      cases b
      · rfl
      · exact (congrArg (Nat.testBit · k) (Nat.add_comm a _)).trans (Nat.testBit_two_pow_add_gt hk a)
    · have hbit : a.testBit k = false := Nat.testBit_lt_two_pow ha
      rw [if_pos (Nat.lt_succ_self k), if_neg (Nat.lt_irrefl k), Nat.sub_self]
      cases b
      · exact hbit
      · exact (congrArg (Nat.testBit · k) (Nat.add_comm a _)).trans (by rw [Nat.testBit_two_pow_add_eq, hbit]; rfl)
    · rw [if_neg (by omega), if_neg (by omega), show k - n = (k - (n + 1)) + 1 by omega, List.getD_cons_succ]

/-! ## What a compare writes (R207, R211) -/

/-- An instruction that writes a predicate register, where P0 takes no write. -/
theorem State.retire_setP {s : State} {h e : Nat} {x : Ctx} (hx : s.ctx? h e = some x) (pc n : Nat) (p : BitVec 256) :
    (n ≠ 0 → ((s.retire x pc (fun g => g.setP n p)).engine h e).preg n = p) ∧ s.RegisterOnly (s.retire x pc (fun g => g.setP n p)) h e ∧
    s.Retired (s.retire x pc (fun g => g.setP n p)) h e pc (fun g => g.setP n (((s.retire x pc (fun g => g.setP n p)).engine h e).preg n)) := by
  obtain ⟨hret, hreg⟩ := State.retire_spec hx pc (fun g => g.setP n p)
  have hp : n ≠ 0 → ((s.retire x pc (fun g => g.setP n p)).engine h e).preg n = p := fun hn => by
    rw [hret]
    exact (s.engine h e).preg_setP_same hn p
  refine ⟨hp, hreg, ?_⟩
  by_cases hn : n = 0
  · subst hn
    exact hret
  · rw [hp hn]
    exact hret

/-- Lane k of the predicate that a compare writes. -/
theorem State.compare_lane {s : State} {h e : Nat} {x : Ctx} (hx : s.ctx? h e = some x) (f : Fp → Fp → Bool) (g : Int → Int → Bool)
    (hvd : x.vd % 8 ≠ 0) {k : Nat} {a b : W32} (hk : k < 256) (ha : x.srcA[k]? = some a) (hb : x.srcB[k]? = some b) :
    (((s.compare x f g).engine h e).preg (x.vd % 8)).getLsbD k = if x.pred.getLsbD k then
      (if x.typ = 0 then f (dec32 (flush32 x.run.ftz a)) (dec32 (flush32 x.run.ftz b)) else g (int32 a) (int32 b))
      else !x.zm && (x.eng.preg (x.vd % 8)).getLsbD k := by
  have hab : (x.srcA.zip x.srcB)[k]? = some (a, b) := List.getElem?_zip_eq_some.mpr ⟨ha, hb⟩
  rw [State.compare, (State.retire_setP hx _ _ _).1 hvd, BitVec.getLsbD_ofNat, testBit_foldl_twoPow _ _ 0 0 Nat.one_pos]
  simp [hk, hab]

theorem Fp.lt_of_isNan {a b : Fp} (h : a.isNan = true ∨ b.isNan = true) : a.lt b = false := by
  cases a <;> cases b <;> simp [Fp.isNan] at h <;> rfl

theorem Fp.lt_eq (a b : Fp) : a.lt b = (!a.isNan && !b.isNan && a.lt b) := by
  cases ha : a.isNan <;> cases hb : b.isNan <;> simp [Fp.lt_of_isNan, ha, hb]

theorem Fp.eqv_eq (a b : Fp) : a.eqv b = (!a.isNan && !b.isNan && a.eqv b) := by
  cases ha : a.isNan <;> cases hb : b.isNan <;> simp [Fp.eqv, ha, hb]

/-- CMPLT and CMPEQ that may issue write the predicate of their comparison. -/
theorem exec_compare {s : State} {h e : Nat} {x : Ctx} (hx : s.VecReady h e 0x09 x ∨ s.VecReady h e 0x0A x) :
    exec (if wOp x.w = 0x09 then .cmplt h e else .cmpeq h e) s = .next (s.compare x
      (fun a b => !a.isNan && !b.isNan && (if wOp x.w = 0x09 then a.lt b else a.eqv b))
      (fun a b => if wOp x.w = 0x09 then decide (a < b) else decide (a = b))) := by
  obtain hx | hx := hx
  · have hop : wOp x.w = 0x09 := hx.2.2.1
    simp only [hop, if_true, ← Fp.lt_eq]
    exact State.vecInstr_runs hx (fun t x => t.compare x (fun a b => a.lt b) (fun a b => decide (a < b)))
  · have hop : wOp x.w = 0x0A := hx.2.2.1
    simp only [hop, show ¬ 0x0A = 0x09 by decide, if_false, ← Fp.eqv_eq]
    exact State.vecInstr_runs hx (fun t x => t.compare x (fun a b => a.eqv b) (fun a b => decide (a = b)))

/-- Settles O4: the predicate of a compare by its lanes. -/
theorem compares : Obligations.Compares := by
  intro s h e x hx
  have hctx : s.ctx? h e = some x := hx.elim (·.1) (·.1)
  obtain ⟨-, hreg, hret⟩ := State.retire_setP hctx (x.eng.pc + 1) (x.vd % 8) _
  refine ⟨_, exec_compare hx, hreg, hret, rfl, fun k a b hvd hk ha hb => ?_⟩
  have heq : decide (int32 a = int32 b) = decide (a = b) := decide_eq_decide.mpr BitVec.toInt_inj
  rw [State.compare_lane hctx _ _ hvd hk ha hb, heq]
  rfl

/-! ## NaN (R211) -/

theorem dec32_isNan_exponent {a : W32} (h : (dec32 a).isNan = true) : bitsOf a.toNat 23 8 = 255 := by
  refine Decidable.byContradiction (fun hne => ?_)
  simp only [dec32, hne, if_false] at h
  split at h <;> cases h

/-- No NaN is flushed. -/
theorem flush32_of_isNan {a : W32} (h : (dec32 a).isNan = true) (z : Bool) : flush32 z a = a := by
  simp [flush32, dec32_isNan_exponent h]

theorem flush32_canonicalNan (z : Bool) : flush32 z 0x7FC00000#32 = 0x7FC00000#32 := by cases z <;> decide

theorem flushB16_canonicalNan (z : Bool) : flushB16 z 0x7FC0 = 0x7FC0 := by cases z <;> decide

theorem lane32_of_isNan {z : Bool} {f : Fp → Fp → Fp → Fp} {a b c : W32}
    (h : (f (dec32 (flush32 z a)) (dec32 (flush32 z b)) (dec32 (flush32 z c))).isNan = true) : lane32 z f a b c = 0x7FC00000#32 := by
  rw [lane32]
  cases hf : f (dec32 (flush32 z a)) (dec32 (flush32 z b)) (dec32 (flush32 z c)) with
  | nan s => exact flush32_canonicalNan z
  | inf s => simp [hf, Fp.isNan] at h
  | fin s m q => simp [hf, Fp.isNan] at h

theorem elemB16_of_isNan {z : Bool} {f : Fp → Fp → Fp → Fp} {a b c : Nat}
    (h : (f (decB16 (flushB16 z a)) (decB16 (flushB16 z b)) (decB16 (flushB16 z c))).isNan = true) : elemB16 z f a b c = 0x7FC0 := by
  rw [elemB16]
  cases hf : f (decB16 (flushB16 z a)) (decB16 (flushB16 z b)) (decB16 (flushB16 z c)) with
  | nan s => exact flushB16_canonicalNan z
  | inf s => simp [hf, Fp.isNan] at h
  | fin s m q => simp [hf, Fp.isNan] at h

theorem Fp.min_isNan {a b : Fp} (h : a.isNan = true ∨ b.isNan = true) : (a.min b).isNan = true := by
  unfold Fp.min
  split
  · assumption
  · rw [if_pos (h.resolve_left ‹_›)]
    exact h.resolve_left ‹_›

theorem Fp.max_isNan {a b : Fp} (h : a.isNan = true ∨ b.isNan = true) : (a.max b).isNan = true := by
  unfold Fp.max
  split
  · assumption
  · rw [if_pos (h.resolve_left ‹_›)]
    exact h.resolve_left ‹_›

/-- Settles O2: a NaN encodes as the canonical one, and neither MIN, MAX nor a compare loses it. -/
theorem nanRule : Obligations.NanRule := by
  have hflush : ∀ z {a b : W32}, (dec32 a).isNan = true ∨ (dec32 b).isNan = true →
      (dec32 (flush32 z a)).isNan = true ∨ (dec32 (flush32 z b)).isNan = true := fun z a b h =>
    h.imp (fun k => by rwa [flush32_of_isNan k]) (fun k => by rwa [flush32_of_isNan k])
  refine ⟨fun _ _ _ _ _ => lane32_of_isNan, fun _ _ _ _ _ => elemB16_of_isNan,
    fun z a b h => ⟨lane32_of_isNan (Fp.min_isNan (hflush z h)), lane32_of_isNan (Fp.max_isNan (hflush z h))⟩, by decide, ?_⟩
  intro s h e x hx htyp
  obtain ⟨t, ht, -, -, -, hlane⟩ := compares s h e x hx
  refine ⟨t, ht, fun k a b hvd hk ha hb hp hnan => ?_⟩
  rw [hlane k a b hvd hk ha hb, if_pos hp, if_pos htyp]
  obtain hn | hn := hflush x.run.ftz hnan <;> simp [hn]

end Sys2Proof.Machine
end

section
/-! Rules for the scalar instructions and jumps, and for the reductions over the lanes (R208 to R213). -/

namespace Sys2Proof.Machine

/-! ## Scalar operations (R208) -/

/-- A scalar row that writes v to SD. -/
theorem ScalarResult.of_writeS {i : Nat → Nat → Instr} {op : Nat} {v f : Ctx → W64}
    (hrow : ∀ h e s, exec (i h e) s = s.instr h e 4 op (fun t x => t.writeS x (v x))) (hv : ∀ x, v x = f x) : ScalarResult i op f := by
  intro s h e x hx
  obtain ⟨hret, hreg⟩ := State.retire_spec hx.1 (x.eng.pc + 1) (fun g => g.setS x.sd (f x))
  refine ⟨s.writeS x (f x), ?_, hret, hreg⟩
  rw [hrow, State.instr_runs hx, hv]

/-- A scalar row that writes an FP32 result to the low half of SD. -/
theorem ScalarResult.of_writeF {i : Nat → Nat → Instr} {op : Nat} {g : Fp → Fp → Fp} {a a' b : Ctx → W32}
    (hrow : ∀ h e s, exec (i h e) s = s.instr h e 4 op (fun t x => t.writeF x g (a x) (b x))) (ha : ∀ x, a x = a' x) :
    ScalarResult i op (fun x => BitVec.setWidth 64 (lane32 x.run.ftz (fun p q _ => g p q) (a' x) (b x) 0)) :=
  .of_writeS hrow (fun x => by rw [ha]; exact BitVec.ofNat_toNat 64 _)

theorem shiftLeft_shiftAmount (a b : W64) :
    a <<< shiftAmount b = if b.toNat < 64 then BitVec.ofNat 64 (a.toNat * 2 ^ b.toNat) else 0 := by
  unfold shiftAmount
  split
  · rename_i hb
    rw [Nat.min_eq_right (Nat.le_of_lt hb)]
    exact BitVec.eq_of_toNat_eq (by rw [BitVec.toNat_shiftLeft, BitVec.toNat_ofNat, Nat.shiftLeft_eq])
  · rename_i hb
    rw [Nat.min_eq_left (Nat.le_of_not_lt hb)]
    exact BitVec.shiftLeft_eq_zero (Nat.le_refl 64)

theorem shiftRight_shiftAmount (a b : W64) :
    a >>> shiftAmount b = if b.toNat < 64 then BitVec.ofNat 64 (a.toNat / 2 ^ b.toNat) else 0 := by
  unfold shiftAmount
  split
  · rename_i hb
    rw [Nat.min_eq_right (Nat.le_of_lt hb)]
    exact BitVec.eq_of_toNat_eq (by rw [BitVec.toNat_ushiftRight, BitVec.toNat_ofNat, Nat.shiftRight_eq_div_pow,
      Nat.mod_eq_of_lt (Nat.lt_of_le_of_lt (Nat.div_le_self _ _) a.isLt)])
  · rename_i hb
    rw [Nat.min_eq_left (Nat.le_of_not_lt hb)]
    exact BitVec.ushiftRight_eq_zero (Nat.le_refl 64)

/-- A jump goes on at its target and writes no register. -/
theorem exec_jump {i : Nat → Nat → Instr} {op : Nat} {target pc : Ctx → Nat}
    (hrow : ∀ h e s, exec (i h e) s = s.instr h e 5 op (fun t x => t.retire x (target x) (fun g => g))) (htarget : ∀ x, target x = pc x)
    (s : State) (h e : Nat) (x : Ctx) (hx : s.InstrReady h e 5 op x) :
    ∃ t, exec (i h e) s = .next t ∧ s.Retired t h e (pc x) id ∧ s.RegisterOnly t h e := by
  obtain ⟨hret, hreg⟩ := State.retire_spec hx.1 (target x) (fun g => g)
  refine ⟨_, (hrow h e s).trans (State.instr_runs hx _), ?_, hreg⟩
  rw [← htarget]
  exact hret

/-- Settles O5: each row by the value that it writes, a jump by its target. -/
theorem scalars : Obligations.Scalars := by
  unfold Obligations.Scalars
  refine ⟨.of_writeS (fun _ _ _ => rfl) (fun _ => rfl), .of_writeS (fun _ _ _ => rfl) (fun _ => rfl),
    .of_writeS (fun _ _ _ => rfl) (fun _ => rfl), .of_writeS (fun _ _ _ => rfl) (fun _ => rfl), .of_writeS (fun _ _ _ => rfl) (fun _ => rfl),
    .of_writeS (fun _ _ _ => rfl) (fun x => shiftLeft_shiftAmount x.sa x.sb),
    .of_writeS (fun _ _ _ => rfl) (fun x => shiftRight_shiftAmount x.sa x.sb), .of_writeS (fun _ _ _ => rfl) (fun x => ?_),
    .of_writeF (fun _ _ _ => rfl) (fun x => BitVec.ofNat_toNat 32 x.sa),
    .of_writeF (fun _ _ _ => rfl) (fun x => BitVec.ofNat_toNat 32 x.sa), .of_writeF (fun _ _ _ => rfl) (fun x => ?_),
    exec_jump (fun _ _ _ => rfl) (fun _ => rfl), exec_jump (fun _ _ _ => rfl) (fun x => ?_), exec_jump (fun _ _ _ => rfl) (fun x => ?_)⟩
  · unfold Ctx.sb bitOf
    split <;> rfl
  · rw [← BitVec.ofNat_toNat]
    rfl
  · exact (ite_not _ _ _).symm
  · simp only [BitVec.slt_iff_toInt_lt]
    rfl

/-! ## The fixed tree (R213) -/

section
variable (f : W32 → W32 → W32)

/-- One level over an even number of values combines each even place with the next. -/
theorem treeLevel_map_range (g : Nat → W32) (m : Nat) :
    treeLevel f ((List.range (2 * m)).map g) = (List.range m).map (fun i => f (g (2 * i)) (g (2 * i + 1))) := by
  induction m generalizing g with
  | zero => rfl
  | succ m ih =>
    rw [show 2 * (m + 1) = 2 * m + 1 + 1 by omega, List.range_succ_eq_map, List.range_succ_eq_map, List.range_succ_eq_map]
    simp only [List.map_cons, List.map_map, treeLevel]
    exact congrArg _ (ih (g ∘ Nat.succ ∘ Nat.succ))

/-- n levels over 2^n times m values leave level n of the tree. -/
theorem treeLevel_foldl (lane : Nat → W32) (n m : Nat) :
    (List.range n).foldl (fun a _ => treeLevel f a) ((List.range (2 ^ n * m)).map lane) = (List.range m).map (treeAt f lane n) := by
  induction n generalizing m with
  | zero => simp [treeAt]
  | succ n ih =>
    rw [List.range_succ, List.foldl_append, Nat.pow_succ, Nat.mul_assoc, ih]
    exact treeLevel_map_range f _ m

theorem tree_map_range (lane : Nat → W32) : tree f ((List.range 256).map lane) = treeAt f lane 8 0 := by
  rw [tree, show (256 : Nat) = 2 ^ 8 * 1 from rfl, treeLevel_foldl]
  rfl

/-- Values that enter as the neutral element have no part in a fold. -/
theorem foldl_neutral {u : W32} (hright : ∀ a, f a u = a) (p : Nat → Bool) (lane : Nat → W32) (l : List Nat) (a : W32) :
    (l.map (fun i => if p i then lane i else u)).foldl f a = (l.filter p).foldl (fun a i => f a (lane i)) a := by
  induction l generalizing a with
  | nil => rfl
  | cons i r ih =>
    rw [List.map_cons, List.foldl_cons, ih, List.filter_cons]
    split
    · rw [List.foldl_cons]
    · rw [hright]

section
variable {f} {u : W32} (hassoc : ∀ a b c, f (f a b) c = f a (f b c)) (hleft : ∀ a, f u a = a) (hright : ∀ a, f a u = a)
include hassoc hleft hright

/-- The tree of an associative operation with a neutral element is its fold from the left. -/
theorem treeAt_eq_foldl (lane : Nat → W32) (n i : Nat) :
    treeAt f lane n i = ((List.range (2 ^ n)).map (fun k => lane (2 ^ n * i + k))).foldl f u := by
  induction n generalizing i with
  | zero => simp [treeAt, hleft]
  | succ n ih =>
    have : Std.Associative f := ⟨hassoc⟩
    have hfold : ∀ l a, List.foldl f a l = f a (l.foldl f u) := fun l a => by rw [← List.foldl_assoc (op := f), hright]
    rw [treeAt, ih, ih, Nat.pow_succ, Nat.mul_two, List.range_add, List.map_append, List.foldl_append, hfold (List.map _ _) (List.foldl _ _ _)]
    simp only [List.map_map, Function.comp_def]
    have hl : 2 ^ n * (2 * i) = (2 ^ n + 2 ^ n) * i := by rw [← Nat.two_mul, Nat.mul_left_comm, Nat.mul_assoc]
    have hr : 2 ^ n * (2 * i + 1) = (2 ^ n + 2 ^ n) * i + 2 ^ n := by rw [Nat.mul_succ, hl]
    rw [hl, hr]
    simp only [Nat.add_assoc]

/-- Values that enter as the neutral element have no part in the tree. -/
theorem treeAt_neutral (p : Nat → Bool) (lane : Nat → W32) :
    treeAt f (fun i => if p i then lane i else u) 8 0 = ((List.range 256).filter p).foldl (fun a i => f a (lane i)) u := by
  rw [treeAt_eq_foldl hassoc hleft hright]
  simp only [Nat.mul_zero, Nat.zero_add]
  exact foldl_neutral f hright p lane _ u

end

end

/-- The lanes that enter a reduction: an inactive one as the neutral value. -/
theorem reduce_lanes {l : List W32} (h : l.length = 256) (p : BitVec 256) (u : W32) :
    l.zipIdx.map (fun e => if p.getLsbD e.2 then e.1 else u) = (List.range 256).map (fun i => if p.getLsbD i then l.getD i 0 else u) := by
  refine List.ext_getElem? (fun k => ?_)
  by_cases hk : k < 256
  · have hl : k < l.length := h ▸ hk
    simp [hk, hl]
  · have hl : l.length ≤ k := h ▸ Nat.le_of_not_lt hk
    simp [hk, hl]


/-! ## The larger of two signed words -/

theorem maxS_toInt (a b : W32) : (maxS a b).toInt = max a.toInt b.toInt := by
  unfold maxS
  split
  · rw [Int.max_eq_right ‹_›]
  · rw [Int.max_eq_left (Int.le_of_lt (Int.not_le.mp ‹_›))]

theorem maxS_assoc (a b c : W32) : maxS (maxS a b) c = maxS a (maxS b c) :=
  BitVec.eq_of_toInt_eq (by simp only [maxS_toInt, Int.max_assoc])

theorem least_le_toInt (a : W32) : (0x80000000#32 : W32).toInt ≤ a.toInt := BitVec.le_toInt a

theorem maxS_least_left (a : W32) : maxS 0x80000000#32 a = a := if_pos (least_le_toInt a)

theorem maxS_least_right (a : W32) : maxS a 0x80000000#32 = a :=
  BitVec.eq_of_toInt_eq (by rw [maxS_toInt, Int.max_eq_left (least_le_toInt a)])

/-! ## REDSUM and REDMAX (R213) -/

/-- A reduction of TYPE FP32 leaves the root of the tree in S[VD]. -/
theorem State.reduce_fp {s : State} {x : Ctx} (ht : x.typ = 0) (hl : x.srcA.length = 256) (f : Fp → Fp → Fp) (g : Int → Int → Int) (u v : W32) :
    s.reduce x f g u v = s.retire x (x.eng.pc + 1) (fun e => e.setS (x.vd % 32) (BitVec.setWidth 64
      (treeAt (fun a b => lane32 x.run.ftz (fun p q _ => f p q) a b 0) (fun i => if x.pred.getLsbD i then x.srcA.getD i 0 else u) 8 0))) := by
  simp only [State.reduce, ht, if_true, reduce_lanes hl, tree_map_range]
  exact congrArg (fun w => s.retire x (x.eng.pc + 1) (fun e => e.setS (x.vd % 32) w)) (BitVec.ofNat_toNat 64 _)

/-- A reduction of TYPE INT32 by an associative operation leaves the fold over the active lanes in S[VD]. -/
theorem State.reduce_int {s : State} {x : Ctx} (ht : x.typ = 2) (hl : x.srcA.length = 256) (f : Fp → Fp → Fp) (g : Int → Int → Int) (v u : W32)
    {r : W32 → W32 → W32} (hr : ∀ a b, wrap32 (g (int32 a) (int32 b)) = r a b) (hassoc : ∀ a b c, r (r a b) c = r a (r b c))
    (hleft : ∀ a, r u a = a) (hright : ∀ a, r a u = a) :
    s.reduce x f g v u = s.retire x (x.eng.pc + 1) (fun e => e.setS (x.vd % 32) (BitVec.signExtend 64
      (((List.range 256).filter (fun i => x.pred.getLsbD i)).foldl (fun a i => r a (x.srcA.getD i 0)) u))) := by
  simp only [State.reduce, ht, show ¬ 2 = 0 by decide, if_false, reduce_lanes hl, hr, tree_map_range]
  rw [treeAt_neutral hassoc hleft hright]
  rfl

/-- A reduction that may issue writes its value to S[VD]. -/
theorem exec_reduce {s : State} {h e op : Nat} {x : Ctx} {i : Instr} {f : Fp → Fp → Fp} {g : Int → Int → Int} {u v : W32} {r : W64}
    (hx : s.VecReady h e op x) (hrow : exec i s = s.vecInstr h e op (fun t y => t.reduce y f g u v))
    (hval : s.reduce x f g u v = s.retire x (x.eng.pc + 1) (fun e => e.setS (x.vd % 32) r)) :
    ∃ t, exec i s = .next t ∧ s.RegisterOnly t h e ∧ s.Retired t h e (x.eng.pc + 1) (fun e => e.setS (x.vd % 32) r) := by
  obtain ⟨hret, hreg⟩ := State.retire_spec hx.1 (x.eng.pc + 1) (fun e => e.setS (x.vd % 32) r)
  exact ⟨_, by rw [hrow, State.vecInstr_runs hx, hval], hreg, hret⟩

/-- Settles O7: a reduction by the root of its tree, and for integers by the fold that the tree is. -/
theorem reductions : Obligations.Reductions := by
  refine ⟨fun s h e x hx ht hl => ?_, fun s h e x hx ht hl => ?_, fun s h e x hx ht hl => ?_, fun s h e x hx ht hl => ?_⟩
  · exact exec_reduce hx rfl (State.reduce_fp ht hl _ _ _ _)
  · exact exec_reduce hx rfl (State.reduce_fp ht hl _ _ _ _)
  · exact exec_reduce hx rfl (State.reduce_int ht hl _ _ _ _ wrap32_add BitVec.add_assoc BitVec.zero_add BitVec.add_zero)
  · exact exec_reduce hx rfl (State.reduce_int ht hl _ _ _ _ wrap32_max maxS_assoc maxS_least_left maxS_least_right)

end Sys2Proof.Machine
end

section
/-! Rules for the control of a run: what an instruction finds of its run, the barrier, and how a run ends (R204, R205, R208, R218). -/

namespace Sys2Proof.Machine

/-! ## The run of an instruction (R204) -/

/-- What ctx? finds of the run: the engine's, by its command, which is in flight. -/
theorem State.ctx?_run {s : State} {h e : Nat} {x : Ctx} (hx : s.ctx? h e = some x) :
    x.eng.run = some (x.run.cmd, x.rank) ∧ (s.he h).runs.find? (fun r => r.cmd == x.run.cmd) = some x.run ∧ s.cmd? x.run.cmd = some x.c := by
  unfold State.ctx? at hx
  dsimp only at hx
  split at hx
  · cases hx
  · rename_i id rank hr
    split at hx
    · rename_i run c hrun hc
      have hid : run.cmd = id := by simpa using List.find?_some hrun
      split at hx
      · cases hx
      · split at hx
        · split at hx
          · cases hx
            exact ⟨hid ▸ hr, hid ▸ hrun, hid ▸ hc⟩
          · cases hx
        · cases hx
    · cases hx

/-- The engines of a hearth behind an update of each of them. -/
theorem getD_map_engine {f : Engine → Engine} (hf : f {} = {}) (l : List Engine) (i : Nat) : (l.map f).getD i {} = f (l.getD i {}) := by
  rw [List.getD_eq_getElem?_getD, List.getD_eq_getElem?_getD, List.getElem?_map]
  cases l[i]? with
  | none => exact hf.symm
  | some _ => rfl

/-! ## The barrier (R208) -/

/-- An engine as the barrier of run id lets it pass. -/
def Engine.pass (id : Nat) (g : Engine) : Engine :=
  match g.run with
  | some (c, _) => if c = id then { g with atBarrier := false } else g
  | none => g

theorem Engine.pass_eq (id : Nat) (g : Engine) : ∃ b, g.pass id = { g with atBarrier := b } := by
  unfold Engine.pass
  split
  · split
    · exact ⟨false, rfl⟩
    · exact ⟨g.atBarrier, rfl⟩
  · exact ⟨g.atBarrier, rfl⟩

theorem Engine.pass_of_run {id r : Nat} {g : Engine} (h : g.run = some (id, r)) : g.pass id = { g with atBarrier := false } := by
  simp [Engine.pass, h]

/-- While an engine of the run has not reached the barrier, none passes. -/
theorem Hearth.passBarrier_waits {x : Hearth} {es : List Nat} {i : Nat} (id : Nat) (hi : i ∈ es) (hb : (x.engines.getD i {}).atBarrier = false) :
    x.passBarrier id es = x :=
  if_neg (by simpa using ⟨i, hi, by simpa using hb⟩)

theorem Hearth.passBarrier_passes {x : Hearth} {es : List Nat} (id : Nat) (h : ∀ i ∈ es, (x.engines.getD i {}).atBarrier = true) (i : Nat) :
    ((x.passBarrier id es).engines.getD i {}) = (x.engines.getD i {}).pass id := by
  have hp : x.passBarrier id es = { x with engines := x.engines.map (Engine.pass id) } := if_pos (by simpa using h)
  rw [hp]
  exact getD_map_engine rfl _ _

/-- The barrier changes no more of an engine than whether it stands at it. -/
theorem Hearth.passBarrier_engine (x : Hearth) (id : Nat) (es : List Nat) (i : Nat) :
    ∃ b, (x.passBarrier id es).engines.getD i {} = { x.engines.getD i {} with atBarrier := b } := by
  cases h : es.all (fun i => (x.engines.getD i {}).atBarrier) with
  | true =>
    rw [Hearth.passBarrier_passes id (List.all_eq_true.mp h)]
    exact Engine.pass_eq id _
  | false =>
    obtain ⟨j, hj, hb⟩ := List.all_eq_false.mp h
    rw [Hearth.passBarrier_waits id hj (Bool.eq_false_iff.mpr hb)]
    exact ⟨_, rfl⟩

/-! ## The end of a run (R204, R205, R218) -/

theorem Engine.release_run (id r : Nat) (g : Engine) : (g.release id).run ≠ some (id, r) := by
  unfold Engine.release
  split
  · rename_i c q hr
    split
    · exact nofun
    · rename_i hc
      rw [hr]
      exact fun h => hc (congrArg Prod.fst (Option.some.inj h))
  · rename_i hr
    rw [hr]
    exact nofun

/-- A run that ends: its command has its reply, its engines and its record are free, and no allotment changes. -/
structure State.RunGone (s t : State) (h id : Nat) (code : Code) (detail : W32) (result : W128) : Prop where
  ended : t.Ended id code detail result
  engines : ∀ i r, (t.engine h i).run ≠ some (id, r)
  runs : ∀ r ∈ (t.he h).runs, r.cmd ≠ id
  allots : ∀ a, t.al a = s.al a

theorem State.endRun_gone {s : State} {h id : Nat} (hh : h < s.hearths.length) (hc : (s.cmd? id).isSome = true) (code : Code) (detail : W32)
    (result : W128) : s.RunGone ((s.modHe h (fun y => y.endRun id)).finish id code detail result) h id code detail result := by
  have he : ((s.modHe h (fun y => y.endRun id)).finish id code detail result).he h =
      (s.he h).endRun id := (State.modCmd_he _ _ _ _).trans (s.modHe_he_same _ hh)
  refine ⟨State.finish_ended hc code detail result, fun i r => ?_, fun r hr => ?_, fun _ => rfl⟩
  · have hrel : ((s.he h).endRun id).engines.getD i {} = ((s.he h).engines.getD i {}).release id := getD_map_engine rfl _ _
    rw [State.engine, he, hrel]
    exact Engine.release_run id r _
  · rw [he] at hr
    simpa using (List.mem_filter.mp hr).2

/-- An instruction that stops its run. -/
theorem State.stopRun_gone {s : State} {h e : Nat} {x : Ctx} (hx : s.ctx? h e = some x) (access : Bool) :
    s.RunGone (s.stopRun x access) h x.run.cmd .badParam (progDetail x.eng.pc false access (!access) x.run.wrote) 0 := by
  have hh := (State.ctx?_bounds hx).1
  have hc := (State.ctx?_run hx).2.2
  obtain ⟨rfl, -⟩ := State.ctx?_spec hx
  exact State.endRun_gone hh (by rw [hc]; rfl) _ _ _

/-- The engine has halted, and the run keeps S10 of rank 0. -/
def State.halted (s : State) (x : Ctx) : State :=
  let t := s.retire x (x.eng.pc + 1) (fun g => { g with halted := true })
  if x.rank = 0 then
    t.modHe x.h (fun y => { y with runs := y.runs.map (fun r => if r.cmd = x.run.cmd then { r with s10 := x.eng.sreg 10 } else r) })
  else t

/-- The record of the run once the engine has halted. -/
def Ctx.haltedRun (x : Ctx) : VRun := { x.run with s10 := if x.rank = 0 then x.eng.sreg 10 else x.run.s10 }

theorem exec_halt {s : State} {h e : Nat} {x : Ctx} (hx : s.InstrReady h e 5 0x11 x) : exec (.halt h e) s = .next ((s.halted x).runEnds x) := by
  show execHalt h e s = _
  rw [execHalt, State.instr_runs hx]
  rfl

/-- The engines of the hearth once an instruction retires. -/
theorem State.retire_engine {s : State} {h e : Nat} {x : Ctx} (hx : s.ctx? h e = some x) (pc : Nat) (f : Engine → Engine) (i : Nat) :
    (s.retire x pc f).engine h i = if i = e then { f (s.engine h e) with pc := pc, count := (s.engine h e).count + 1 } else s.engine h i := by
  obtain ⟨hret, -, hothers, -⟩ := State.retire_spec hx pc f
  split
  · rename_i hi
    rw [hi]
    exact hret
  · rename_i hi
    exact hothers h i (.inr hi)

theorem State.halted_engine {s : State} {h e : Nat} {x : Ctx} (hx : s.ctx? h e = some x) (i : Nat) : (s.halted x).engine h i =
    if i = e then { s.engine h e with halted := true, pc := x.eng.pc + 1, count := (s.engine h e).count + 1 } else s.engine h i := by
  have hstand : (s.halted x).engine h i = (s.retire x (x.eng.pc + 1) (fun g => { g with halted := true })).engine h i := by
    unfold State.halted
    dsimp only
    split
    · rw [State.engine, State.engine, State.modHe_he]
      split
      · rename_i k
        rw [k.1]
      · rfl
    · rfl
  rw [hstand, State.retire_engine hx]

theorem State.retire_hearths_length (s : State) (x : Ctx) (pc : Nat) (f : Engine → Engine) :
    (s.retire x pc f).hearths.length = s.hearths.length :=
  (State.countFor_tallies _ _ _ _ _ _).hearths.trans (s.modHe_length _ _)

theorem State.retire_hg (s : State) (x : Ctx) (pc : Nat) (f : Engine → Engine) : (s.retire x pc f).hg = s.hg :=
  (State.countFor_tallies _ _ _ _ _ _).hg

theorem State.halted_run {s : State} {h e : Nat} {x : Ctx} (hx : s.ctx? h e = some x) :
    ((s.halted x).he h).runs.find? (fun r => r.cmd == x.run.cmd) = some x.haltedRun ∧ (s.halted x).cmd? x.run.cmd = some x.c ∧
    h < (s.halted x).hearths.length := by
  obtain ⟨-, hfind, hcmd⟩ := State.ctx?_run hx
  have hh := (State.ctx?_bounds hx).1
  obtain ⟨-, -, -, -, hruns, -⟩ := State.retire_spec hx (x.eng.pc + 1) (fun g => { g with halted := true })
  have hlen := s.retire_hearths_length x (x.eng.pc + 1) (fun g => { g with halted := true })
  have hhg := s.retire_hg x (x.eng.pc + 1) (fun g => { g with halted := true })
  obtain ⟨rfl, -⟩ := State.ctx?_spec hx
  unfold State.halted Ctx.haltedRun
  dsimp only
  split
  · refine ⟨?_, by rw [State.cmd?, State.modHe_hg, hhg]; exact hcmd, by rw [State.modHe_length, hlen]; exact hh⟩
    have hp : ((fun r : VRun => r.cmd == x.run.cmd) ∘ fun r => if r.cmd = x.run.cmd then { r with s10 := x.eng.sreg 10 } else r) =
        fun r => r.cmd == x.run.cmd := funext fun r => by simp only [Function.comp]; split <;> rfl
    rw [State.modHe_he_same _ _ (hlen ▸ hh), List.find?_map, hp, hruns, hfind]
    simp
  · exact ⟨by rw [hruns, hfind], by rw [State.cmd?, hhg]; exact hcmd, hlen ▸ hh⟩

/-- An engine of the run that has not halted keeps it. -/
theorem State.runEnds_waits {s : State} {x : Ctx} {r : VRun} (hr : (s.he x.h).runs.find? (fun r => r.cmd == x.run.cmd) = some r) {i : Nat}
    (hi : i ∈ r.engines) (hh : (s.engine x.h i).halted = false) : s.runEnds x = s := by
  have hall : ¬ r.engines.all (fun i => ((s.he x.h).engines.getD i {}).halted) = true := by simpa using ⟨i, hi, by simpa [State.engine] using hh⟩
  unfold State.runEnds
  rw [hr]
  exact if_neg hall

theorem State.runEnds_ends {s : State} {x : Ctx} {r : VRun} (hr : (s.he x.h).runs.find? (fun r => r.cmd == x.run.cmd) = some r)
    (hh : ∀ i ∈ r.engines, (s.engine x.h i).halted = true) (hc : x.c.aux.headD 0 = 0) :
    s.runEnds x = (s.modHe x.h (fun y => y.endRun r.cmd)).finish r.cmd .ok 0 (BitVec.setWidth 128 r.s10) := by
  have hall : r.engines.all (fun i => ((s.he x.h).engines.getD i {}).halted) = true := by simpa [State.engine] using hh
  simp only [State.runEnds, hr, hall, hc, if_true]
  exact congrArg _ (BitVec.ofNat_toNat 128 r.s10)

/-- The engine has reached its barrier, and the run passes where every engine of it has. -/
def State.atBarrier (s : State) (x : Ctx) : State :=
  (s.retire x (x.eng.pc + 1) (fun g => { g with atBarrier := true })).modHe x.h (fun y => y.passBarrier x.run.cmd x.run.engines)

theorem exec_vecBarrier {s : State} {h e : Nat} {x : Ctx} (hx : s.InstrReady h e 5 0x10 x) :
    exec (.vecBarrier h e) s = .next (s.atBarrier x) := by
  show execVecBarrier h e s = _
  rw [execVecBarrier, State.instr_runs hx]
  rfl

section
variable {s : State} {h e : Nat} {x : Ctx} (hx : s.ctx? h e = some x)
include hx

theorem State.atBarrier_he : (s.atBarrier x).he h =
    ((s.retire x (x.eng.pc + 1) (fun g => { g with atBarrier := true })).he h).passBarrier x.run.cmd x.run.engines := by
  have hh := s.retire_hearths_length x (x.eng.pc + 1) (fun g => { g with atBarrier := true }) ▸ (State.ctx?_bounds hx).1
  obtain ⟨rfl, -⟩ := State.ctx?_spec hx
  exact State.modHe_he_same _ _ hh

/-- BARRIER changes the hearths and the counters alone. -/
theorem State.atBarrier_frame : { s.atBarrier x with hearths := s.hearths, allots := s.allots, glob := s.glob } = s ∧
    ∀ a, ((s.atBarrier x).al a).objs = (s.al a).objs := by
  obtain ⟨-, hframe, -, hal, -⟩ := State.retire_spec hx (x.eng.pc + 1) (fun g => { g with atBarrier := true })
  exact ⟨hframe, fun a => (hal a).1⟩

/-- The engine goes on with the registers that it had. -/
theorem State.atBarrier_self : ∃ b, (s.atBarrier x).engine h e =
    { s.engine h e with atBarrier := b, pc := x.eng.pc + 1, count := (s.engine h e).count + 1 } := by
  obtain ⟨b, hb⟩ := Hearth.passBarrier_engine ((s.retire x (x.eng.pc + 1) (fun g => { g with atBarrier := true })).he h) x.run.cmd x.run.engines e
  refine ⟨b, ?_⟩
  rw [State.engine, State.atBarrier_he hx, hb]
  exact congrArg (fun g : Engine => { g with atBarrier := b }) ((State.retire_engine hx _ _ e).trans (if_pos rfl))

theorem State.atBarrier_waits {j : Nat} (hj : j ∈ x.run.engines) (hje : j ≠ e) (hb : (s.engine h j).atBarrier = false) (i : Nat) :
    (s.atBarrier x).engine h i =
      if i = e then { s.engine h e with atBarrier := true, pc := x.eng.pc + 1, count := (s.engine h e).count + 1 } else s.engine h i := by
  rw [State.engine, State.atBarrier_he hx, Hearth.passBarrier_waits _ hj]
  · exact State.retire_engine hx _ _ i
  · exact (congrArg Engine.atBarrier ((State.retire_engine hx _ _ j).trans (if_neg hje))).trans hb

theorem State.atBarrier_passes (hall : ∀ i ∈ x.run.engines, i ≠ e → (s.engine h i).atBarrier = true) {i r : Nat}
    (hr : (s.engine h i).run = some (x.run.cmd, r)) : ((s.atBarrier x).engine h i).atBarrier = false := by
  have hu := State.retire_engine hx (x.eng.pc + 1) (fun g => { g with atBarrier := true })
  rw [State.engine, State.atBarrier_he hx, Hearth.passBarrier_passes]
  · refine congrArg Engine.atBarrier (Engine.pass_of_run (r := r) ?_)
    refine (congrArg Engine.run (hu i)).trans ?_
    split
    · rename_i hi
      exact hi ▸ hr
    · exact hr
  · intro j hj
    refine (congrArg Engine.atBarrier (hu j)).trans ?_
    split
    · rfl
    · exact hall j hj ‹_›

end

theorem progDetail_budget (pc : Nat) (part : Bool) : progDetail pc false false true part = w32 (pc % 65536 + 2 ^ 18 + b2n part * 2 ^ 19) := by
  simp [progDetail, b2n]

theorem progDetail_access (pc : Nat) (part : Bool) : progDetail pc false true false part = w32 (pc % 65536 + 2 ^ 17 + b2n part * 2 ^ 19) := by
  simp [progDetail, b2n]

/-- Settles O6: the barrier by what it lets pass, HALT by the halted engines of the run, a stop by the end of the run. -/
theorem runControl : Obligations.RunControl := by
  refine ⟨fun s h e x hx => ?_, fun s h e x hx ⟨i, hi, hie, hrun⟩ => ?_, fun s h e x hx hall hc => ?_, fun s h e x hx hb hcount => ?_,
    fun s h e x hx hbase => ?_⟩
  · obtain ⟨hframe, hobjs⟩ := State.atBarrier_frame hx.1
    obtain ⟨b, hself⟩ := State.atBarrier_self hx.1
    obtain ⟨-, -, heng, -⟩ := State.ctx?_spec hx.1
    rw [← heng] at hself
    refine ⟨s.atBarrier x, exec_vecBarrier hx, by rw [hself], by rw [hself], by rw [hself], by rw [hself], hframe, hobjs, ?_, fun hall => ?_⟩
    · rintro ⟨j, hj, hje, hb⟩
      have hw := State.atBarrier_waits hx.1 hj hje hb
      exact ⟨congrArg Engine.atBarrier ((hw e).trans (if_pos rfl)), fun i hi => (hw i).trans (if_neg hi)⟩
    · have hrun := (State.ctx?_run hx.1).1
      exact ⟨State.atBarrier_passes hx.1 hall (heng ▸ hrun), fun i r => State.atBarrier_passes hx.1 hall⟩
  · obtain ⟨rfl, -⟩ := State.ctx?_spec hx.1
    have hwait : (s.halted x).runEnds x = s.halted x :=
      State.runEnds_waits (State.halted_run hx.1).1 hi (by rw [State.halted_engine hx.1, if_neg hie]; exact hrun)
    refine ⟨s.halted x, by rw [exec_halt hx, hwait], ?_, fun i hi => ?_⟩
    · exact (State.halted_engine hx.1 e).trans (if_pos rfl)
    · exact (State.halted_engine hx.1 i).trans (if_neg hi)
  · obtain ⟨rfl, -⟩ := State.ctx?_spec hx.1
    obtain ⟨hr, hcmd, hh⟩ := State.halted_run hx.1
    have hhalt : ∀ i ∈ x.haltedRun.engines, ((s.halted x).engine x.h i).halted = true := fun i hi => by
      rw [State.halted_engine hx.1]
      split
      · rfl
      · exact hall i hi ‹_›
    obtain ⟨hend, hfree, hruns, -⟩ := State.endRun_gone hh (id := x.run.cmd) (by rw [hcmd]; rfl) .ok 0 (BitVec.setWidth 128 x.haltedRun.s10)
    exact ⟨_, (exec_halt hx).trans (congrArg _ (State.runEnds_ends hr hhalt hc)), hend, hfree, hruns⟩
  · have hw : x.within = false := by simp [Ctx.within, hb, hcount]
    obtain ⟨hend, hfree, -, hal⟩ := State.stopRun_gone hx false
    refine ⟨s.stopRun x false, ?_, progDetail_budget _ _ ▸ hend, hfree, hal⟩
    show execProgBudgetExhausted h e s = _
    simp [execProgBudgetExhausted, hx, hw]
  · obtain ⟨hend, hfree, -, hal⟩ := State.stopRun_gone hx.1 true
    refine ⟨s.stopRun x true, ?_, progDetail_access _ _ ▸ hend, hfree, hal⟩
    show execLd h e s = _
    rw [execLd, State.instr_runs hx]
    exact congrArg _ (if_neg (fun k => hbase k.1))

end Sys2Proof.Machine
end

section
/-! Rules for the loads of the vector engines: what counting leaves of an instruction, and the lanes that a load fills (R205, R207, R214). -/

namespace Sys2Proof.Machine

/-! ## Counts beside an instruction (R114, R451) -/

/-- Only counters and the statistics of layers differ: objects and programs stand. -/
structure State.Counts (s t : State) : Prop where
  frame : { t with allots := s.allots, glob := s.glob } = s
  objs : ∀ a, (t.al a).objs = (s.al a).objs
  progs : ∀ a, (t.al a).progs = (s.al a).progs

theorem State.Counts.refl (s : State) : s.Counts s := ⟨rfl, fun _ => rfl, fun _ => rfl⟩

theorem State.Counts.trans {s t u : State} (h : s.Counts t) (k : t.Counts u) : s.Counts u := by
  refine ⟨?_, fun a => (k.objs a).trans (h.objs a), fun a => (k.progs a).trans (h.progs a)⟩
  conv => rhs; rw [← h.frame]
  rw [← k.frame]

theorem State.countFor_counts (s : State) (c : Cmd) (ev : Nat) (h layer : Option Nat) (n : Nat) : s.Counts (s.countFor c ev h layer n) := by
  obtain ⟨hframe, hal⟩ := s.count_frame ev h (some c.allot) layer (some c.id) n
  exact ⟨hframe, fun a => (hal a).1, fun a => (hal a).2⟩

theorem State.modLayer_counts (s : State) (a layer : Nat) (f : Layer → Layer) : s.Counts (s.modLayer a layer f) := by
  refine ⟨rfl, (s.modLayer_tallies a layer f).objs, fun b => ?_⟩
  rw [State.modLayer, State.modAl_al]
  split
  · rename_i k
    rw [k.1]
  · rfl

section
variable {s t : State} (k : s.Counts t)
include k

theorem State.Counts.hg : t.hg = s.hg := by
  have h := congrArg State.hg k.frame
  exact h

theorem State.Counts.hearths : t.hearths = s.hearths := by
  have h := congrArg State.hearths k.frame
  exact h

theorem State.Counts.he (h : Nat) : t.he h = s.he h := by rw [State.he, k.hearths, State.he]

theorem State.Counts.engine (h e : Nat) : t.engine h e = s.engine h e := by rw [State.engine, k.he, State.engine]

/-- Counting leaves the next instruction of every engine. -/
theorem State.Counts.ctx? (h e : Nat) : t.ctx? h e = s.ctx? h e := by
  have hprog : ∀ a pid, (t.al a).prog? pid = (s.al a).prog? pid := fun a pid => by rw [Allot.prog?, k.progs, Allot.prog?]
  simp only [State.ctx?, State.cmd?, k.he, k.hg, hprog]

theorem State.Counts.registerOnly {u : State} {h e : Nat} (r : t.RegisterOnly u h e) : s.RegisterOnly u h e := by
  obtain ⟨hframe, hengines, hal, hruns, hlists⟩ := r
  refine ⟨?_, fun i j hij => (hengines i j hij).trans (k.engine i j), fun a => ⟨((hal a).1).trans (k.objs a), ((hal a).2).trans (k.progs a)⟩,
    hruns.trans (by rw [k.he]), hlists.trans (by rw [k.he])⟩
  conv => rhs; rw [← k.frame]
  rw [← hframe, k.hearths]

theorem State.Counts.retired {u : State} {h e pc : Nat} {f : Engine → Engine} (r : t.Retired u h e pc f) : s.Retired u h e pc f := by
  rw [State.Retired, k.engine] at r
  exact r

end

/-! ## The lanes of a load (R207, R214) -/

/-- What lane i of a load receives. -/
def State.loadLane (s : State) (x : Ctx) (els : Nat → List Nat) (word : List W32 → W32) (i : Nat) : W32 :=
  if x.mpred.getLsbD i then word ((els i).map (fun j => (s.elem32 x.run.allot (s.winObj x) j).1)) else 0

/-- A load that meets no poison counts, and writes the lanes of VR under the predicate. -/
theorem State.load_clean {s : State} {x : Ctx} (hs : s.Clean x.run.allot) (gather : Bool) (els : Nat → List Nat) (word : List W32 → W32) :
    ∃ u, s.Counts u ∧ s.load x gather els word =
      u.retire x (x.eng.pc + 1) (fun e => e.setV x.vd (predicated x.mpred false (x.eng.vreg x.vd) ((List.range 256).map (s.loadLane x els word)))) := by
  have hp : s.poisonOf ((x.lanes.flatMap els).flatMap (fun i => s.elemReads x.run.allot x.win.handle i 1)) = none :=
    hs.poisonOf (.flatMap (fun i => s.elemReads_of _ _ i 1) _)
  unfold State.load
  extract_lets o a is t t1 sat t2 val
  have ht : s.Counts t := s.countFor_counts _ _ _ _ _
  have h1 : s.Counts t1 := by
    dsimp only [t1]
    split
    · exact ht.trans (t.countFor_counts _ _ _ _ _)
    · exact ht
  have h2 : s.Counts t2 := by
    dsimp only [t2]
    split
    · exact h1.trans (t1.modLayer_counts _ _ _)
    · exact h1
  refine ⟨t2, h2, ?_⟩
  rw [hp]
  rfl

/-- A load fills the active lanes of VR, and changes no memory. -/
theorem State.load_spec {s : State} {h e : Nat} {x : Ctx} (hx : s.ctx? h e = some x) (hs : s.Clean x.run.allot) (gather : Bool)
    (els : Nat → List Nat) (word : List W32 → W32) :
    let t := s.load x gather els word
    s.RegisterOnly t h e ∧ s.Retired t h e (x.eng.pc + 1) (fun g => g.setV x.vd ((t.engine h e).vreg x.vd)) ∧
    ∀ k o, k < 256 → (x.eng.vreg x.vd)[k]? = some o → ((t.engine h e).vreg x.vd)[k]? = some
      (if x.mpred.getLsbD k then word ((els k).map (fun j => (s.elem32 x.run.allot (s.winObj x) j).1)) else o) := by
  obtain ⟨u, hu, heq⟩ := State.load_clean hs gather els word
  obtain ⟨hv, hreg, hret⟩ := State.retire_setV ((hu.ctx? h e).trans hx) (x.eng.pc + 1) x.vd
    (predicated x.mpred false (x.eng.vreg x.vd) ((List.range 256).map (s.loadLane x els word)))
  dsimp only
  rw [heq]
  refine ⟨hu.registerOnly hreg, hu.retired hret, fun k o hk ho => ?_⟩
  have hlane : ((List.range 256).map (s.loadLane x els word))[k]? = some (s.loadLane x els word k) := by
    rw [List.getElem?_map, List.getElem?_range hk, Option.map_some]
  rw [hv, getElem?_predicated ho hlane, State.loadLane]
  split <;> rfl

/-- Settles O8: a load whose access is in order by the lanes that it fills. -/
theorem loads : Obligations.Loads := by
  refine ⟨fun s h e x hx hb hok hs => ?_, fun s h e x hx hb hf hok hs => ?_, fun s h e x hx hok hs => ?_⟩
  · refine ⟨_, ?_, State.load_spec hx.1 hs false (fun i => [x.place (x.elemBase + i)]) oneWord⟩
    show execLd h e s = _
    rw [execLd, State.instr_runs hx]
    exact congrArg _ (if_pos ⟨hb, hok⟩)
  · refine ⟨_, ?_, State.load_spec hx.1 hs false (fun i => [x.place (x.elemBase + 2 * i), x.place (x.elemBase + 2 * i + 1)]) pairWord⟩
    show execLdh h e s = _
    rw [execLdh, State.instr_runs hx]
    exact congrArg _ (if_pos ⟨hb, hf, hok⟩)
  · refine ⟨_, ?_, State.load_spec hx.1 hs true (fun i => [x.place (x.lanePlace i)]) oneWord⟩
    show execGather h e s = _
    rw [execGather, State.instr_runs hx]
    exact congrArg _ (if_pos hok)

end Sys2Proof.Machine
end

section
/-! Rules for the stores of the vector engines: what writing into the object of a window leaves, and a store of no lane (R205, R207, R214). -/

namespace Sys2Proof.Machine

/-! ## Work that leaves the engines (R451, R459) -/

/-- Every engine stands, and so does all outside the control and data planes, the faults included. -/
structure State.EnginesStand (s t : State) : Prop where
  outside : s.Outside t
  flt : t.flt = s.flt
  hearths : t.hearths.length = s.hearths.length
  engines : ∀ k, (t.he k).engines = (s.he k).engines

theorem State.Outside.refl (s : State) : s.Outside s := ⟨rfl, rfl, rfl, rfl, rfl, rfl, rfl, rfl⟩

theorem State.Outside.trans {s t u : State} (h : s.Outside t) (k : t.Outside u) : s.Outside u := by
  obtain ⟨h1, h2, h3, h4, h5, h6, h7, h8⟩ := h
  obtain ⟨k1, k2, k3, k4, k5, k6, k7, k8⟩ := k
  exact ⟨k1.trans h1, k2.trans h2, k3.trans h3, k4.trans h4, k5.trans h5, k6.trans h6, k7.trans h7, k8.trans h8⟩

theorem State.modEng_outside (s : State) (h e : Nat) (f : Engine → Engine) : s.Outside (s.modEng h e f) := .refl s

theorem State.EnginesStand.refl (s : State) : s.EnginesStand s := ⟨.refl s, rfl, rfl, fun _ => rfl⟩

theorem State.EnginesStand.trans {s t u : State} (h : s.EnginesStand t) (k : t.EnginesStand u) : s.EnginesStand u :=
  ⟨h.outside.trans k.outside, k.flt.trans h.flt, k.hearths.trans h.hearths, fun j => (k.engines j).trans (h.engines j)⟩

theorem State.EnginesStand.engine {s t : State} (k : s.EnginesStand t) (h e : Nat) : t.engine h e = s.engine h e := by
  rw [State.engine, k.engines, State.engine]

theorem State.modAl_enginesStand (s : State) (a : Nat) (f : Allot → Allot) : s.EnginesStand (s.modAl a f) :=
  ⟨.refl s, rfl, rfl, fun _ => rfl⟩

theorem State.Counts.enginesStand {s t : State} (k : s.Counts t) : s.EnginesStand t := by
  have hout : s.Outside t := by
    conv => lhs; rw [← k.frame]
    exact ⟨rfl, rfl, rfl, rfl, rfl, rfl, rfl, rfl⟩
  have hflt := congrArg State.flt k.frame
  exact ⟨hout, hflt, congrArg List.length k.hearths, fun j => by rw [k.he]⟩

theorem State.settle_enginesStand (s : State) : s.EnginesStand s.settle := by
  have hw := s.settleWith_works 0 0
  refine ⟨⟨s.settle_dev, s.settle_clk, s.settle_host, s.settle_fab, s.settle_pair, s.settle_mgt, s.settle_fuse, s.settle_pending⟩, s.settle_flt,
    hw.hearths, fun k => ?_⟩
  conv => rhs; rw [← hw.stand k]
  rfl

/-- What a store leaves of objects: no object but h of allotment a and its flag map changes, and h keeps its flag map. -/
structure State.StoresInto (s t : State) (a h : Nat) : Prop extends s.EnginesStand t where
  flagMap : (t.objD a h).flagMap = (s.objD a h).flagMap
  objs : ∀ b i, (b ≠ a ∨ (i ≠ handleIndex h ∧ ∀ f, (s.objD a h).flagMap = some f → i ≠ handleIndex f)) →
    look i (t.al b).objs = look i (s.al b).objs

/-- No object changes. -/
structure State.ObjsAside (s t : State) : Prop extends s.EnginesStand t where
  objs : ∀ b, (t.al b).objs = (s.al b).objs

theorem State.ObjsAside.refl (s : State) : s.ObjsAside s := ⟨.refl s, fun _ => rfl⟩

theorem State.ObjsAside.trans {s t u : State} (h : s.ObjsAside t) (k : t.ObjsAside u) : s.ObjsAside u :=
  ⟨h.toEnginesStand.trans k.toEnginesStand, fun b => (k.objs b).trans (h.objs b)⟩

theorem State.objD_of_objs {s t : State} {a : Nat} (h : (t.al a).objs = (s.al a).objs) (k : Nat) : t.objD a k = s.objD a k := by
  rw [State.objD, State.obj?, Allot.obj?, h, State.objD, State.obj?, Allot.obj?]

theorem State.ObjsAside.storesInto {s t : State} (k : s.ObjsAside t) (a h : Nat) : s.StoresInto t a h :=
  ⟨k.toEnginesStand, by rw [State.objD_of_objs (k.objs a)], fun b _ _ => by rw [k.objs]⟩

theorem State.Counts.objsAside {s t : State} (k : s.Counts t) : s.ObjsAside t := ⟨k.enginesStand, k.objs⟩

theorem State.StoresInto.refl (s : State) (a h : Nat) : s.StoresInto s a h := (State.ObjsAside.refl s).storesInto a h

theorem State.StoresInto.trans {s t u : State} {a h : Nat} (k : s.StoresInto t a h) (l : t.StoresInto u a h) : s.StoresInto u a h :=
  ⟨k.toEnginesStand.trans l.toEnginesStand, l.flagMap.trans k.flagMap, fun b i hbi => (l.objs b i (by rwa [k.flagMap])).trans (k.objs b i hbi)⟩

/-! ## Writes into the object (R82, R190, R417) -/

theorem State.objD_flagMap (s : State) (a h : Nat) : (s.objD a h).flagMap = (look (handleIndex h) (s.al a).objs).bind (fun o =>
    if o.reuse = handleReuse h ∧ handleIndex h ≠ 0 then o.flagMap else none) := by
  rw [State.objD, State.obj?, Allot.obj?]
  cases look (handleIndex h) (s.al a).objs with
  | none => rfl
  | some o =>
    dsimp only [Option.bind_some]
    split <;> rfl

/-- An update of an object that keeps REUSE counts and flag maps keeps the flag map of every object. -/
theorem State.modObj_flagMap (s : State) (a k h : Nat) {f : Obj → Obj} (hr : ∀ o, (f o).reuse = o.reuse) (hf : ∀ o, (f o).flagMap = o.flagMap) :
    ((s.modObj a k f).objD a h).flagMap = (s.objD a h).flagMap := by
  rw [State.objD_flagMap, State.objD_flagMap, State.modObj, State.modAl_al]
  split
  · rw [look_upd]
    split
    · simp only [Option.bind_map, Function.comp_def, hr, hf]
    · rfl
  · rfl

/-- An object put in place of object h, with its REUSE count and its flag map, leaves h with its flag map. -/
theorem State.modObj_const_flagMap (s : State) (a h : Nat) {o : Obj} (hr : o.reuse = (s.objD a h).reuse) (hf : o.flagMap = (s.objD a h).flagMap) :
    ((s.modObj a h (fun _ => o)).objD a h).flagMap = (s.objD a h).flagMap := by
  rw [State.objD_flagMap, State.objD_flagMap, State.modObj, State.modAl_al]
  split
  · rw [look_upd, if_pos rfl]
    rw [State.objD, State.obj?, Allot.obj?] at hr hf
    cases hl : look (handleIndex h) (s.al a).objs with
    | none => rfl
    | some p =>
      rw [hl] at hr hf
      dsimp only [Option.map_some, Option.bind_some] at hr hf ⊢
      split at hr <;> rename_i hres
      · rw [if_pos hres] at hf
        rw [if_pos hres, if_pos (hr ▸ hres)]
        exact hf
      · rw [if_neg hres] at hf
        rw [if_neg hres, show o.flagMap = none from hf, ite_self]
  · rfl

theorem State.modObj_storesInto {s : State} {a k h : Nat} {f : Obj → Obj} (hk : k = h ∨ (s.objD a h).flagMap = some k)
    (hf : ((s.modObj a k f).objD a h).flagMap = (s.objD a h).flagMap) : s.StoresInto (s.modObj a k f) a h := by
  refine ⟨s.modAl_enginesStand a _, hf, fun b i hbi => s.modObj_objsStand a k f b i (hbi.imp_right (fun hi => ?_))⟩
  obtain rfl | hk := hk
  · exact hi.1
  · exact hi.2 k hk

theorem State.writeBlock_storesInto (s : State) (a h i : Nat) (blkmax : Bool) (r : CvOut) : s.StoresInto (s.writeBlock a h i blkmax r) a h := by
  unfold State.writeBlock
  extract_lets o t b o1 o2 o3 s1
  have hw : ∀ (p : Obj) (off : Nat) (bs : List Byte), (p.write off bs).reuse = p.reuse ∧ (p.write off bs).flagMap = p.flagMap :=
    fun _ _ _ => ⟨rfl, rfl⟩
  have ho1 : o1.reuse = o.reuse ∧ o1.flagMap = o.flagMap := hw o _ _
  have ho2 : o2.reuse = o.reuse ∧ o2.flagMap = o.flagMap := by
    dsimp only [o2]
    clear_value o1
    split
    · exact ho1
    · exact ho1
  have ho : o3.reuse = o.reuse ∧ o3.flagMap = o.flagMap := by
    dsimp only [o3]
    clear_value o2
    split
    · exact ho2
    · exact ho2
  have h1 : s.StoresInto s1 a h := State.modObj_storesInto (.inl rfl) (s.modObj_const_flagMap a h ho.1 ho.2)
  split
  · rename_i f hf
    exact h1.trans (State.modObj_storesInto (.inr (h1.flagMap.trans hf)) (s1.modObj_flagMap a f h (fun _ => rfl) (fun _ => rfl)))
  · exact h1

/-! ## The parts of a store (R207, R214) -/

theorem State.storeBlock_storesInto (s : State) (a h i : Nat) (nonsat : Bool) (draws : Nat → Option Nat) (vals : List (Option Fp)) :
    s.StoresInto (s.storeBlock a h i nonsat draws vals).1 a h := by
  unfold State.storeBlock
  extract_lets t xs
  split
  · exact .refl s a h
  · exact s.writeBlock_storesInto a h i _ _

/-- A block of which no lane is active is not written. -/
theorem State.storeBlock_none (s : State) (a h i : Nat) (nonsat : Bool) (draws : Nat → Option Nat) {vals : List (Option Fp)}
    (hv : ∀ v ∈ vals, v = none) : (s.storeBlock a h i nonsat draws vals).1 = s := by
  have hpad : ∀ y ∈ (vals.zipIdx i).map (fun e => match e.1 with
      | some v => if ((s.objD a h).t).colOf e.2 < ((s.objD a h).t).rowLen then CvIn.val v else .pad
      | none => .pad), y = CvIn.pad := by
    intro y hy
    obtain ⟨e, he, rfl⟩ := List.mem_map.mp hy
    rw [hv e.1 (List.fst_mem_of_mem_zipIdx he)]
  unfold State.storeBlock
  extract_lets t xs
  rw [if_pos]
  exact List.all_eq_true.mpr (fun y hy => by rw [hpad y hy]; rfl)

theorem mem_of_mem_chunksOf {α : Type} {n fuel : Nat} {l p : List α} {v : α} (hp : p ∈ chunksOf n fuel l) (hv : v ∈ p) : v ∈ l := by
  induction fuel generalizing l with
  | zero => cases hp
  | succ k ih =>
    cases l with
    | nil => cases hp
    | cons y ys =>
      obtain rfl | hp := List.mem_cons.mp hp
      · exact List.mem_of_mem_take hv
      · exact List.mem_of_mem_drop (ih hp)

theorem State.healRange_storesInto (s : State) {a h : Nat} {r : Range} (hr : r.1 = a ∧ r.2.1 = h) : s.StoresInto (s.healRange r) a h := by
  obtain ⟨rfl, rfl⟩ := hr
  exact State.modObj_storesInto (.inl rfl) (s.modObj_flagMap _ _ _ (fun _ => rfl) (fun _ => rfl))

theorem State.staleWrite_objsAside (s : State) (a h : Nat) : s.ObjsAside (s.staleWrite a h) := by
  unfold State.staleWrite
  split
  · split
    · have hmir : s.ObjsAside ((s.modAl a fun x => x.modMir h fun m => { m with stale := true }).setCond a .staleTensor 1) :=
        ⟨⟨.refl s, rfl, rfl, fun _ => rfl⟩, (s.modAl_tallies a (f := fun x => x.modMir h fun m => { m with stale := true }) (fun _ => rfl)).objs⟩
      exact hmir.trans ⟨State.settle_enginesStand _, fun b => by rw [State.settle_al]⟩
    · exact .refl s
  · exact .refl s

theorem State.runWrote_objsAside (s : State) (x : Ctx) : s.ObjsAside (s.runWrote x) := by
  refine ⟨⟨⟨rfl, rfl, rfl, rfl, rfl, rfl, rfl, rfl⟩, rfl, ?_, fun k => ?_⟩, fun _ => rfl⟩
  · rw [State.runWrote, State.modCmd_hearths, State.modHe_length]
  · rw [State.runWrote, State.modCmd_he, State.modHe_he]
    split
    · rename_i hk
      rw [← hk.1]
    · rfl

/-- Every range lies in object h of allotment a. -/
def RangesIn (a h : Nat) (rs : List Range) : Prop := ∀ r ∈ rs, r.1 = a ∧ r.2.1 = h

theorem RangesIn.flatMap {α : Type} {a h : Nat} {f : α → List Range} (hf : ∀ y, RangesIn a h (f y)) (l : List α) : RangesIn a h (l.flatMap f) := by
  intro r hr
  obtain ⟨y, -, hy⟩ := List.mem_flatMap.mp hr
  exact hf y r hy

theorem Obj.elemRanges_in (o : Obj) (a h i n : Nat) : RangesIn a h (o.elemRanges a h i n) := by
  unfold Obj.elemRanges RangesIn
  dsimp only
  split
  · simp
  · split <;> simp

/-- Ranges of an object without a poisoned block meet none. -/
theorem RangesIn.poisonPartOf {s : State} {a h : Nat} {rs : List Range} (hr : RangesIn a h rs) (hp : (s.objD a h).poison = []) :
    s.poisonPartOf rs = none := by
  refine List.findSome?_eq_none_iff.mpr (fun r hm => ?_)
  rw [(hr r hm).1, (hr r hm).2, Obj.poisonPart, hp]
  rfl

/-- What follows the writes of a store changes its object alone, and none where it wrote no element. -/
theorem State.stored_eq (s : State) (x : Ctx) (st : SlotStats) (els : Nat) (scatter : Bool) {rs : List Range}
    (hr : RangesIn x.run.allot x.win.handle rs) : ∃ u, s.StoresInto u x.run.allot x.win.handle ∧ (els = 0 → s.ObjsAside u) ∧
      s.stored x st els scatter rs = u.retire x (x.eng.pc + 1) id := by
  unfold State.stored
  extract_lets w o s1 s2 s3 s4 s5
  have h1 : s.Counts s1 := by
    dsimp only [s1]
    split
    · exact s.modLayer_counts _ _ _
    · exact .refl s
  have h2 : s1.Counts s2 := (((s1.countFor_counts _ _ _ _ _).trans (State.countFor_counts _ _ _ _ _ _)).trans
    (State.countFor_counts _ _ _ _ _ _)).trans (State.countFor_counts _ _ _ _ _ _)
  have h4 : s2.Counts s4 := by
    dsimp only [s4]
    split
    · exact (s2.countFor_counts _ _ _ _ _).trans (s3.countFor_counts _ _ _ _ _)
    · exact s2.countFor_counts _ _ _ _ _
  have hs4 : s.ObjsAside s4 := ((h1.trans h2).trans h4).objsAside
  refine ⟨s5, ?_, fun hels => ?_, rfl⟩ <;> dsimp only [s5]
  · split
    · exact hs4.storesInto _ _
    · have hheal : s4.StoresInto (rs.foldl State.healRange s4) x.run.allot x.win.handle :=
        List.foldlRecOn (motive := fun t => s4.StoresInto t x.run.allot x.win.handle) rs _ (.refl _ _ _)
          (fun t ht r hm => ht.trans (t.healRange_storesInto (hr r hm)))
      exact (hs4.storesInto _ _).trans (hheal.trans (((State.staleWrite_objsAside _ _ _).trans (State.runWrote_objsAside _ x)).storesInto _ _))
  · rw [if_pos hels]
    exact hs4

/-! ## The frame of a store -/

theorem State.StoresInto.storeFrame {s u : State} {h e : Nat} {x : Ctx} (hx : s.ctx? h e = some x)
    (k : s.StoresInto u x.run.allot x.win.handle) (hn : x.lanes = [] → s.ObjsAside u) :
    s.StoreFrame (u.retire x (x.eng.pc + 1) id) h e x := by
  obtain ⟨hh, he⟩ := State.ctx?_bounds hx
  obtain ⟨rfl, rfl, -⟩ := State.ctx?_spec hx
  have hcount := (u.modEng x.h x.e (fun g => { g with pc := x.eng.pc + 1, count := g.count + 1 })).countFor_counts x.c 0x0B (some x.h) none 1
  have hengine : ∀ j, (u.retire x (x.eng.pc + 1) id).engine x.h j =
      if j = x.e then { s.engine x.h x.e with pc := x.eng.pc + 1, count := (s.engine x.h x.e).count + 1 } else s.engine x.h j := fun j => by
    refine (hcount.engine x.h j).trans ((u.modEng_engine x.h x.e x.h j _).trans ?_)
    rw [k.engine, k.engine, k.hearths, k.engines]
    simp [hh, he]
  have hout := (k.outside.trans (u.modEng_outside _ _ _)).trans hcount.enginesStand.outside
  obtain ⟨hdev, -, hhost, hfab, -, hmgt, hfuse, -⟩ := hout
  refine ⟨(hengine x.e).trans (if_pos rfl), hhost, hdev, hfab, hmgt, hcount.enginesStand.flt.trans k.flt, hfuse,
    fun j hj => (hengine j).trans (if_neg hj), fun b i hbi => ?_, fun hl b => (hcount.objs b).trans ((hn hl).objs b)⟩
  exact (congrArg (look i) (hcount.objs b)).trans (k.objs b i hbi)

/-- With no active lane, no lane is active. -/
theorem Ctx.mpred_of_lanes_nil {x : Ctx} (h : x.lanes = []) (i : Nat) : x.mpred.getLsbD i = false := by
  by_cases hi : i < 256
  · have := List.filter_eq_nil_iff.mp h i (List.mem_range.mpr hi)
    simpa using this
  · exact BitVec.getLsbD_of_ge _ _ (Nat.le_of_not_lt hi)

/-- A contiguous store into an object without poison. -/
theorem State.storeRun_frame {s : State} {h e : Nat} {x : Ctx} (hx : s.ctx? h e = some x) (hp : (s.winObj x).poison = []) (b : Nat)
    {vals : List (Option Fp)} (hv : x.lanes = [] → ∀ v ∈ vals, v = none) : s.StoreFrame (s.storeRun x b vals) h e x := by
  unfold State.storeRun
  extract_lets a hd o act rs n r
  have hrs : RangesIn a hd rs := by
    dsimp only [rs]
    split
    · split
      · exact o.elemRanges_in _ _ _ _
      · exact .flatMap (fun _ => o.elemRanges_in _ _ _ _) _
    · exact fun _ hm => nomatch hm
  have hr : s.StoresInto r.1 a hd :=
    List.foldlRecOn (motive := fun q : State × SlotStats => s.StoresInto q.1 a hd) _ _ (.refl s a hd)
      (fun q hq _ _ => hq.trans (q.1.storeBlock_storesInto _ _ _ _ _ _))
  have hnone : x.lanes = [] → r.1 = s ∧ act.length = 0 := fun hl => by
    refine ⟨List.foldlRecOn (motive := fun q : State × SlotStats => q.1 = s) _ _ rfl (fun q hq y hy => ?_), ?_⟩
    · exact (State.storeBlock_none _ _ _ _ _ _ (fun v hm => hv hl v (mem_of_mem_chunksOf (List.fst_mem_of_mem_zipIdx hy) hm))).trans hq
    · rw [List.length_eq_zero_iff, List.filterMap_eq_nil_iff]
      intro y hy
      rw [hv hl y.1 (List.fst_mem_of_mem_zipIdx hy)]
      rfl
  obtain ⟨u, hu, hu0, heq⟩ := State.stored_eq r.1 x r.2 act.length false hrs
  rw [hrs.poisonPartOf hp]
  dsimp only
  rw [heq]
  refine State.StoresInto.storeFrame hx (hr.trans hu) (fun hl => ?_)
  obtain ⟨hrs, hact⟩ := hnone hl
  exact hrs ▸ hu0 hact

/-- The state that the writes of a SCATTER leave, and their statistics. -/
def State.scattered (s : State) (x : Ctx) : State × SlotStats :=
  x.lanes.foldl (fun (acc : State × SlotStats) i => acc.1.scatterOne x acc.2 i) (s, {})

theorem State.scatterOne_storesInto (s : State) (x : Ctx) (st : SlotStats) (i : Nat) :
    s.StoresInto (s.scatterOne x st i).1 x.run.allot x.win.handle := s.storeBlock_storesInto _ _ _ _ _ _

/-- A SCATTER whose access is in order, into an object that is no block format and has no poison. -/
theorem exec_scatter {s : State} {h e : Nat} {x : Ctx} (hx : s.InstrReady h e 2 0x04 x) (hok : s.accessOk x (x.lanes.map x.lanePlace) true = true)
    (hb : isBlock (s.winObj x).t.smode = false) (hp : (s.winObj x).poison = []) :
    exec (.scatter h e) s = .next ((s.scattered x).1.stored x (s.scattered x).2 x.lanes.length true []) := by
  have hrs : RangesIn x.run.allot x.win.handle (x.lanes.flatMap (fun i =>
      (s.winObj x).elemRanges x.run.allot x.win.handle (x.place (x.lanePlace i)) 1)) := .flatMap (fun _ => Obj.elemRanges_in _ _ _ _ _) _
  show execScatter h e s = _
  rw [execScatter, State.instr_runs hx]
  dsimp only
  rw [if_pos ⟨hok, .inr hb⟩, hrs.poisonPartOf hp]
  rfl

/-- Settles O9: a store whose access is in order by the blocks that it writes, and by what follows its writes. -/
theorem stores : Obligations.Stores := by
  refine ⟨fun s h e x hx hb hok hp => ?_, fun s h e x hx hb hf hok hp => ?_, fun s h e x hx hok hblk hp => ?_⟩
  · refine ⟨_, ?_, State.storeRun_frame hx.1 hp x.elemBase
      (vals := (x.eng.vreg x.vd).zipIdx.map (fun e => if x.mpred.getLsbD e.2 then some (dec32 e.1) else none)) (fun hl v hv => ?_)⟩
    · show execSt h e s = _
      rw [execSt, State.instr_runs hx]
      exact congrArg _ (if_pos ⟨hb, hok⟩)
    · obtain ⟨y, -, rfl⟩ := List.mem_map.mp hv
      rw [Ctx.mpred_of_lanes_nil hl]
      rfl
  · refine ⟨_, ?_, State.storeRun_frame hx.1 hp x.elemBase (vals := (x.eng.vreg x.vd).zipIdx.flatMap (fun e =>
      if x.mpred.getLsbD e.2 then [some (decB16 (loHalf e.1)), some (decB16 (hiHalf e.1))] else [none, none])) (fun hl v hv => ?_)⟩
    · show execSth h e s = _
      rw [execSth, State.instr_runs hx]
      exact congrArg _ (if_pos ⟨hb, hf, hok⟩)
    · obtain ⟨y, -, hy⟩ := List.mem_flatMap.mp hv
      rw [Ctx.mpred_of_lanes_nil hl] at hy
      simpa using hy
  · refine ⟨_, exec_scatter hx hok hblk hp, ?_⟩
    have hr : s.StoresInto (s.scattered x).1 x.run.allot x.win.handle :=
      List.foldlRecOn (motive := fun q : State × SlotStats => s.StoresInto q.1 x.run.allot x.win.handle) x.lanes _ (.refl s _ _)
        (fun q hq i _ => hq.trans (q.1.scatterOne_storesInto x q.2 i))
    obtain ⟨u, hu, hu0, heq⟩ := State.stored_eq (s.scattered x).1 x (s.scattered x).2 x.lanes.length true (rs := []) (fun _ hm => nomatch hm)
    rw [heq]
    refine State.StoresInto.storeFrame hx.1 (hr.trans hu) (fun hl => ?_)
    have hs : (s.scattered x).1 = s := by rw [State.scattered, hl, List.foldl_nil]
    exact hs ▸ hu0 (by rw [hl, List.length_nil])

end Sys2Proof.Machine
end

section
/-! Rules for PROG_LOAD and PROG_RUN: programs by their PROG_ID, the number that the module picks, the engines of a launch
(R32, R201 to R204, R216, R218). -/

namespace Sys2Proof.Machine

/-! ## The number that the module picks (R32) -/

/-- The module picks a number in its range that is not in use, where the range is larger than the numbers in use. -/
theorem pickFree_spec (kind lo hi : Nat) {used : List Nat} (h : lo + used.length ≤ hi) :
    lo ≤ pickFree kind lo hi used ∧ pickFree kind lo hi used ≤ hi ∧ pickFree kind lo hi used ∉ used := by
  unfold pickFree
  dsimp only
  split
  · rename_i hp
    simp only [inRange, Bool.and_eq_true, decide_eq_true_eq, Bool.not_eq_true', List.contains_eq_mem, decide_eq_false_iff_not] at hp
    exact ⟨hp.1.1, hp.1.2, hp.2⟩
  · obtain ⟨i, hi, hfree⟩ : ∃ i ∈ (List.range (used.length + 1)).map (lo + ·), i ∉ used := by
      refine Decidable.byContradiction (fun hnone => ?_)
      have hall : (List.range (used.length + 1)).map (lo + ·) ⊆ used :=
        fun i hi => Decidable.byContradiction (fun hfree => hnone ⟨i, hi, hfree⟩)
      have hnodup : ((List.range (used.length + 1)).map (lo + ·)).Nodup := by
        rw [← List.range'_eq_map_range]
        exact List.nodup_range'
      have hle := hnodup.length_le_of_subset hall
      rw [List.length_map, List.length_range] at hle
      exact Nat.not_succ_le_self _ hle
    cases hf : ((List.range (used.length + 1)).map (lo + ·)).find? (fun i => !used.contains i) with
    | none => exact absurd (List.find?_eq_none.mp hf i hi) (by simpa using hfree)
    | some j =>
      obtain ⟨k, hk, rfl⟩ := List.mem_map.mp (List.mem_of_find?_eq_some hf)
      have hj := List.find?_some hf
      have hk := List.mem_range.mp hk
      refine ⟨?_, ?_, by simpa using hj⟩ <;> simp only [Option.getD_some] <;> omega

/-! ## Programs of an allotment (R201) -/

theorem Allot.prog?_eq_none {x : Allot} {pid : Nat} (h : pid ∉ x.progs.map (·.pid)) : x.prog? pid = none :=
  List.find?_eq_none.mpr (fun p hp => by simpa using fun hk : p.pid = pid => h (List.mem_map.mpr ⟨p, hp, hk⟩))

theorem Allot.prog?_append_same {x : Allot} {p : Prog} (h : x.prog? p.pid = none) : ({ x with progs := x.progs ++ [p] } : Allot).prog? p.pid = some p := by
  unfold Allot.prog? at *
  simp [h]

theorem Allot.prog?_append_ne (x : Allot) {p : Prog} {q : Nat} (h : q ≠ p.pid) : ({ x with progs := x.progs ++ [p] } : Allot).prog? q = x.prog? q := by
  have hp : p.pid ≠ q := h.symm
  simp [Allot.prog?, hp]

theorem Allot.prog?_filter_same (x : Allot) (pid : Nat) : ({ x with progs := x.progs.filter (fun p => p.pid != pid) } : Allot).prog? pid = none :=
  List.find?_eq_none.mpr (fun p hp => by simpa using (List.mem_filter.mp hp).2)

theorem Allot.prog?_filter_ne (x : Allot) {pid q : Nat} (h : q ≠ pid) :
    ({ x with progs := x.progs.filter (fun p => p.pid != pid) } : Allot).prog? q = x.prog? q := by
  rw [Allot.prog?, List.find?_filter]
  refine congrArg (fun f => List.find? f x.progs) (funext fun p => ?_)
  by_cases hp : p.pid = q
  · subst hp
    simp [h]
  · simp [hp]

/-- The next free PROG_ID of an allotment with room for a program. -/
theorem Allot.newPid_spec {x : Allot} (h : x.progs.length < 65535) : 1 ≤ x.newPid ∧ x.newPid ≤ 65535 ∧ x.prog? x.newPid = none := by
  obtain ⟨h1, h2, h3⟩ := pickFree_spec 1 1 65535 (used := x.progs.map (·.pid)) (by rw [List.length_map]; omega)
  exact ⟨h1, h2, Allot.prog?_eq_none h3⟩

/-! ## Naming keeps the programs (R268, R272) -/

theorem State.modAl_progs (s : State) (a : Nat) {f : Allot → Allot} (hf : ∀ x, (f x).progs = x.progs) (b : Nat) :
    ((s.modAl a f).al b).progs = (s.al b).progs := by
  rw [State.modAl_al]
  split
  · rename_i k
    rw [hf, k.1]
  · rfl

theorem State.modObj_progs (s : State) (a h : Nat) (f : Obj → Obj) (b : Nat) : ((s.modObj a h f).al b).progs = (s.al b).progs :=
  s.modAl_progs a (f := fun x => { x with objs := upd (handleIndex h) f x.objs }) (fun _ => rfl) b

theorem State.touch_progs (s : State) (a h acc b : Nat) : ((s.touch a h acc).al b).progs = (s.al b).progs := by
  unfold State.touch
  split
  · exact s.modObj_progs a h _ b
  · rfl

theorem State.dropShadow_progs (s : State) (a h b : Nat) : ((s.dropShadow a h).al b).progs = (s.al b).progs := by
  have hcharge : ∀ k, ((s.uncharge a k).al b).progs = (s.al b).progs := fun k =>
    s.modAl_progs a (f := fun x => { x with charges := x.charges.filter (fun c => c.kind != k) }) (fun _ => rfl) b
  unfold State.dropShadow
  split
  · split
    · exact (State.modObj_progs _ a h _ b).trans (hcharge _)
    · rfl
  · rfl

@[simp] theorem State.named_progs (s : State) (c : Cmd) (b : Nat) : ((s.named c).al b).progs = (s.al b).progs := by
  unfold State.named State.noteNames
  split
  · rfl
  · refine List.foldlRecOn (motive := fun t : State => (t.al b).progs = (s.al b).progs) _ _ rfl (fun t ht n _ => ?_)
    dsimp only
    split
    · exact (State.touch_progs _ _ _ _ b).trans ((t.dropShadow_progs _ _ b).trans ht)
    · exact (t.touch_progs _ _ _ b).trans ht

@[simp] theorem State.named_prog? (s : State) (c : Cmd) (b pid : Nat) : ((s.named c).al b).prog? pid = (s.al b).prog? pid := by
  rw [Allot.prog?, s.named_progs, Allot.prog?]

@[simp] theorem State.named_flt (s : State) (c : Cmd) : (s.named c).flt = s.flt := by
  have h := congrArg State.flt (s.named_same c).1
  exact h

@[simp] theorem State.named_hearthUp (s : State) (c : Cmd) (h : Nat) : (s.named c).hearthUp h = s.hearthUp h := by
  simp [State.hearthUp]

/-! ## PROG_LOAD (R201) -/

theorem exec_progLoad_remove {s : State} {id : Nat} {c : Cmd} (h : s.Runs id 0x0310 progLoadFields c) (h0 : c.par 8 4 = 0)
    (hd : ∀ d ∈ s.hg.cmds, d.allot = c.allot → d.opcode = 0x0311 → d.phase = .done) (k : Nat) : exec (.progLoad id k) s =
      .next (((s.named c).modAl c.allot (fun x => { x with progs := x.progs.filter (fun p => p.pid != c.par 0xC 2) })).finishOk id 0) := by
  have hbusy : (s.named c).progBusy c (c.par 0xC 2) = false := by
    simp only [State.progBusy, State.named_hg, List.any_eq_false, Bool.and_eq_true, beq_iff_eq]
    rintro d hm ⟨⟨⟨ha, ho⟩, hopen⟩, -⟩
    simp [Cmd.open, hd d hm ha ho] at hopen
  show execProgLoad id k s = _
  refine (State.deant_runs h _).trans (congrArg _ ?_)
  rw [if_pos h0, hbusy]
  rfl

theorem exec_progLoad_image {s : State} {id : Nat} {c : Cmd} (h : s.Runs id 0x0310 progLoadFields c) (h0 : c.par 8 4 ≠ 0) (k : Nat) :
    exec (.progLoad id k) s = .next ((s.named c).progLoad c (s.al c.allot).newPid) := by
  show execProgLoad id k s = _
  refine (State.deant_runs h _).trans (congrArg _ ?_)
  rw [if_neg h0, Allot.newPid, State.named_progs, Allot.newPid]

/-- An image with an illegal word is refused with the place of the first one. -/
theorem State.progLoad_illegal {s : State} {c : Cmd} (hs : s.Clean c.allot) (pid : Nat) {i : Nat}
    (hi : (s.imageOf c).findIdx? (fun w => !wordOk w) = some i) : s.progLoad c pid = s.finish c.id .badParam (badIn i).2 (w128 i) := by
  have hp : s.poisonOf [(c.allot, refHandle (c.par 0 8), bitsOf (c.par 0 8) 32 32, 8 * c.par 8 4)] = none := hs.poisonOf (.cons (.nil _))
  simp only [State.progLoad, hp, hi]

/-- The program that an image becomes. -/
def State.progOf (s : State) (c : Cmd) (pid : Nat) : Prog :=
  { pid := pid, words := (s.imageOf c).map (BitVec.ofNat 64), ftz := bitOf (c.par 0xE 2) 0, stores := s.storeHearths }

/-- The state with program p kept for the allotment of command c, its image's bytes counted. -/
def State.withProg (s : State) (c : Cmd) (p : Prog) (tier bytes : Nat) : State :=
  (s.modAl c.allot (fun x => { x with progs := x.progs ++ [p] })).countBytes c tier none bytes

theorem State.withProg_spec {s : State} {c : Cmd} (ha : c.allot < s.allots.length) (hc : (s.cmd? c.id).isSome = true) (p : Prog) (tier bytes : Nat) :
    ((s.al c.allot).prog? p.pid = none → ((s.withProg c p tier bytes).al c.allot).prog? p.pid = some p) ∧
    (∀ q, q ≠ p.pid → ((s.withProg c p tier bytes).al c.allot).prog? q = (s.al c.allot).prog? q) ∧
    (∀ b, ((s.withProg c p tier bytes).al b).objs = (s.al b).objs) ∧ ((s.withProg c p tier bytes).cmd? c.id).isSome = true := by
  have hcount := (s.modAl c.allot (fun x => { x with progs := x.progs ++ [p] })).countFor_counts c (0x0E + tier) none none (ceilDiv bytes 64)
  have hprog : ∀ q, ((s.withProg c p tier bytes).al c.allot).prog? q = ({ s.al c.allot with progs := (s.al c.allot).progs ++ [p] } : Allot).prog? q :=
    fun q => by
      rw [Allot.prog?, State.withProg, State.countBytes, hcount.progs, State.modAl_al_same _ _ ha, Allot.prog?]
  refine ⟨fun h => (hprog _).trans (Allot.prog?_append_same h), fun q hq => (hprog q).trans (Allot.prog?_append_ne _ hq), fun b => ?_, ?_⟩
  · exact (hcount.objs b).trans ((s.modAl_tallies c.allot (f := fun x => { x with progs := x.progs ++ [p] }) (fun _ => rfl)).objs b)
  · rw [State.cmd?, State.withProg, State.countBytes, hcount.hg]
    exact hc

/-- A legal image that the stores hold is kept. -/
theorem State.progLoad_legal {s : State} {c : Cmd} (hs : s.Clean c.allot) (pid : Nat) (hw : ∀ w ∈ s.imageOf c, wordOk w = true)
    (hroom : ∀ h, s.hearthUp h = true → s.storeUse h + (s.imageOf c).length ≤ 32768) : s.progLoad c pid =
      (s.withProg c (s.progOf c pid) (s.objD c.allot (refHandle (c.par 0 8))).tier (8 * (s.imageOf c).length)).finishOk c.id pid := by
  have hp : s.poisonOf [(c.allot, refHandle (c.par 0 8), bitsOf (c.par 0 8) 32 32, 8 * c.par 8 4)] = none := hs.poisonOf (.cons (.nil _))
  have hi : (s.imageOf c).findIdx? (fun w => !wordOk w) = none := List.findIdx?_eq_none_iff.mpr (fun w hm => by simp [hw w hm])
  have hfull : s.storeHearths.any (fun h => decide (32768 < s.storeUse h + (s.imageOf c).length)) = false := by
    simp only [List.any_eq_false, decide_eq_true_eq, Nat.not_lt]
    exact fun h hm => hroom h (List.mem_filter.mp hm).2
  simp only [State.progLoad, hp, hi, hfull]
  rfl

/-! ## Numbers in rising order -/

theorem mem_insertN {x y : Nat} {l : List Nat} : y ∈ insertN x l ↔ y = x ∨ y ∈ l := by
  induction l with
  | nil => simp [insertN]
  | cons z r ih =>
    unfold insertN
    split
    · rename_i h
      simp [h]
    · split
      · simp
      · rw [List.mem_cons, List.mem_cons, ih, or_left_comm]

theorem insertN_rises {x : Nat} {l : List Nat} (h : l.Pairwise (· < ·)) : (insertN x l).Pairwise (· < ·) := by
  induction l with
  | nil => exact List.pairwise_singleton _ _
  | cons z r ih =>
    obtain ⟨hz, hr⟩ := List.pairwise_cons.mp h
    unfold insertN
    split
    · exact h
    · rename_i hne
      split
      · rename_i hlt
        exact List.pairwise_cons.mpr ⟨fun y hy => (List.mem_cons.mp hy).elim (fun e => e ▸ hlt) (fun m => Nat.lt_trans hlt (hz y m)), h⟩
      · rename_i hge
        exact List.pairwise_cons.mpr ⟨fun y hy => (mem_insertN.mp hy).elim (fun e => by omega) (hz y), ih hr⟩

theorem sortN_rises (l : List Nat) : (sortN l).Pairwise (· < ·) :=
  List.foldlRecOn (motive := fun m : List Nat => m.Pairwise (· < ·)) l _ .nil (fun _ hm _ _ => insertN_rises hm)

theorem sortN_nodup (l : List Nat) : (sortN l).Nodup := (sortN_rises l).imp Nat.ne_of_lt

theorem mem_sortN {y : Nat} {l : List Nat} : y ∈ sortN l ↔ y ∈ l := by
  have hfold : ∀ m : List Nat, y ∈ l.foldl (fun a x => insertN x a) m ↔ y ∈ l ∨ y ∈ m := by
    induction l with
    | nil => simp
    | cons x r ih =>
      intro m
      rw [List.foldl_cons, ih, mem_insertN, List.mem_cons, or_left_comm, or_assoc]
  exact (hfold []).trans (or_iff_left List.not_mem_nil)

/-! ## The registers of an engine at launch (R204) -/

theorem look_zipIdx {α β : Type} (f : α → β) (l : List α) (n k : Nat) :
    look (n + k) ((l.zipIdx n).map (fun e => (e.2, f e.1))) = l[k]?.map f := by
  induction l generalizing n k with
  | nil => rfl
  | cons a r ih =>
    cases k with
    | zero => simp [look]
    | succ k =>
      have hn : n ≠ n + (k + 1) := by omega
      simp only [List.zipIdx_cons, List.map_cons, look, hn, if_false, List.getElem?_cons_succ]
      rw [show n + (k + 1) = n + 1 + k by omega, ih]

theorem look_map_const {β : Type} {key : Nat → Nat} (v : β) {k : Nat} {l : List Nat} (h : k ∈ l.map key) :
    look k (l.map (fun i => (key i, v))) = some v := by
  induction l with
  | nil => cases h
  | cons i r ih =>
    rw [List.map_cons, look]
    split
    · rfl
    · exact ih ((List.mem_cons.mp h).resolve_left (fun he => ‹¬ key i = k› he.symm))

section
variable (g : Engine) (cmd rank n : Nat) (args : List Nat)

theorem Engine.launch_vreg (v : Nat) : (g.launch cmd rank n args).vreg v = List.replicate 256 0#32 := by
  rw [Engine.vreg, Engine.launch, look, Option.getD_none, zeroLanes]

theorem Engine.launch_sreg_rank : (g.launch cmd rank n args).sreg 0 = BitVec.ofNat 64 rank := rfl

theorem Engine.launch_sreg_count : (g.launch cmd rank n args).sreg 1 = BitVec.ofNat 64 n := rfl

/-- The arguments stand from S2 on, and every register behind them holds 0. -/
theorem Engine.launch_sreg_arg (k : Nat) : (g.launch cmd rank n args).sreg (2 + k) = (args[k]?.map (BitVec.ofNat 64)).getD 0 := by
  have h0 : (0 : Nat) ≠ 2 + k := by omega
  have h1 : 1 ≠ 2 + k := by omega
  simp only [Engine.sreg, Engine.launch, List.cons_append, List.nil_append, look, h0, h1, if_false]
  rw [look_zipIdx (BitVec.ofNat 64)]

theorem Engine.launch_preg {q : Nat} (h : q < 8) : (g.launch cmd rank n args).preg q = BitVec.allOnes 256 := by
  unfold Engine.preg
  split
  · rfl
  · have hq : q ∈ (List.range 7).map (· + 1) := List.mem_map.mpr ⟨q - 1, List.mem_range.mpr (by omega), by omega⟩
    rw [Engine.launch, look_map_const _ hq, Option.getD_some]

end

/-! ## PROG_RUN (R202, R204) -/

theorem exec_progRun {s : State} {id : Nat} {es : List Nat} {c : Cmd} {p : Prog} (h : s.Runs id 0x0311 progRunFields c)
    (hs : (s.named c).Clean c.allot) (hb : (s.named c).badLaunch c.allot ((s.named c).launchOf c) = none)
    (ho : (s.named c).hearthOpen c (c.par 2 1) = true) (hr : (s.named c).reachable c ((s.named c).namesNow c) = none)
    (ha : (s.named c).runAhead c = false) (hl : (sortN es).length = c.par 3 1)
    (hn : c.par 3 1 ≤ ((s.he (c.par 2 1)).engines.filter (fun e => !e.fenced && !e.draining)).length)
    (he : ∀ i ∈ sortN es, i < (s.he (c.par 2 1)).engines.length ∧ (s.engine (c.par 2 1) i).free = true)
    (hp : (s.al c.allot).prog? (c.par 0 2) = some p) :
    exec (.progRun id es) s = .next ((s.named c).launch c p ((s.named c).launchOf c) (sortN es)) := by
  have hpoison : (s.named c).poisonOf [(c.allot, refHandle (c.par 8 8), bitsOf (c.par 8 8) 32 32 * 256, 256)] = none :=
    hs.poisonOf (.cons (.nil _))
  have hfree : (sortN es).any (fun i => !(((s.he (c.par 2 1)).engines.getD i { fenced := true }).free)) = false := by
    refine List.any_eq_false.mpr (fun i hi => ?_)
    obtain ⟨hlt, hfr⟩ := he i hi
    rw [State.engine, List.getD_eq_getElem?_getD, List.getElem?_eq_getElem hlt, Option.getD_some] at hfr
    rw [List.getD_eq_getElem?_getD, List.getElem?_eq_getElem hlt, Option.getD_some, hfr]
    decide
  show execProgRun id es s = _
  refine (State.deant_runs h _).trans (congrArg _ ?_)
  simp only [hpoison, hb, ho, hr, ha, hl, hfree, State.named_he, State.named_prog?, hp]
  simp [Nat.not_lt.mpr hn]

section
variable (s : State) (c : Cmd) (p : Prog) (b : List Byte) {es : List Nat}

/-- The arguments of a launch block. -/
def launchArgs (b : List Byte) : List Nat := (List.range 8).map (fun i => bytesField b (8 * i) 8)

/-- An engine of the hearth as a launch on the engines es leaves it. -/
def launched (id : Nat) (es : List Nat) (b : List Byte) (i : Nat) (g : Engine) : Engine :=
  match es.idxOf? i with
  | some r => g.launch id r es.length (launchArgs b)
  | none => g

/-- The record of a launched run. -/
def launchRun (c : Cmd) (p : Prog) (b : List Byte) (es : List Nat) : VRun :=
  { cmd := c.id, allot := c.allot, pid := p.pid, ftz := p.ftz, engines := es, budget := c.par 4 4
    wins := (List.range 8).map (windowOf b), gens := (List.range 4).map (genOf b) }

/-- The hearth of a launch. -/
def Hearth.launched (y : Hearth) (c : Cmd) (p : Prog) (b : List Byte) (es : List Nat) : Hearth :=
  { y with runs := y.runs ++ [launchRun c p b es], engines := y.engines.mapIdx (Machine.launched c.id es b) }

theorem State.launch_eq : s.launch c p b es = (s.modHe (c.par 2 1) (fun y => y.launched c p b es)).goOn c.id
    [b2n (anyCorrelate es.length ((List.range 4).map (genOf b)))] := rfl

theorem State.launch_he (k : Nat) : (s.launch c p b es).he k = (s.modHe (c.par 2 1) (fun y => y.launched c p b es)).he k := by
  rw [State.launch_eq, State.he, State.goOn_hearths, State.he]

theorem State.launch_he_same (hh : c.par 2 1 < s.hearths.length) :
    (s.launch c p b es).he (c.par 2 1) = (s.he (c.par 2 1)).launched c p b es := by
  rw [State.launch_he, State.modHe_he_same _ _ hh]

theorem State.launch_he_ne {k : Nat} (hk : k ≠ c.par 2 1) : (s.launch c p b es).he k = s.he k := by
  rw [State.launch_he, State.modHe_he, if_neg (fun h => hk h.1.symm)]

/-- An engine that a run takes, with its rank. -/
theorem State.launch_engine {i r : Nat} (hh : c.par 2 1 < s.hearths.length) (hd : es.Nodup) (hr : es[r]? = some i)
    (hi : i < (s.he (c.par 2 1)).engines.length) :
    (s.launch c p b es).engine (c.par 2 1) i = (s.engine (c.par 2 1) i).launch c.id r es.length (launchArgs b) := by
  obtain ⟨hlt, hget⟩ := List.getElem?_eq_some_iff.mp hr
  have hidx : es.idxOf? i = some r := List.idxOf?_eq_some_iff.mpr ⟨hlt, hget, fun j hj hji =>
    List.pairwise_iff_getElem.mp hd j r _ hlt hj (hji.trans hget.symm)⟩
  rw [State.engine, State.launch_he_same s c p b hh, Hearth.launched]
  simp [State.engine, hi, launched, hidx]

theorem State.launch_engine_ne {i : Nat} (hh : c.par 2 1 < s.hearths.length) (hi : i ∉ es) :
    (s.launch c p b es).engine (c.par 2 1) i = s.engine (c.par 2 1) i := by
  have hidx : es.idxOf? i = none := List.idxOf?_eq_none_iff.mpr hi
  have hsame : launched c.id es b i = id := funext fun g => by rw [launched, hidx]; rfl
  rw [State.engine, State.launch_he_same s c p b hh, Hearth.launched]
  simp [State.engine, List.getD_eq_getElem?_getD, hsame]

end

/-- Settles O29: PROG_LOAD by the program that it removes or keeps, PROG_RUN by the engines that its launch leaves. -/
theorem programs : Obligations.Programs := by
  refine ⟨fun s id c h ha => ?_, fun s id es c p h ha hlen => ?_⟩
  · obtain rfl := State.fresh?_id h.1
    have hlen : c.allot < (s.named c).allots.length := s.named_length c ▸ ha
    refine ⟨fun h0 hd => ?_, fun h0 hroom hs hw huse => ?_, fun h0 hs i hi => ?_⟩
    · refine ⟨_, exec_progLoad_remove h h0 hd, State.finish_ended h.named_isSome _ _ _, ?_, fun q hq => ?_⟩
      · rw [State.finishOk_al, State.modAl_al_same _ _ hlen]
        exact Allot.prog?_filter_same _ _
      · rw [State.finishOk_al, State.modAl_al_same _ _ hlen, Allot.prog?_filter_ne _ hq, State.named_prog?]
    · obtain ⟨hlo, hhi, hfree⟩ := Allot.newPid_spec hroom
      obtain ⟨hkept, hother, hobjs, hc⟩ := State.withProg_spec hlen h.named_isSome ((s.named c).progOf c (s.al c.allot).newPid)
        ((s.named c).objD c.allot (refHandle (c.par 0 8))).tier (8 * ((s.named c).imageOf c).length)
      refine ⟨_, (s.named c).progOf c (s.al c.allot).newPid, fun k => (exec_progLoad_image h h0 k).trans (congrArg _
        (State.progLoad_legal hs (s.al c.allot).newPid hw (fun j hj => huse j (s.named_hearthUp c j ▸ hj)))), hlo, hhi, hfree,
        State.finish_ended hc _ _ _, hkept ?_, rfl, rfl, fun q hq => ?_, hobjs⟩
      · rw [State.named_prog?]
        exact hfree
      · rw [State.finishOk_al, hother q hq, State.named_prog?]
    · exact ⟨_, _, fun k => (exec_progLoad_image h h0 k).trans (congrArg _ (State.progLoad_illegal hs _ hi)),
        State.finish_ended h.named_isSome _ _ _, State.finish_onlyCmds _ _ _ _ _⟩
  · obtain rfl := State.fresh?_id h.1
    intro hd b hs hb ho hh hr hahead hl hn he hp
    have hhe : c.par 2 1 < (s.named c).hearths.length := by
      rw [State.named_hearths, hlen]
      exact hh
    have hne : 1 - c.par 2 1 ≠ c.par 2 1 := by omega
    have hothers : (s.named c).OthersStand ((s.named c).launch c p b (sortN es)) c.id := fun j hj => State.goOn_cmd?_ne _ _ hj
    have hengine : ∀ k i, (s.named c).engine k i = s.engine k i := fun k i => by rw [State.engine, State.named_he, State.engine]
    refine ⟨_, exec_progRun h hs hb ho hr hahead hl hn he hp, State.goOn_atWork h.named_isSome _, fun j hj => (hothers j hj).trans (s.named_cmd? c j),
      rfl, s.named_host c, fun r i hri => ?_, fun i hi => ?_, fun i => ?_, ?_⟩
    · have hi : i < ((s.named c).he (c.par 2 1)).engines.length := by
        rw [State.named_he]
        exact (he i (List.mem_of_getElem? hri)).1
      have heng := State.launch_engine (s.named c) c p b hhe (sortN_nodup es) hri hi
      refine ⟨by rw [heng]; rfl, by rw [heng]; rfl, by rw [heng]; rfl, by rw [heng]; rfl, by rw [heng, Engine.launch_sreg_rank],
        by rw [heng, Engine.launch_sreg_count, hl], fun k hk => ?_, fun k hk => ?_, fun v => by rw [heng, Engine.launch_vreg],
        fun q hq => by rw [heng, Engine.launch_preg _ _ _ _ _ hq]⟩
      · rw [heng, Engine.launch_sreg_arg, launchArgs, List.getElem?_map, List.getElem?_range hk]
        rfl
      · obtain ⟨j, rfl⟩ := Nat.exists_eq_add_of_le (show 2 ≤ k by omega)
        rw [heng, Engine.launch_sreg_arg, List.getElem?_eq_none (by simp [launchArgs]; omega)]
        rfl
    · exact (State.launch_engine_ne _ c p b hhe (fun hm => hi (mem_sortN.mp hm))).trans (hengine _ i)
    · rw [State.engine, State.launch_he_ne _ c p b hne, State.named_he, State.engine]
    · rw [State.launch_he_same _ c p b hhe, State.named_he]
      exact List.map_append

end Sys2Proof.Machine
end

section
/-! Rules for UPD_RULE, UPD_FREEZE and UPD_NORM: what naming and counting leave of an allotment, the marks of frozen parameters, the norm
of a list of records (R193, R221 to R224, R234, R235). -/

namespace Sys2Proof.Machine

/-! ## Tables and byte strings -/

theorem look_put_ne {α : Type} {j k : Nat} (h : j ≠ k) (v : α) (m : List (Nat × α)) : look j (put k v m) = look j m := by
  have hk : k ≠ j := h.symm
  induction m with
  | nil => simp [put, look, hk]
  | cons e r ih =>
    obtain ⟨i, w⟩ := e
    unfold put
    split
    · rename_i hi
      simp [look, hi, hk]
    · split
      · simp [look, hk]
      · simp [look, ih]

theorem leNat_append (l m : List Byte) : leNat (l ++ m) = leNat l + 256 ^ l.length * leNat m := by
  induction l with
  | nil => simp [leNat]
  | cons b l ih =>
    rw [List.cons_append, leNat, ih, leNat, List.length_cons, Nat.pow_succ', Nat.mul_add, Nat.add_assoc, Nat.mul_assoc]

/-! ## What of an allotment stands -/

/-- What an update of an allotment keeps stands in every allotment. -/
theorem State.modAl_keeps {β : Type} (g : Allot → β) (s : State) (a : Nat) {f : Allot → Allot} (hf : ∀ x, g (f x) = g x) (b : Nat) :
    g ((s.modAl a f).al b) = g (s.al b) := by
  rw [State.modAl_al]
  split
  · rename_i h
    rw [hf, h.1]
  · rfl

/-- Naming changes the objects and the charges of an allotment alone (R268, R272). -/
theorem State.named_keeps {β : Type} (g : Allot → β) (hg : ∀ x os cs, g { x with objs := os, charges := cs } = g x) (s : State) (c : Cmd)
    (b : Nat) : g ((s.named c).al b) = g (s.al b) := by
  have hobj : ∀ (t : State) (h : Nat) (f : Obj → Obj), g ((t.modObj c.allot h f).al b) = g (t.al b) := fun t _ _ =>
    t.modAl_keeps g c.allot (fun x => hg x _ x.charges) b
  have htouch : ∀ (t : State) (h : Nat), g ((t.touch c.allot h c.acc).al b) = g (t.al b) := fun t h => by
    unfold State.touch
    split
    · exact hobj t h _
    · rfl
  have hdrop : ∀ (t : State) (h : Nat), g ((t.dropShadow c.allot h).al b) = g (t.al b) := fun t h => by
    unfold State.dropShadow
    split
    · split
      · exact (hobj _ h _).trans (t.modAl_keeps g c.allot (fun x => hg x x.objs _) b)
      · rfl
    · rfl
  unfold State.named State.noteNames
  split
  · rfl
  · refine List.foldlRecOn (motive := fun t : State => g (t.al b) = g (s.al b)) _ _ rfl (fun t ht n _ => ?_)
    dsimp only
    split
    · exact (htouch _ _).trans ((hdrop t _).trans ht)
    · exact (htouch t _).trans ht

@[simp] theorem State.named_upd (s : State) (c : Cmd) (b : Nat) : ((s.named c).al b).upd = (s.al b).upd :=
  s.named_keeps Allot.upd (fun _ _ _ => rfl) c b

@[simp] theorem State.count_upd (s : State) (ev : Nat) (h a layer cmd : Option Nat) (n b : Nat) :
    ((s.count ev h a layer cmd n).al b).upd = (s.al b).upd := by
  unfold State.count
  split
  · rfl
  · dsimp only
    split
    · rfl
    · exact State.modAl_keeps Allot.upd _ _ (f := fun x => { x with ctr := x.ctr.count ev h layer cmd n }) (fun _ => rfl) b

/-- Of the state allotment a alone differs. -/
structure State.AllotAlone (s t : State) (a : Nat) : Prop where
  same : SameOutsideAllots s t
  others : ∀ b, b ≠ a → t.al b = s.al b

theorem State.AllotAlone.refl (s : State) (a : Nat) : s.AllotAlone s a := ⟨⟨rfl, rfl⟩, fun _ _ => rfl⟩

theorem State.AllotAlone.trans {s t u : State} {a : Nat} (h : s.AllotAlone t a) (k : t.AllotAlone u a) : s.AllotAlone u a :=
  ⟨h.same.trans k.same, fun b hb => (k.others b hb).trans (h.others b hb)⟩

theorem State.modAl_allotAlone (s : State) (a : Nat) (f : Allot → Allot) : s.AllotAlone (s.modAl a f) a :=
  ⟨s.modAl_same a f, fun _ hb => s.modAl_al_ne f hb⟩

theorem State.AllotAlone.finishOk_onlyAllot {s t : State} {a : Nat} (h : s.AllotAlone t a) (id n : Nat) : s.OnlyAllot (t.finishOk id n) a := by
  refine ⟨?_, h.others⟩
  conv => rhs; rw [← h.same.1]
  rw [← h.same.hg]
  rfl

theorem State.AllotAlone.finishOk_ended {s t : State} {a id : Nat} (h : s.AllotAlone t a) (hc : (s.cmd? id).isSome = true) (n : Nat) :
    (t.finishOk id n).Ended id .ok 0 (BitVec.ofNat 128 n) :=
  State.finish_ended (by rwa [State.cmd?, h.same.hg]) _ _ _

/-- The state with the update engine of allotment a changed by f. -/
def State.modUpd (s : State) (a : Nat) (f : Upd → Upd) : State := s.modAl a (fun x => { x with upd := f x.upd })

theorem State.modUpd_allotAlone (s : State) (a : Nat) (f : Upd → Upd) : s.AllotAlone (s.modUpd a f) a := s.modAl_allotAlone a _

theorem State.modUpd_upd {s : State} {a : Nat} (ha : a < s.allots.length) (f : Upd → Upd) : ((s.modUpd a f).al a).upd = f (s.al a).upd := by
  rw [State.modUpd, State.modAl_al_same _ _ ha]

theorem State.modUpd_objs (s : State) (a : Nat) (f : Upd → Upd) (b : Nat) : ((s.modUpd a f).al b).objs = (s.al b).objs :=
  s.modAl_keeps Allot.objs a (f := fun x => { x with upd := f x.upd }) (fun _ => rfl) b

/-! ## UPD_RULE (R234) -/

/-- The state with rule x in slot k of allotment a. -/
def State.withRule (s : State) (a k : Nat) (x : Rule) : State := s.modUpd a (fun u => { u with rules := put k x u.rules })

/-- What an UPD_RULE does with its record: a legal one goes to its slot. -/
def State.takeRule (s : State) (c : Cmd) : Option Rule → State
  | none => s.reject c.id (badIn 0)
  | some x => (s.withRule c.allot (c.par 0 1) x).finishOk c.id 0

/-- Once every earlier UPD_APPLY has completed, what the record holds decides. -/
theorem exec_updRule {s : State} {c : Cmd} (h : s.Runs c.id 0x0504 updRuleFields c) (hb : (s.named c).before c 0x0502 none = false)
    (hs : (s.named c).Clean c.allot) {r : Option Rule} (hr : ruleOf (leNat ((s.named c).readRef c.allot (c.par 8 8) 64 128)) = r) :
    exec (.updRule c.id) s = .next ((s.named c).takeRule c r) := by
  have hp : (s.named c).poisonOf [(c.allot, refHandle (c.par 8 8), 64 * bitsOf (c.par 8 8) 32 32, 128)] = none := hs.poisonOf (.cons (.nil _))
  show execUpdRule c.id s = _
  refine (State.deant_runs h _).trans (congrArg _ ?_)
  simp only [hb, hp, hr, Bool.false_eq_true, if_false]
  cases r <;> rfl

/-! ## UPD_FREEZE (R193, R235) -/

/-- Parameter h of allotment a has the mark. -/
def State.isFrozen (s : State) (a h : Nat) : Bool := (s.al a).upd.frozen.contains h

/-- A mark is set or cleared in the list of marks. -/
def Upd.mark (u : Upd) (on : Bool) (h : Nat) : Upd := { u with frozen := if on then insertN h u.frozen else without h u.frozen }

theorem Upd.mark_contains (u : Upd) (on : Bool) (h k : Nat) : (u.mark on h).frozen.contains k = if k = h then on else u.frozen.contains k := by
  cases on with
  | true => by_cases hk : k = h <;> simp [Upd.mark, mem_insertN, hk]
  | false => by_cases hk : k = h <;> simp [Upd.mark, without, hk]

/-- The residuals of the layers of master h start again from +0 (R193). -/
def Temper.residualsAnew (x : Temper) (h : Nat) : Temper :=
  { x with layers := x.layers.map (fun e => (e.1, if e.2.wMaster = h then { e.2 with residual := e.2.residual.map (fun _ => []) } else e.2)) }

theorem State.freezeOne_eq (s : State) (a : Nat) (on : Bool) (h : Nat) :
    s.freezeOne a on h = (s.modUpd a (fun u => u.mark on h)).modTemper a (fun x => x.residualsAnew h) := rfl

theorem State.modTemper_upd (s : State) (a : Nat) (f : Temper → Temper) (b : Nat) : ((s.modTemper a f).al b).upd = (s.al b).upd :=
  s.modAl_keeps Allot.upd a (f := fun x => { x with temper := f x.temper }) (fun _ => rfl) b

theorem State.freezeOne_allotAlone (s : State) (a : Nat) (on : Bool) (h : Nat) : s.AllotAlone (s.freezeOne a on h) a := by
  rw [s.freezeOne_eq]
  exact (s.modUpd_allotAlone a _).trans (State.modAl_allotAlone _ a _)

/-- One mark changes. -/
theorem State.freezeOne_isFrozen {s : State} {a : Nat} (ha : a < s.allots.length) (on : Bool) (h k : Nat) :
    (s.freezeOne a on h).isFrozen a k = if k = h then on else s.isFrozen a k := by
  rw [s.freezeOne_eq, State.isFrozen, State.modTemper_upd, State.modUpd_upd ha, Upd.mark_contains, State.isFrozen]

/-- A handle of an UPD_FREEZE: the state with its mark, and the count of the marks that changed. -/
def freezeStep (a : Nat) (on : Bool) (z : State × Nat) (h : Nat) : State × Nat :=
  if z.1.isFrozen a h = on then z else (z.1.freezeOne a on h, z.2 + 1)

section
variable {a : Nat} {on : Bool}

theorem freezeStep_allotAlone (z : State × Nat) (h : Nat) : z.1.AllotAlone (freezeStep a on z h).1 a := by
  unfold freezeStep
  split
  · exact .refl _ a
  · exact z.1.freezeOne_allotAlone a on h

theorem freezeStep_isFrozen {z : State × Nat} (ha : a < z.1.allots.length) (h k : Nat) :
    (freezeStep a on z h).1.isFrozen a k = if k = h then on else z.1.isFrozen a k := by
  unfold freezeStep
  split
  · rename_i hon
    split
    · rename_i hk
      rw [hk, hon]
    · rfl
  · exact State.freezeOne_isFrozen ha on h k

theorem freezeStep_count (z : State × Nat) (h : Nat) : (freezeStep a on z h).2 = z.2 + ([h].filter (fun k => z.1.isFrozen a k != on)).length := by
  by_cases hon : z.1.isFrozen a h = on
  · simp [freezeStep, hon]
  · simp [freezeStep, hon]

theorem foldl_freezeStep_allotAlone (hs : List Nat) (z : State × Nat) : z.1.AllotAlone (hs.foldl (freezeStep a on) z).1 a :=
  List.foldlRecOn (motive := fun u => z.1.AllotAlone u.1 a) hs _ (.refl _ a) (fun u hu h _ => hu.trans (freezeStep_allotAlone u h))

theorem freezeStep_length {z : State × Nat} (ha : a < z.1.allots.length) (h : Nat) : a < (freezeStep a on z h).1.allots.length :=
  (freezeStep_allotAlone z h).same.2.symm ▸ ha

/-- The handles of the list have the mark as it is given, and every other handle as it was. -/
theorem foldl_freezeStep_isFrozen (hs : List Nat) {z : State × Nat} (ha : a < z.1.allots.length) (k : Nat) :
    (hs.foldl (freezeStep a on) z).1.isFrozen a k = if hs.contains k then on else z.1.isFrozen a k := by
  induction hs generalizing z with
  | nil => rfl
  | cons h r ih =>
    rw [List.foldl_cons, ih (freezeStep_length ha h), freezeStep_isFrozen ha]
    by_cases hk : k = h
    · simp [hk]
    · simp [hk]

/-- Of handles that differ, those whose mark is not yet as it is given count. -/
theorem foldl_freezeStep_count {hs : List Nat} (hd : hs.Nodup) {z : State × Nat} (ha : a < z.1.allots.length) :
    (hs.foldl (freezeStep a on) z).2 = z.2 + (hs.filter (fun h => z.1.isFrozen a h != on)).length := by
  induction hs generalizing z with
  | nil => rfl
  | cons h r ih =>
    obtain ⟨hnot, hr⟩ := List.nodup_cons.mp hd
    have hne : ∀ k ∈ r, k ≠ h := fun k hk e => hnot (e ▸ hk)
    have hrest : r.filter (fun k => (freezeStep a on z h).1.isFrozen a k != on) = r.filter (fun k => z.1.isFrozen a k != on) :=
      List.filter_congr (fun k hk => by rw [freezeStep_isFrozen ha, if_neg (hne k hk)])
    rw [List.foldl_cons, ih hr (freezeStep_length ha h), hrest, freezeStep_count, Nat.add_assoc, ← List.length_append, ← List.filter_append]
    rfl

end

/-- What an UPD_FREEZE comes to: its state, and the count of the marks that changed. -/
def State.frozenBy (s : State) (c : Cmd) : State × Nat := (s.freezeHandles c).foldl (freezeStep c.allot (decide (c.par 0 1 = 1))) (s, 0)

theorem exec_updFreeze {s : State} {id : Nat} {c : Cmd} (h : s.Runs id 0x0503 updFreezeFields c) (hs : (s.named c).Clean c.allot)
    (hnorm : (s.named c).before c 0x0501 none = false) (happly : (s.named c).before c 0x0502 none = false)
    (hh : ∀ h ∈ (s.named c).freezeHandles c, (s.named c).nameable c.allot h = true) :
    exec (.updFreeze id) s = .next (((s.named c).frozenBy c).1.finishOk id ((s.named c).frozenBy c).2) := by
  have hp : (if c.par 8 8 = 0 then none
      else (s.named c).poisonOf [(c.allot, refHandle (c.par 8 8), 64 * bitsOf (c.par 8 8) 32 32, 4 * c.par 2 2)]) = none := by
    split
    · rfl
    · exact hs.poisonOf (.cons (.nil _))
  have hi : ((s.named c).freezeHandles c).findIdx? (fun h => !(s.named c).nameable c.allot h) = none :=
    List.findIdx?_eq_none_iff.mpr (fun h hm => by simp [hh h hm])
  show execUpdFreeze id s = _
  refine (State.deant_runs h _).trans (congrArg _ ?_)
  simp only [hnorm, happly, hp, hi, Bool.or_self, Bool.false_eq_true, if_false]
  rfl

/-! ## UPD_NORM (R221 to R224) -/

/-- The records whose master is not frozen. -/
def State.unfrozen (s : State) (a : Nat) (ps : List Param) : List Param := ps.filter (fun p => !(s.al a).upd.frozen.contains p.master)

/-- The elements of the gradients of records. -/
def State.gradsOf (s : State) (a : Nat) (ps : List Param) : List W32 := ps.flatMap (fun p => s.gradVals a p.grad)

/-- The norm of a list of elements on one module. -/
def normOf (xs : List W32) : Norm :=
  { n := sqrt32 (sumSquares xs), qLocal := sumSquares xs, nonfinite := (xs.filter (fun x => !finite32 x)).length }

/-- The state with the reading of the records' gradients counted. -/
def State.gradsCounted (s : State) (c : Cmd) (ps : List Param) : State :=
  ps.foldl (fun u p => u.countBytes c (s.objD c.allot p.grad).tier
    (if (s.objD c.allot p.grad).tier < 2 then some (s.objD c.allot p.grad).hearth else none) (s.objD c.allot p.grad).t.elemBytes) s

/-- The state with a norm in slot k of allotment a. -/
def State.withNorm (s : State) (a k : Nat) (n : Norm) : State := s.modUpd a (fun u => { u with norms := put k n u.norms })

/-- RESULT of an UPD_NORM: the norm, the module's own sum and the saturated count. -/
theorem Norm.leNat_bytes (x : Norm) : leNat x.bytes = x.n.toNat + 2 ^ 32 * x.qLocal.toNat + 2 ^ 64 * min (2 ^ 32 - 1) x.nonfinite := by
  have hn := x.n.isLt
  have hq := x.qLocal.isLt
  rw [Norm.bytes, show zeros 4 = leBytes 0 4 from rfl]
  simp only [leNat_append, leNat_leBytes, List.length_append, leBytes_length, satTo_eq_min]
  omega

/-- Counting leaves the commands, every object and the update engine. -/
theorem State.gradsCounted_keeps (s : State) (c : Cmd) (ps : List Param) : s.Counts (s.gradsCounted c ps) ∧
    (s.gradsCounted c ps).allots.length = s.allots.length ∧ ∀ b, ((s.gradsCounted c ps).al b).upd = (s.al b).upd := by
  refine List.foldlRecOn (motive := fun t : State => s.Counts t ∧ t.allots.length = s.allots.length ∧ ∀ b, (t.al b).upd = (s.al b).upd) ps _
    ⟨.refl s, rfl, fun _ => rfl⟩ (fun t ht p _ => ?_)
  obtain ⟨hcounts, hlength, hupd⟩ := ht
  exact ⟨hcounts.trans (t.countFor_counts _ _ _ _ _), (State.count_length _ _ _ _ _ _ _).trans hlength,
    fun b => (State.count_upd _ _ _ _ _ _ _ b).trans (hupd b)⟩

/-- With no NORM_OUT the norm goes to its slot and into RESULT. -/
theorem State.putNorm_noOut {s : State} {c : Cmd} (h : c.par 0x10 8 = 0) (n : Norm) :
    s.putNorm c n = (s.withNorm c.allot (c.par 0xC 1) n).finishOk c.id (leNat n.bytes) := by
  simp [State.putNorm, refRange, State.writeRef, h, State.poisonPartOf, State.withNorm, State.modUpd]

/-- On one module, with no gradient poisoned, the norm is that of the gradients of the records that are not frozen. -/
theorem State.updNorm_local {s : State} {c : Cmd} (hs : s.Clean c.allot) (h : c.par 0xD 1 = 0) (ps : List Param) (sums : List (Nat × W32)) :
    s.updNorm c ps sums = (s.gradsCounted c (s.unfrozen c.allot ps)).putNorm c (normOf (s.gradsOf c.allot (s.unfrozen c.allot ps))) := by
  have hranges : RangesOf c.allot ((s.unfrozen c.allot ps).map (fun p => s.planesOf c.allot p.grad)) := by
    intro r hr
    obtain ⟨p, -, rfl⟩ := List.mem_map.mp hr
    rfl
  have hp := hs.poisonOf hranges
  unfold State.unfrozen at hp
  have hcross : ¬ c.par 0xD 1 = 1 := by omega
  simp only [State.updNorm, hp, if_neg hcross]
  rfl

theorem State.fresh?_working? {s : State} {id op : Nat} {c : Cmd} (h : s.fresh? id op = some c) : s.working? id op = none := by
  unfold State.fresh? at h
  unfold State.working?
  split
  · rename_i d hd
    rw [hd] at h
    dsimp only at h
    split at h
    · rename_i hphase
      rw [hphase]
      rfl
    · cases h
  · rfl

theorem exec_updNorm {s : State} {id : Nat} {c : Cmd} (h : s.Runs id 0x0501 updNormFields c) (hs : (s.named c).Clean c.allot)
    (hbad : (s.named c).badParamRec c ((s.named c).paramsOf c) = none) (hr : (s.named c).reachable c ((s.named c).namesNow c) = none)
    (hb : (s.named c).before c 0x0502 (some (c.par 0xC 1)) = false) (sums : List (Nat × W32)) :
    exec (.updNorm id sums) s = .next ((s.named c).updNorm c ((s.named c).paramsOf c) sums) := by
  have hp : (s.named c).poisonOf [listRange c] = none := hs.poisonOf (.cons (.nil _))
  show execUpdNorm id sums s = _
  unfold execUpdNorm
  rw [State.fresh?_working? h.1]
  refine (State.deant_runs h _).trans (congrArg _ ?_)
  simp only [hp, hbad, hr, hb, Bool.false_eq_true, if_false]

/-- Settles O32: UPD_RULE by the record that it reads, UPD_FREEZE by the marks that its handles get one after another, UPD_NORM by the norm
of the gradients that it reads. -/
theorem updateSetup : Obligations.UpdateSetup := by
  refine ⟨fun s id c h ha => ?_, fun s id c h ha hs hnorm happly => ?_, fun s id c sums h ha hs hbad hr hb hcross hout => ?_⟩
  all_goals
    obtain rfl := State.fresh?_id h.1
    have hlen : c.allot < (s.named c).allots.length := s.named_length c ▸ ha
  · intro bs
    refine ⟨fun x hb hs hx => ?_, fun hb hs hx => ?_⟩
    · have halone : (s.named c).AllotAlone ((s.named c).withRule c.allot (c.par 0 1) x) c.allot := State.modUpd_allotAlone _ _ _
      refine ⟨_, exec_updRule h hb hs hx, halone.finishOk_ended h.named_isSome 0, halone.finishOk_onlyAllot c.id 0, ?_, fun k hk => ?_⟩
      · rw [State.takeRule, State.finishOk_al, State.withRule, State.modUpd_upd hlen]
        exact look_put_same _ _ _
      · rw [State.takeRule, State.finishOk_al, State.withRule, State.modUpd_upd hlen, look_put_ne hk, s.named_upd]
    · exact ⟨_, exec_updRule h hb hs hx, State.finish_ended h.named_isSome _ _ _, State.finish_onlyCmds _ _ _ _ _⟩
  · intro handles on hh
    have halone := foldl_freezeStep_allotAlone (a := c.allot) (on := on) handles (s.named c, 0)
    refine ⟨_, exec_updFreeze h hs hnorm happly hh, halone.finishOk_onlyAllot _ _, fun k => ?_, fun hd => ?_⟩
    · have hmark := foldl_freezeStep_isFrozen (on := on) handles (z := (s.named c, 0)) hlen k
      rwa [State.isFrozen, State.isFrozen, s.named_upd] at hmark
    · have hcount := foldl_freezeStep_count (on := on) hd (z := (s.named c, 0)) hlen
      simp only [State.isFrozen, s.named_upd, Nat.zero_add] at hcount
      rw [← hcount]
      exact halone.finishOk_ended h.named_isSome _
  · intro live xs
    obtain ⟨hcounts, hlength, hupd⟩ := (s.named c).gradsCounted_keeps c live
    have hslot : c.allot < ((s.named c).gradsCounted c live).allots.length := hlength.symm ▸ hlen
    have hexec : exec (.updNorm c.id sums) s =
        .next ((((s.named c).gradsCounted c live).withNorm c.allot (c.par 0xC 1) (normOf xs)).finishOk c.id (leNat (normOf xs).bytes)) := by
      rw [exec_updNorm h hs hbad hr hb, State.updNorm_local hs hcross, State.putNorm_noOut hout, State.unfrozen, s.named_upd]
      rfl
    have hcmd : (((s.named c).gradsCounted c live).cmd? c.id).isSome = true := by
      rw [State.cmd?, hcounts.hg]
      exact h.named_isSome
    refine ⟨_, normOf xs, hexec, ?_, rfl, rfl, rfl, ?_, fun k hk => ?_, fun b => ?_⟩
    · rw [State.finishOk_al, State.withNorm, State.modUpd_upd hslot]
      exact look_put_same _ _ _
    · rw [← Norm.leNat_bytes]
      exact (State.modUpd_allotAlone _ _ _).finishOk_ended hcmd _
    · rw [State.finishOk_al, State.withNorm, State.modUpd_upd hslot, look_put_ne hk, hupd, s.named_upd]
    · rw [State.finishOk_al, State.withNorm, State.modUpd_objs, hcounts.objs]

end Sys2Proof.Machine
end

section
/-! Rules for the life of a Deant command: what the end of a command leaves of the others, NOP, and the start of an accepted command (R294,
R315, R316, R319, R322). -/

namespace Sys2Proof.Machine

/-! ## Commands behind an update of one of them -/

/-- An update of a command that keeps identities leaves every other command. -/
theorem State.modCmd_othersStand (s : State) (id : Nat) {f : Cmd → Cmd} (hf : ∀ c, (f c).id = c.id) : s.OthersStand (s.modCmd id f) id := by
  intro j hj
  rw [State.modCmd_cmd? _ _ _ _ hf]
  cases h : s.cmd? j with
  | none => rfl
  | some c => rw [Option.map_some, if_neg (by rwa [State.cmd?_id h])]

theorem State.modCmd_cmd?_same {s : State} {id : Nat} {c : Cmd} (h : s.cmd? id = some c) {f : Cmd → Cmd} (hf : ∀ c, (f c).id = c.id) :
    (s.modCmd id f).cmd? id = some (f c) := by
  rw [State.modCmd_cmd? _ _ _ _ hf, h, Option.map_some, if_pos (State.cmd?_id h)]

theorem State.finish_othersStand (s : State) (id : Nat) (code : Code) (detail : W32) (result : W128) :
    s.OthersStand (s.finish id code detail result) id :=
  s.modCmd_othersStand id (f := fun c => { c with phase := .done, code := code, detail := detail, result := result }) (fun _ => rfl)

theorem State.Runs.cmd_isSome {s : State} {id op : Nat} {fs : State → Cmd → List Fld} {c : Cmd} (h : s.Runs id op fs c) :
    (s.cmd? id).isSome = true := by
  rw [State.fresh?_cmd h.1]
  rfl

/-! ## Commands that name no object -/

/-- NOP and the commands of rings name no object: their effect begins in the state as it stands. -/
theorem State.Runs.named_eq {s : State} {id op : Nat} {fs : State → Cmd → List Fld} {c : Cmd} (h : s.Runs id op fs c)
    (hop : op ∈ [0x0100, 0x0101, 0x0102, 0x0103]) : s.named c = s := by
  refine State.named_of_noNames ?_
  have hc := State.fresh?_opcode h.1
  simp only [List.mem_cons, List.not_mem_nil, or_false] at hop
  rcases hop with rfl | rfl | rfl | rfl <;> simp [State.namesNow, Cmd.inlineNames, Cmd.listRefs, hc]

/-! ## NOP (R294, R322) -/

theorem exec_nop {s : State} {id : Nat} {c : Cmd} (h : s.Runs id 0x0100 nopFields c) :
    exec (.nop id) s = .next (s.finishOk id (c.par 0 16)) := by
  show execNop id s = _
  refine (State.deant_runs h _).trans ?_
  rw [h.named_eq (by decide)]

/-- RESULT takes the first 16 parameter bytes alone. -/
theorem Cmd.ofNat_par_first (c : Cmd) : BitVec.ofNat 128 (c.par 0 16) = BitVec.ofNat 128 c.params := by
  apply BitVec.eq_of_toNat_eq
  show c.params % 2 ^ 128 % 2 ^ 128 = c.params % 2 ^ 128
  exact Nat.mod_mod _ _

theorem bytesField_lt (bs : List Byte) (off size : Nat) : bytesField bs off size < 2 ^ (8 * size) := by
  have hlen : ((bs.drop off).take size).length ≤ size := List.length_take_le _ _
  calc bytesField bs off size < 256 ^ ((bs.drop off).take size).length := leNat_lt _
    _ ≤ 256 ^ size := Nat.pow_le_pow_right (by decide) hlen
    _ = 2 ^ (8 * size) := by rw [Nat.pow_mul]

/-- Settles O11: a NOP by the equation of its row, the parameters of a packet by the bytes that PARAM_LEN takes in. -/
theorem nopEchoes : Obligations.NopEchoes := by
  refine ⟨fun s id c h => ⟨_, exec_nop h, ?_, s.finish_onlyCmds _ _ _ _, s.finish_othersStand _ _ _ _⟩, fun a q rq bs => ?_⟩
  · rw [← c.ofNat_par_first]
    exact State.finish_ended h.cmd_isSome _ _ _
  · exact ⟨bytesField_lt _ _ _, rfl, Nat.min_le_left _ _⟩

/-! ## The start of a command (R315, R316, R319) -/

/-- The state in which an uncounted command stands started, its order presented. -/
def State.begun (s : State) (c : Cmd) : State :=
  (s.modCmd c.id (fun d => { d with phase := .started, tStart := s.now })).presentCmd c

theorem State.presentCmd_eq (s : State) (c : Cmd) :
    s.presentCmd c = { s with hg := { s.hg with arb := if c.arbitrated then s.hg.arb ++ [c.id] else s.hg.arb } } := by
  unfold State.presentCmd
  split <;> rfl

/-- The start of an uncounted command that closes no ring is followed by its trace record and the attention alone. -/
theorem State.startCmd_uncounted {s : State} {c : Cmd} (hcount : s.counted c = false) (hop : c.opcode ≠ 0x0102) :
    SameButAttention (s.begun c) (s.startCmd c) := by
  have hlatch : (s.modCmd c.id (fun d => { d with phase := .started, tStart := s.now })).latch c = s.begun c :=
    if_neg (Bool.eq_false_iff.mp hcount)
  have hring : (s.begun c).closeRing c = s.begun c := if_neg hop
  unfold State.startCmd
  dsimp only
  rw [hlatch, hring]
  exact (State.traceAt_same _ _ _ _ _ _).trans (State.settleWith_same _ _ _)

theorem SameButAttention.hg {s t : State} (h : SameButAttention s t) : t.hg = s.hg := by
  have k := congrArg State.hg h
  exact k

theorem SameButAttention.allots {s t : State} (h : SameButAttention s t) : t.allots = s.allots := by
  have k := congrArg State.allots h
  exact k

theorem SameButAttention.host {s t : State} (h : SameButAttention s t) : t.host = s.host := by
  have k := congrArg State.host h
  exact k

/-- What the start of an uncounted command that closes no ring leaves. -/
theorem State.startCmd_spec {s : State} {id : Nat} {c : Cmd} (h : s.cmd? id = some c) (hcount : s.counted c = false)
    (hop : c.opcode ≠ 0x0102) :
    (s.startCmd c).cmd? id = some { c with phase := .started, tStart := s.now } ∧ s.OthersStand (s.startCmd c) id ∧
      (s.startCmd c).hg.arb = (if c.arbitrated then s.hg.arb ++ [id] else s.hg.arb) ∧ (s.startCmd c).allots = s.allots ∧
      (s.startCmd c).host = s.host := by
  obtain rfl := State.cmd?_id h
  have hsame := State.startCmd_uncounted hcount hop
  rw [State.begun, State.presentCmd_eq] at hsame
  have hcmd : ∀ j, (s.startCmd c).cmd? j = (s.modCmd c.id (fun d => { d with phase := .started, tStart := s.now })).cmd? j := fun j => by
    rw [State.cmd?, hsame.hg, State.cmd?]
  refine ⟨?_, fun j hj => ?_, by rw [hsame.hg]; rfl, hsame.allots, hsame.host⟩
  · rw [hcmd]
    exact State.modCmd_cmd?_same h (fun _ => rfl)
  · rw [hcmd]
    exact s.modCmd_othersStand c.id (f := fun d => { d with phase := .started, tStart := s.now }) (fun _ => rfl) j hj

section
variable {s : State} {id : Nat} {c : Cmd} (h : s.cmd? id = some c) (hm : c.master = .allot) (hu : s.arbUp = true) (hp : c.phase = .accepted)
include h hm hu hp

theorem exec_commandStart_held (hq : s.queueClear c = false) : exec (.commandStart id) s = .next s := by
  show execCommandStart id s = _
  simp [execCommandStart, h, hm, hu, hp, hq]

theorem exec_commandStart_starts (hq : s.queueClear c = true) (hd : c.dep = 0 ∨ s.tokenMet c.allot c.dep = true) :
    exec (.commandStart id) s = .next (s.startCmd c) := by
  show execCommandStart id s = _
  simp [execCommandStart, h, hm, hu, hp, hq, hd]

/-- A command whose token is not met stays accepted; its first wait is counted. -/
theorem exec_commandStart_waits (hq : s.queueClear c = true) (h0 : c.dep ≠ 0) (ht : s.tokenMet c.allot c.dep = false) :
    ∃ t, exec (.commandStart id) s = .next t ∧ ∃ d, t.cmd? id = some d ∧ d.phase = .accepted := by
  have hexec : exec (.commandStart id) s =
      .next (if c.waitedToken then s else (s.countFor c 0x18 none none 1).modCmd id (fun d => { d with waitedToken := true })) := by
    show execCommandStart id s = _
    cases hw : c.waitedToken <;> simp [execCommandStart, h, hm, hu, hp, hq, h0, ht, hw]
  refine ⟨_, hexec, ?_⟩
  cases hw : c.waitedToken with
  | true => exact ⟨c, h, hp⟩
  | false =>
    have hcounted : (s.countFor c 0x18 none none 1).cmd? id = some c := by
      rw [State.cmd?, (s.countFor_counts c 0x18 none none 1).hg]
      exact h
    exact ⟨_, State.modCmd_cmd?_same hcounted (fun _ => rfl), hp⟩

end

/-- Settles O19: a command by what its queue and its token let it do. -/
theorem commandStart : Obligations.CommandStart := by
  intro s id c h hm hu hp _
  exact ⟨exec_commandStart_held h hm hu hp, exec_commandStart_waits h hm hu hp, fun hq hd hcount hop =>
    ⟨_, exec_commandStart_starts h hm hu hp hq hd, State.startCmd_spec h hcount hop⟩⟩

end Sys2Proof.Machine
end

section
/-! What the fault collector leaves: the kinds of the rings, the flash slot that does not run, the fuses and the classes of the sources; and
without a fatal event every command keeps its identity (R308, R407 to R420). -/

namespace Sys2Proof.Machine

/-! ## Kinds of rings -/

/-- The rings of an allotment by number: which are reply rings, and which are closing. -/
def Allot.ringKinds (x : Allot) : List (Nat × Bool × Bool) := x.queues.map (fun e => (e.1, e.2.reply, e.2.destroying))

theorem look_map_snd {α β : Type} (g : α → β) (k : Nat) (m : List (Nat × α)) : look k (m.map (fun e => (e.1, g e.2))) = (look k m).map g := by
  induction m with
  | nil => rfl
  | cons e r ih =>
    obtain ⟨j, v⟩ := e
    change look k ((j, g v) :: r.map (fun e => (e.1, g e.2))) = _
    by_cases hj : j = k <;> simp [look, hj, ih]

theorem map_ringKinds (l : List Allot) {f : Allot → Allot} (hf : ∀ x, (f x).ringKinds = x.ringKinds := by intro _; rfl) :
    (l.map f).map Allot.ringKinds = l.map Allot.ringKinds := by
  rw [List.map_map]
  exact List.map_congr_left (fun x _ => hf x)

theorem State.modAl_ringKinds (s : State) (a : Nat) {f : Allot → Allot} (hf : ∀ x, (f x).ringKinds = x.ringKinds) :
    (s.modAl a f).allots.map Allot.ringKinds = s.allots.map Allot.ringKinds := by
  apply List.ext_getElem?
  intro i
  simp only [State.modAl, State.setAl, State.al, List.getElem?_map, List.getElem?_set, List.getD_eq_getElem?_getD]
  by_cases hi : a = i
  · subst hi
    by_cases ha : a < s.allots.length <;> simp [ha, hf]
  · simp [hi]

/-! ## What stands in every event, and with every command -/

/-- The rings keep their kinds, and the flash slot that does not run, the fuses and the classes of the sources stand. -/
structure State.FaultKeeps (s t : State) : Prop where
  rings : t.allots.map Allot.ringKinds = s.allots.map Allot.ringKinds
  image : t.otherImage = s.otherImage
  staged : t.mgt.stagedOk = s.mgt.stagedOk
  fuse : t.fuse = s.fuse
  severity : t.flt.severity = s.flt.severity

/-- The same, and no command comes or goes. -/
structure State.FaultSpares (s t : State) : Prop extends s.FaultKeeps t where
  ids : t.hg.cmds.map (·.id) = s.hg.cmds.map (·.id)

theorem State.FaultKeeps.trans {s t u : State} (h : s.FaultKeeps t) (k : t.FaultKeeps u) : s.FaultKeeps u :=
  ⟨k.rings.trans h.rings, k.image.trans h.image, k.staged.trans h.staged, k.fuse.trans h.fuse, k.severity.trans h.severity⟩

theorem State.FaultSpares.refl (s : State) : s.FaultSpares s := ⟨⟨rfl, rfl, rfl, rfl, rfl⟩, rfl⟩

theorem State.FaultSpares.trans {s t u : State} (h : s.FaultSpares t) (k : t.FaultSpares u) : s.FaultSpares u :=
  ⟨h.toFaultKeeps.trans k.toFaultKeeps, k.ids.trans h.ids⟩

theorem State.FaultSpares.foldl {α : Type} {f : State → α → State} (h : ∀ (s : State) x, s.FaultSpares (f s x)) (l : List α) (s : State) :
    s.FaultSpares (l.foldl f s) :=
  List.foldlRecOn (motive := fun t => s.FaultSpares t) l f (.refl s) (fun t ht x _ => ht.trans (h t x))

/-- A ring behind an event is of the kind that it was. -/
theorem State.FaultKeeps.queue? {s t : State} (h : s.FaultKeeps t) {a q : Nat} {d : QDesc} (hd : s.queue? a q = some d) :
    ∃ e, t.queue? a q = some e ∧ e.reply = d.reply ∧ e.destroying = d.destroying := by
  have hkinds : ∀ u : State, (u.queue? a q).map (fun d => (d.reply, d.destroying)) = look q (((u.allots.map Allot.ringKinds)[a]?).getD []) := by
    intro u
    rw [State.queue?, ← look_map_snd, State.al, List.getD_eq_getElem?_getD, List.getElem?_map]
    cases u.allots[a]? <;> rfl
  have heq := hkinds t
  rw [h.rings, ← hkinds s, hd] at heq
  obtain ⟨e, he, hk⟩ := Option.map_eq_some_iff.mp heq
  exact ⟨e, he, congrArg Prod.fst hk, congrArg Prod.snd hk⟩

/-- A command behind an event is still there. -/
theorem State.FaultSpares.cmd_isSome {s t : State} (h : s.FaultSpares t) {id : Nat} (hc : (s.cmd? id).isSome = true) :
    (t.cmd? id).isSome = true := by
  have hmem : ∀ u : State, (u.cmd? id).isSome = true ↔ id ∈ u.hg.cmds.map (·.id) := fun u => by
    simp [State.cmd?, List.find?_isSome]
  rw [hmem] at hc ⊢
  rwa [h.ids]

theorem State.FaultKeeps.srcClass {s t : State} (h : s.FaultKeeps t) (src : Nat) : t.srcClass src = s.srcClass src := by
  rw [State.srcClass, h.severity, State.srcClass]

theorem State.modAl_spares (s : State) (a : Nat) {f : Allot → Allot} (hf : ∀ x, (f x).ringKinds = x.ringKinds := by intro _; rfl) :
    s.FaultSpares (s.modAl a f) := ⟨⟨s.modAl_ringKinds a hf, rfl, rfl, rfl, rfl⟩, rfl⟩

theorem State.modObj_spares (s : State) (a h : Nat) (f : Obj → Obj) : s.FaultSpares (s.modObj a h f) := s.modAl_spares a

theorem State.modCmd_spares (s : State) (id : Nat) {f : Cmd → Cmd} (hf : ∀ c, (f c).id = c.id := by intro _; rfl) : s.FaultSpares (s.modCmd id f) := by
  refine ⟨⟨rfl, rfl, rfl, rfl, rfl⟩, ?_⟩
  rw [State.modCmd, List.map_map]
  refine List.map_congr_left (fun c _ => ?_)
  dsimp only [Function.comp]
  split
  · exact hf c
  · rfl

theorem SameButAttention.spares {s t : State} (h : SameButAttention s t) : s.FaultSpares t := by
  have himage := congrArg State.otherImage h
  have hstaged := congrArg (fun s => s.mgt.stagedOk) h
  have hfuse := congrArg State.fuse h
  have hseverity := congrArg (fun s => s.flt.severity) h
  exact ⟨⟨by rw [h.allots], himage, hstaged, hfuse, hseverity⟩, by rw [h.hg]⟩

theorem State.count_spares (s : State) (ev : Nat) (h a layer cmd : Option Nat) (n : Nat) : s.FaultSpares (s.count ev h a layer cmd n) := by
  unfold State.count
  split
  · exact .refl s
  · dsimp only
    split
    · exact ⟨⟨rfl, rfl, rfl, rfl, rfl⟩, rfl⟩
    · refine State.FaultSpares.trans ?_ (State.modAl_spares _ _)
      exact ⟨⟨rfl, rfl, rfl, rfl, rfl⟩, rfl⟩

/-! ## Packets that leave (R341, R353) -/

theorem State.withFab_spares (s : State) (f : Fabric) : s.FaultSpares { s with fab := f } := ⟨⟨rfl, rfl, rfl, rfl, rfl⟩, rfl⟩

theorem State.putPacket_spares (s : State) (p : Nat) (x : Packet) : s.FaultSpares (s.putPacket p x) := s.withFab_spares _

theorem State.sendNow_spares (s : State) (x : Sent) (again : Bool) : s.FaultSpares (s.sendNow x again) := by
  unfold State.sendNow
  split
  · split
    · exact .refl s
    · have hput : ∀ q y f, s.FaultSpares ((s.putPacket q y).modSent x f) := fun q y f => (s.putPacket_spares q y).trans (State.withFab_spares _ _)
      dsimp only
      split
      · exact (hput _ _ _).trans (State.count_spares _ _ _ _ _ _ _)
      · refine State.FaultSpares.trans ?_ (State.count_spares _ _ _ _ _ _ _)
        split
        · exact (hput _ _ _).trans (State.count_spares _ _ _ _ _ _ _)
        · exact hput _ _ _
  · exact .refl s

theorem State.trySend_spares (s : State) (x : Sent) : s.FaultSpares (s.trySend x) := by
  unfold State.trySend
  split
  · split
    · exact s.sendNow_spares x false
    · exact .refl s
  · exact .refl s

theorem State.sendOn_spares (s : State) (peer stream allot far : Nat) (sig : W32) (ps : List (Nat × List Byte)) (served : Option Nat) :
    s.FaultSpares (s.sendOn peer stream allot far sig ps served) := by
  unfold State.sendOn State.enqueue State.pump
  exact ((s.withFab_spares _).trans (State.withFab_spares _ _)).trans (.foldl State.trySend_spares _ _)

theorem State.sendAborts_spares (s : State) (gid index reason : Nat) : s.FaultSpares (s.sendAborts gid index reason) := by
  unfold State.sendAborts
  split
  · exact .refl s
  · exact .foldl (fun t m => t.sendOn_spares _ _ _ _ _ _ _) _ s

theorem State.skipColl_spares (s : State) (gid : Nat) (g : Group) (norm : Bool) (id : Nat) : s.FaultSpares (s.skipColl gid g norm id) :=
  (s.withFab_spares _).trans (State.sendAborts_spares _ _ _ _)

theorem State.dropColl_spares (s : State) (id : Nat) : s.FaultSpares (s.dropColl id) := by
  unfold State.dropColl
  split
  · exact (s.withFab_spares _).trans (State.sendAborts_spares _ _ _ _)
  · split
    · exact .refl s
    · split
      · exact .refl s
      · split
        · exact .refl s
        · split
          · exact .refl s
          · split
            · exact s.skipColl_spares _ _ _ _
            · exact s.skipColl_spares _ _ _ _
            · split
              · exact s.sendAborts_spares _ _ _
              · exact .refl s
            · exact .refl s
            · exact .refl s

/-! ## Discards, the pair and ports that go down (R307, R348, R376) -/

theorem State.dropWork_spares (s : State) (id : Nat) : s.FaultSpares (s.dropWork id) :=
  (s.dropColl_spares id).trans ⟨⟨map_ringKinds _, rfl, rfl, rfl, rfl⟩, rfl⟩

theorem State.discard_spares (s : State) (id : Nat) (code : Code) (source cause : Nat) : s.FaultSpares (s.discard id code source cause) := by
  unfold State.discard
  split
  · split
    · exact .refl s
    · exact ((s.dropWork_spares id).trans (State.modAl_spares _ _)).trans (State.modCmd_spares _ _)
  · exact .refl s

theorem State.withPair_spares (s : State) (p : Pair) : s.FaultSpares { s with pair := p } := ⟨⟨rfl, rfl, rfl, rfl, rfl⟩, rfl⟩

theorem State.quenchFail_spares (s : State) : s.FaultSpares s.quenchFail :=
  State.FaultSpares.trans (.foldl (fun t _ => t.discard_spares _ _ _ _) s.pair.quenchCmds s) (State.withPair_spares _ _)

theorem State.setCondAll_spares (s : State) (n : CondName) (level : Nat) : s.FaultSpares (s.setCondAll n level) := by
  obtain ⟨cs, h⟩ := s.setCondAll_eq n level
  rw [h]
  exact ⟨⟨rfl, rfl, rfl, rfl, rfl⟩, rfl⟩

theorem State.pairPorts_spares (s : State) : s.FaultSpares s.pairPorts := by
  have hsuspend : ∀ (t : State) (p : Pair), t.FaultSpares (({ t with pair := p } : State).setCondAll .suspended 1) :=
    fun t p => (t.withPair_spares p).trans (State.setCondAll_spares _ _ _)
  unfold State.pairPorts
  split
  · split
    · exact .refl s
    · exact hsuspend s _
  · split
    · exact .refl s
    · exact hsuspend s _
  · split
    · exact ⟨⟨rfl, rfl, rfl, rfl, rfl⟩, rfl⟩
    · exact .refl s
  · split
    · exact .refl s
    · refine s.quenchFail_spares.trans ?_
      dsimp only
      split
      · exact hsuspend _ _
      · exact hsuspend _ _
      all_goals exact .refl _
  all_goals exact .refl s

theorem State.portDown_spares (s : State) (p : Nat) : s.FaultSpares (s.portDown p) :=
  (s.withFab_spares _).trans (State.pairPorts_spares _)

/-! ## Fences (R414, R422) -/

theorem State.setHe_spares (s : State) (h : Nat) (x : Hearth) : s.FaultSpares (s.setHe h x) := ⟨⟨rfl, rfl, rfl, rfl, rfl⟩, rfl⟩

theorem State.evacuate_spares (s : State) (h b : Nat) : s.FaultSpares (s.evacuate h b) := by
  unfold State.evacuate
  refine .foldl (fun t a => .foldl (fun u i => ?_) _ t) allotNumbers s
  split
  · split
    · split
      · exact u.modAl_spares a
      · exact .refl u
    all_goals exact .refl u
  · exact .refl u

theorem State.poisonUnit_spares (s : State) (tier h unit src : Nat) : s.FaultSpares (s.poisonUnit tier h unit src) := by
  refine ⟨⟨?_, rfl, rfl, rfl, rfl⟩, rfl⟩
  apply List.ext_getElem?
  intro i
  simp only [State.poisonUnit, List.getElem?_map, List.getElem?_mapIdx, Option.map_map]
  rfl

theorem State.fenceBank_spares (s : State) (h b : Nat) : s.FaultSpares (s.fenceBank h b).1 := by
  have hmoved : ∀ v x, s.FaultSpares ((s.evacuate h v).setHe h x) := fun v x => (s.evacuate_spares h v).trans (State.setHe_spares _ _ _)
  unfold State.fenceBank
  dsimp only
  split
  · exact .refl s
  · split
    · exact s.setHe_spares _ _
    · split
      · exact hmoved _ _
      · split
        · exact hmoved _ _
        · exact (hmoved _ _).trans (State.poisonUnit_spares _ _ _ _ _)

theorem State.fenceChannel_spares (s : State) (u : Nat) : s.FaultSpares (s.fenceChannel u).1 := by
  unfold State.fenceChannel
  dsimp only
  split
  · exact .refl s
  · split
    · exact (s.setHe_spares _ _).trans (State.poisonUnit_spares _ _ _ _ _)
    · exact s.setHe_spares _ _

theorem State.fenceUnit_spares (s : State) (u : Nat) : s.FaultSpares (s.fenceUnit u).1 := by
  unfold State.fenceUnit
  dsimp only
  split
  · exact s.setHe_spares _ _
  · exact s.setHe_spares _ _
  · exact s.fenceBank_spares _ _
  · exact s.fenceChannel_spares _
  · exact ⟨⟨rfl, rfl, rfl, rfl, rfl⟩, rfl⟩
  · refine State.FaultSpares.trans ?_ (State.portDown_spares _ _)
    exact ⟨⟨rfl, rfl, rfl, rfl, rfl⟩, rfl⟩
  · exact ⟨⟨rfl, rfl, rfl, rfl, rfl⟩, rfl⟩
  · dsimp only
    exact s.modAl_spares _
  · exact .refl s

theorem State.fenceStack_spares (s : State) (first : Nat) : s.FaultSpares (s.fenceStack first).1 := by
  unfold State.fenceStack
  refine List.foldlRecOn (motive := fun z : State × Nat => s.FaultSpares z.1) (List.range 64) _ ?_ (fun z hz c _ => ?_)
  · exact .refl s
  · exact hz.trans (z.1.fenceChannel_spares (first + c))

theorem State.journal_spares (s : State) (r : JRec) : s.FaultSpares (s.journal r) := by
  unfold State.journal
  dsimp only
  split <;> exact ⟨⟨rfl, by unfold State.otherImage; rfl, rfl, rfl, rfl⟩, rfl⟩

theorem State.setUnit_spares (s : State) (u b : Nat) : s.FaultSpares (s.setUnit u b) := ⟨⟨rfl, rfl, rfl, rfl, rfl⟩, rfl⟩

theorem State.unitFails_spares (s : State) (u reason : Nat) : s.FaultSpares (s.unitFails u reason) :=
  (s.setUnit_spares u _).trans (State.journal_spares _ _)

theorem State.FaultSpares.ite {s : State} {β : Type} {c : Prop} [Decidable c] {x y : State × β} (hx : s.FaultSpares x.1)
    (hy : s.FaultSpares y.1) : s.FaultSpares (if c then x else y).1 := by
  split
  · exact hx
  · exact hy

theorem State.eventFence_spares (s : State) (d : Detected) (i : SrcInfo) (cls : Nat) (once : Bool) :
    s.FaultSpares (s.eventFence d i cls once).1 := by
  unfold State.eventFence
  refine .ite (.refl s) (.ite (.refl s) (.ite (.refl s) (.ite ?_ (.ite ?_ ?_))))
  · dsimp only
    exact s.fenceStack_spares _
  · exact (s.setHe_spares _ _).trans (State.unitFails_spares _ _ _)
  · dsimp only
    split
    · exact (s.fenceUnit_spares _).trans (State.unitFails_spares _ _ _)
    · exact s.fenceUnit_spares _

/-! ## The collector (R411 to R420) -/

theorem State.eventPoison_spares (s : State) (r : Raise) (i : SrcInfo) : s.FaultSpares (s.eventPoison r i).1 := by
  unfold State.eventPoison
  split
  · split
    · exact s.modObj_spares _ _ _
    · exact .refl s
  · exact .refl s

/-- A halt takes gap markers of rings at most, beside commands. -/
theorem State.halt_keeps (s : State) (src : Nat) : s.FaultKeeps (s.halt src) := by
  have hdiscards := (State.FaultSpares.foldl (fun t (c : Cmd) => t.discard_spares c.id .faultFatal src 0) s.inFlight s).toFaultKeeps
  have hgaps : ∀ x : Allot, ({ x with queues := x.queues.map (fun e => (e.1, { e.2 with gap := none })) } : Allot).ringKinds = x.ringKinds :=
    fun x => List.map_map ..
  unfold State.halt
  extract_lets d s1 hg s2 dev s3 s4 rec0
  have h2 : s1.FaultKeeps s2 := by
    unfold s2
    split
    · exact ⟨map_ringKinds _ hgaps, rfl, rfl, rfl, rfl⟩
    · exact (State.FaultSpares.refl s1).toFaultKeeps
  have h4 : s2.FaultKeeps s4 := by
    unfold s4 s3
    split <;> exact ⟨rfl, rfl, rfl, rfl, rfl⟩
  exact ((hdiscards.trans h2).trans h4).trans (s4.journal_spares _).toFaultKeeps

/-- An event at the collector keeps what FaultKeeps names, and a command goes only with a fatal one. -/
theorem State.latchEvent_keeps (s : State) (r : Raise) (i : SrcInfo) (cls : Nat) :
    s.FaultKeeps (s.latchEvent r i cls) ∧ (cls ≠ 3 → s.FaultSpares (s.latchEvent r i cls)) := by
  unfold State.latchEvent
  extract_lets d scope hit mem spared t causes
  have hfence := s.eventFence_spares d i cls r.once
  split
  rename_i s1 facts unit he
  rw [he] at hfence
  have hpoison := s1.eventPoison_spares r i
  split
  rename_i s2 pacts hq
  rw [hq] at hpoison
  extract_lets base wide acts f s3 s4 s5 flt s6 s7 s8
  have h3 : s2.FaultSpares s3 := ⟨⟨rfl, rfl, rfl, rfl, rfl⟩, rfl⟩
  have h4 : s3.FaultSpares s4 := by
    unfold s4
    split
    · exact ⟨⟨map_ringKinds _, rfl, rfl, rfl, rfl⟩, rfl⟩
    · exact .refl s3
  have h5 : s4.FaultSpares s5 := by
    unfold s5
    split
    · split
      · exact ⟨⟨map_ringKinds _, rfl, rfl, rfl, rfl⟩, rfl⟩
      · exact .refl s4
    · exact .refl s4
  have h6 : s5.FaultSpares s6 := by
    unfold s6
    split
    · exact ⟨⟨rfl, rfl, rfl, rfl, rfl⟩, rfl⟩
    · exact .refl s5
  have h8 : s6.FaultSpares s8 := by
    unfold s8 s7
    exact ((State.count_spares _ _ _ _ _ _ _).trans (State.traceAt_same _ _ _ _ _ _).spares).trans (State.settleWith_same _ _ _).spares
  have hs8 : s.FaultSpares s8 := ((((hfence.trans hpoison).trans h3).trans (h4.trans h5)).trans h6).trans h8
  split
  · rename_i h
    exact ⟨hs8.toFaultKeeps.trans (s8.halt_keeps _), fun k => absurd h k⟩
  · have hall := hs8.trans (.foldl (fun u (c : Cmd) => u.discard_spares c.id .discarded d.source 0) hit s8)
    exact ⟨hall.toFaultKeeps, fun _ => hall⟩

theorem State.raiseOne_keeps (s : State) (r : Raise) :
    s.FaultKeeps (s.raiseOne r) ∧ (s.srcClass r.ev.source ≠ 3 → s.FaultSpares (s.raiseOne r)) := by
  have both : ∀ {t : State}, s.FaultSpares t → s.FaultKeeps t ∧ (s.srcClass r.ev.source ≠ 3 → s.FaultSpares t) :=
    fun h => ⟨h.toFaultKeeps, fun _ => h⟩
  unfold State.raiseOne
  split
  · exact both (.refl s)
  · split
    · exact both (.refl s)
    · extract_lets src cls flt s1 s2
      have h2 : s.FaultSpares s2 := by
        unfold s2 s1
        split <;> exact ⟨⟨rfl, rfl, rfl, rfl, rfl⟩, rfl⟩
      split
      · exact both (h2.trans (s2.eventFence_spares _ _ _ _))
      · obtain ⟨hkeeps, hspares⟩ := s2.latchEvent_keeps r _ cls
        exact ⟨h2.toFaultKeeps.trans hkeeps, fun h => h2.trans (hspares h)⟩

/-- The event of a hearth that a round has left short, where it is. -/
def State.raiseShortOf (s : State) (h : Nat) : State :=
  if (s.he h).newlyShort then (s.modHe h (fun x => { x with raised924 := true })).raiseOne { ev := event (0x0924 + h) } else s

theorem State.raiseShort_eq_two (s : State) : s.raiseShort = (s.raiseShortOf 0).raiseShortOf 1 := rfl

theorem State.raiseShortOf_keeps (s : State) (h : Nat) :
    s.FaultKeeps (s.raiseShortOf h) ∧ (s.srcClass (0x0924 + h) ≠ 3 → s.FaultSpares (s.raiseShortOf h)) := by
  unfold State.raiseShortOf
  split
  · have hmark := s.setHe_spares h { s.he h with raised924 := true }
    obtain ⟨hkeeps, hspares⟩ := State.raiseOne_keeps (s.modHe h (fun x => { x with raised924 := true })) { ev := event (0x0924 + h) }
    exact ⟨hmark.toFaultKeeps.trans hkeeps, fun k => hmark.trans (hspares k)⟩
  · exact ⟨(State.FaultSpares.refl s).toFaultKeeps, fun _ => .refl s⟩

theorem State.withForce_spares (s : State) (l : List (Nat × Nat)) : s.FaultSpares { s with flt := { s.flt with force := l } } :=
  ⟨⟨rfl, rfl, rfl, rfl, rfl⟩, rfl⟩

/-- A round of the collector, whatever it raises. -/
theorem State.collect_keeps (s : State) (evs : List Detected) : s.FaultKeeps (s.collect evs) := by
  have hround : ∀ (l : List Raise) (t : State), t.FaultKeeps (l.foldl (fun t r => t.raiseOne r) t) := fun l t =>
    List.foldlRecOn (motive := fun u => t.FaultKeeps u) l _ (State.FaultSpares.refl t).toFaultKeeps
      (fun u hu r _ => hu.trans (u.raiseOne_keeps r).1)
  unfold State.collect
  rw [State.raiseShort_eq_two]
  exact (((s.withForce_spares []).toFaultKeeps.trans (hround _ _)).trans (State.raiseShortOf_keeps _ 0).1).trans (State.raiseShortOf_keeps _ 1).1

/-- A mild event of one source leaves every command where it is. -/
theorem State.Mild.raise_spares {s : State} {src : Nat} (h : s.Mild src) : s.FaultSpares (s.raise src) := by
  obtain ⟨hforce, hsrc, h0, h1⟩ := h
  have hraise : s.raise src = ((({ s with flt := { s.flt with force := [] } } : State).raiseOne { ev := event src }).raiseShortOf 0).raiseShortOf 1 := by
    rw [← State.raiseShort_eq_two, State.raise, State.collect, State.forcedEvents, hforce]
    rfl
  rw [hraise]
  have hevent := (s.withForce_spares []).trans ((State.raiseOne_keeps _ { ev := event src }).2 (Nat.ne_of_lt hsrc))
  have hshort0 := hevent.trans ((State.raiseShortOf_keeps _ 0).2 (by rw [hevent.srcClass]; exact Nat.ne_of_lt h0))
  exact hshort0.trans ((State.raiseShortOf_keeps _ 1).2 (by rw [hshort0.srcClass]; exact Nat.ne_of_lt h1))

end Sys2Proof.Machine
end

section
/-! Rules for the commands of rings: a ring behind an update, rings that are created, freed, closed and flushed, and the reply of a Q_DESTROY
(R289, R297 to R300, R323 to R325). -/

namespace Sys2Proof.Machine

/-! ## Tables and byte stores -/

theorem look_del {α : Type} (k j : Nat) (m : List (Nat × α)) : look j (del k m) = if j = k then none else look j m := by
  induction m with
  | nil => simp [del, look]
  | cons e r ih =>
    obtain ⟨i, v⟩ := e
    unfold del at ih ⊢
    by_cases hi : i = k
    · subst hi
      by_cases hj : j = i
      · simp [hj] at ih ⊢
        exact ih
      · simp [ih, hj, look, Ne.symm hj]
    · by_cases hj : i = j
      · subst hj
        simp [hi, look]
      · simp [hi, look, hj, ih]

/-- Zeros are written as other bytes are. -/
theorem cellZero_eq_cellWrite (m : Bytes) (a len : Nat) : cellZero m a len = cellWrite m a (zeros len) := by
  have hnone : ∀ n b, cellsOf b (zeros n) = [] := fun n => by
    induction n with
    | zero => intro b; rfl
    | succ n ih => intro b; exact ih (b + 1)
  rw [cellZero, cellWrite, hnone, List.append_nil, zeros_length]

theorem cellGet_cellZero {m : Bytes} (h : cellsWf m = true) {a len b : Nat} (ha : a ≤ b) (hb : b < a + len) : cellGet (cellZero m a len) b = 0#8 := by
  rw [cellGet, look_absent]
  · rfl
  · intro e he
    rcases List.mem_append.mp he with h' | h'
    · exact Nat.ne_of_lt (Nat.lt_of_lt_of_le (takeWhile_below a e h') ha)
    · exact Nat.ne_of_gt (Nat.lt_of_lt_of_le hb (dropWhile_above ((cellsWf_iff m).mp h).1 _ e h'))

theorem cellGet_cellZero_ne {m : Bytes} (h : cellsWf m = true) {a len b : Nat} (hb : b < a ∨ a + len ≤ b) :
    cellGet (cellZero m a len) b = cellGet m b := by
  rw [cellZero_eq_cellWrite]
  exact cellGet_cellWrite_ne h a _ (by rwa [zeros_length])

/-! ## Rings behind an update (R284, R289) -/

theorem State.al_of_length_le {s : State} {a : Nat} (h : s.allots.length ≤ a) : s.al a = {} := by
  simp [State.al, List.getD_eq_getElem?_getD, List.getElem?_eq_none h]

theorem State.lt_of_queue? {s : State} {a q : Nat} {d : QDesc} (h : s.queue? a q = some d) : a < s.allots.length := by
  refine Decidable.byContradiction fun k => ?_
  rw [State.queue?, State.al_of_length_le (Nat.le_of_not_lt k)] at h
  cases h

/-- The rings of an allotment behind an update of them by g, which f tells ring by ring. -/
theorem State.modAl_queues {s : State} {a : Nat} {f : Allot → Allot} (ha : a < s.allots.length) (b q : Nat) :
    (s.modAl a f).queue? b q = if b = a then look q (f (s.al a)).queues else s.queue? b q := by
  rw [State.queue?, State.modAl_al]
  by_cases hb : b = a
  · rw [if_pos ⟨hb.symm, ha⟩, if_pos hb]
  · rw [if_neg (fun h => hb h.1.symm), if_neg hb, State.queue?]

theorem State.modQ_queue? (s : State) (a q : Nat) (f : QDesc → QDesc) (b r : Nat) :
    (s.modQ a q f).queue? b r = if b = a ∧ r = q then (s.queue? a q).map f else s.queue? b r := by
  by_cases ha : a < s.allots.length
  · rw [State.modQ, State.modAl_queues ha, look_upd]
    by_cases hb : b = a
    · subst hb
      by_cases hr : r = q
      · subst hr
        simp [State.queue?]
      · simp [hr, State.queue?]
    · simp [hb]
  · have hout : (s.modQ a q f).queue? b r = s.queue? b r := by
      rw [State.queue?, State.modQ, State.modAl_al, if_neg (fun h => ha h.2), State.queue?]
    rw [hout]
    split
    · rename_i h
      obtain ⟨rfl, rfl⟩ := h
      cases hq : s.queue? b r with
      | none => rfl
      | some d => exact absurd (State.lt_of_queue? hq) ha
    · rfl

theorem State.modQ_queue?_same {s : State} {a q : Nat} {d : QDesc} (h : s.queue? a q = some d) (f : QDesc → QDesc) :
    (s.modQ a q f).queue? a q = some (f d) := by
  rw [State.modQ_queue?, if_pos ⟨rfl, rfl⟩, h, Option.map_some]

theorem State.modQ_queuesStand (s : State) (a q : Nat) (f : QDesc → QDesc) : s.QueuesStand (s.modQ a q f) a q := by
  intro b r hbr
  rw [State.modQ_queue?, if_neg (fun h => hbr.elim (fun k => k h.1) (fun k => k h.2))]

theorem State.modQ_queue?_none {s : State} {b r : Nat} (h : s.queue? b r = none) (a q : Nat) (f : QDesc → QDesc) :
    (s.modQ a q f).queue? b r = none := by
  rw [State.modQ_queue?]
  split
  · rename_i k
    obtain ⟨rfl, rfl⟩ := k
    rw [h, Option.map_none]
  · exact h

theorem State.gapCond_allots (s : State) (a : Nat) : (s.gapCond a).allots = s.allots := by
  unfold State.gapCond
  split <;> rfl

theorem State.gapCond_hg (s : State) (a : Nat) : (s.gapCond a).hg = s.hg := by
  unfold State.gapCond
  split <;> rfl

theorem State.queue?_of_allots {s t : State} (h : t.allots = s.allots) (a q : Nat) : t.queue? a q = s.queue? a q := by
  rw [State.queue?, State.al, h, State.queue?, State.al]

/-! ## An incomplete packet that is dropped (R289) -/

theorem State.dropPartial_reply {s : State} {a q : Nat} {d : QDesc} (h : s.queue? a q = some d) (hr : d.reply = true) : s.dropPartial a q = s := by
  simp [State.dropPartial, h, hr]

theorem State.dropPartial_command {s : State} {a q : Nat} {d : QDesc} (h : s.queue? a q = some d) (hr : d.reply = false) :
    s.dropPartial a q = (s.modQ a d.replyQ (fun r => { r with resv := r.resv - d.partialResv })).modQ a q
      (fun x => { x with partialSlots := 0, partialResv := 0 }) := by
  simp [State.dropPartial, h, hr]

theorem State.dropPartial_queue?_none {s : State} {b r : Nat} (h : s.queue? b r = none) (a q : Nat) : (s.dropPartial a q).queue? b r = none := by
  unfold State.dropPartial
  split
  · exact h
  · split
    · exact h
    · exact State.modQ_queue?_none (State.modQ_queue?_none h _ _ _) _ _ _

theorem State.dropPartial_hg (s : State) (a q : Nat) : (s.dropPartial a q).hg = s.hg := by
  unfold State.dropPartial
  split
  · rfl
  · split <;> rfl

theorem State.dropPartial_onlyAllots (s : State) (a q : Nat) : SameOutsideAllots s (s.dropPartial a q) := by
  unfold State.dropPartial
  split
  · exact ⟨rfl, rfl⟩
  · split
    · exact ⟨rfl, rfl⟩
    · exact (s.modAl_same _ _).trans (State.modAl_same _ _ _)

/-- A command ring whose incomplete packet is dropped: it keeps its pointers, and the entries of the packet are free again. -/
theorem State.dropPartial_queue?_same {s : State} {a q : Nat} {d : QDesc} (h : s.queue? a q = some d) (hr : d.reply = false) :
    ∃ n, (s.dropPartial a q).queue? a q = some { d with resv := n, partialSlots := 0, partialResv := 0 } := by
  rw [State.dropPartial_command h hr]
  have hresv : ∃ n, (s.modQ a d.replyQ (fun r => { r with resv := r.resv - d.partialResv })).queue? a q = some { d with resv := n } := by
    rw [State.modQ_queue?]
    split
    · rename_i k
      have hown : s.queue? a d.replyQ = some d := k.2 ▸ h
      rw [hown]
      exact ⟨_, rfl⟩
    · exact ⟨d.resv, h⟩
  obtain ⟨n, hn⟩ := hresv
  exact ⟨n, State.modQ_queue?_same hn _⟩

/-- Beside a command ring whose incomplete packet is dropped, and which f changes, its reply ring alone differs. -/
theorem State.dropPartial_modQ_ringAlone {s : State} {a q : Nat} {d : QDesc} (h : s.queue? a q = some d) (hr : d.reply = false)
    (f : QDesc → QDesc) : s.RingAlone ((s.dropPartial a q).modQ a q f) a q d := by
  rw [State.dropPartial_command h hr]
  have hown : ∀ (t : State) b r, b ≠ a ∨ r ≠ q → ∀ g, ((t.modQ a q g).modQ a q f).queue? b r = t.queue? b r := fun t b r hbr g =>
    (State.modQ_queuesStand _ a q f b r hbr).trans (t.modQ_queuesStand a q g b r hbr)
  refine ⟨fun b r hbr => ?_, fun r hne hreply => ?_⟩
  · rw [hown _ _ _ (hbr.imp_right And.left)]
    exact s.modQ_queuesStand a d.replyQ _ b r (hbr.imp_right And.right)
  · rw [hown _ _ _ (.inr hne)]
    exact State.modQ_queue?_same hreply _

/-! ## Q_CREATE (R323) -/

/-- The state with ring q of allotment a as d says. -/
def State.withQueue (s : State) (a q : Nat) (d : QDesc) : State := s.modAl a (fun x => { x with queues := put q d x.queues })

theorem State.withQueue_queue? {s : State} {a : Nat} (ha : a < s.allots.length) (q : Nat) (d : QDesc) : (s.withQueue a q d).queue? a q = some d := by
  rw [State.withQueue, State.modAl_queues ha, if_pos rfl, look_put_same]

theorem State.withQueue_queuesStand {s : State} {a : Nat} (ha : a < s.allots.length) (q : Nat) (d : QDesc) :
    s.QueuesStand (s.withQueue a q d) a q := by
  intro b r hbr
  rw [State.withQueue, State.modAl_queues ha]
  split
  · rename_i hb
    rw [look_put_ne (hbr.resolve_left (fun k => k hb)), hb, State.queue?]
  · rfl

theorem State.createQueue_command (s : State) (a q log2 base replyQ : Nat) :
    s.createQueue a q (newQueue false log2 base replyQ) = some (s.withQueue a q (newQueue false log2 base replyQ)) := rfl

/-- The state in which the memory of a new reply ring is zero-filled. -/
def State.zeroed (s : State) (a len : Nat) : State := { s with host := { s.host with bytes := cellZero s.host.bytes a len } }

theorem newQueue_base (reply : Bool) (log2 replyQ : Nat) {base : Nat} (h : base < 2 ^ 64) : (newQueue reply log2 base replyQ).base.toNat = base :=
  Nat.mod_eq_of_lt h

/-- A new reply ring is made where the DMA that zero-fills its memory ends without an error. -/
theorem State.createQueue_reply (s : State) (a q log2 replyQ : Nat) {base : Nat} (hb : base < 2 ^ 64) :
    s.createQueue a q (newQueue true log2 base replyQ) = if s.hostBad base (32 * 2 ^ log2) then none
      else some ((s.zeroed base (32 * 2 ^ log2)).withQueue a q (newQueue true log2 base replyQ)) := by
  unfold State.createQueue
  simp only [newQueue_base true log2 replyQ hb]
  rfl

section
variable {s : State} {id : Nat} {c : Cmd} (h : s.Runs id 0x0101 qCreateFields c)
include h

theorem exec_qCreate_full (hn : 1048576 ≤ s.queueTotal) : exec (.qCreate id) s = .next (s.reject id (.noResource, 0)) := by
  show execQCreate id s = _
  refine (State.deant_runs h _).trans ?_
  rw [h.named_eq (by decide), if_pos hn]

theorem exec_qCreate_makes (hn : s.queueTotal < 1048576) {u : State}
    (hu : s.createQueue c.allot (c.par 0 2) (newQueue (c.par 2 1 == 1) (c.par 3 1) (c.par 8 8) (c.par 4 2)) = some u) :
    exec (.qCreate id) s = .next (u.finishOk id 0) := by
  show execQCreate id s = _
  refine (State.deant_runs h _).trans ?_
  rw [h.named_eq (by decide), if_neg (Nat.not_le.mpr hn), hu]

theorem exec_qCreate_breaks (hn : s.queueTotal < 1048576)
    (hu : s.createQueue c.allot (c.par 0 2) (newQueue (c.par 2 1 == 1) (c.par 3 1) (c.par 8 8) (c.par 4 2)) = none) :
    exec (.qCreate id) s = .next ((s.raise (0x9000 + c.allot)).finish id .faultContained (discardDetail (0x9000 + c.allot) 0 false) 0) := by
  show execQCreate id s = _
  refine (State.deant_runs h _).trans ?_
  rw [h.named_eq (by decide), if_neg (Nat.not_le.mpr hn), hu]

end

theorem Cmd.par_lt (c : Cmd) (off size : Nat) : c.par off size < 2 ^ (8 * size) := Nat.mod_lt _ (Nat.two_pow_pos _)

/-- A new ring stands alone among the rings, and no other command has changed. -/
theorem State.withQueue_made {s : State} {id a : Nat} (ha : a < s.allots.length) (hc : (s.cmd? id).isSome = true) (q : Nat) (d : QDesc) :
    let t := (s.withQueue a q d).finishOk id 0
    t.Ended id .ok 0 0 ∧ s.OthersStand t id ∧ s.QueuesStand t a q ∧ t.host = s.host ∧ t.queue? a q = some d :=
  ⟨State.finish_ended (s := s.withQueue a q d) hc _ _ _, (s.withQueue a q d).finish_othersStand _ _ _ _, s.withQueue_queuesStand ha q d, rfl,
    s.withQueue_queue? ha q d⟩

/-! ## Rings that are freed (R299, R324) -/

@[simp] theorem State.settle_cmd? (s : State) (id : Nat) : s.settle.cmd? id = s.cmd? id := by
  rw [State.cmd?, State.settle_hg, State.cmd?]

/-- What a dropped packet leaves of the rings does not depend on the queue engine. -/
theorem State.dropPartial_withHg_allots (s : State) (g : Headgate) (a q : Nat) :
    (({ s with hg := g } : State).dropPartial a q).allots = (s.dropPartial a q).allots := by
  have hq : ({ s with hg := g } : State).queue? a q = s.queue? a q := rfl
  unfold State.dropPartial
  rw [hq]
  cases s.queue? a q with
  | none => rfl
  | some d =>
    by_cases hr : d.reply = true
    · simp only [if_pos hr]
    · simp only [if_neg hr]
      rfl

/-- The rings of an allotment behind one that is freed: it is gone, and the others stand as its incomplete packet leaves them. -/
theorem State.freeQueue_queue? (s : State) (a q b r : Nat) :
    (s.freeQueue a q).queue? b r = if b = a ∧ r = q then none else (s.dropPartial a q).queue? b r := by
  unfold State.freeQueue
  rw [State.queue?_of_allots (State.gapCond_allots _ _), ← State.queue?_of_allots (s.dropPartial_withHg_allots
    { s.hg with cache := s.hg.cache.filter (fun e => e != (a, q)) } a q)]
  generalize ({ s with hg := { s.hg with cache := s.hg.cache.filter (fun e => e != (a, q)) } } : State).dropPartial a q = u
  by_cases ha : a < u.allots.length
  · rw [State.modAl_queues ha, look_del]
    by_cases hb : b = a
    · subst hb
      by_cases hr : r = q
      · simp [hr]
      · simp [hr]
        rfl
    · simp [hb]
  · rw [State.queue?, State.modAl_al, if_neg (fun h => ha h.2)]
    change u.queue? b r = _
    split
    · rename_i h
      obtain ⟨rfl, rfl⟩ := h
      cases hq : u.queue? b r with
      | none => rfl
      | some d => exact absurd (State.lt_of_queue? hq) ha
    · rfl

theorem State.freeQueue_queue?_same (s : State) (a q : Nat) : (s.freeQueue a q).queue? a q = none := by
  rw [State.freeQueue_queue?, if_pos ⟨rfl, rfl⟩]

theorem State.freeQueue_queue?_none {s : State} {b r : Nat} (h : s.queue? b r = none) (a q : Nat) : (s.freeQueue a q).queue? b r = none := by
  rw [State.freeQueue_queue?]
  split
  · rfl
  · exact State.dropPartial_queue?_none h a q

/-- A reply ring that is freed leaves every other ring. -/
theorem State.freeQueue_queuesStand {s : State} {a q : Nat} {d : QDesc} (h : s.queue? a q = some d) (hr : d.reply = true) :
    s.QueuesStand (s.freeQueue a q) a q := by
  intro b r hbr
  rw [State.freeQueue_queue?, if_neg (fun k => hbr.elim (fun n => n k.1) (fun n => n k.2)), State.dropPartial_reply h hr]

theorem State.freeQueue_cmd? (s : State) (a q id : Nat) : (s.freeQueue a q).cmd? id = s.cmd? id := by
  rw [State.cmd?, State.freeQueue, State.gapCond_hg, State.modAl_hg, State.dropPartial_hg, State.cmd?]

theorem State.adminFree_queue?_none {s : State} {b r : Nat} (h : s.queue? b r = none) (a : Nat) : (s.adminFree a).queue? b r = none := by
  unfold State.adminFree
  split
  · rw [State.settle_queue?]
    refine State.freeQueue_queue?_none (State.freeQueue_queue?_none ?_ _ _) _ _
    rw [State.modAl_queue?]
    · exact h
    · exact fun _ => rfl
  · exact h

theorem State.adminFree_cmd? (s : State) (a id : Nat) : (s.adminFree a).cmd? id = s.cmd? id := by
  unfold State.adminFree
  split
  · rw [State.settle_cmd?, State.freeQueue_cmd?, State.freeQueue_cmd?]
    rfl
  · rfl

/-! ## Q_DESTROY (R324) -/

section
variable {s : State} {id : Nat} {c : Cmd} {d : QDesc} (h : s.Runs id 0x0102 qDestroyFields c) (hd : s.queue? c.allot (c.par 0 2) = some d)
include h hd

theorem exec_qDestroy_reply (hr : d.reply = true) :
    exec (.qDestroy id) s = .next ((s.freeQueue c.allot (c.par 0 2)).settle.finishOk id 0) := by
  show execQDestroy id s = _
  refine (State.deant_runs h _).trans ?_
  simp only [h.named_eq (by decide), hd, hr, if_true]

theorem exec_qDestroy_command (hr : d.reply = false) :
    exec (.qDestroy id) s =
      .next (if s.ringIdle c.allot (c.par 0 2) (some id) then (s.closeQueue c.allot (c.par 0 2)).finishOk id 0 else s) := by
  show execQDestroy id s = _
  refine (State.deant_runs h _).trans ?_
  simp only [h.named_eq (by decide), hd, hr, Bool.false_eq_true, if_false]

end

/-- A ring has neither another command nor a gap marker (R299, R324). -/
theorem State.ringIdle_iff {s : State} {a q id : Nat} {d : QDesc} (hd : s.queue? a q = some d) :
    s.ringIdle a q (some id) = true ↔ d.gap = none ∧ ∀ e ∈ s.hg.cmds, e.master = .allot → e.allot = a → e.queue = q → e.id = id := by
  rw [State.ringIdle, hd, Option.any_some, Bool.and_eq_true, Bool.not_eq_true', Bool.not_eq_true', and_comm, Option.isSome_eq_false_iff,
    List.any_eq_false]
  refine and_congr Option.isNone_iff_eq_none (forall₂_congr fun e _ => ?_)
  simp only [Bool.and_eq_true, beq_iff_eq, bne_iff_ne, ne_eq, Option.some.injEq, not_and, Decidable.not_not, and_imp]

/-- A command ring that is closed keeps its pointers, and beside it its reply ring alone differs. -/
theorem State.closeQueue_spec {s : State} {a q : Nat} {d : QDesc} (hd : s.queue? a q = some d) (hr : d.reply = false) :
    s.RingAlone (s.closeQueue a q) a q d ∧
      ∃ n, (s.closeQueue a q).queue? a q = some { d with resv := n, partialSlots := 0, partialResv := 0, destroying := true } := by
  obtain ⟨n, hn⟩ := State.dropPartial_queue?_same hd hr
  exact ⟨State.dropPartial_modQ_ringAlone hd hr _, n, State.modQ_queue?_same hn _⟩

theorem State.dropPartial_modQ_cmd? (s : State) (a q : Nat) (f : QDesc → QDesc) (id : Nat) :
    ((s.dropPartial a q).modQ a q f).cmd? id = s.cmd? id := by
  rw [State.cmd?, State.modQ, State.modAl_hg, State.dropPartial_hg, State.cmd?]

/-! ## The reply of a Q_DESTROY (R307, R324) -/

theorem Allot.ringKinds_upd (x : Allot) (q : Nat) {f : QDesc → QDesc} (hf : ∀ d, (f d).reply = d.reply ∧ (f d).destroying = d.destroying) :
    ({ x with queues := Machine.upd q f x.queues } : Allot).ringKinds = x.ringKinds := by
  rw [Allot.ringKinds, Machine.upd, List.map_map]
  refine List.map_congr_left (fun e _ => ?_)
  dsimp only [Function.comp]
  split
  · rw [(hf e.2).1, (hf e.2).2]
  · rfl

theorem State.modQ_spares (s : State) (a q : Nat) {f : QDesc → QDesc}
    (hf : ∀ d, (f d).reply = d.reply ∧ (f d).destroying = d.destroying := by exact fun _ => ⟨rfl, rfl⟩) : s.FaultSpares (s.modQ a q f) :=
  s.modAl_spares a (fun x => x.ringKinds_upd q hf)

theorem State.dropPartial_spares (s : State) (a q : Nat) : s.FaultSpares (s.dropPartial a q) := by
  unfold State.dropPartial
  split
  · exact .refl s
  · split
    · exact .refl s
    · exact (s.modQ_spares _ _).trans (State.modQ_spares _ _ _)

theorem State.gapCond_spares (s : State) (a : Nat) : s.FaultSpares (s.gapCond a) := by
  unfold State.gapCond
  split <;> exact ⟨⟨rfl, rfl, rfl, rfl, rfl⟩, rfl⟩

theorem State.stopRing_spares (s : State) (a q dropped : Nat) : s.FaultSpares (s.stopRing a q dropped) :=
  ((s.dropPartial_spares a q).trans (State.modQ_spares _ _ _)).trans (State.gapCond_spares _ _)

/-- An error of a ring leaves the kinds of the rings, whatever its event brings. -/
theorem State.ringError_keeps (s : State) (a q : Nat) : s.FaultKeeps (s.ringError a q) := by
  unfold State.ringError
  split
  · exact (State.FaultSpares.refl s).toFaultKeeps
  · refine State.FaultKeeps.trans ?_ (State.collect_keeps _ _)
    split
    · exact ((s.modQ_spares a q).trans (State.gapCond_spares _ _)).toFaultKeeps
    · exact (s.stopRing_spares _ _ _).toFaultKeeps

theorem State.writeReply_keeps (s : State) (a rq tag status detail result : Nat) (ext : List Byte) :
    s.FaultKeeps (s.writeReply a rq tag status detail result ext) := by
  unfold State.writeReply
  split
  · exact (State.FaultSpares.refl s).toFaultKeeps
  · split
    · exact (State.FaultSpares.refl s).toFaultKeeps
    · dsimp only
      split
      · exact s.ringError_keeps _ _
      · refine State.FaultKeeps.trans ?_ (State.modQ_spares _ _ _).toFaultKeeps
        exact ⟨rfl, rfl, rfl, rfl, rfl⟩

theorem State.closeSet_spares (s : State) (c : Cmd) : s.FaultSpares (s.closeSet c) := by
  unfold State.closeSet
  split
  · exact .refl s
  · exact s.modAl_spares _

theorem State.FaultKeeps.withCmds {s t : State} (h : s.FaultKeeps t) (l : List Cmd) :
    s.FaultKeeps { t with hg := { t.hg with cmds := l } } :=
  ⟨h.rings, h.image, h.staged, h.fuse, h.severity⟩

theorem State.reply_keeps {s : State} {c : Cmd} (hm : c.master = .allot) : s.FaultKeeps (s.reply c) := by
  unfold State.reply
  simp only [hm]
  refine State.FaultKeeps.withCmds (State.FaultKeeps.trans ?_ (State.traceAt_same _ _ _ _ _ _).spares.toFaultKeeps) _
  refine State.FaultKeeps.trans ?_ (State.count_spares _ _ _ _ _ _ _).toFaultKeeps
  exact (s.closeSet_spares c).toFaultKeeps.trans (State.writeReply_keeps _ _ _ _ _ _ _ _)

theorem State.reply_cmd? (s : State) (c : Cmd) : (s.reply c).cmd? c.id = none := by
  have hgone : ∀ l : List Cmd, (l.filter (fun d => d.id != c.id)).find? (fun d => d.id == c.id) = none := fun l => by
    simp [List.find?_eq_none]
  unfold State.reply
  split <;> exact hgone _

theorem exec_commandComplete_ok {s : State} {id : Nat} {c : Cmd} (h : s.cmd? id = some c) (hp : c.phase = .done) (hm : c.master = .allot)
    (hcode : c.code = .ok) : exec (.commandComplete id) s = .next (((s.reply c).afterDestroy c).adminFree c.allot).settle := by
  show execCommandComplete id s = _
  have hb : s.behind c = false := by simp [State.behind, hcode]
  simp [execCommandComplete, h, hp, hm, hb]

/-- The reply of a Q_DESTROY of a command ring frees the ring. -/
theorem State.afterDestroy_reply {s : State} {c : Cmd} {d : QDesc} (hm : c.master = .allot) (hop : c.opcode = 0x0102) (hcode : c.code = .ok)
    (hd : s.queue? c.allot (c.par 0 2) = some d) (hr : d.reply = false) (hx : d.destroying = true) :
    (s.reply c).afterDestroy c = (s.reply c).freeQueue c.allot (c.par 0 2) := by
  obtain ⟨e, he, hreply, hdestroying⟩ := (State.reply_keeps hm).queue? hd
  exact if_pos ⟨hop, hcode, by rw [he, Option.any_some, hreply, hdestroying, hr, hx]; rfl⟩

/-! ## FLUSH_REST (R297, R325) -/

section
variable {s : State} {id : Nat} {c : Cmd} {d : QDesc} (h : s.Runs id 0x0103 flushFields c) (hd : s.queue? c.allot (c.par 0 2) = some d)
include h hd

theorem exec_flushRest_nothing (hn : d.stopped = true ∨ d.destroying = true ∨ d.count = 0) : exec (.flushRest id) s = .next (s.finishOk id 0) := by
  show execFlushRest id s = _
  refine (State.deant_runs h _).trans ?_
  simp only [h.named_eq (by decide), hd, if_pos hn]

theorem exec_flushRest_some (hs : d.stopped = false) (hx : d.destroying = false) (hn : 0 < d.count) :
    exec (.flushRest id) s = .next (if d.count < s.xslotsAt d + 1 then
      ((s.dropPartial c.allot (c.par 0 2)).modQ c.allot (c.par 0 2) (fun x => { x with devPtr := x.hostPtr })).finishOk id d.count else s) := by
  show execFlushRest id s = _
  refine (State.deant_runs h _).trans ?_
  have hsome : ¬ (d.stopped = true ∨ d.destroying = true ∨ d.count = 0) := by simp [hs, hx, Nat.ne_of_gt hn]
  simp only [h.named_eq (by decide), hd, if_neg hsome, State.incomplete, hn, decide_true, Bool.true_and, decide_eq_true_eq]

end

/-- Settles O13: a new ring by what is put in its place, a ring that goes by what its dropped packet leaves, the reply of a Q_DESTROY by the kinds
of rings, which not even the fault of its own write changes. -/
theorem ringCommands : Obligations.RingCommands := by
  refine ⟨?_, ?_, ?_, ?_, ?_, ?_, ?_, ?_, ?_, ?_, ?_⟩
  · intro s id c h ha hn hk
    have hmade := State.withQueue_made ha h.cmd_isSome (c.par 0 2) (newQueue (c.par 2 1 == 1) (c.par 3 1) (c.par 8 8) (c.par 4 2))
    have hcommand : (c.par 2 1 == 1) = false := by rw [hk]; rfl
    rw [hcommand] at hmade
    refine ⟨_, exec_qCreate_makes h hn ?_, hmade⟩
    rw [hcommand, State.createQueue_command]
  · intro s id c h ha hn hk hbad hwf
    have hreply : (c.par 2 1 == 1) = true := by rw [hk]; rfl
    obtain ⟨hended, hothers, hqueues, hhost, hring⟩ := State.withQueue_made (s := s.zeroed (c.par 8 8) (32 * 2 ^ c.par 3 1)) ha h.cmd_isSome
      (c.par 0 2) (newQueue true (c.par 3 1) (c.par 8 8) (c.par 4 2))
    refine ⟨_, exec_qCreate_makes h hn ?_, hended, hothers, hqueues, hring, fun b hb => ?_, fun b hlo hhi => ?_⟩
    · rw [hreply, s.createQueue_reply _ _ _ _ (c.par_lt 8 8), hbad]
      rfl
    · rw [hhost]
      exact cellGet_cellZero_ne hwf hb
    · rw [hhost]
      exact cellGet_cellZero hwf hlo hhi
  · exact fun s id c h hn => ⟨_, exec_qCreate_full h hn, s.finish_onlyCmds _ _ _ _, State.finish_ended h.cmd_isSome _ _ _⟩
  · intro s id c h hn hk hbad hmild
    have hreply : (c.par 2 1 == 1) = true := by rw [hk]; rfl
    have hdetail : discardDetail (0x9000 + c.allot) 0 false = BitVec.ofNat 32 (0x9000 + c.allot) := by
      simp [discardDetail, b2n, w32]
    refine ⟨_, exec_qCreate_breaks h hn ?_, ?_⟩
    · rw [hreply, s.createQueue_reply _ _ _ _ (c.par_lt 8 8), hbad]
      rfl
    · rw [← hdetail]
      exact State.finish_ended (hmild.raise_spares.cmd_isSome h.cmd_isSome) _ _ _
  · intro s id c d h ha hd hr
    refine ⟨_, exec_qDestroy_reply h hd hr, State.finish_ended ?_ _ _ _, ?_, fun b r hbr => ?_⟩
    · rw [State.settle_cmd?, State.freeQueue_cmd?]
      exact h.cmd_isSome
    · exact (State.settle_queue? _ _ _).trans (s.freeQueue_queue?_same _ _)
    · exact (State.settle_queue? _ _ _).trans (State.freeQueue_queuesStand hd hr b r hbr)
  · intro s id c d h ha hd hr hgap hothers
    obtain ⟨halone, n, hring⟩ := State.closeQueue_spec hd hr
    refine ⟨_, _, (exec_qDestroy_command h hd hr).trans (congrArg _ (if_pos ((State.ringIdle_iff hd).mpr ⟨hgap, hothers⟩))), ?_, halone, hring,
      rfl, rfl, rfl, rfl, rfl⟩
    exact State.finish_ended ((s.dropPartial_modQ_cmd? _ _ _ _).symm ▸ h.cmd_isSome) _ _ _
  · intro s id c d h hd hr hwait
    refine (exec_qDestroy_command h hd hr).trans (congrArg _ (if_neg ?_))
    rw [State.ringIdle_iff hd]
    rintro ⟨hgap, hothers⟩
    rcases hwait with ⟨e, he, hm, ha, hq, hne⟩ | hsome
    · exact hne (hothers e he hm ha hq)
    · rw [hgap] at hsome
      cases hsome
  · intro s id c d h hp hm hop hcode hd hr hx
    obtain rfl := State.cmd?_id h
    have hfree := State.afterDestroy_reply hm hop hcode hd hr hx
    refine ⟨_, exec_commandComplete_ok h hp hm hcode, ?_, ?_⟩
    · rw [State.settle_cmd?, State.adminFree_cmd?, hfree, State.freeQueue_cmd?, s.reply_cmd?]
    · rw [State.settle_queue?, hfree]
      exact State.adminFree_queue?_none (State.freeQueue_queue?_same _ _ _) _
  · exact fun s id c d h hd hn => ⟨_, exec_flushRest_nothing h hd hn, State.finish_ended h.cmd_isSome _ _ _, s.finish_onlyCmds _ _ _ _⟩
  · intro s id c d h ha hd hs hx hn hpart
    have hr : d.reply = false := by
      have hok := h.ok _ (List.mem_singleton.mpr rfl)
      simpa [hd] using hok
    obtain ⟨n, hring⟩ := State.dropPartial_queue?_same hd hr
    refine ⟨_, _, (exec_flushRest_some h hd hs hx hn).trans (congrArg _ (if_pos hpart)), ?_, State.dropPartial_modQ_ringAlone hd hr _,
      State.modQ_queue?_same hring _, rfl, rfl, rfl, rfl⟩
    exact State.finish_ended ((s.dropPartial_modQ_cmd? _ _ _ _).symm ▸ h.cmd_isSome) _ _ _
  · exact fun s id c d h hd hs hx hn hwhole => (exec_flushRest_some h hd hs hx hn).trans (congrArg _ (if_neg (Nat.not_lt.mpr hwhole)))

end Sys2Proof.Machine
end

section
/-! Rules for DEV_INFO, JOURNAL_READ and FW_STAGE: what naming leaves of objects, bytes put at a destination, unit bytes and records of the
boot journal, images that are staged (R331, R438, R443, R473). -/

namespace Sys2Proof.Machine

/-! ## Naming keeps the sizes and the poison of objects (R268, R272) -/

/-- Of an object: its REUSE count, its size and its poisoned blocks. -/
def Obj.shape (o : Obj) : Nat × Nat × List (Nat × Nat) := (o.reuse, o.size, o.poison)

/-- The objects of an allotment by index, in their shapes. -/
def Allot.shapes (x : Allot) : List (Nat × Nat × Nat × List (Nat × Nat)) := x.objs.map (fun e => (e.1, e.2.shape))

theorem State.modObj_shapes (s : State) (a h : Nat) {f : Obj → Obj} (b : Nat) (hf : ∀ o, (f o).shape = o.shape := by intro _; rfl) :
    ((s.modObj a h f).al b).shapes = (s.al b).shapes := by
  refine s.modAl_keeps Allot.shapes a (fun x => ?_) b
  rw [Allot.shapes, Machine.upd, List.map_map]
  refine List.map_congr_left (fun e _ => ?_)
  dsimp only [Function.comp]
  split
  · rw [hf]
  · rfl

theorem State.named_shapes (s : State) (c : Cmd) (b : Nat) : ((s.named c).al b).shapes = (s.al b).shapes := by
  have htouch : ∀ (t : State) h, ((t.touch c.allot h c.acc).al b).shapes = (t.al b).shapes := fun t h => by
    unfold State.touch
    split
    · exact t.modObj_shapes _ _ b
    · rfl
  have hdrop : ∀ (t : State) h, ((t.dropShadow c.allot h).al b).shapes = (t.al b).shapes := fun t h => by
    unfold State.dropShadow
    split
    · split
      · exact (State.modObj_shapes _ _ _ b).trans (t.modAl_keeps Allot.shapes c.allot (by intro x; rfl) b)
      · rfl
    · rfl
  unfold State.named State.noteNames
  split
  · rfl
  · refine List.foldlRecOn (motive := fun t : State => (t.al b).shapes = (s.al b).shapes) _ _ rfl (fun t ht n _ => ?_)
    dsimp only
    split
    · exact (htouch _ _).trans ((hdrop t _).trans ht)
    · exact (htouch t _).trans ht

theorem State.Clean.named {s : State} {a : Nat} (h : s.Clean a) (c : Cmd) : (s.named c).Clean a := by
  have hshapes : ∀ t : State, t.Clean a ↔ ∀ e ∈ (t.al a).shapes, e.2.2.2 = [] := fun t => by
    simp only [State.Clean, Allot.shapes, List.forall_mem_map]
    rfl
  rw [hshapes] at h ⊢
  rwa [s.named_shapes]

theorem State.obj?_shape (s : State) (a h : Nat) : (s.obj? a h).map Obj.shape =
    (look (handleIndex h) (s.al a).shapes).filter (fun e => decide (e.1 = handleReuse h ∧ handleIndex h ≠ 0)) := by
  rw [Allot.shapes, look_map_snd, State.obj?, Allot.obj?]
  cases look (handleIndex h) (s.al a).objs with
  | none => rfl
  | some o =>
    dsimp only
    split
    · rename_i k
      rw [Option.map_some, Option.filter_some]
      exact (if_pos (decide_eq_true k)).symm
    · rename_i k
      rw [Option.map_none, Option.map_some, Option.filter_some]
      exact (if_neg (by rw [decide_eq_true_eq]; exact k)).symm

/-- Naming keeps the size of the object that a handle names. -/
theorem State.named_objD_size (s : State) (c : Cmd) (a h : Nat) : ((s.named c).objD a h).size = (s.objD a h).size := by
  have hsize : ∀ t : State, (t.objD a h).size = (((t.obj? a h).map Obj.shape).map (fun e => e.2.1)).getD 0 := fun t => by
    rw [State.objD]
    cases t.obj? a h <;> rfl
  rw [hsize, hsize, State.obj?_shape, State.obj?_shape, s.named_shapes]

/-! ## Bytes at a destination (R331, R417) -/

theorem State.lt_of_obj? {s : State} {a h : Nat} (ho : (s.obj? a h).isSome = true) : a < s.allots.length := by
  refine Decidable.byContradiction fun k => ?_
  rw [State.obj?, State.al_of_length_le (Nat.le_of_not_lt k)] at ho
  cases ho

theorem State.obj?_of_rawRefOk {s : State} {a ref len : Nat} (h : s.rawRefOk a ref len = true) : (s.obj? a (refHandle ref)).isSome = true := by
  rw [State.rawRefOk, Bool.and_eq_true, Bool.and_eq_true, State.isRaw] at h
  obtain ⟨⟨_, hraw⟩, _⟩ := h
  unfold refHandle
  cases ho : s.obj? a (bitsOf ref 0 32) with
  | none => simp [ho] at hraw
  | some o => rfl

/-- A read command whose allotment has no poisoned block puts its bytes at the destination and ends. -/
theorem State.withDest_readInto {s : State} {c : Cmd} {off : Nat} (hs : s.Clean c.allot) (hc : (s.cmd? c.id).isSome = true)
    (ho : (s.obj? c.allot (refHandle (c.par off 8))).isSome = true) (bs : List Byte) (n : Nat) :
    s.ReadInto (s.withDest c off bs (fun t => t.finishOk c.id n)) c off bs n := by
  have hpart : (s.objD c.allot (refHandle (c.par off 8))).poisonPart (bitsOf (c.par off 8) 32 32) bs.length = none := by
    rw [Obj.poisonPart, hs.objD]
    rfl
  have hdest : s.withDest c off bs (fun t => t.finishOk c.id n) = (s.writeDest c off bs).finishOk c.id n := by
    rw [State.withDest]
    simp only [hpart]
  have hcounts : (s.writeObj c.allot (refHandle (c.par off 8)) (bitsOf (c.par off 8) 32 32) bs).Counts (s.writeDest c off bs) :=
    State.countFor_counts _ _ _ _ _ _
  rw [hdest]
  refine ⟨(State.writeObj_holds (State.lt_of_obj? ho) ho _ bs).of_objs (hcounts.objs _), (s.modObj_objsStand _ _ _).of_objs hcounts.objs, ?_,
    State.finish_ended ?_ _ _ _⟩
  · have hhost := congrArg State.host hcounts.frame
    exact hhost
  · rw [State.cmd?, hcounts.hg]
    exact hc

/-! ## DEV_INFO (R331) -/

theorem exec_devInfo {s : State} {id : Nat} {c : Cmd} (h : s.Runs id 0x0A10 devInfoFields c) :
    exec (.devInfo id) s = .next ((s.named c).withDest c 8 ((s.named c).page c) (fun u => u.finishOk id (pageSize (c.par 0 1)))) := by
  show execDevInfo id s = _
  exact State.deant_runs h _

/-! ## JOURNAL_READ (R438) -/

theorem exec_journalRead {s : State} {id : Nat} {c : Cmd} (h : s.Runs id 0x0A20 journalReadFields c) :
    exec (.journalRead id) s = .next (if c.par 0 1 = 0 then (s.named c).journalCopy c else (s.named c).journalClear c) := by
  show execJournalRead id s = _
  exact State.deant_runs h _

@[simp] theorem State.named_mgt (s : State) (c : Cmd) : (s.named c).mgt = s.mgt := by
  have h := congrArg State.mgt (s.named_same c).1
  exact h

theorem State.newestSeq_of_mgt {s t : State} (h : t.mgt = s.mgt) : t.newestSeq = s.newestSeq := by
  rw [State.newestSeq, h, State.newestSeq]

theorem State.unitByteOf_of_mgt {s t : State} (h : t.mgt = s.mgt) (u : Nat) : t.unitByteOf u = s.unitByteOf u := by
  rw [State.unitByteOf, h, State.unitByteOf]

theorem lookN_putN_same (k v : Nat) (m : List (Nat × Nat)) : lookN k (putN k v m) = v := by
  unfold putN lookN
  split
  · rename_i hv
    rw [look_del, if_pos rfl, hv]
    rfl
  · rw [look_put_same]
    rfl

theorem lookN_putN_ne {j k : Nat} (h : j ≠ k) (v : Nat) (m : List (Nat × Nat)) : lookN j (putN k v m) = lookN j m := by
  unfold putN lookN
  split
  · rw [look_del, if_neg h]
  · rw [look_put_ne h]

/-- Only the management controller's state differs. -/
def State.MgtAlone (s t : State) : Prop := { t with mgt := s.mgt } = s

theorem State.MgtAlone.trans {s t u : State} (h : s.MgtAlone t) (k : t.MgtAlone u) : s.MgtAlone u := by
  unfold State.MgtAlone at *
  conv => rhs; rw [← h]
  rw [← k]

theorem State.MgtAlone.hg {s t : State} (h : s.MgtAlone t) : t.hg = s.hg := by
  have k := congrArg State.hg h
  exact k

theorem State.MgtAlone.finish_onlyMgt {s t : State} (h : s.MgtAlone t) (id : Nat) (code : Code) (detail : W32) (result : W128) :
    s.OnlyMgt (t.finish id code detail result) := by
  unfold State.OnlyMgt
  conv => rhs; rw [← h]
  rw [← h.hg]
  rfl

theorem State.MgtAlone.finish_ended {s t : State} (h : s.MgtAlone t) {id : Nat} (hc : (s.cmd? id).isSome = true) (code : Code) (detail : W32)
    (result : W128) : (t.finish id code detail result).Ended id code detail result :=
  State.finish_ended (by rwa [State.cmd?, h.hg]) _ _ _

theorem State.setUnit_mgtAlone (s : State) (u b : Nat) : s.MgtAlone (s.setUnit u b) := rfl

theorem State.journal_mgtAlone (s : State) (r : JRec) : s.MgtAlone (s.journal r) := by
  unfold State.journal
  dsimp only
  split <;> rfl

theorem State.journal_nextSeq (s : State) (r : JRec) : (s.journal r).mgt.nextSeq = s.mgt.nextSeq + 1 := by
  unfold State.journal
  dsimp only
  split <;> rfl

theorem State.journal_unitByteOf (s : State) (r : JRec) (u : Nat) : (s.journal r).unitByteOf u = s.unitByteOf u := by
  unfold State.journal State.unitByteOf
  dsimp only
  split <;> rfl

/-- FAILS and DECONFIG of each listed unit are cleared. -/
def State.clearUnits (s : State) (us : List Nat) : State := us.foldl (fun v u => v.setUnit u (clearedByte (v.unitByteOf u))) s

theorem State.clearUnits_mgtAlone (us : List Nat) (s : State) : s.MgtAlone (s.clearUnits us) :=
  List.foldlRecOn (motive := fun t => s.MgtAlone t) us _ rfl (fun _ ht _ _ => ht.trans (State.setUnit_mgtAlone _ _ _))

theorem State.clearUnits_nextSeq (us : List Nat) (s : State) : (s.clearUnits us).mgt.nextSeq = s.mgt.nextSeq :=
  List.foldlRecOn (motive := fun t : State => t.mgt.nextSeq = s.mgt.nextSeq) us _ rfl (fun _ ht _ _ => ht)

theorem State.clearUnits_unitByteOf_ne {us : List Nat} {w : Nat} (hw : w ∉ us) (s : State) : (s.clearUnits us).unitByteOf w = s.unitByteOf w :=
  List.foldlRecOn (motive := fun t : State => t.unitByteOf w = s.unitByteOf w) us _ rfl
    (fun _ ht _ hu => (lookN_putN_ne (fun h : w = _ => hw (h ▸ hu)) _ _).trans ht)

/-- Units that are listed once are cleared once. -/
theorem State.clearUnits_unitByteOf {us : List Nat} (hd : us.Nodup) {w : Nat} (hw : w ∈ us) (s : State) :
    (s.clearUnits us).unitByteOf w = clearedByte (s.unitByteOf w) := by
  induction us generalizing s with
  | nil => cases hw
  | cons u us ih =>
    obtain ⟨hu, hus⟩ := List.nodup_cons.mp hd
    change ((s.setUnit u (clearedByte (s.unitByteOf u))).clearUnits us).unitByteOf w = _
    rcases List.mem_cons.mp hw with rfl | hw
    · rw [State.clearUnits_unitByteOf_ne hu]
      exact lookN_putN_same _ _ _
    · have hne : w ≠ u := fun h => hu (h ▸ hw)
      rw [ih hus hw]
      exact congrArg clearedByte (lookN_putN_ne hne _ _)

/-- The units that a JOURNAL_READ lists. -/
def State.listedUnits (s : State) (c : Cmd) : List Nat := (recordsOf 2 (s.readRef c.allot (c.par 0x10 8) 1 (2 * c.par 2 2))).map leNat

/-- A list of journaled units is taken where it names the newest record. -/
theorem State.journalClear_listed {s : State} {c : Cmd} (hs : s.Clean c.allot) (hu : ∀ u ∈ s.listedUnits c, isJournalUnit u = true) :
    s.journalClear c = if c.par 0x18 8 ≠ s.newestSeq then s.reject c.id (.wrongState, 0)
      else ((s.clearUnits (s.listedUnits c)).journal (emptyRec 4)).finishOk c.id (c.par 2 2) := by
  have hpoison : s.poisonOf [(c.allot, refHandle (c.par 0x10 8), bitsOf (c.par 0x10 8) 32 32, 2 * c.par 2 2)] = none :=
    hs.poisonOf (.cons (.nil _))
  have hbad : (s.listedUnits c).findIdx? (fun u => !isJournalUnit u) = none := by
    simpa [List.findIdx?_eq_none_iff] using hu
  rw [State.listedUnits] at hbad
  unfold State.journalClear
  simp only [hpoison, hbad]
  rfl

/-- The records that a JOURNAL_READ copies: as many as it asks for and its destination has room for, oldest first. -/
def State.recordsRead (s : State) (c : Cmd) : List JRec :=
  (s.mgt.journal.filter (fun r => decide (c.par 8 8 ≤ r.seq))).take
    (min (c.par 2 2) (((s.objD c.allot (refHandle (c.par 0x10 8))).size - bitsOf (c.par 0x10 8) 32 32) / 4096))

theorem State.named_journalCopy (s : State) (c : Cmd) : (s.named c).journalCopy c =
    (s.named c).withDest c 0x10 ((s.recordsRead c).flatMap JRec.bytes)
      (fun t => t.finishOk c.id ((s.recordsRead c).length + s.newestSeq * 2 ^ 32)) := by
  rw [State.journalCopy, s.named_mgt, s.named_objD_size, State.newestSeq_of_mgt (s.named_mgt c), State.recordsRead]

/-- What a list that names the newest record leaves: its units are cleared in one record. -/
theorem State.clearUnits_journaled {s : State} {us : List Nat} (hd : us.Nodup) :
    let t := (s.clearUnits us).journal (emptyRec 4)
    s.MgtAlone t ∧ (∀ u ∈ us, t.unitByteOf u = clearedByte (s.unitByteOf u)) ∧ (∀ u, u ∉ us → t.unitByteOf u = s.unitByteOf u) ∧
      t.mgt.nextSeq = s.mgt.nextSeq + 1 := by
  refine ⟨(State.clearUnits_mgtAlone us s).trans (State.journal_mgtAlone _ _), fun u hu => ?_, fun u hu => ?_, ?_⟩
  · rw [State.journal_unitByteOf, State.clearUnits_unitByteOf hd hu]
  · rw [State.journal_unitByteOf, State.clearUnits_unitByteOf_ne hu]
  · rw [State.journal_nextSeq, State.clearUnits_nextSeq]

/-! ## An order that the arbiter executes (R332) -/

@[simp] theorem State.taken_dev (s : State) (id : Nat) (c : Cmd) : (s.taken id c).dev = s.dev := by
  have h := congrArg State.dev ((s.takeOrder id).named_same c).1
  exact h

@[simp] theorem State.taken_fuse (s : State) (id : Nat) (c : Cmd) : (s.taken id c).fuse = s.fuse := by
  have h := congrArg State.fuse ((s.takeOrder id).named_same c).1
  exact h

@[simp] theorem State.taken_flt (s : State) (id : Nat) (c : Cmd) : (s.taken id c).flt = s.flt := (s.takeOrder id).named_flt c

@[simp] theorem State.taken_trialRuns (s : State) (id : Nat) (c : Cmd) : (s.taken id c).trialRuns = s.trialRuns := by
  have h := congrArg State.trialRuns ((s.takeOrder id).named_same c).1
  exact h

@[simp] theorem State.taken_otherImage (s : State) (id : Nat) (c : Cmd) : (s.taken id c).otherImage = s.otherImage := by
  have h := congrArg State.otherImage ((s.takeOrder id).named_same c).1
  exact h

@[simp] theorem State.taken_staged (s : State) (id : Nat) (c : Cmd) : (s.taken id c).staged = s.staged := by
  simp [State.staged]

theorem State.Clean.taken {s : State} {a : Nat} (h : s.Clean a) (id : Nat) (c : Cmd) : (s.taken id c).Clean a :=
  State.Clean.named (s := s.takeOrder id) h c

theorem State.Mild.of_flt {s t : State} {src : Nat} (h : s.Mild src) (hf : t.flt = s.flt) : t.Mild src := by
  unfold State.Mild State.srcClass
  rwa [hf]

theorem State.OrderRuns.taken_isSome {s : State} {id op : Nat} {fs : State → Cmd → List Fld} {c : Cmd} (h : s.OrderRuns id op fs c) :
    ((s.taken id c).cmd? c.id).isSome = true := by
  rw [State.taken_cmd?, State.fresh?_id h.1, State.fresh?_cmd h.1]
  rfl

/-! ## Images (R441, R443) -/

/-- The slot that does not run holds im, staged as ok tells. -/
def State.withOther (s : State) (im : Image) (ok : Bool) : State :=
  { s.setOther im with mgt := { (s.setOther im).mgt with stagedOk := ok } }

theorem State.withOther_mgtAlone (s : State) (im : Image) (ok : Bool) : s.MgtAlone (s.withOther im ok) := by
  unfold State.withOther State.setOther
  split <;> rfl

theorem State.withOther_otherImage (s : State) (im : Image) (ok : Bool) : (s.withOther im ok).otherImage = im := by
  unfold State.withOther State.setOther State.otherImage
  by_cases h : s.dev.imageB = true
  · simp only [if_pos h]
  · simp only [if_neg h]

/-- The state with an image that passed: in the slot that does not run, its unit cleared where it is the slot of image A, and recorded. -/
def State.passed (s : State) (im : Image) : State :=
  let u := s.withOther { im with valid := true } true
  (if s.dev.imageB then u.setUnit 0 (clearedByte (u.unitByteOf 0)) else u).firmwareRecord 0

theorem State.stageImage_passes {s : State} {bs : List Byte} (ha : (fwImageOf bs).authentic s.fuse = true) (hb : bs ≠ []) :
    s.stageImage bs = (s.passed (fwImageOf bs), true) := if_pos ⟨ha, hb⟩

theorem State.stageImage_fails {s : State} {bs : List Byte} (ha : (fwImageOf bs).authentic s.fuse = false) :
    s.stageImage bs = (((s.withOther {} false).firmwareRecord 1).raise 0xD000, false) :=
  if_neg (fun h => Bool.eq_false_iff.mp ha h.1)

theorem State.firmwareRecord_mgtAlone (s : State) (ev : Nat) : s.MgtAlone (s.firmwareRecord ev) := s.journal_mgtAlone _

theorem State.firmwareRecord_spares (s : State) (ev : Nat) : s.FaultSpares (s.firmwareRecord ev) := s.journal_spares _

theorem State.passed_spec (s : State) (im : Image) :
    s.MgtAlone (s.passed im) ∧ (s.passed im).otherImage = { im with valid := true } ∧ (s.passed im).mgt.stagedOk = true := by
  unfold State.passed
  extract_lets u
  have hother := s.withOther_mgtAlone { im with valid := true } true
  have hunit : u.MgtAlone (if s.dev.imageB then u.setUnit 0 (clearedByte (u.unitByteOf 0)) else u) ∧
      u.FaultSpares (if s.dev.imageB then u.setUnit 0 (clearedByte (u.unitByteOf 0)) else u) := by
    split
    · exact ⟨rfl, u.setUnit_spares _ _⟩
    · exact ⟨rfl, .refl u⟩
  have hspares := hunit.2.trans (State.firmwareRecord_spares _ 0)
  exact ⟨(hother.trans hunit.1).trans (State.firmwareRecord_mgtAlone _ _), hspares.image.trans (s.withOther_otherImage _ _), hspares.staged⟩

/-- An event that is mild takes no command away and leaves images and fuses. -/
theorem State.MgtAlone.raise_spec {s t : State} (hst : s.MgtAlone t) {src : Nat} (h : s.Mild src) {id : Nat} (hc : (s.cmd? id).isSome = true) :
    ((t.raise src).cmd? id).isSome = true ∧ (t.raise src).otherImage = t.otherImage ∧ (t.raise src).mgt.stagedOk = t.mgt.stagedOk ∧
      (t.raise src).fuse = s.fuse := by
  have hflt : t.flt = s.flt := by
    have k := congrArg State.flt hst
    exact k
  have hfuse : t.fuse = s.fuse := by
    have k := congrArg State.fuse hst
    exact k
  have hraise : t.FaultSpares (t.raise src) := State.Mild.raise_spares (h.of_flt hflt)
  refine ⟨hraise.cmd_isSome ?_, hraise.image, hraise.staged, hraise.fuse.trans hfuse⟩
  rw [State.cmd?, hst.hg]
  exact hc

/-- An image that fails leaves the slot empty; its event takes no command away where it is mild. -/
theorem State.failed_spec {s : State} (h : s.Mild 0xD000) {id : Nat} (hc : (s.cmd? id).isSome = true) :
    let t := ((s.withOther {} false).firmwareRecord 1).raise 0xD000
    (t.cmd? id).isSome = true ∧ t.otherImage = {} ∧ t.mgt.stagedOk = false ∧ t.fuse = s.fuse := by
  have hrecord := (s.withOther {} false).firmwareRecord_spares 1
  obtain ⟨hcmd, himage, hstaged, hfuse⟩ := ((s.withOther_mgtAlone {} false).trans (State.firmwareRecord_mgtAlone _ 1)).raise_spec h hc
  exact ⟨hcmd, himage.trans (hrecord.image.trans (s.withOther_otherImage _ _)), hstaged.trans hrecord.staged, hfuse⟩

/-- RESULT holds VERSION of the slot that does not run. -/
theorem State.stageResult_version (s : State) : (BitVec.ofNat 128 s.stageResult).toNat % 2 ^ 32 = s.otherImage.version % 2 ^ 32 := by
  rw [BitVec.toNat_ofNat, Nat.mod_mod_of_dvd _ (by decide), State.stageResult]
  omega

/-! ## FW_STAGE (R443, R473) -/

theorem exec_fwStage {s : State} {id : Nat} {c : Cmd} (h : s.OrderRuns id 0x0A30 fwStageFields c) (hr : s.ready c = true) :
    exec (.fwStage id) s = .next ((s.taken id c).fwStage c) := by
  show execFwStage id s = _
  rw [execFwStage, State.fresh?_working? h.1]
  simp only [State.orderReady, h.1, hr, if_true]
  exact State.order_runs h State.fwStage

theorem State.goOn_onlyCmds (s : State) (id : Nat) (aux : List Nat) : s.OnlyCmds (s.goOn id aux) := rfl

section
variable {s : State} {c : Cmd}

theorem State.fwStage_delayed (hp : s.dev.pwrFail = true) (ha : c.par 0 1 ≠ 4) : s.fwStage c = s.goOn c.id [] := if_pos ⟨hp, ha⟩

theorem State.fwStage_staging (hp : s.dev.pwrFail = false) (hs : s.mgt.staging = true) : s.fwStage c = s.reject c.id (.wrongState, 0) := by
  simp [State.fwStage, hp, State.fwAction, hs]

variable (hp : s.dev.pwrFail = false) (hs : s.mgt.staging = false)
include hp hs

theorem State.fwStage_image (ha : c.par 0 1 = 0) : s.fwStage c = s.fwStageImage c := by
  simp [State.fwStage, hp, State.fwAction, hs, ha]

theorem State.fwStage_unstaged (ha : c.par 0 1 = 1) (h : s.staged = false) : s.fwStage c = s.reject c.id (.wrongState, 0) := by
  simp [State.fwStage, hp, State.fwAction, hs, ha, h]

theorem State.fwStage_noTrial (ha : c.par 0 1 = 2) (h : s.trialRuns = false) : s.fwStage c = s.reject c.id (.wrongState, 0) := by
  simp [State.fwStage, hp, State.fwAction, hs, ha, h]

theorem State.fwStage_asks (ha : c.par 0 1 = 4) : s.fwStage c = (s.firmwareRecord 5).finishOk c.id (s.firmwareRecord 5).stageResult := by
  simp [State.fwStage, hp, State.fwAction, hs, ha]

end

theorem State.fwStageImage_trial {s : State} {c : Cmd} (h : s.trialRuns = true) : s.fwStageImage c = s.reject c.id (.wrongState, 0) := if_pos h

/-- An image without a poisoned block is staged, and the command ends as the image passes. -/
theorem State.fwStageImage_clean {s : State} {c : Cmd} (h : s.trialRuns = false) (hs : s.Clean c.allot) :
    s.fwStageImage c = if (s.stageImage (s.readRef c.allot (c.par 8 8) 1 (c.par 0x10 4))).2 then
        (s.stageImage (s.readRef c.allot (c.par 8 8) 1 (c.par 0x10 4))).1.finishOk c.id
          (s.stageImage (s.readRef c.allot (c.par 8 8) 1 (c.par 0x10 4))).1.stageResult
      else (s.stageImage (s.readRef c.allot (c.par 8 8) 1 (c.par 0x10 4))).1.reject c.id (.authFailed, 0) := by
  have hpoison : s.poisonOf [(c.allot, refHandle (c.par 8 8), bitsOf (c.par 8 8) 32 32, c.par 0x10 4)] = none := hs.poisonOf (.cons (.nil _))
  rw [State.fwStageImage, if_neg (Bool.eq_false_iff.mp h)]
  simp only [hpoison]

/-! ## The obligation -/

/-- A command that is rejected where nothing has changed. -/
theorem State.rejects_alone {u : State} {id : Nat} (hc : (u.cmd? id).isSome = true) {o : Out} (ho : o = .next (u.reject id (.wrongState, 0))) :
    ∃ t, o = .next t ∧ t.Ended id .wrongState 0 0 ∧ u.OnlyCmds t :=
  ⟨_, ho, State.finish_ended hc _ _ _, State.finish_onlyCmds _ _ _ _ _⟩

section
variable {s : State} {id : Nat} {c : Cmd} (h : s.Runs id 0x0A20 journalReadFields c)
include h

theorem State.Runs.journal_obj : ((s.named c).obj? c.allot (refHandle (c.par 0x10 8))).isSome = true := by
  rw [(s.named_notes c).handles]
  exact State.obj?_of_rawRefOk (h.ok ⟨0x10, 8, s.rawRefOk c.allot (c.par 0x10 8) (if c.par 0 1 == 0 then 0 else 2 * c.par 2 2)⟩
    (by simp [journalReadFields]))

theorem State.Runs.journal_reads (hclean : s.Clean c.allot) (h0 : c.par 0 1 = 0) : ∃ t, exec (.journalRead id) s = .next t ∧
    (s.named c).ReadInto t c 0x10 ((s.recordsRead c).flatMap JRec.bytes) ((s.recordsRead c).length + s.newestSeq * 2 ^ 32) := by
  refine ⟨_, exec_journalRead h, ?_⟩
  rw [if_pos h0, s.named_journalCopy]
  exact State.withDest_readInto (hclean.named c) h.named_isSome h.journal_obj _ _

variable (hclean : s.Clean c.allot) (h1 : c.par 0 1 = 1) (hu : ∀ u ∈ (s.named c).listedUnits c, isJournalUnit u = true)
include hclean h1 hu

theorem State.Runs.journal_clears (hseq : c.par 0x18 8 = s.newestSeq) (hd : ((s.named c).listedUnits c).Nodup) :
    ∃ t, exec (.journalRead id) s = .next t ∧ t.Ended id .ok 0 (BitVec.ofNat 128 (c.par 2 2)) ∧ (s.named c).OnlyMgt t ∧
      (∀ u ∈ (s.named c).listedUnits c, t.unitByteOf u = clearedByte (s.unitByteOf u)) ∧
      (∀ u, u ∉ (s.named c).listedUnits c → t.unitByteOf u = s.unitByteOf u) ∧ t.mgt.nextSeq = s.mgt.nextSeq + 1 := by
  obtain rfl := State.fresh?_id h.1
  have hmgt := s.named_mgt c
  obtain ⟨halone, hlisted, hothers, hnext⟩ := State.clearUnits_journaled (s := s.named c) hd
  refine ⟨_, exec_journalRead h, ?_⟩
  rw [if_neg (by rw [h1]; decide), State.journalClear_listed (hclean.named c) hu,
    if_neg (not_not_intro (hseq.trans (State.newestSeq_of_mgt hmgt).symm))]
  refine ⟨halone.finish_ended h.named_isSome _ _ _, halone.finish_onlyMgt _ _ _ _, fun u hw => ?_, fun u hw => ?_, ?_⟩
  · rw [← State.unitByteOf_of_mgt hmgt]
    exact hlisted u hw
  · rw [← State.unitByteOf_of_mgt hmgt]
    exact hothers u hw
  · rw [← hmgt]
    exact hnext

theorem State.Runs.journal_late (hseq : c.par 0x18 8 ≠ s.newestSeq) :
    ∃ t, exec (.journalRead id) s = .next t ∧ t.Ended id .wrongState 0 0 ∧ (s.named c).OnlyCmds t := by
  obtain rfl := State.fresh?_id h.1
  refine State.rejects_alone h.named_isSome ?_
  rw [exec_journalRead h, if_neg (by rw [h1]; decide), State.journalClear_listed (hclean.named c) hu,
    if_pos (fun k => hseq (k.trans (State.newestSeq_of_mgt (s.named_mgt c))))]

end

section
variable {u : State} {c : Cmd} (hc : (u.cmd? c.id).isSome = true) {bs : List Byte}
include hc

/-- An image that passes stands in the slot that does not run. -/
theorem State.fwStageImage_passes (ht : u.trialRuns = false) (hclean : u.Clean c.allot)
    (ha : (fwImageOf (u.readRef c.allot (c.par 8 8) 1 (c.par 0x10 4))).authentic u.fuse = true)
    (hb : u.readRef c.allot (c.par 8 8) 1 (c.par 0x10 4) ≠ []) :
    ∃ r, (u.fwStageImage c).Ended c.id .ok 0 r ∧ u.OnlyMgt (u.fwStageImage c) ∧
      (u.fwStageImage c).otherImage = { fwImageOf (u.readRef c.allot (c.par 8 8) 1 (c.par 0x10 4)) with valid := true } ∧
      (u.fwStageImage c).mgt.stagedOk = true := by
  obtain ⟨halone, himage, hstaged⟩ := u.passed_spec (fwImageOf (u.readRef c.allot (c.par 8 8) 1 (c.par 0x10 4)))
  rw [State.fwStageImage_clean ht hclean, State.stageImage_passes ha hb, if_pos rfl]
  exact ⟨_, halone.finish_ended hc _ _ _, halone.finish_onlyMgt _ _ _ _, himage, hstaged⟩

/-- An image that fails leaves the slot that does not run empty. -/
theorem State.fwStageImage_fails (ht : u.trialRuns = false) (hclean : u.Clean c.allot)
    (ha : (fwImageOf (u.readRef c.allot (c.par 8 8) 1 (c.par 0x10 4))).authentic u.fuse = false) (hm : u.Mild 0xD000) :
    (u.fwStageImage c).Ended c.id .authFailed 0 0 ∧ (u.fwStageImage c).otherImage = {} ∧ (u.fwStageImage c).mgt.stagedOk = false ∧
      (u.fwStageImage c).fuse = u.fuse := by
  obtain ⟨hcmd, himage, hstaged, hfuse⟩ := State.failed_spec hm hc
  rw [State.fwStageImage_clean ht hclean, State.stageImage_fails ha, if_neg Bool.false_ne_true]
  exact ⟨State.finish_ended hcmd _ _ _, himage, hstaged, hfuse⟩

end

/-- Settles O51: each read command puts its bytes at a destination without poison, and each case of the unit list and of the staged image has
its rule above. -/
theorem deviceCommands : Obligations.DeviceCommands := by
  unfold Obligations.DeviceCommands
  refine ⟨fun s id c h hclean => ?devInfo, fun s id c h hclean => ?journal, fun s id c h hr => ?fw⟩
  case devInfo =>
    obtain rfl := State.fresh?_id h.1
    have hobj : ((s.named c).obj? c.allot (refHandle (c.par 8 8))).isSome = true := by
      rw [(s.named_notes c).handles]
      exact State.obj?_of_rawRefOk (h.ok (s.destOk c 8 (pageSize (c.par 0 1))) (by simp [devInfoFields]))
    exact ⟨_, exec_devInfo h, State.withDest_readInto (hclean.named c) h.named_isSome hobj _ _⟩
  case journal =>
    exact ⟨h.journal_reads hclean, fun h1 hu hseq hd => h.journal_clears hclean h1 hu hseq hd,
      fun h1 hu hseq => h.journal_late hclean h1 hu hseq⟩
  case fw =>
    have hexec := exec_fwStage h hr
    have hc := h.taken_isSome
    obtain rfl := State.fresh?_id h.1
    rw [hexec]
    rw [← s.taken_fuse c.id c, ← s.taken_trialRuns c.id c, ← s.taken_staged c.id c, ← s.taken_otherImage c.id c, ← s.taken_dev c.id c,
      ← s.taken_mgt c.id c]
    intro u bs
    refine ⟨fun hp ha => ?_, fun hs hp => ?_, fun hs hp => ⟨fun ha ht => ?_, fun ha ht hclean hauth hb => ?_,
      fun ha ht hclean hauth hm => ?_, fun ha hst => ?_, fun ha ht => ?_, fun ha => ?_⟩⟩
    · rw [State.fwStage_delayed hp ha]
      exact ⟨_, rfl, State.goOn_atWork hc _, u.goOn_onlyCmds _ _⟩
    · exact State.rejects_alone hc (by rw [State.fwStage_staging hp hs])
    · exact State.rejects_alone hc (by rw [State.fwStage_image hp hs ha, State.fwStageImage_trial ht])
    · obtain ⟨r, hspec⟩ := State.fwStageImage_passes hc ht (hclean.taken _ _) hauth hb
      rw [State.fwStage_image hp hs ha]
      exact ⟨_, r, rfl, hspec⟩
    · rw [State.fwStage_image hp hs ha]
      exact ⟨_, rfl, State.fwStageImage_fails hc ht (hclean.taken _ _) hauth (hm.of_flt (s.taken_flt _ _))⟩
    · exact State.rejects_alone hc (by rw [State.fwStage_unstaged hp hs ha hst])
    · exact State.rejects_alone hc (by rw [State.fwStage_noTrial hp hs ha ht])
    · have halone := u.firmwareRecord_mgtAlone 5
      have himage := (u.firmwareRecord_spares 5).image
      rw [State.fwStage_asks hp hs ha]
      refine ⟨_, _, rfl, halone.finish_ended hc _ _ _, halone.finish_onlyMgt _ _ _ _, himage, ?_⟩
      rw [State.stageResult_version, himage]

end Sys2Proof.Machine
end

section
/-! The core of a state (R442, R446, R449): its variant, its serial number, its fuses and the queue of the waiting commands. No operation
of the model changes it except a confirmation of an image and the seal, which blow fuses and clear none. The rules stand in the order of the
model's files; every row cites them. -/

namespace Sys2Proof.Machine

/-! ### The core -/

/-- What all rows but those that blow fuses leave as it is. -/
def State.core (s : State) : Variant × Nat × Fuses × List Instr := (s.dev.variant, s.dev.serial, s.fuse, s.pending)

@[simp] theorem State.core_mk (s : State) (dev : Dev) (hv : dev.variant = s.dev.variant) (hn : dev.serial = s.dev.serial) (clk : Clock)
    (hg : Headgate) (allots : List Allot) (attn : List Attn) (conds : List Cond) (host : HostMem) (hearths : List Hearth) (fab : Fabric)
    (pair : Pair) (flt : Faults) (glob : GlobalCtr) (mgt : Mgmt) :
    State.core { s with
      dev := dev, clk := clk, hg := hg, allots := allots, attn := attn, conds := conds, host := host, hearths := hearths, fab := fab
      pair := pair, flt := flt, glob := glob, mgt := mgt } = s.core := by
  simp only [State.core, hv, hn]

@[simp] theorem State.core_ite (c : Prop) [Decidable c] (s t : State) :
    (if c then s else t).core = if c then s.core else t.core :=
  apply_ite ..

/-- A fold whose steps keep the core of the state that they carry keeps it. -/
theorem foldl_core_of {α β : Type} (g : β → State) {f : β → α → β} (h : ∀ z x, (g (f z x)).core = (g z).core) (l : List α) (z : β) :
    (g (l.foldl f z)).core = (g z).core := by
  induction l generalizing z with
  | nil => rfl
  | cons x l ih => rw [List.foldl_cons, ih, h]

theorem foldl_core {α : Type} {f : State → α → State} (h : ∀ s x, (f s x).core = s.core) (l : List α) (s : State) :
    (l.foldl f s).core = s.core :=
  foldl_core_of id h l s

theorem foldl_core_fst {α β : Type} {f : State × β → α → State × β} (h : ∀ z x, (f z x).1.core = z.1.core) (l : List α) (z : State × β) :
    (l.foldl f z).1.core = z.1.core :=
  foldl_core_of Prod.fst h l z

/-- The row keeps the core of s. -/
def Out.Keeps (s : State) (o : Out) : Prop := ∀ t, o = .next t → t.core = s.core

@[simp] theorem Out.keeps_next (s t : State) : Out.Keeps s (.next t) ↔ t.core = s.core :=
  ⟨fun h => h t rfl, fun h u k => by cases k; exact h⟩

@[simp] theorem Out.keeps_fault (s : State) (f : Fault) : Out.Keeps s (.fault f) := fun _ h => nomatch h

@[simp] theorem Out.keeps_refused (s : State) (r : Refusal) : Out.Keeps s (.refused r) := fun _ h => nomatch h

@[simp] theorem Out.keeps_ite (s : State) (c : Prop) [Decidable c] (o p : Out) :
    Out.Keeps s (if c then o else p) ↔ if c then Out.Keeps s o else Out.Keeps s p := by
  split <;> rfl

theorem Out.Keeps.of_core {s t : State} {o : Out} (h : Out.Keeps t o) (hc : t.core = s.core) : Out.Keeps s o :=
  fun u hu => (h u hu).trans hc

/-! ### Fuses that only blow -/

/-- t has the queue, the variant and the serial number of s, and every fuse that is blown in s. -/
structure State.Endures (s t : State) : Prop where
  pending : t.pending = s.pending
  variant : t.dev.variant = s.dev.variant
  serial : t.dev.serial = s.dev.serial
  sealed : s.fuse.sealed = true → t.fuse.sealed = true
  svn : s.fuse.svn ≤ t.fuse.svn
  revoked : ∀ k, s.fuse.revoked.testBit k = true → t.fuse.revoked.testBit k = true

theorem State.endures_of_core {s t : State} (h : t.core = s.core) : s.Endures t := by
  obtain ⟨hv, hn, hf, hp⟩ :
      t.dev.variant = s.dev.variant ∧ t.dev.serial = s.dev.serial ∧ t.fuse = s.fuse ∧ t.pending = s.pending := by
    simpa [State.core] using h
  exact ⟨hp, hv, hn, by rw [hf]; exact id, by rw [hf], by rw [hf]; exact fun _ => id⟩

theorem State.Endures.trans {s t u : State} (h : s.Endures t) (k : t.Endures u) : s.Endures u :=
  ⟨k.pending.trans h.pending, k.variant.trans h.variant, k.serial.trans h.serial, k.sealed ∘ h.sealed, h.svn.trans k.svn,
    fun i hi => k.revoked i (h.revoked i hi)⟩

theorem State.Endures.of_core {s t u : State} (h : s.Endures t) (k : u.core = t.core) : s.Endures u :=
  h.trans (State.endures_of_core k)

theorem State.Endures.core_left {s t u : State} (h : t.Endures u) (k : t.core = s.core) : s.Endures u :=
  (State.endures_of_core k).trans h

theorem State.Endures.refl (s : State) : s.Endures s := State.endures_of_core rfl

/-- Every fuse endures the row. -/
def Out.Endure (s : State) (o : Out) : Prop := ∀ t, o = .next t → s.Endures t

theorem Out.Keeps.endure {s : State} {o : Out} (h : Out.Keeps s o) : Out.Endure s o := fun t ht => State.endures_of_core (h t ht)

theorem Out.endure_next {s t : State} (h : s.Endures t) : Out.Endure s (.next t) := by
  rintro _ ⟨⟩
  exact h


/-! ### Ops -/

@[simp] theorem State.setAl_core (s : State) (a : Nat) (x : Allot) : (s.setAl a x).core = s.core := by simp [State.setAl]
@[simp] theorem State.modAl_core (s : State) (a : Nat) (f : Allot → Allot) : (s.modAl a f).core = s.core := by simp [State.modAl]
@[simp] theorem State.setHe_core (s : State) (h : Nat) (x : Hearth) : (s.setHe h x).core = s.core := by simp [State.setHe]
@[simp] theorem State.modHe_core (s : State) (h : Nat) (f : Hearth → Hearth) : (s.modHe h f).core = s.core := by simp [State.modHe]
@[simp] theorem State.passTo_core (s : State) (t : Nat) : (s.passTo t).core = s.core := by simp [State.passTo]
@[simp] theorem State.modCmd_core (s : State) (id : Nat) (f : Cmd → Cmd) : (s.modCmd id f).core = s.core := by simp [State.modCmd]

@[simp] theorem State.finish_core (s : State) (id : Nat) (code : Code) (detail : W32) (result : W128) :
    (s.finish id code detail result).core = s.core := by
  simp [State.finish]

@[simp] theorem State.finishOk_core (s : State) (id result : Nat) : (s.finishOk id result).core = s.core := by simp [State.finishOk]
@[simp] theorem State.reject_core (s : State) (id : Nat) (v : Code × W32) : (s.reject id v).core = s.core := by simp [State.reject]

@[simp] theorem State.traceAt_core (s : State) (h typ : Nat) (a : Option Nat) (acc data : Nat) :
    (s.traceAt h typ a acc data).core = s.core := by
  simp [State.traceAt]

@[simp] theorem State.setCond_core (s : State) (a : Nat) (n : CondName) (level : Nat) : (s.setCond a n level).core = s.core := by
  simp [State.setCond]

@[simp] theorem State.dropCond_core (s : State) (a : Nat) (n : CondName) : (s.dropCond a n).core = s.core := by simp [State.dropCond]

@[simp] theorem State.setCondAll_core (s : State) (n : CondName) (level : Nat) : (s.setCondAll n level).core = s.core := by
  simp [State.setCondAll, foldl_core]

@[simp] theorem State.dropCondAll_core (s : State) (n : CondName) : (s.dropCondAll n).core = s.core := by simp [State.dropCondAll]
@[simp] theorem State.fire_core (s : State) (causes src : Nat) : (s.fire causes src).core = s.core := by simp [State.fire]
@[simp] theorem State.attend_core (s : State) : s.attend.core = s.core := by simp [State.attend, foldl_core]
@[simp] theorem State.settleWith_core (s : State) (causes src : Nat) : (s.settleWith causes src).core = s.core := by simp [State.settleWith]
@[simp] theorem State.settle_core (s : State) : s.settle.core = s.core := by simp [State.settle]

@[simp] theorem State.count_core (s : State) (ev : Nat) (h a layer cmd : Option Nat) (n : Nat) :
    (s.count ev h a layer cmd n).core = s.core := by
  unfold State.count
  dsimp only
  (repeat' split) <;> simp

@[simp] theorem State.countFor_core (s : State) (c : Cmd) (ev : Nat) (h layer : Option Nat) (n : Nat) :
    (s.countFor c ev h layer n).core = s.core := by
  simp [State.countFor]

@[simp] theorem State.countBytes_core (s : State) (c : Cmd) (tier : Nat) (h : Option Nat) (bytes : Nat) :
    (s.countBytes c tier h bytes).core = s.core := by
  simp [State.countBytes]

/-! ### Mem -/

@[simp] theorem State.modObj_core (s : State) (a h : Nat) (f : Obj → Obj) : (s.modObj a h f).core = s.core := by simp [State.modObj]

@[simp] theorem State.writeObj_core (s : State) (a h off : Nat) (bs : List Byte) : (s.writeObj a h off bs).core = s.core := by
  simp [State.writeObj]

@[simp] theorem State.charge_core (s : State) (a : Nat) (k : ChargeKind) (p n : Nat) : (s.charge a k p n).core = s.core := by
  simp [State.charge]

@[simp] theorem State.uncharge_core (s : State) (a : Nat) (k : ChargeKind) : (s.uncharge a k).core = s.core := by simp [State.uncharge]

@[simp] theorem State.touch_core (s : State) (a h acc : Nat) : (s.touch a h acc).core = s.core := by
  unfold State.touch
  split <;> simp

@[simp] theorem State.dropShadow_core (s : State) (a h : Nat) : (s.dropShadow a h).core = s.core := by
  unfold State.dropShadow
  split <;> simp

@[simp] theorem State.staleWrite_core (s : State) (a h : Nat) : (s.staleWrite a h).core = s.core := by
  unfold State.staleWrite
  split <;> simp

/-! ### Journal -/

@[simp] theorem State.setUnit_core (s : State) (u b : Nat) : (s.setUnit u b).core = s.core := by simp [State.setUnit]
@[simp] theorem State.journal_core (s : State) (r : JRec) : (s.journal r).core = s.core := by simp [State.journal]
@[simp] theorem State.flushDelayed_core (s : State) : s.flushDelayed.core = s.core := by simp [State.flushDelayed]
@[simp] theorem State.unitFails_core (s : State) (u reason : Nat) : (s.unitFails u reason).core = s.core := by simp [State.unitFails]
@[simp] theorem State.unitPasses_core (s : State) (u : Nat) : (s.unitPasses u).core = s.core := by simp [State.unitPasses]
@[simp] theorem State.writeConfig_core (s : State) (f : Config → Config) : (s.writeConfig f).core = s.core := by simp [State.writeConfig]

/-! ### Packets -/

@[simp] theorem State.modPort_core (s : State) (p : Nat) (f : Port → Port) : (s.modPort p f).core = s.core := by simp [State.modPort]
@[simp] theorem State.emit_core (s : State) (p peer vc : Nat) (bs : List Byte) : (s.emit p peer vc bs).core = s.core := by simp [State.emit]
@[simp] theorem State.putPacket_core (s : State) (p : Nat) (x : Packet) : (s.putPacket p x).core = s.core := by simp [State.putPacket]

@[simp] theorem State.sendTier3_core (s : State) (allot handle off : Nat) (bs : List Byte) :
    (s.sendTier3 allot handle off bs).core = s.core := by
  unfold State.sendTier3
  split <;> simp [foldl_core]

@[simp] theorem State.modSent_core (s : State) (x : Sent) (f : Sent → Sent) : (s.modSent x f).core = s.core := by simp [State.modSent]

@[simp] theorem State.sendNow_core (s : State) (x : Sent) (again : Bool) : (s.sendNow x again).core = s.core := by
  unfold State.sendNow
  split <;> simp

@[simp] theorem State.trySend_core (s : State) (x : Sent) : (s.trySend x).core = s.core := by
  unfold State.trySend
  split <;> simp

@[simp] theorem State.pump_core (s : State) : s.pump.core = s.core := by simp [State.pump, foldl_core]
@[simp] theorem State.enqueue_core (s : State) (xs : List Sent) : (s.enqueue xs).core = s.core := by simp [State.enqueue]

@[simp] theorem State.sendAck_core (s : State) (peer vc own far allot seq : Nat) (sig : W32) (selective : Bool) :
    (s.sendAck peer vc own far allot seq sig selective).core = s.core := by
  unfold State.sendAck
  dsimp only
  split <;> simp

@[simp] theorem State.sendOn_core (s : State) (peer stream allot far : Nat) (sig : W32) (ps : List (Nat × List Byte)) (served : Option Nat) :
    (s.sendOn peer stream allot far sig ps served).core = s.core := by
  simp [State.sendOn]

@[simp] theorem State.sendPair_core (s : State) (vc own allot : Nat) (first : Bool) (ps : List (Nat × W32 × List Byte)) :
    (s.sendPair vc own allot first ps).core = s.core := by
  simp [State.sendPair]

@[simp] theorem State.sendPairMsg_core (s : State) (allot index : Nat) (first : Bool) (bs : List Byte) :
    (s.sendPairMsg allot index first bs).core = s.core := by
  simp [State.sendPairMsg]

@[simp] theorem State.sendMgmt_core (s : State) (type : Nat) (data : List Byte) : (s.sendMgmt type data).core = s.core := by
  simp [State.sendMgmt]

@[simp] theorem State.sendAborts_core (s : State) (gid index reason : Nat) : (s.sendAborts gid index reason).core = s.core := by
  unfold State.sendAborts
  split <;> simp [foldl_core]

@[simp] theorem State.skipColl_core (s : State) (gid : Nat) (g : Group) (norm : Bool) (id : Nat) :
    (s.skipColl gid g norm id).core = s.core := by
  simp [State.skipColl]

@[simp] theorem State.dropColl_core (s : State) (id : Nat) : (s.dropColl id).core = s.core := by
  unfold State.dropColl
  dsimp only
  (repeat' split) <;> simp

/-! ### Collector -/

@[simp] theorem State.dropWork_core (s0 : State) (id : Nat) : (s0.dropWork id).core = s0.core := by simp [State.dropWork]
@[simp] theorem State.markDiscarded_core (s : State) (c : Cmd) : (s.markDiscarded c).core = s.core := by simp [State.markDiscarded]

@[simp] theorem State.discard_core (s : State) (id : Nat) (code : Code) (source cause : Nat) :
    (s.discard id code source cause).core = s.core := by
  unfold State.discard
  split <;> simp

@[simp] theorem State.quenchFail_core (s : State) : s.quenchFail.core = s.core := by simp [State.quenchFail, foldl_core]

@[simp] theorem State.pairPorts_core (s : State) : s.pairPorts.core = s.core := by
  unfold State.pairPorts
  dsimp only
  (repeat' split) <;> simp

@[simp] theorem State.portDown_core (s : State) (p : Nat) : (s.portDown p).core = s.core := by simp [State.portDown]

@[simp] theorem State.poisonUnit_core (s : State) (tier h unit src2 : Nat) : (s.poisonUnit tier h unit src2).core = s.core := by
  simp [State.poisonUnit]

@[simp] theorem State.evacuate_core (s : State) (h b : Nat) : (s.evacuate h b).core = s.core := by
  unfold State.evacuate
  refine foldl_core (fun t a => foldl_core (fun u i => ?_) _ _) _ _
  (repeat' split) <;> simp

@[simp] theorem State.fenceBank_core (s : State) (h b : Nat) : (s.fenceBank h b).1.core = s.core := by
  unfold State.fenceBank
  dsimp only
  (repeat' split) <;> simp

@[simp] theorem State.fenceChannel_core (s : State) (u : Nat) : (s.fenceChannel u).1.core = s.core := by
  unfold State.fenceChannel
  dsimp only
  (repeat' split) <;> simp

@[simp] theorem State.fenceUnit_core (s : State) (u : Nat) : (s.fenceUnit u).1.core = s.core := by
  unfold State.fenceUnit
  split <;> simp

@[simp] theorem State.fenceStack_core (s : State) (first : Nat) : (s.fenceStack first).1.core = s.core := by
  simp [State.fenceStack, foldl_core_fst]

@[simp] theorem State.clearOpenStats_core (s : State) : s.clearOpenStats.core = s.core := by simp [State.clearOpenStats]
@[simp] theorem State.unloadStore_core (s : State) (h : Nat) : (s.unloadStore h).core = s.core := by simp [State.unloadStore]

@[simp] theorem State.eventFence_core (s : State) (d : Detected) (i : SrcInfo) (cls : Nat) (once : Bool) :
    (s.eventFence d i cls once).1.core = s.core := by
  unfold State.eventFence
  dsimp only
  (repeat' split) <;> simp

@[simp] theorem State.eventPoison_core (s : State) (r : Raise) (i : SrcInfo) : (s.eventPoison r i).1.core = s.core := by
  unfold State.eventPoison
  (repeat' split) <;> simp

@[simp] theorem State.noteCorrected_core (s : State) (src : Nat) : (s.noteCorrected src).core = s.core := by simp [State.noteCorrected]

@[simp] theorem State.halt_core (s : State) (src : Nat) : (s.halt src).core = s.core := by
  unfold State.halt
  extract_lets d s1 hg s2 dev s3 s4 rec0
  have h1 : s1.core = s.core := foldl_core (fun t c => by simp) _ _
  have h2 : s2.core = s1.core := by unfold s2; split <;> rfl
  have h4 : s4.core = s2.core := by unfold s4 s3; split <;> rfl
  rw [State.journal_core, h4, h2, h1]

@[simp] theorem State.latchAll_core (s : State) (f : Fer) (named : List Nat) (mem : Bool) (hit : List Cmd) :
    (s.latchAll f named mem hit).core = s.core := by
  simp [State.latchAll]

@[simp] theorem State.latchEvent_core (s : State) (r : Raise) (i : SrcInfo) (cls : Nat) : (s.latchEvent r i cls).core = s.core := by
  unfold State.latchEvent
  extract_lets d scope hit mem spared t causes
  have hf := s.eventFence_core d i cls r.once
  split
  rename_i s1 facts unit he
  rw [he] at hf
  have hp := s1.eventPoison_core r i
  split
  rename_i s2 pacts hq
  rw [hq] at hp
  extract_lets base wide acts f s3 s4 s5 flt s6 s7 s8
  have h4 : s4.core = s2.core := by unfold s4 s3; split <;> simp
  have h5 : s5.core = s4.core := by unfold s5; (repeat' split) <;> simp
  have h8 : s8.core = s5.core := by unfold s8 s7 s6; split <;> simp
  have hs8 : s8.core = s.core := (h8.trans (h5.trans h4)).trans (hp.trans hf)
  split
  · rw [State.halt_core, hs8]
  · rw [foldl_core (fun u c => by simp), hs8]

@[simp] theorem State.raiseOne_core (s : State) (r : Raise) : (s.raiseOne r).core = s.core := by
  unfold State.raiseOne
  split <;> simp

@[simp] theorem State.raiseShort_core (s : State) : s.raiseShort.core = s.core := by simp [State.raiseShort]

@[simp] theorem State.collect_core (s : State) (evs : List Sys2Proof.Detected) : (s.collect evs).core = s.core := by
  unfold State.collect
  rw [State.raiseShort_core, foldl_core (fun t r => by simp)]
  rfl

@[simp] theorem State.raise_core (s : State) (src : Nat) : (s.raise src).core = s.core := by simp [State.raise]

@[simp] theorem State.raisePoison_core (s : State) (c : Cmd) (a h block src : Nat) : (s.raisePoison c a h block src).core = s.core := by
  simp [State.raisePoison]

/-! ### Reply -/

@[simp] theorem State.modQ_core (s : State) (a q : Nat) (f : QDesc → QDesc) : (s.modQ a q f).core = s.core := by simp [State.modQ]
@[simp] theorem State.gapCond_core (s : State) (a : Nat) : (s.gapCond a).core = s.core := by simp [State.gapCond]

@[simp] theorem State.doorbellError_core (s : State) (a qid reason : Nat) : (s.doorbellError a qid reason).core = s.core := by
  simp [State.doorbellError]

@[simp] theorem State.dropPartial_core (s : State) (a q : Nat) : (s.dropPartial a q).core = s.core := by
  unfold State.dropPartial
  split <;> simp

@[simp] theorem State.stopRing_core (s : State) (a q dropped : Nat) : (s.stopRing a q dropped).core = s.core := by simp [State.stopRing]

@[simp] theorem State.ringError_core (s : State) (a q : Nat) : (s.ringError a q).core = s.core := by
  unfold State.ringError
  split <;> simp

@[simp] theorem State.freeQueue_core (s : State) (a q : Nat) : (s.freeQueue a q).core = s.core := by simp [State.freeQueue]
@[simp] theorem State.cacheDoorbell_core (s : State) (a q : Nat) : (s.cacheDoorbell a q).core = s.core := by simp [State.cacheDoorbell]

theorem State.createQueue_core {s t : State} {a q : Nat} {d : QDesc} (h : s.createQueue a q d = some t) : t.core = s.core := by
  unfold State.createQueue at h
  split at h
  · dsimp only at h
    split at h <;> simp at h
    rw [← h]
    simp
  · cases h
    simp

@[simp] theorem State.writeReply_core (s : State) (a rq tag status detail result : Nat) (ext : List Byte) :
    (s.writeReply a rq tag status detail result ext).core = s.core := by
  unfold State.writeReply
  split <;> simp

@[simp] theorem State.closeSet_core (s : State) (c : Cmd) : (s.closeSet c).core = s.core := by
  unfold State.closeSet
  split <;> simp

@[simp] theorem State.reply_core (s : State) (c : Cmd) : (s.reply c).core = s.core := by
  unfold State.reply
  split <;> simp

/-! ### Rows -/

@[simp] theorem State.noteNames_core (s : State) (c : Cmd) (ns : List Naming) : (s.noteNames c ns).core = s.core := by
  unfold State.noteNames
  split
  · rfl
  · refine foldl_core (fun t n => ?_) _ _
    dsimp only
    split <;> simp

theorem State.judged_core {s body : State} (c : Cmd) (fs : List Fld) (h : body.core = s.core) : (s.judged c fs body).core = s.core := by
  unfold State.judged
  split
  · simp
  · exact h

@[simp] theorem State.deant_keeps {s : State} {id op : Nat} {fs : State → Cmd → List Fld} {body : State → Cmd → State}
    (h : ∀ t c, (body t c).core = t.core) : Out.Keeps s (s.deant id op fs body) := by
  unfold State.deant
  split
  · simp
  · split
    · exact (Out.keeps_next _ _).mpr (State.judged_core _ _ (by rw [h]; simp))
    · simp

theorem State.deant_endure {s : State} {id op : Nat} {fs : State → Cmd → List Fld} {body : State → Cmd → State}
    (h : ∀ t c, t.core = s.core → s.Endures (body t c)) : Out.Endure s (s.deant id op fs body) := by
  unfold State.deant
  split
  · exact Out.endure_next (.refl s)
  · split
    · refine Out.endure_next ?_
      unfold State.judged
      split
      · exact State.endures_of_core (by simp)
      · exact h _ _ (by simp)
    · exact Out.endure_next (.refl s)

@[simp] theorem State.takeOrder_core (s : State) (id : Nat) : (s.takeOrder id).core = s.core := by simp [State.takeOrder]
@[simp] theorem State.present_core (s : State) (c : Cmd) : (s.present c).core = s.core := by simp [State.present]

@[simp] theorem State.order_keeps {s : State} (src : Src) {op : Nat} {fs : State → Cmd → List Fld} {body : State → Cmd → State}
    (h : ∀ t c, (body t c).core = t.core) : Out.Keeps s (s.order src op fs body) := by
  unfold State.order
  split
  · split <;> simp
  · split
    · simp
    · split
      · exact (Out.keeps_next _ _).mpr ((State.judged_core _ _ (by rw [h]; simp)).trans (by simp))
      · simp

theorem State.judged_endures {s t body : State} (c : Cmd) (fs : List Fld) (h : s.Endures body) (k : t.core = s.core) : s.Endures (t.judged c fs body) := by
  unfold State.judged
  split
  · exact State.endures_of_core (by simp [k])
  · exact h

theorem State.order_endure {s : State} (src : Src) {op : Nat} {fs : State → Cmd → List Fld} {body : State → Cmd → State}
    (h : ∀ t c, t.core = s.core → s.Endures (body t c)) : Out.Endure s (s.order src op fs body) := by
  unfold State.order
  split
  · exact Out.endure_next (State.endures_of_core (by split <;> simp))
  · split
    · exact Out.endure_next (.refl s)
    · split
      · exact Out.endure_next (State.judged_endures _ _ (h _ _ (by simp)) (by simp))
      · exact Out.endure_next (.refl s)

@[simp] theorem State.goOn_core (s : State) (id : Nat) (aux : List Nat) : (s.goOn id aux).core = s.core := by simp [State.goOn]

@[simp] theorem State.finishTimed_core (s : State) (id : Nat) (timedOut : Bool) (result : Nat) :
    (s.finishTimed id timedOut result).core = s.core := by
  simp [State.finishTimed]

@[simp] theorem State.writeDest_core (s : State) (c : Cmd) (off : Nat) (bs : List Byte) : (s.writeDest c off bs).core = s.core := by
  simp [State.writeDest]

@[simp] theorem State.withDest_core {s : State} (c : Cmd) (off : Nat) (bs : List Byte) {body : State → State} (h : ∀ t, (body t).core = t.core) :
    (s.withDest c off bs body).core = s.core := by
  unfold State.withDest
  dsimp only
  split
  · simp
  · rw [h]; simp

/-! ### Queues -/

@[simp] theorem State.hostStores_core (s : State) (h : HostStores) : (s.hostStores h).core = s.core := by simp [State.hostStores]
@[simp] theorem State.publish_core (s : State) (a q w : Nat) (d : QDesc) : (s.publish a q w d).core = s.core := by simp [State.publish]
@[simp] theorem State.giveBack_core (s : State) (a q r : Nat) (d : QDesc) : (s.giveBack a q r d).core = s.core := by simp [State.giveBack]

@[simp] theorem State.doorbell_core (s : State) (a v size : Nat) : (s.doorbell a v size).core = s.core := by
  unfold State.doorbell
  dsimp only
  split <;> simp

@[simp] theorem execDoorbellCommandWrite_keeps (fn : Nat) (value : W64) (size : Nat) (stores : HostStores) (s : State) :
    (execDoorbellCommandWrite fn value size stores s).Keeps s := by
  simp [execDoorbellCommandWrite]

@[simp] theorem execDoorbellReplyRead_keeps (fn : Nat) (value : W64) (size : Nat) (s : State) :
    (execDoorbellReplyRead fn value size s).Keeps s := by
  simp [execDoorbellReplyRead]

@[simp] theorem execDoorbellErr_keeps (fn : Nat) (s : State) : (execDoorbellErr fn s).Keeps s := by simp [execDoorbellErr]

@[simp] theorem State.adminUp_core (s : State) (fn : Nat) : (s.adminUp fn).core = s.core := by
  unfold State.adminUp
  dsimp only
  split
  · simp
  · split
    · simp
    · rename_i t ht
      have h1 := State.createQueue_core ht
      split
      · rename_i u hu
        rw [State.createQueue_core hu, h1]
      · rfl

@[simp] theorem State.closeQueue_core (s : State) (a q : Nat) : (s.closeQueue a q).core = s.core := by simp [State.closeQueue]
@[simp] theorem State.adminFree_core (s : State) (fn : Nat) : (s.adminFree fn).core = s.core := by simp [State.adminFree]

@[simp] theorem State.closeCommandRing_core (s : State) (a q : Nat) : (s.closeCommandRing a q).core = s.core := by
  simp [State.closeCommandRing]

@[simp] theorem State.adminDown_core (s : State) (fn : Nat) : (s.adminDown fn).core = s.core := by simp [State.adminDown]

@[simp] theorem execGapSeen_keeps (allot queue : Nat) (s : State) : (execGapSeen allot queue s).Keeps s := by
  unfold execGapSeen
  dsimp only
  (repeat' split) <;> simp

@[simp] theorem State.adminCtrl_core (s : State) (fn ctrl : Nat) : (s.adminCtrl fn ctrl).core = s.core := by simp [State.adminCtrl]

@[simp] theorem execAdminqEnable_keeps (fn : Nat) (ctrl : W32) (s : State) : (execAdminqEnable fn ctrl s).Keeps s := by
  simp [execAdminqEnable]

@[simp] theorem execAdminqDisable_keeps (fn : Nat) (ctrl : W32) (s : State) : (execAdminqDisable fn ctrl s).Keeps s := by
  simp [execAdminqDisable]

@[simp] theorem execTimestampLowRead_keeps (fn : Nat) (s : State) : (execTimestampLowRead fn s).Keeps s := by simp [execTimestampLowRead]

@[simp] theorem State.bar0Write_core (s : State) (fn offset size v : Nat) : (s.bar0Write fn offset size v).core = s.core := by
  simp [State.bar0Write]

@[simp] theorem execRegisterWrite_keeps (fn offset size : Nat) (value : W64) (s : State) :
    (execRegisterWrite fn offset size value s).Keeps s := by
  simp [execRegisterWrite]

@[simp] theorem execUnsupportedRequest_keeps (fn offset : Nat) (s : State) : (execUnsupportedRequest fn offset s).Keeps s := by
  simp [execUnsupportedRequest]

@[simp] theorem execNop_keeps (id : Nat) (s : State) : (execNop id s).Keeps s := by simp [execNop]

@[simp] theorem execQCreate_keeps (id : Nat) (s : State) : (execQCreate id s).Keeps s := by
  refine State.deant_keeps (fun t c => ?_)
  split
  · simp
  · split
    · rename_i u hu
      simp [State.createQueue_core hu]
    · simp

@[simp] theorem execQDestroy_keeps (id : Nat) (s : State) : (execQDestroy id s).Keeps s := by
  refine State.deant_keeps (fun t c => ?_)
  split
  · simp
  · split
    · simp
    · split <;> simp

@[simp] theorem execFlushRest_keeps (id : Nat) (s : State) : (execFlushRest id s).Keeps s := by
  refine State.deant_keeps (fun t c => ?_)
  split
  · simp
  · split
    · simp
    · split <;> simp

@[simp] theorem execWatch_keeps (id : Nat) (s : State) : (execWatch id s).Keeps s := by
  unfold execWatch
  split
  · simp
  · exact (Out.keeps_next _ _).mpr (State.judged_core _ _ (by split <;> simp))

@[simp] theorem execWatchTimeout_keeps (id : Nat) (s : State) : (execWatchTimeout id s).Keeps s := by
  unfold execWatchTimeout
  split <;> simp

@[simp] theorem execBarrier_keeps (id : Nat) (s : State) : (execBarrier id s).Keeps s := by simp [execBarrier]

@[simp] theorem execTokenWait_keeps (id : Nat) (s : State) : (execTokenWait id s).Keeps s := by
  unfold execTokenWait
  split
  · simp
  · exact (Out.keeps_next _ _).mpr (State.judged_core _ _ (by split <;> simp))

@[simp] theorem execTokenWaitTimeout_keeps (id : Nat) (s : State) : (execTokenWaitTimeout id s).Keeps s := by
  unfold execTokenWaitTimeout
  split <;> simp

/-! ### Observe -/

@[simp] theorem State.orderReady_keeps {s : State} (src : Src) {op : Nat} {fs : State → Cmd → List Fld} {body : State → Cmd → State}
    (h : ∀ t c, (body t c).core = t.core) : Out.Keeps s (s.orderReady src op fs body) := by
  unfold State.orderReady
  (repeat' split) <;> simp [h]

theorem State.orderReady_endure {s : State} (src : Src) {op : Nat} {fs : State → Cmd → List Fld} {body : State → Cmd → State}
    (h : ∀ t c, t.core = s.core → s.Endures (body t c)) : Out.Endure s (s.orderReady src op fs body) := by
  unfold State.orderReady
  split
  · exact State.order_endure _ h
  · split
    · exact Out.endure_next (.refl s)
    · split
      · exact State.order_endure _ h
      · exact Out.endure_next (.refl s)

@[simp] theorem State.ctrConfig_core (s : State) (c : Cmd) : (s.ctrConfig c).core = s.core := by
  unfold State.ctrConfig
  dsimp only
  (repeat' split) <;> simp

@[simp] theorem execCtrConfig_keeps (src : Src) (s : State) : (execCtrConfig src s).Keeps s := by
  unfold execCtrConfig
  split
  · simp
  · split
    · simp
    · split
      · simp
      · exact State.deant_keeps (fun t c => by split <;> simp)

@[simp] theorem execCtrRead_keeps (id : Nat) (s : State) : (execCtrRead id s).Keeps s := by simp [execCtrRead]
@[simp] theorem State.armRings_core (s : State) : s.armRings.core = s.core := by simp [State.armRings]
@[simp] theorem State.stopRings_core (s : State) : s.stopRings.core = s.core := by simp [State.stopRings]
@[simp] theorem State.traceArm_core (s : State) (c : Cmd) : (s.traceArm c).core = s.core := by simp [State.traceArm]

@[simp] theorem State.traceConfig_core (s : State) (c : Cmd) : (s.traceConfig c).core = s.core := by
  unfold State.traceConfig
  split <;> simp

@[simp] theorem execTraceConfig_keeps (id : Nat) (s : State) : (execTraceConfig id s).Keeps s := by simp [execTraceConfig]
@[simp] theorem execTraceRead_keeps (id : Nat) (s : State) : (execTraceRead id s).Keeps s := by simp [execTraceRead]

@[simp] theorem State.measure_core (s : State) (p : PeerTiming) : (s.measure p).1.core = s.core := by
  unfold State.measure
  split <;> simp

@[simp] theorem State.measureRange_core (s : State) (c : Cmd) (timing : List PeerTiming) : (s.measureRange c timing).core = s.core := by
  unfold State.measureRange
  dsimp only
  rw [State.finishOk_core, foldl_core_fst (fun z p => by simp)]

@[simp] theorem State.timeRead_core (s : State) (c : Cmd) : (s.timeRead c).core = s.core := by simp [State.timeRead]

@[simp] theorem execTimeMeasure_keeps (id : Nat) (timing : List PeerTiming) (s : State) : (execTimeMeasure id timing s).Keeps s := by
  unfold execTimeMeasure
  split <;> simp

@[simp] theorem execOffsetMeasurement_keeps (timing : PeerTiming) (s : State) : (execOffsetMeasurement timing s).Keeps s := by
  unfold execOffsetMeasurement
  split <;> simp

/-! ### Tensors -/

@[simp] theorem State.clearLifts_core (s : State) (a h : Nat) (units : List Nat) : (s.clearLifts a h units).core = s.core := by
  unfold State.clearLifts
  dsimp only
  (repeat' split) <;> simp [foldl_core]

@[simp] theorem State.addLifts_core (s : State) (a : Nat) (o : Obj) (i : Nat) (ls : List (Nat × Nat)) :
    (s.addLifts a o i ls).core = s.core := by
  unfold State.addLifts
  split <;> simp

@[simp] theorem State.writeBlock_core (s : State) (a h i : Nat) (blkmax : Bool) (r : CvOut) :
    (s.writeBlock a h i blkmax r).core = s.core := by
  unfold State.writeBlock
  dsimp only
  split <;> simp

@[simp] theorem State.writeSpilled_core (s : State) (a : Nat) (o : Obj) (c : ChanBind) (list : List (Nat × List Nat)) (i : Nat) (xs : List (Nat × Fp)) :
    (s.writeSpilled a o c list i xs).core = s.core := by
  unfold State.writeSpilled
  dsimp only
  rw [foldl_core (fun t x => by split <;> simp)]
  simp

@[simp] theorem WrAcc.unit_core (acc : WrAcc) (a h : Nat) (w : WrSpec) (draws : Nat → Option Nat) (unit : Nat) (xs : List CvIn) :
    (acc.unit a h w draws unit xs).s.core = acc.s.core := by
  unfold WrAcc.unit
  dsimp only
  rw [foldl_core_of WrAcc.s (fun z x => by simp)]
  cases (acc.s.objD a h).chan <;> simp

@[simp] theorem State.writeUnits_core (s : State) (a h : Nat) (w : WrSpec) (draws : Nat → Option Nat) (units : List (Nat × List CvIn)) :
    (s.writeUnits a h w draws units).s.core = s.core := by
  unfold State.writeUnits
  rw [foldl_core_of WrAcc.s (fun z x => by simp)]
  simp

@[simp] theorem State.modLayer_core (s : State) (a layer : Nat) (f : Layer → Layer) : (s.modLayer a layer f).core = s.core := by
  simp [State.modLayer]

@[simp] theorem State.gather_core (s : State) (a layer slot : Nat) (st : SlotStats) : (s.gather a layer slot st).core = s.core := by
  simp [State.gather]

@[simp] theorem State.countConv_core (s : State) (c : Cmd) (h layer : Option Nat) (st : SlotStats) :
    (s.countConv c h layer st).core = s.core := by
  simp [State.countConv]

@[simp] theorem State.meetPoison_core (s : State) (c : Cmd) (p : Nat × Nat × Nat × Nat) : (s.meetPoison c p).core = s.core := by
  simp [State.meetPoison]

@[simp] theorem State.healRange_core (s : State) (r : Range) : (s.healRange r).core = s.core := by simp [State.healRange]

/-! ### Vector -/

@[simp] theorem State.progLoad_core (s : State) (c : Cmd) (pid : Nat) : (s.progLoad c pid).core = s.core := by
  unfold State.progLoad
  dsimp only
  (repeat' split) <;> simp

@[simp] theorem execProgLoad_keeps (id _pid : Nat) (s : State) : (execProgLoad id _pid s).Keeps s := by simp [execProgLoad]

@[simp] theorem State.launch_core (s : State) (c : Cmd) (p : Prog) (b : List Byte) (es : List Nat) : (s.launch c p b es).core = s.core := by
  simp [State.launch]

@[simp] theorem execProgRun_keeps (id : Nat) (engines : List Nat) (s : State) : (execProgRun id engines s).Keeps s := by
  unfold execProgRun
  exact State.deant_keeps (fun t c => by dsimp only; (repeat' split) <;> simp)

@[simp] theorem State.modEng_core (s : State) (h e : Nat) (f : Engine → Engine) : (s.modEng h e f).core = s.core := by simp [State.modEng]

@[simp] theorem State.retire_core (s : State) (x : Ctx) (pc : Nat) (f : Engine → Engine) : (s.retire x pc f).core = s.core := by
  simp [State.retire]

@[simp] theorem State.instr_keeps {s : State} (h e form op : Nat) {body : State → Ctx → State} (hb : ∀ t x, (body t x).core = t.core) :
    Out.Keeps s (s.instr h e form op body) := by
  unfold State.instr
  (repeat' split) <;> simp [hb]

@[simp] theorem State.vecInstr_keeps {s : State} (h e op : Nat) {body : State → Ctx → State} (hb : ∀ t x, (body t x).core = t.core) :
    Out.Keeps s (s.vecInstr h e op body) := by
  unfold State.vecInstr
  (repeat' split) <;> simp [hb]

@[simp] theorem State.stopRun_core (s : State) (x : Ctx) (access : Bool) : (s.stopRun x access).core = s.core := by simp [State.stopRun]

@[simp] theorem execProgBudgetExhausted_keeps (hearth engine : Nat) (s : State) : (execProgBudgetExhausted hearth engine s).Keeps s := by
  unfold execProgBudgetExhausted
  split <;> simp

@[simp] theorem State.runWrote_core (s : State) (x : Ctx) : (s.runWrote x).core = s.core := by simp [State.runWrote]
@[simp] theorem State.writeV_core (s : State) (x : Ctx) (new : List W32) : (s.writeV x new).core = s.core := by simp [State.writeV]

@[simp] theorem State.arith_core (s : State) (x : Ctx) (f : Fp → Fp → Fp → Fp) (g : ℤ → ℤ → ℤ) : (s.arith x f g).core = s.core := by
  simp [State.arith]

/-! ### VecOps -/

@[simp] theorem execAdd_keeps (hearth engine : Nat) (s : State) : (execAdd hearth engine s).Keeps s := by simp [execAdd]
@[simp] theorem execSub_keeps (hearth engine : Nat) (s : State) : (execSub hearth engine s).Keeps s := by simp [execSub]
@[simp] theorem execMul_keeps (hearth engine : Nat) (s : State) : (execMul hearth engine s).Keeps s := by simp [execMul]
@[simp] theorem execFma_keeps (hearth engine : Nat) (s : State) : (execFma hearth engine s).Keeps s := by simp [execFma]
@[simp] theorem execMin_keeps (hearth engine : Nat) (s : State) : (execMin hearth engine s).Keeps s := by simp [execMin]
@[simp] theorem execMax_keeps (hearth engine : Nat) (s : State) : (execMax hearth engine s).Keeps s := by simp [execMax]
@[simp] theorem execAbs_keeps (hearth engine : Nat) (s : State) : (execAbs hearth engine s).Keeps s := by simp [execAbs]
@[simp] theorem execSel_keeps (hearth engine : Nat) (s : State) : (execSel hearth engine s).Keeps s := by simp [execSel]

@[simp] theorem State.compare_core (s : State) (x : Ctx) (f : Fp → Fp → Bool) (g : ℤ → ℤ → Bool) : (s.compare x f g).core = s.core := by
  simp [State.compare]

@[simp] theorem execCmplt_keeps (hearth engine : Nat) (s : State) : (execCmplt hearth engine s).Keeps s := by simp [execCmplt]
@[simp] theorem execCmpeq_keeps (hearth engine : Nat) (s : State) : (execCmpeq hearth engine s).Keeps s := by simp [execCmpeq]
@[simp] theorem execCvti_keeps (hearth engine : Nat) (s : State) : (execCvti hearth engine s).Keeps s := by simp [execCvti]
@[simp] theorem execWiden_keeps (hearth engine : Nat) (s : State) : (execWiden hearth engine s).Keeps s := by simp [execWiden]
@[simp] theorem execNarrow_keeps (hearth engine : Nat) (s : State) : (execNarrow hearth engine s).Keeps s := by simp [execNarrow]
@[simp] theorem State.unary_core (s : State) (x : Ctx) (f : Fp → Fp) : (s.unary x f).core = s.core := by simp [State.unary]
@[simp] theorem execExp_keeps (hearth engine : Nat) (s : State) : (execExp hearth engine s).Keeps s := by simp [execExp]
@[simp] theorem execExp2_keeps (hearth engine : Nat) (s : State) : (execExp2 hearth engine s).Keeps s := by simp [execExp2]
@[simp] theorem execLog_keeps (hearth engine : Nat) (s : State) : (execLog hearth engine s).Keeps s := by simp [execLog]
@[simp] theorem execLog2_keeps (hearth engine : Nat) (s : State) : (execLog2 hearth engine s).Keeps s := by simp [execLog2]
@[simp] theorem execRcp_keeps (hearth engine : Nat) (s : State) : (execRcp hearth engine s).Keeps s := by simp [execRcp]
@[simp] theorem execRsqrt_keeps (hearth engine : Nat) (s : State) : (execRsqrt hearth engine s).Keeps s := by simp [execRsqrt]
@[simp] theorem execSqrt_keeps (hearth engine : Nat) (s : State) : (execSqrt hearth engine s).Keeps s := by simp [execSqrt]

@[simp] theorem State.reduce_core (s : State) (x : Ctx) (f : Fp → Fp → Fp) (g : ℤ → ℤ → ℤ) (neutral neutralInt : W32) :
    (s.reduce x f g neutral neutralInt).core = s.core := by
  simp [State.reduce]

@[simp] theorem execRedsum_keeps (hearth engine : Nat) (s : State) : (execRedsum hearth engine s).Keeps s := by simp [execRedsum]
@[simp] theorem execRedmax_keeps (hearth engine : Nat) (s : State) : (execRedmax hearth engine s).Keeps s := by simp [execRedmax]
@[simp] theorem execSrnd_keeps (hearth engine : Nat) (s : State) : (execSrnd hearth engine s).Keeps s := by simp [execSrnd]

@[simp] theorem State.load_core (s : State) (x : Ctx) (gather : Bool) (els : Nat → List Nat) (word : List W32 → W32) :
    (s.load x gather els word).core = s.core := by
  unfold State.load
  dsimp only
  split <;> simp

@[simp] theorem execLd_keeps (hearth engine : Nat) (s : State) : (execLd hearth engine s).Keeps s := by simp [execLd]
@[simp] theorem execLdh_keeps (hearth engine : Nat) (s : State) : (execLdh hearth engine s).Keeps s := by simp [execLdh]
@[simp] theorem execGather_keeps (hearth engine : Nat) (s : State) : (execGather hearth engine s).Keeps s := by simp [execGather]

@[simp] theorem State.storeBlock_core (s : State) (a h i : Nat) (nonsat : Bool) (draws : Nat → Option Nat) (vals : List (Option Fp)) :
    (s.storeBlock a h i nonsat draws vals).1.core = s.core := by
  unfold State.storeBlock
  dsimp only
  split <;> simp

@[simp] theorem State.stored_core (s : State) (x : Ctx) (st : SlotStats) (els : Nat) (scatter : Bool) (rs : List Range) :
    (s.stored x st els scatter rs).core = s.core := by
  simp [State.stored, foldl_core]

@[simp] theorem State.storeRun_core (s : State) (x : Ctx) (b : Nat) (vals : List (Option Fp)) : (s.storeRun x b vals).core = s.core := by
  unfold State.storeRun
  dsimp only
  generalize State.poisonPartOf _ _ = p
  cases p
  · dsimp only
    rw [State.stored_core, foldl_core_fst (fun z e => by simp)]
  · simp

@[simp] theorem execSt_keeps (hearth engine : Nat) (s : State) : (execSt hearth engine s).Keeps s := by simp [execSt]
@[simp] theorem execSth_keeps (hearth engine : Nat) (s : State) : (execSth hearth engine s).Keeps s := by simp [execSth]

@[simp] theorem State.scatterOne_core (s : State) (x : Ctx) (acc : SlotStats) (i : Nat) : (s.scatterOne x acc i).1.core = s.core := by
  simp [State.scatterOne]

@[simp] theorem execScatter_keeps (hearth engine : Nat) (s : State) : (execScatter hearth engine s).Keeps s := by
  refine State.instr_keeps _ _ _ _ (fun t x => ?_)
  dsimp only
  split
  · split
    · simp
    · rw [State.stored_core, foldl_core_fst (fun z i => by simp)]
  · simp

@[simp] theorem State.writeS_core (s : State) (x : Ctx) (v : W64) : (s.writeS x v).core = s.core := by simp [State.writeS]
@[simp] theorem execSAdd_keeps (hearth engine : Nat) (s : State) : (execSAdd hearth engine s).Keeps s := by simp [execSAdd]
@[simp] theorem execSSub_keeps (hearth engine : Nat) (s : State) : (execSSub hearth engine s).Keeps s := by simp [execSSub]
@[simp] theorem execSMul_keeps (hearth engine : Nat) (s : State) : (execSMul hearth engine s).Keeps s := by simp [execSMul]
@[simp] theorem execAnd_keeps (hearth engine : Nat) (s : State) : (execAnd hearth engine s).Keeps s := by simp [execAnd]
@[simp] theorem execOr_keeps (hearth engine : Nat) (s : State) : (execOr hearth engine s).Keeps s := by simp [execOr]
@[simp] theorem execShl_keeps (hearth engine : Nat) (s : State) : (execShl hearth engine s).Keeps s := by simp [execShl]
@[simp] theorem execShr_keeps (hearth engine : Nat) (s : State) : (execShr hearth engine s).Keeps s := by simp [execShr]

@[simp] theorem State.writeF_core (s : State) (x : Ctx) (f : Fp → Fp → Fp) (a b : W32) : (s.writeF x f a b).core = s.core := by
  simp [State.writeF]

@[simp] theorem execFadd_keeps (hearth engine : Nat) (s : State) : (execFadd hearth engine s).Keeps s := by simp [execFadd]
@[simp] theorem execFmul_keeps (hearth engine : Nat) (s : State) : (execFmul hearth engine s).Keeps s := by simp [execFmul]
@[simp] theorem execFrsqrt_keeps (hearth engine : Nat) (s : State) : (execFrsqrt hearth engine s).Keeps s := by simp [execFrsqrt]
@[simp] theorem execMov_keeps (hearth engine : Nat) (s : State) : (execMov hearth engine s).Keeps s := by simp [execMov]
@[simp] theorem execJmp_keeps (hearth engine : Nat) (s : State) : (execJmp hearth engine s).Keeps s := by simp [execJmp]
@[simp] theorem execJnz_keeps (hearth engine : Nat) (s : State) : (execJnz hearth engine s).Keeps s := by simp [execJnz]
@[simp] theorem execJlt_keeps (hearth engine : Nat) (s : State) : (execJlt hearth engine s).Keeps s := by simp [execJlt]
@[simp] theorem execVecBarrier_keeps (hearth engine : Nat) (s : State) : (execVecBarrier hearth engine s).Keeps s := by simp [execVecBarrier]

@[simp] theorem State.runEnds_core (s : State) (x : Ctx) : (s.runEnds x).core = s.core := by
  unfold State.runEnds
  split <;> simp

@[simp] theorem execHalt_keeps (hearth engine : Nat) (s : State) : (execHalt hearth engine s).Keeps s := by simp [execHalt]

/-! ### Objects -/

@[simp] theorem State.rehome_core (s : State) (a h tier hearth : Nat) : (s.rehome a h tier hearth).core = s.core := by
  unfold State.rehome
  split <;> simp

@[simp] theorem State.evictOne_core (s : State) (c : Cmd) (e : Nat × Bool) : (s.evictOne c e).core = s.core := by simp [State.evictOne]
@[simp] theorem State.evict_core (s : State) (c : Cmd) (pl : EvictPlan) : (s.evict c pl).core = s.core := by simp [State.evict, foldl_core]

@[simp] theorem execObjCreate_keeps (id _index : Nat) (s : State) : (execObjCreate id _index s).Keeps s := by
  unfold execObjCreate
  exact State.deant_keeps (fun t c => by dsimp only; (repeat' split) <;> simp)

@[simp] theorem State.freeObj_core (s : State) (a h : Nat) : (s.freeObj a h).core = s.core := by simp [State.freeObj]
@[simp] theorem execObjFree_keeps (id : Nat) (s : State) : (execObjFree id s).Keeps s := by simp [execObjFree]

@[simp] theorem execObjMove_keeps (id : Nat) (s : State) : (execObjMove id s).Keeps s := by
  unfold execObjMove
  exact State.deant_keeps (fun t c => by dsimp only; (repeat' split) <;> simp)

@[simp] theorem execObjPin_keeps (id : Nat) (s : State) : (execObjPin id s).Keeps s := by simp [execObjPin]
@[simp] theorem State.carry_core (s : State) (a src so dst d n : Nat) : (s.carry a src so dst d n).core = s.core := by simp [State.carry]

@[simp] theorem State.copyObj_core (s : State) (c : Cmd) : (s.copyObj c).core = s.core := by
  unfold State.copyObj
  dsimp only
  split <;> simp

@[simp] theorem State.hostFailed_core (s : State) (c : Cmd) (m : Nat) : (s.hostFailed c m).core = s.core := by simp [State.hostFailed]
@[simp] theorem State.copyIn_core (s : State) (c : Cmd) : (s.copyIn c).core = s.core := by simp [State.copyIn]

@[simp] theorem State.copyOut_core (s : State) (c : Cmd) : (s.copyOut c).core = s.core := by
  unfold State.copyOut
  dsimp only
  split <;> simp

@[simp] theorem State.copyShadow_core (s : State) (c : Cmd) : (s.copyShadow c).core = s.core := by simp [State.copyShadow]

@[simp] theorem execObjCopy_keeps (id : Nat) (s : State) : (execObjCopy id s).Keeps s := by
  unfold execObjCopy
  exact State.deant_keeps (fun t c => by split <;> simp)

@[simp] theorem State.dropCopies_core (s : State) (c : Cmd) : (s.dropCopies c).core = s.core := by simp [State.dropCopies, foldl_core]
@[simp] theorem State.setPools_core (s : State) (c : Cmd) : (s.setPools c).core = s.core := by simp [State.setPools]

@[simp] theorem State.setRegions_core (s : State) (c : Cmd) : (s.setRegions c).core = s.core := by
  unfold State.setRegions
  dsimp only
  split
  · simp
  · simp only [State.finishOk_core, State.writeConfig_core]
    rfl

@[simp] theorem State.poolSet_core (s : State) (c : Cmd) : (s.poolSet c).core = s.core := by simp [State.poolSet]

@[simp] theorem execPoolSet_keeps (src : Src) (s : State) : (execPoolSet src s).Keeps s := by
  cases src with
  | cmd id => simp [execPoolSet]
  | mgmt p =>
    dsimp only [execPoolSet]
    split <;> exact (State.order_keeps _ (fun t c => by simp)).of_core (by simp)

/-! ### Tempers -/

@[simp] theorem CopyAcc.unit_core (acc : CopyAcc) (a : Nat) (l : Layer) (r : Role) (h : Nat) (ef : Bool) (list : List (Nat × List Nat)) (u : Nat) :
    (acc.unit a l r h ef list u).s.core = acc.s.core := by
  unfold CopyAcc.unit
  dsimp only
  rw [foldl_core_of CopyAcc.s (fun z x => by rfl)]
  split <;> simp

@[simp] theorem State.countCopy_core (s : State) (c : Cmd) (m : Obj) (copy : Tensor) (ef : Bool) :
    (s.countCopy c m copy ef).core = s.core := by
  simp [State.countCopy]

@[simp] theorem State.writeCopy_core (s : State) (c : Cmd) (a layer : Nat) : (s.writeCopy c a layer).core = s.core := by
  unfold State.writeCopy
  split
  · rfl
  · dsimp only
    simp only [State.countCopy_core, State.countConv_core, State.modLayer_core]
    exact foldl_core_of CopyAcc.s (fun z x => by simp) _ _

@[simp] theorem State.copyFrom_core (s : State) (c : Cmd) (a layer : Nat) : (s.copyFrom c a layer).core = s.core := by simp [State.copyFrom]

/-! ### Tiles -/

theorem State.takeBuffers_core {a id h : Nat} {ns : List Nat} {s t : State} (ht : s.takeBuffers a id h ns = some t) : t.core = s.core := by
  induction ns generalizing s with
  | nil =>
    cases ht
    rfl
  | cons n r ih =>
    unfold State.takeBuffers at ht
    split at ht
    · simp [ih ht]
    · split at ht
      · simp [ih ht]
      · cases ht

@[simp] theorem State.handOver_core (s : State) (c : Cmd) (h seq : Nat) (ds : List Nat) : (s.handOver c h seq ds).core = s.core := by
  simp [State.handOver]

@[simp] theorem execTileRun_keeps (id seq : Nat) (s : State) : (execTileRun id seq s).Keeps s := by
  refine State.deant_keeps (fun t c => ?_)
  dsimp only
  rw [State.core_ite]
  cases t.poisonOf _ with
  | some p => simp
  | none =>
    cases t.badDesc c.allot (t.descsOf c) with
    | some j => simp
    | none =>
      cases t.reachable c (t.namesNow c) with
      | some v => simp
      | none =>
        cases hu : t.takeBuffers c.allot id (c.par 0xC 1) ((groupHeads (t.descsOf c)).flatMap (headNeeds (t.descsOf c))) with
        | none => simp
        | some u => simp [State.takeBuffers_core hu]

@[simp] theorem execGridLoad_keeps (id : Nat) (s : State) : (execGridLoad id s).Keeps s := by simp [execGridLoad]

/-! ### TileOps -/

@[simp] theorem State.countRows_core (s : State) (c : Cmd) (h : Nat) (o : Obj) (rows ext : Nat) :
    (s.countRows c h o rows ext).core = s.core := by
  simp [State.countRows]

@[simp] theorem State.countOp_core (s : State) (c : Cmd) (h a d : Nat) (o : OpRec) : (s.countOp c h a d o).core = s.core := by
  simp [State.countOp]

@[simp] theorem State.noteFetch_core (s : State) (c : Cmd) (h a d : Nat) (x : Side) (f : FetchAcc) :
    (s.noteFetch c h a d x f).core = s.core := by
  unfold State.noteFetch
  split <;> simp

@[simp] theorem State.issueOp_core (s : State) (c : Cmd) (h : Nat) (l : TileList) (j anvil : Nat) :
    (s.issueOp c h l j anvil).core = s.core := by
  unfold State.issueOp
  dsimp only
  (repeat' split) <;> simp

@[simp] theorem execTileOpIssue_keeps (hearth seq anvil : Nat) (s : State) : (execTileOpIssue hearth seq anvil s).Keeps s := by
  unfold execTileOpIssue
  dsimp only
  (repeat' split) <;> simp

@[simp] theorem Drain.unit_core (x : Drain) (pre : State) (spec : WrSpec) (i : Nat) (fed : Option Nat) (acc : DrainAcc) (u : Nat) :
    (x.unit pre spec i fed acc u).w.s.core = acc.w.s.core := by
  cases fed <;> simp [Drain.unit]

@[simp] theorem State.drain_core (s : State) (x : Drain) : (s.drain x).1.core = s.core := by
  unfold State.drain
  extract_lets a hd spec units s0 acc t t1
  have hacc : acc.w.s.core = s.core :=
    (foldl_core_of (fun z : DrainAcc => z.w.s)
      (fun z e => foldl_core_of (fun z : DrainAcc => z.w.s) (fun z u => x.unit_core ..) _ _) _ _).trans (by simp [s0])
  have ht : t.core = s.core := (foldl_core (fun z r => State.healRange_core z r) _ _).trans hacc
  have h1 : t1.core = s.core := by
    unfold t1
    split <;> simp [ht]
  split <;> simp [h1]

@[simp] theorem State.releaseGroup_core (s : State) (l : TileList) (d : Nat) : (s.releaseGroup l d).core = s.core := by
  unfold State.releaseGroup
  dsimp only
  split <;> simp

@[simp] theorem State.noteOps_core (s : State) (x : Drain) (acc : DrainAcc) : (s.noteOps x acc).core = s.core := by
  unfold State.noteOps
  dsimp only
  (repeat' split) <;> simp [foldl_core]

@[simp] theorem State.endList_core (s : State) (h id : Nat) : (s.endList h id).core = s.core := by
  unfold State.endList
  split <;> simp

@[simp] theorem State.finishOps_core (s : State) (x : Drain) : (s.finishOps x).core = s.core := by
  unfold State.finishOps
  dsimp only
  (repeat' split) <;> simp [foldl_core]

@[simp] theorem State.rerunOps_core (s : State) (x : Drain) : (s.rerunOps x).core = s.core := by simp [State.rerunOps]

@[simp] theorem State.judgeOps_core (s : State) (x : Drain) : (s.judgeOps x).core = s.core := by
  unfold State.judgeOps
  split <;> simp

@[simp] theorem State.foldIntoO_core (s : State) (x : Drain) (n : Nat) : (s.foldIntoO x n).core = s.core := by
  unfold State.foldIntoO
  dsimp only
  (repeat' split) <;> simp [foldl_core]

@[simp] theorem execTileOpComplete_keeps (id op : Nat) (s : State) : (execTileOpComplete id op s).Keeps s := by
  unfold execTileOpComplete
  dsimp only
  (repeat' split) <;> simp

/-! ### Steering -/

theorem State.chargeResiduals_core {a : Nat} {x : Temper} {ls : List (Nat × Layer)} {s t : State} (h : s.chargeResiduals a x ls = some t) :
    t.core = s.core := by
  induction ls generalizing s with
  | nil =>
    cases h
    rfl
  | cons e r ih =>
    unfold State.chargeResiduals at h
    dsimp only at h
    split at h
    · exact ih h
    · split at h
      · exact ih h
      · split at h
        · exact (ih h).trans (by simp)
        · cases h

@[simp] theorem State.addRecs_core (s : State) (c : Cmd) (l : List PendRec) : (s.addRecs c l).core = s.core := by simp [State.addRecs]

@[simp] theorem State.temperSet_core (s : State) (c : Cmd) : (s.temperSet c).core = s.core := by
  unfold State.temperSet
  extract_lets a kind ref rs x y n
  split
  · simp
  · split
    · simp
    · split
      · simp
      · split
        · simp
        · rename_i ht
          simp [State.chargeResiduals_core ht]

@[simp] theorem execTemperSet_keeps (id : Nat) (s : State) : (execTemperSet id s).Keeps s := by simp [execTemperSet]

@[simp] theorem execSpillSet_keeps (id : Nat) (s : State) : (execSpillSet id s).Keeps s := by
  refine State.deant_keeps (fun t c => ?_)
  dsimp only
  (repeat' split) <;> try simp
  rename_i hu
  exact State.chargeResiduals_core hu

@[simp] theorem execScaleSet_keeps (id : Nat) (s : State) : (execScaleSet id s).Keeps s := by simp [execScaleSet]
@[simp] theorem State.steerAttn_core (s : State) (a : Nat) : (s.steerAttn a).core = s.core := by simp [State.steerAttn]

@[simp] theorem State.writeUnitsAt_core (s : State) (c : Cmd) (bs : List Byte) : (s.writeUnitsAt c bs).core = s.core := by
  simp [State.writeUnitsAt]

@[simp] theorem execTemperRead_keeps (id : Nat) (s : State) : (execTemperRead id s).Keeps s := by simp [execTemperRead]
@[simp] theorem execStatsRead_keeps (id : Nat) (s : State) : (execStatsRead id s).Keeps s := by simp [execStatsRead]

/-! ### Marks -/

@[simp] theorem State.modTemper_core (s : State) (a : Nat) (f : Temper → Temper) : (s.modTemper a f).core = s.core := by
  simp [State.modTemper]

@[simp] theorem State.modLayers_core (s : State) (a : Nat) (f : Nat → Layer → Layer) : (s.modLayers a f).core = s.core := by
  simp [State.modLayers]

@[simp] theorem State.closeStep_core (s : State) (a : Nat) : (s.closeStep a).core = s.core := by simp [State.closeStep]

@[simp] theorem State.syncResidual_core (s : State) (a i oldMaster : Nat) : (s.syncResidual a i oldMaster).core = s.core := by
  simp [State.syncResidual]

@[simp] theorem State.dropLayerCharges_core (s : State) (a : Nat) : (s.dropLayerCharges a).core = s.core := by simp [State.dropLayerCharges]

@[simp] theorem State.traceRung_core (s : State) (c : Cmd) (i old new : Nat) : (s.traceRung c i old new).core = s.core := by
  simp [State.traceRung]

@[simp] theorem State.applyRecords_core (s : State) (c : Cmd) (rs : List PendRec) : (s.applyRecords c rs).core = s.core := by
  unfold State.applyRecords
  dsimp only
  rw [foldl_core (fun t e => by split <;> simp), foldl_core (fun t i => by simp), State.dropLayerCharges_core,
    foldl_core (fun t r => by split <;> (try split) <;> simp)]
  simp

@[simp] theorem State.judgeAll_core (s : State) (a : Nat) (placed : List Nat) : (s.judgeAll a placed).1.core = s.core := by
  unfold State.judgeAll
  split
  · rfl
  · exact foldl_core_fst (fun z e => by dsimp only; split <;> simp) _ _

@[simp] theorem State.stormTest_core (s : State) (a : Nat) (reqs : List Nat) : (s.stormTest a reqs).1.core = s.core := by
  unfold State.stormTest
  split <;> simp

@[simp] theorem State.fitCopy_core (s : State) (a i rung : Nat) : (s.fitCopy a i rung).1.core = s.core := by
  unfold State.fitCopy
  dsimp only
  (repeat' split) <;> simp

@[simp] theorem Rungs.settleCopy_core (x : Rungs) (a i : Nat) : (x.settleCopy a i).s.core = x.s.core := by
  unfold Rungs.settleCopy
  dsimp only
  split <;> simp

@[simp] theorem Rungs.move_core (x : Rungs) (c : Cmd) (i : Nat) (up : Bool) : (x.move c i up).s.core = x.s.core := by
  unfold Rungs.move
  cases x.s.layer? c.allot i with
  | none => rfl
  | some l => simp [apply_ite Rungs.s]

@[simp] theorem Rungs.noteForm_core (x : Rungs) (a i : Nat) : (x.noteForm a i).s.core = x.s.core := by
  unfold Rungs.noteForm
  dsimp only
  split <;> simp

@[simp] theorem State.moveRungs_core (s : State) (c : Cmd) (js : List Judged) : (s.moveRungs c js).s.core = s.core := by
  unfold State.moveRungs
  dsimp only
  rw [foldl_core_of Rungs.s (fun z e => by simp), foldl_core_of Rungs.s (fun z e => by simp), foldl_core_of Rungs.s (fun z e => by simp),
    foldl_core_of Rungs.s (fun z e => by simp)]

@[simp] theorem State.chooseLists_core (s : State) (a i : Nat) : (s.chooseLists a i).1.core = s.core := by
  unfold State.chooseLists
  split
  · rfl
  · extract_lets p useA useW o st step r
    have hr : r.1.core = s.core := foldl_core_fst (fun z w => by dsimp only [step]; split <;> simp) _ _
    (repeat' split) <;> simp [hr]

@[simp] theorem State.setScales_core (s : State) (a : Nat) (rs : List PendRec) : (s.setScales a rs).1.core = s.core := by
  unfold State.setScales
  dsimp only
  rw [foldl_core_fst (fun z e => by simp)]
  simp only [State.modLayers_core]
  exact foldl_core (fun t r => by split <;> simp) _ _

@[simp] theorem State.writeCopies_core (s : State) (c : Cmd) (is : List Nat) : (s.writeCopies c is).core = s.core := by
  induction is generalizing s with
  | nil => rfl
  | cons i r ih =>
    unfold State.writeCopies
    dsimp only
    split
    · exact ih s
    · split
      · exact ih s
      · split
        · rw [State.meetPoison_core, State.modCmd_core, foldl_core (fun t k => by simp)]
        · simp [ih]

/-! ### Update -/

@[simp] theorem State.writeRef_core (s : State) (c : Cmd) (off k : Nat) (bs : List Byte) : (s.writeRef c off k bs).core = s.core := by
  simp [State.writeRef]

@[simp] theorem State.putNorm_core (s : State) (c : Cmd) (n : Norm) : (s.putNorm c n).core = s.core := by
  unfold State.putNorm
  dsimp only
  split <;> simp

@[simp] theorem State.endNorm_core (s : State) (gid k : Nat) : (s.endNorm gid k).core = s.core := by simp [State.endNorm]
@[simp] theorem State.failNorm_core (s : State) (c : Cmd) (src : Nat) : (s.failNorm c src).core = s.core := by simp [State.failNorm]

@[simp] theorem State.normGo_core (s : State) (c : Cmd) (sums : List (Nat × W32)) : (s.normGo c sums).core = s.core := by
  simp [State.normGo]

@[simp] theorem State.normBegin_core (s : State) (c : Cmd) (q : W32) (nonfinite : Nat) (sums : List (Nat × W32)) :
    (s.normBegin c q nonfinite sums).core = s.core := by
  unfold State.normBegin
  dsimp only
  (repeat' split) <;> simp [foldl_core]

@[simp] theorem State.updNorm_core (s : State) (c : Cmd) (ps : List Param) (sums : List (Nat × W32)) :
    (s.updNorm c ps sums).core = s.core := by
  unfold State.updNorm
  dsimp only
  (repeat' split) <;> simp [foldl_core]

@[simp] theorem State.loseNorms_core (s : State) (peer src : Nat) : (s.loseNorms peer src).core = s.core := by
  simp [State.loseNorms, foldl_core]

@[simp] theorem State.normsGo_core (s : State) : s.normsGo.core = s.core := by simp [State.normsGo, foldl_core]

@[simp] theorem execUpdNorm_keeps (id : Nat) (sums : List (Nat × W32)) (s : State) : (execUpdNorm id sums s).Keeps s := by
  unfold execUpdNorm
  split
  · simp
  · refine State.deant_keeps (fun t c => ?_)
    dsimp only
    cases t.poisonOf [listRange c] with
    | some p => simp
    | none =>
      cases t.badParamRec c (t.paramsOf c) with
      | some j => simp
      | none => cases t.reachable c (t.namesNow c) <;> simp

@[simp] theorem execUpdRule_keeps (id : Nat) (s : State) : (execUpdRule id s).Keeps s := by
  unfold execUpdRule
  exact State.deant_keeps (fun t c => by dsimp only; (repeat' split) <;> simp)

@[simp] theorem State.freezeOne_core (s : State) (a : Nat) (on : Bool) (h : Nat) : (s.freezeOne a on h).core = s.core := by
  simp [State.freezeOne]

@[simp] theorem execUpdFreeze_keeps (id : Nat) (s : State) : (execUpdFreeze id s).Keeps s := by
  refine State.deant_keeps (fun t c => ?_)
  dsimp only
  split
  · rfl
  · split
    · simp
    · split
      · simp
      · rw [State.finishOk_core, foldl_core_fst (fun z h => by split <;> simp)]

/-! ### Apply -/

@[simp] theorem State.logGroup_core (s : State) (a : Nat) (t : MirTensor) (ps : List Nat) : (s.logGroup a t ps).core = s.core := by
  simp [State.logGroup]

@[simp] theorem State.logPages_core (s : State) (a : Nat) (t : MirTensor) (ps : List Nat) : (s.logPages a t ps).core = s.core := by
  simp [State.logPages, foldl_core]

@[simp] theorem State.tapped_core (s : State) (a tap h : Nat) (old : Obj) : (s.tapped a tap h old).core = s.core := by
  unfold State.tapped
  split <;> simp

@[simp] theorem State.putStatuses_core (s : State) (c : Cmd) (v : Nat) : (s.putStatuses c v).core = s.core := by simp [State.putStatuses]
@[simp] theorem State.putStatus_core (s : State) (c : Cmd) (j v : Nat) : (s.putStatus c j v).core = s.core := by simp [State.putStatus]

theorem State.takeWork_core {s t : State} {c : Cmd} {ps : List Param} (h : s.takeWork c ps = some t) : t.core = s.core := by
  unfold State.takeWork at h
  (repeat' split at h) <;> cases h <;> simp

@[simp] theorem State.endApply_core (s : State) (c : Cmd) (code : Code) (detail : W32) (result : Nat) :
    (s.endApply c code detail result).core = s.core := by
  simp [State.endApply]

@[simp] theorem State.holdCmd_core (s : State) (c : Cmd) : (s.holdCmd c).core = s.core := by simp [State.holdCmd]
@[simp] theorem State.resumeHeld_core (s : State) (a : Nat) : (s.resumeHeld a).core = s.core := by simp [State.resumeHeld]
@[simp] theorem State.endHold_core (s : State) (c : Cmd) : (s.endHold c).core = s.core := by simp [State.endHold, foldl_core]
@[simp] theorem State.openHold_core (s : State) (c : Cmd) : (s.openHold c).core = s.core := by simp [State.openHold]

@[simp] theorem State.putMaster_core (s : State) (c : Cmd) (h layer : Nat) (w : UpdWrite) : (s.putMaster c h layer w).1.core = s.core := by
  unfold State.putMaster
  dsimp only
  (repeat' split) <;> simp

@[simp] theorem State.countElems_core (s : State) (c : Cmd) (o : Obj) (times : Nat) : (s.countElems c o times).core = s.core := by
  simp [State.countElems]

@[simp] theorem State.momentum_core (s : State) (c : Cmd) (p : Param) (r : Rule) (f : W32) : (s.momentum c p r f).1.core = s.core := by
  simp [State.momentum]

@[simp] theorem State.countMacs_core (s : State) (c : Cmd) (p : Param) (r : Rule) : (s.countMacs c p r).core = s.core := by
  simp [State.countMacs]

@[simp] theorem State.writeStage_core (s : State) (c : Cmd) (j : Nat) (p : Param) (r : Rule) (d : List W32) :
    (s.writeStage c j p r d).core = s.core := by
  unfold State.writeStage
  dsimp only
  (repeat' split) <;> simp

@[simp] theorem State.modRun_core (s : State) (c : Cmd) (f : ApplyRun → ApplyRun) : (s.modRun c f).core = s.core := by simp [State.modRun]

@[simp] theorem State.takeSeq_core (s : State) (c : Cmd) (h : Nat) : (s.takeSeq c h).core = s.core := by
  unfold State.takeSeq
  split <;> simp

@[simp] theorem State.dropSeq_core (s : State) (c : Cmd) (h : Nat) : (s.dropSeq c h).core = s.core := by simp [State.dropSeq]

@[simp] theorem State.skipFrozen_core (s : State) (c : Cmd) (ps : List Param) : (s.skipFrozen c ps).core = s.core := by
  induction ps generalizing s with
  | nil => rfl
  | cons p r ih =>
    unfold State.skipFrozen
    simp [ih]

@[simp] theorem State.startRecord_core (s : State) (c : Cmd) (x : ApplyRun) (p : Param) : (s.startRecord c x p).core = s.core := by
  unfold State.startRecord
  dsimp only
  (repeat' split) <;> simp

@[simp] theorem State.writeRecord_core (s : State) (c : Cmd) (j : Nat) (d : List W32) (p : Param) :
    (s.writeRecord c j d p).core = s.core := by
  unfold State.writeRecord
  dsimp only
  (repeat' split) <;> simp

@[simp] theorem State.applyEnds_core (s : State) (c : Cmd) : (s.applyEnds c).core = s.core := by
  unfold State.applyEnds
  split <;> simp

@[simp] theorem State.applyStep_core (s : State) (c : Cmd) : (s.applyStep c).core = s.core := by
  unfold State.applyStep
  dsimp only
  (repeat' split) <;> simp

@[simp] theorem State.applyRun_core (s : State) (c : Cmd) (f : W32) : (s.applyRun c f).core = s.core := by simp [State.applyRun]

@[simp] theorem State.applyNorm_core (s : State) (c : Cmd) : (s.applyNorm c).core = s.core := by
  unfold State.applyNorm
  dsimp only
  (repeat' split) <;> simp

@[simp] theorem State.applyGo_core (s : State) (c : Cmd) : (s.applyGo c).core = s.core := by
  unfold State.applyGo
  dsimp only
  (repeat' split) <;> simp

@[simp] theorem State.applyTest_core (s : State) (c : Cmd) : (s.applyTest c).core = s.core := by simp [State.applyTest]
@[simp] theorem State.applyHold_core (s : State) (c : Cmd) : (s.applyHold c).core = s.core := by simp [State.applyHold]

@[simp] theorem State.applyBegin_core (s : State) (c : Cmd) : (s.applyBegin c).core = s.core := by
  unfold State.applyBegin
  cases s.judgeApply c with
  | some v => simp
  | none =>
    rw [State.core_ite]
    cases s.poisonOf [listRange c] with
    | some p => simp
    | none =>
      dsimp only
      cases s.badParamRec c (s.paramsOf c) with
      | some j => simp
      | none =>
        cases s.reachable c (s.namesNow c) with
        | some v => simp
        | none =>
          cases ht : (s.noteNames c (s.namesNow c)).takeWork c (s.paramsOf c) with
          | none => simp
          | some t =>
            have h := State.takeWork_core ht
            rw [State.noteNames_core] at h
            dsimp only
            cases t.poisonPartOf _ <;> simp [h]

@[simp] theorem State.updApply_core (s : State) (c : Cmd) : (s.updApply c).core = s.core := by
  unfold State.updApply
  (repeat' split) <;> simp

@[simp] theorem execUpdApply_keeps (id : Nat) (s : State) : (execUpdApply id s).Keeps s := by
  unfold execUpdApply
  split <;> simp

/-! ### Digests -/

@[simp] theorem State.restoreTemper_core (s : State) (a : Nat) (recs : List (Nat × Nat × Nat)) :
    (s.restoreTemper a recs).core = s.core := by
  simp [State.restoreTemper]

/-! ### Messages -/

@[simp] theorem State.putUnit_core (s : State) (a h : Nat) (t : Tensor) (k v : Nat) : (s.putUnit a h t k v).core = s.core := by
  simp [State.putUnit, foldl_core]

/-! ### Collect -/

@[simp] theorem State.collStats_core (s : State) (c : Cmd) (st : SlotStats) : (s.collStats c st).core = s.core := by simp [State.collStats]

@[simp] theorem State.sendMessage_core (s : State) (id : Nat) (g : Group) (peer stream index : Nat) (sig : W32) (bs : List Byte) :
    (s.sendMessage id g peer stream index sig bs).core = s.core := by
  simp [State.sendMessage]

@[simp] theorem State.dropMsgs_core (s : State) (group index : Nat) : (s.dropMsgs group index).core = s.core := by simp [State.dropMsgs]
@[simp] theorem State.modColl_core (s : State) (id : Nat) (f : Coll → Coll) : (s.modColl id f).core = s.core := by simp [State.modColl]

@[simp] theorem State.modTail_core (s : State) (group rank : Nat) (f : TailCount → TailCount) : (s.modTail group rank f).core = s.core := by
  simp [State.modTail]

@[simp] theorem State.unhold_core (s : State) (a : Nat) (h : Held) : (s.unhold a h).core = s.core := by simp [State.unhold]
@[simp] theorem State.dropHeld_core (s : State) (h : Held) : (s.dropHeld h).core = s.core := by simp [State.dropHeld]

@[simp] theorem State.takeHeld_core (s : State) (x : Coll) : (s.takeHeld x).1.core = s.core := by
  unfold State.takeHeld
  exact foldl_core_fst (fun z h => by split <;> simp) _ _

@[simp] theorem State.lateOne_core (s : State) (c : Cmd) (x : Coll) (g : Group) (n peer : Nat) :
    (s.lateOne c x g n peer).core = s.core := by
  simp [State.lateOne]

@[simp] theorem State.makeResult_core (s : State) (c : Cmd) (g : Group) (vals : List W32) : (s.makeResult c g vals).1.core = s.core := by
  unfold State.makeResult
  split <;> simp

@[simp] theorem State.writeValues_core (s : State) (c : Cmd) (int : Bool) (v e0 : Nat) (vals : List W32) :
    (s.writeValues c int v e0 vals).core = s.core := by
  simp [State.writeValues]

@[simp] theorem State.writeMessage_core (s : State) (c : Cmd) (v u : Nat) (bs : List Byte) : (s.writeMessage c v u bs).core = s.core := by
  simp [State.writeMessage, foldl_core]

@[simp] theorem State.writeDst_core (s : State) (c : Cmd) (x : Coll) (g : Group) : (s.writeDst c x g).core = s.core := by
  unfold State.writeDst
  dsimp only
  (repeat' split) <;> simp [foldl_core]

@[simp] theorem State.endColl_core (s : State) (x : Coll) : (s.endColl x).core = s.core := by simp [State.endColl]
@[simp] theorem State.failColl_core (s : State) (x : Coll) (src : Nat) : (s.failColl x src).core = s.core := by simp [State.failColl]
@[simp] theorem State.wrongColl_core (s : State) (x : Coll) : (s.wrongColl x).core = s.core := by simp [State.wrongColl]

@[simp] theorem State.finishColl_core (s : State) (c : Cmd) (x : Coll) (g : Group) : (s.finishColl c x g).core = s.core := by
  unfold State.finishColl
  split <;> simp [foldl_core]

@[simp] theorem State.closeColl_core (s : State) (c : Cmd) (x : Coll) (g : Group) (timed : Bool) :
    (s.closeColl c x g timed).core = s.core := by
  unfold State.closeColl
  dsimp only
  (repeat' split) <;> simp [foldl_core]

@[simp] theorem State.collEnd_core (s : State) (id : Nat) : (s.collEnd id).core = s.core := by
  unfold State.collEnd
  dsimp only
  (repeat' split) <;> simp

@[simp] theorem State.collGo_core (s : State) (id : Nat) : (s.collGo id).core = s.core := by
  unfold State.collGo
  dsimp only
  (repeat' split) <;> simp

@[simp] theorem State.modStream_core (s : State) (i : Nat) (f : Stream → Stream) : (s.modStream i f).core = s.core := by
  simp [State.modStream]

@[simp] theorem State.sendStream_core (s : State) (served : Option Nat) (i : Nat) (x : Stream) (ps : List (Nat × List Byte)) :
    (s.sendStream served i x ps).core = s.core := by
  simp [State.sendStream]

@[simp] theorem State.sendBegin_core (s : State) (c : Cmd) : (s.sendBegin c).core = s.core := by
  unfold State.sendBegin
  dsimp only
  split <;> simp

@[simp] theorem State.sendGo_core (s : State) (c : Cmd) : (s.sendGo c).core = s.core := by simp [State.sendGo]

@[simp] theorem State.recvGo_core (s : State) (c : Cmd) : (s.recvGo c).core = s.core := by
  unfold State.recvGo
  dsimp only
  (repeat' split) <;> simp [foldl_core]

@[simp] theorem State.fabricGo_core (s : State) : s.fabricGo.core = s.core := by
  unfold State.fabricGo
  exact foldl_core (fun s x => by split <;> simp) _ _

@[simp] theorem State.failStreams_core (s : State) (peer : Nat) : (s.failStreams peer).core = s.core := by
  simp [State.failStreams, foldl_core]

@[simp] theorem State.dropComing_core (s : State) (lost : Held → Bool) : (s.dropComing lost).core = s.core := by
  simp [State.dropComing, foldl_core]

@[simp] theorem State.loseMember_core (s0 : State) (peer src : Nat) : (s0.loseMember peer src).core = s0.core := by simp [State.loseMember]
@[simp] theorem State.peerLost_core (s : State) (peer : Nat) : (s.peerLost peer).core = s.core := by simp [State.peerLost]

@[simp] theorem Parts.add_core (p : Parts) (c : Cmd) (r : Nat × Nat) : (p.add c r).s.core = p.s.core := by
  unfold Parts.add
  dsimp only
  split
  · simp
  · rfl

@[simp] theorem State.collStart_core (s : State) (c : Cmd) : (s.collStart c).core = s.core := by
  have hp (l : List (Nat × Nat)) : (l.foldl (fun x r => x.add c r) ({ s := s } : Parts)).s.core = s.core :=
    foldl_core_of Parts.s (fun z r => z.add_core c r) _ _
  simp [State.collStart, foldl_core, hp]

@[simp] theorem State.collBegin_core (s : State) (c : Cmd) : (s.collBegin c).core = s.core := by
  unfold State.collBegin
  dsimp only
  (repeat' split) <;> simp

@[simp] theorem execCollBegin_keeps (id : Nat) (s : State) : (execCollBegin id s).Keeps s := by
  unfold execCollBegin
  split <;> simp

@[simp] theorem execCollDeadline_keeps (id : Nat) (s : State) : (execCollDeadline id s).Keeps s := by
  unfold execCollDeadline
  dsimp only
  (repeat' split) <;> simp

@[simp] theorem execLagBoundRelease_keeps (id : Nat) (s : State) : (execLagBoundRelease id s).Keeps s := by
  unfold execLagBoundRelease
  split <;> simp

@[simp] theorem State.tailPolicy_core (s : State) (c : Cmd) : (s.tailPolicy c).core = s.core := by
  unfold State.tailPolicy
  split <;> simp [foldl_core]

@[simp] theorem execTailPolicy_keeps (id : Nat) (s : State) : (execTailPolicy id s).Keeps s := by simp [execTailPolicy]

/-! ### Pair -/

theorem State.lone_core {s : State} (m : Master) (op p : Nat) {body : State → Cmd → State} (h : ∀ t c, (body t c).core = t.core) :
    (s.lone m op p body).core = s.core := by
  unfold State.lone
  (repeat' split) <;> simp [h]

theorem State.lone_endures {s : State} (m : Master) (op p : Nat) {body : State → Cmd → State} (h : ∀ t c, t.core = s.core → s.Endures (body t c)) :
    s.Endures (s.lone m op p body) := by
  unfold State.lone
  dsimp only
  split
  · exact .refl s
  · split
    · exact h _ _ (by simp)
    · exact State.endures_of_core (by simp)

@[simp] theorem State.keyOrder_core (s : State) (c : Cmd) : (s.keyOrder c).core = s.core := by simp [State.keyOrder]
@[simp] theorem State.feedMarks_core (s : State) : s.feedMarks.core = s.core := by simp [State.feedMarks]
@[simp] theorem State.loseTier3_core (s : State) : s.loseTier3.core = s.core := by simp [State.loseTier3, foldl_core]
@[simp] theorem State.resumeAll_core (s : State) : s.resumeAll.core = s.core := by simp [State.resumeAll, foldl_core]
@[simp] theorem State.dropNeedy_core (s : State) (loss : Bool) : (s.dropNeedy loss).core = s.core := by simp [State.dropNeedy, foldl_core]
@[simp] theorem State.stopMoves_core (s : State) : s.stopMoves.core = s.core := by simp [State.stopMoves, foldl_core]

@[simp] theorem State.unbind_core (s : State) (loss : Bool) : (s.unbind loss).core = s.core := by
  unfold State.unbind
  dsimp only
  (repeat' split) <;> simp

@[simp] theorem State.pairBind_core (s : State) (c : Cmd) : (s.pairBind c).core = s.core := by simp [State.pairBind]
@[simp] theorem execPairBind_keeps (id : Nat) (s : State) : (execPairBind id s).Keeps s := by simp [execPairBind]

@[simp] theorem State.bindEnds_core (s : State) (code : Code) : (s.bindEnds code).core = s.core := by
  unfold State.bindEnds
  split <;> simp

@[simp] theorem execBindWaitTimeout_keeps (s : State) : (execBindWaitTimeout s).Keeps s := by
  unfold execBindWaitTimeout
  split <;> simp

@[simp] theorem State.installKeys_core (s : State) (secret : Nat) : (s.installKeys secret).core = s.core := by
  unfold State.installKeys
  exact foldl_core (fun t p => foldl_core (fun u d => State.lone_core _ _ _ State.keyOrder_core) _ _) _ _

@[simp] theorem State.fillTodo_core (s : State) (a : Nat) : (s.fillTodo a).core = s.core := by simp [State.fillTodo, foldl_core]
@[simp] theorem State.fillLog_core (s : State) : s.fillLog.core = s.core := by simp [State.fillLog, foldl_core]
@[simp] theorem State.sendAll_core (s : State) (a : Nat) (t : MirTensor) : (s.sendAll a t).core = s.core := by simp [State.sendAll]
@[simp] theorem State.sendStreams_core (s : State) : s.sendStreams.core = s.core := by simp [State.sendStreams, foldl_core]

@[simp] theorem State.bindNow_core (s : State) (p : PartnerBind) : (s.bindNow p).core = s.core := by
  unfold State.bindNow
  dsimp only
  split <;> simp

@[simp] theorem execMatchingPairBind_keeps (p : PartnerBind) (s : State) : (execMatchingPairBind p s).Keeps s := by
  unfold execMatchingPairBind
  split <;> simp

@[simp] theorem State.unbindGo_core (s : State) : s.unbindGo.core = s.core := by
  unfold State.unbindGo
  split <;> simp

@[simp] theorem State.pairUnbind_core (s : State) (c : Cmd) : (s.pairUnbind c).core = s.core := by simp [State.pairUnbind]
@[simp] theorem execPairUnbind_keeps (id : Nat) (s : State) : (execPairUnbind id s).Keeps s := by simp [execPairUnbind]

@[simp] theorem execPairTimeout_keeps (s : State) : (execPairTimeout s).Keeps s := by
  unfold execPairTimeout
  split <;> simp

@[simp] theorem State.unbindOrdered_core (s : State) (c : Cmd) : (s.unbindOrdered c).core = s.core := by simp [State.unbindOrdered]

@[simp] theorem execUnbindOrder_keeps (s : State) : (execUnbindOrder s).Keeps s := by
  simp [execUnbindOrder, State.lone_core]

@[simp] theorem State.quenchEnd_core (s : State) : s.quenchEnd.core = s.core := by simp [State.quenchEnd, foldl_core]

@[simp] theorem State.quenchGo_core (s : State) : s.quenchGo.core = s.core := by
  unfold State.quenchGo
  split <;> simp

@[simp] theorem State.dropTransfers_core (s : State) : s.dropTransfers.core = s.core := by simp [State.dropTransfers]

@[simp] theorem State.startQuench_core (s : State) (id : Nat) (hold : Bool) : (s.startQuench id hold).core = s.core := by
  unfold State.startQuench
  split <;> simp

@[simp] theorem State.releaseQuench_core (s : State) : s.releaseQuench.core = s.core := by simp [State.releaseQuench]
@[simp] theorem State.quench_core (s : State) (c : Cmd) : (s.quench c).core = s.core := by simp [State.quench]
@[simp] theorem execQuench_keeps (src : Src) (s : State) : (execQuench src s).Keeps s := by simp [execQuench]

@[simp] theorem State.afterEpoch_core (s : State) : s.afterEpoch.core = s.core := by
  unfold State.afterEpoch
  split <;> simp

@[simp] theorem State.epochMine_core (s : State) (a e : Nat) : (s.epochMine a e).core = s.core := by
  unfold State.epochMine
  split <;> simp

@[simp] theorem State.epochTheirs_core (s : State) (x : Store) (chunks : List (Nat × Nat × List Byte)) :
    (s.epochTheirs x chunks).core = s.core := by
  simp [State.epochTheirs]

@[simp] theorem execEpochCommit_keeps (mine : Bool) (allot epoch : Nat) (record : Wire) (s : State) :
    (execEpochCommit mine allot epoch record s).Keeps s := by
  simp [execEpochCommit]

@[simp] theorem State.tier3Order_core (s : State) (c : Cmd) : (s.tier3Order c).core = s.core := by simp [State.tier3Order]

@[simp] theorem execTier3Allocation_keeps (bytes : Nat) (s : State) : (execTier3Allocation bytes s).Keeps s := by
  simp [execTier3Allocation, State.lone_core]

@[simp] theorem State.reserveOrder_core (s : State) (c : Cmd) : (s.reserveOrder c).core = s.core := by simp [State.reserveOrder]

@[simp] theorem execMirrorReservation_keeps (allot mirrorId bytes : Nat) (s : State) : (execMirrorReservation allot mirrorId bytes s).Keeps s := by
  simp [execMirrorReservation, State.lone_core]

/-! ### Ports -/

@[simp] theorem State.spareOne_core (s : State) (p l : Nat) : (s.spareOne p l).core = s.core := by
  unfold State.spareOne
  dsimp only
  (repeat' split) <;> simp

@[simp] theorem State.freeSpares_core (s : State) : s.freeSpares.core = s.core := by simp [State.freeSpares]
@[simp] theorem State.spareLanes_core (s : State) (p : Nat) : (s.spareLanes p).core = s.core := by simp [State.spareLanes, foldl_core]
@[simp] theorem State.retrain_core (s : State) (p : Nat) : (s.retrain p).core = s.core := by simp [State.retrain]
@[simp] theorem State.portUp_core (s : State) (p : Nat) : (s.portUp p).core = s.core := by simp [State.portUp]

@[simp] theorem execPortTrained_keeps (port : Nat) (failedLanes : List Nat) (s : State) : (execPortTrained port failedLanes s).Keeps s := by
  simp [execPortTrained, foldl_core]

@[simp] theorem execReplayLimit_keeps (port : Nat) (s : State) : (execReplayLimit port s).Keeps s := by simp [execReplayLimit]

@[simp] theorem execPortRetrainTimeout_keeps (port : Nat) (s : State) : (execPortRetrainTimeout port s).Keeps s := by
  simp [execPortRetrainTimeout]

@[simp] theorem State.dropGroup_core (s : State) (g : Nat) : (s.dropGroup g).core = s.core := by simp [State.dropGroup, foldl_core]

@[simp] theorem State.mapRoutes_core (s : State) (c : Cmd) : (s.mapRoutes c).core = s.core := by
  unfold State.mapRoutes
  dsimp only
  split <;> simp

@[simp] theorem State.mapGroup_core (s : State) (c : Cmd) : (s.mapGroup c).core = s.core := by
  unfold State.mapGroup
  dsimp only
  (repeat' split) <;> simp

@[simp] theorem State.mapPort_core (s : State) (c : Cmd) : (s.mapPort c).core = s.core := by
  unfold State.mapPort
  dsimp only
  rw [State.core_ite, State.core_ite, State.finishOk_core, State.core_ite]
  simp

@[simp] theorem State.peerMap_core (s : State) (c : Cmd) : (s.peerMap c).core = s.core := by
  unfold State.peerMap
  split <;> simp

@[simp] theorem State.peerMapRead_core (s : State) (c : Cmd) : (s.peerMapRead c).core = s.core := by
  unfold State.peerMapRead
  dsimp only
  split <;> simp

@[simp] theorem execPeerMap_keeps (id : Nat) (s : State) : (execPeerMap id s).Keeps s := by simp [execPeerMap]
@[simp] theorem State.freeStream_core (s : State) (i : Nat) : (s.freeStream i).core = s.core := by simp [State.freeStream]
@[simp] theorem State.resetPeer_core (s : State) (p : Nat) : (s.resetPeer p).core = s.core := by simp [State.resetPeer, foldl_core]
@[simp] theorem State.routeRewrite_core (s : State) (c : Cmd) : (s.routeRewrite c).core = s.core := by simp [State.routeRewrite]
@[simp] theorem execRouteRewrite_keeps (id : Nat) (s : State) : (execRouteRewrite id s).Keeps s := by simp [execRouteRewrite]
@[simp] theorem State.streamOpen_core (s : State) (c : Cmd) (i : Nat) : (s.streamOpen c i).core = s.core := by simp [State.streamOpen]
@[simp] theorem execStreamOpen_keeps (id _index : Nat) (s : State) : (execStreamOpen id _index s).Keeps s := by simp [execStreamOpen]

@[simp] theorem State.closeStream_core (s : State) (served : Option Nat) (i : Nat) : (s.closeStream served i).core = s.core := by
  unfold State.closeStream
  split <;> simp

@[simp] theorem execStreamClose_keeps (id : Nat) (s : State) : (execStreamClose id s).Keeps s := by
  unfold execStreamClose
  split <;> simp

@[simp] theorem execKeyInstallation_keeps (port dir key : Nat) (s : State) : (execKeyInstallation port dir key s).Keeps s := by
  simp [execKeyInstallation, State.lone_core]

@[simp] theorem execKeyRotation_keeps (port dir secret : Nat) (s : State) : (execKeyRotation port dir secret s).Keeps s := by
  unfold execKeyRotation
  dsimp only
  split
  · simp
  · rw [Out.keeps_next, State.lone_core _ _ _ State.keyOrder_core]
    simp

@[simp] theorem execBrownOutLogExchange_keeps (log : List BrownOut) (s : State) : (execBrownOutLogExchange log s).Keeps s := by
  simp [execBrownOutLogExchange]

/-! ### Snap -/

@[simp] theorem State.chooseMethods_core (s : State) (a : Nat) (handles : List Nat) : (s.chooseMethods a handles).core = s.core := by
  unfold State.chooseMethods
  exact foldl_core (fun s x => by dsimp only; (repeat' split) <;> simp) _ _

@[simp] theorem State.applyMirror_core (s : State) (a : Nat) (rs : List PendRec) : (s.applyMirror a rs).core = s.core := by
  unfold State.applyMirror
  dsimp only
  rw [State.chooseMethods_core]
  split
  · rw [State.core_mk _ _ rfl rfl]
    exact foldl_core (fun t r => by split <;> simp) _ _
  · exact foldl_core (fun t r => by split <;> simp) _ _

@[simp] theorem State.clearPairMarks_core (s : State) : s.clearPairMarks.core = s.core := by
  unfold State.clearPairMarks
  dsimp only
  split <;> simp

@[simp] theorem State.mirrorRecs_core (s : State) (c : Cmd) : (s.mirrorRecs c).core = s.core := by
  unfold State.mirrorRecs
  dsimp only
  (repeat' split) <;> simp

@[simp] theorem State.mirrorPolicy_core (s : State) (c : Cmd) : (s.mirrorPolicy c).core = s.core := by simp [State.mirrorPolicy]

@[simp] theorem State.mirrorSet_core (s : State) (c : Cmd) : (s.mirrorSet c).core = s.core := by
  unfold State.mirrorSet
  dsimp only
  (repeat' split) <;> simp

@[simp] theorem execMirrorSet_keeps (id : Nat) (s : State) : (execMirrorSet id s).Keeps s := by simp [execMirrorSet]
@[simp] theorem State.snapBegin_core (s : State) (a : Nat) : (s.snapBegin a).1.core = s.core := by simp [State.snapBegin]

@[simp] theorem State.snapCount_core (s : State) (c : Cmd) (copied : List Nat) : (s.snapCount c copied).core = s.core := by
  simp [State.snapCount, foldl_core]

@[simp] theorem execSnapTake_keeps (id costUs : Nat) (s : State) : (execSnapTake id costUs s).Keeps s := by
  unfold execSnapTake
  exact State.deant_keeps (fun t c => by dsimp only; (repeat' split) <;> simp)

@[simp] theorem State.snapFinish_core (s : State) (a : Nat) : (s.snapFinish a).core = s.core := by
  unfold State.snapFinish
  split <;> simp

@[simp] theorem State.snapAcked_core (s : State) (a id : Nat) : (s.snapAcked a id).core = s.core := by simp [State.snapAcked, foldl_core]
@[simp] theorem State.snapEnds_core (s : State) (c : Cmd) (id res : Nat) : (s.snapEnds c id res).core = s.core := by simp [State.snapEnds]
@[simp] theorem State.snapExport_core (s : State) (c : Cmd) (x : Store) : (s.snapExport c x).core = s.core := by simp [State.snapExport]

@[simp] theorem State.snapCommit_core (s : State) (c : Cmd) : (s.snapCommit c).core = s.core := by
  unfold State.snapCommit
  dsimp only
  (repeat' split) <;> simp

@[simp] theorem execSnapCommit_keeps (id : Nat) (s : State) : (execSnapCommit id s).Keeps s := by
  unfold execSnapCommit
  split
  · simp
  · split
    · simp
    · exact (Out.keeps_next _ _).mpr (State.judged_core _ _ (by simp))

@[simp] theorem State.autoSnap_core (s : State) (c : Cmd) : (s.autoSnap c).core = s.core := by
  unfold State.autoSnap
  dsimp only
  (repeat' split) <;> simp

@[simp] theorem State.setFleetRate_core (s : State) (c : Cmd) : (s.setFleetRate c).core = s.core := by simp [State.setFleetRate]
@[simp] theorem execFleetRate_keeps (id : Nat) (s : State) : (execFleetRate id s).Keeps s := by simp [execFleetRate]

/-! ### StepMark -/

@[simp] theorem State.closeEpoch_core (s : State) (a : Nat) : (s.closeEpoch a).core = s.core := by simp [State.closeEpoch]

@[simp] theorem State.fillEpoch_core (s : State) (a e : Nat) : (s.fillEpoch a e).core = s.core := by
  unfold State.fillEpoch
  dsimp only
  split <;> simp

@[simp] theorem State.sendSync_core (s : State) (a n : Nat) (xs : List SyncSlot) : (s.sendSync a n xs).core = s.core := by
  simp [State.sendSync]

@[simp] theorem State.sendOwnSync_core (s : State) (a : Nat) : (s.sendOwnSync a).core = s.core := by simp [State.sendOwnSync]
@[simp] theorem State.openStep_core (s : State) (c : Cmd) : (s.openStep c).core = s.core := by simp [State.openStep]

@[simp] theorem State.markJudge_core (s : State) (c : Cmd) : (s.markJudge c).core = s.core := by
  unfold State.markJudge
  split <;> simp

@[simp] theorem State.markRecords_core (s : State) (c : Cmd) : (s.markRecords c).core = s.core := by simp [State.markRecords]
@[simp] theorem State.markBegin_core (s : State) (c : Cmd) : (s.markBegin c).core = s.core := by simp [State.markBegin]

@[simp] theorem execStepMark_keeps (id : Nat) (s : State) : (execStepMark id s).Keeps s := by
  unfold execStepMark
  split
  · simp
  · split
    · split
      · exact (Out.keeps_next _ _).mpr (State.judged_core _ _ (by simp))
      · simp
    · split <;> simp

@[simp] theorem State.syncIn_core (s : State) (allot step : Nat) (stats : List SyncSlot) : (s.syncIn allot step stats).core = s.core := by
  unfold State.syncIn
  dsimp only
  (repeat' split) <;> simp

@[simp] theorem execTemperSyncStats_keeps (allot step : Nat) (stats : List SyncSlot) (s : State) :
    (execTemperSyncStats allot step stats s).Keeps s := by
  simp [execTemperSyncStats]

/-! ### Links -/

@[simp] theorem State.sampleRtt_core (s : State) (x : Sent) : (s.sampleRtt x).core = s.core := by simp [State.sampleRtt]
@[simp] theorem State.reapStreams_core (s : State) : s.reapStreams.core = s.core := by simp [State.reapStreams, foldl_core]

@[simp] theorem State.takeAck_core (s : State) (peer vc own ack : Nat) (sel : Option Nat) :
    (s.takeAck peer vc own ack sel).core = s.core := by
  simp [State.takeAck, foldl_core]

@[simp] theorem State.countRx_core (s : State) (a : Nat) (served : Option Nat) (n : Nat) : (s.countRx a served n).core = s.core := by
  simp [State.countRx]

@[simp] theorem State.streamPacket_core (s : State) (i : Nat) (x : Stream) (seq kind : Nat) (data : List Byte) :
    (s.streamPacket i x seq kind data).core = s.core := by
  simp [State.streamPacket]

@[simp] theorem State.openPacket_core (s : State) (src kind : Nat) (sig : W32) (data : List Byte) :
    (s.openPacket src kind sig data).core = s.core := by
  unfold State.openPacket
  dsimp only
  (repeat' split) <;> simp

@[simp] theorem State.settleMsg_core (s : State) (stream peer : Nat) (m : Msg) : (s.settleMsg stream peer m).core = s.core := by
  simp [State.settleMsg]

@[simp] theorem State.abortPacket_core (s : State) (src gid : Nat) (data : List Byte) : (s.abortPacket src gid data).core = s.core := by
  unfold State.abortPacket
  dsimp only
  split <;> simp

@[simp] theorem State.verdictPacket_core (s : State) (gid : Nat) (data : List Byte) : (s.verdictPacket gid data).core = s.core := by
  unfold State.verdictPacket
  dsimp only
  (repeat' split) <;> simp

@[simp] theorem State.collPacket_core (s : State) (g : Group) (src stream seq kind : Nat) (sig : W32) (data : List Byte) :
    (s.collPacket g src stream seq kind sig data).core = s.core := by
  simp [State.collPacket, foldl_core]

@[simp] theorem State.mirrorPacket_core (s : State) (allot : Nat) (sig : W32) (data : List Byte) :
    (s.mirrorPacket allot sig data).core = s.core := by
  unfold State.mirrorPacket
  dsimp only
  split <;> simp

@[simp] theorem State.mgmtPacket_core (s : State) (data : List Byte) : (s.mgmtPacket data).core = s.core := by
  unfold State.mgmtPacket
  dsimp only
  split
  · simp
  · (repeat' split) <;> simp
  · exact State.lone_core _ _ _ State.unbindOrdered_core
  · (repeat' split) <;> simp
  · simp
  · rfl

@[simp] theorem State.pairMsg_core (s : State) (allot : Nat) (m : Msg) : (s.pairMsg allot m).1.core = s.core := by
  unfold State.pairMsg
  dsimp only
  (repeat' split) <;> simp

@[simp] theorem State.pairMsgs_core (s : State) (allot : Nat) : (s.pairMsgs allot).core = s.core := by simp [State.pairMsgs, foldl_core]

@[simp] theorem State.pairPacket_core (s : State) (vc own allot seq kind : Nat) (sig : W32) (data : List Byte) :
    (s.pairPacket vc own allot seq kind sig data).core = s.core := by
  simp [State.pairPacket, foldl_core]

@[simp] theorem State.trimLog_core (s : State) : s.trimLog.core = s.core := by simp [State.trimLog]
@[simp] theorem State.rejectPacket_core (s : State) (port : Nat) : (s.rejectPacket port).core = s.core := by simp [State.rejectPacket]
@[simp] theorem State.misdirect_core (s : State) (port : Nat) : (s.misdirect port).core = s.core := by simp [State.misdirect]
@[simp] theorem State.hear_core (s : State) (peer : Nat) : (s.hear peer).core = s.core := by simp [State.hear]

@[simp] theorem State.collChannel_core (s : State) (h : Header) (data : List Byte) : (s.collChannel h data).core = s.core := by
  unfold State.collChannel
  dsimp only
  (repeat' split) <;> simp

@[simp] theorem State.streamChannel_core (s : State) (h : Header) (data : List Byte) : (s.streamChannel h data).core = s.core := by
  unfold State.streamChannel
  (repeat' split) <;> simp

@[simp] theorem State.pairChannel_core (s : State) (h : Header) (data : List Byte) : (s.pairChannel h data).core = s.core := by
  unfold State.pairChannel
  split <;> simp

@[simp] theorem State.transport_core (s : State) (port : Nat) (b : List Byte) : (s.transport port b).core = s.core := by
  unfold State.transport
  dsimp only
  (repeat' split) <;> simp

@[simp] theorem State.openSealed_core (s : State) (port : Nat) (b : List Byte) : (s.openSealed port b).core = s.core := by
  unfold State.openSealed
  dsimp only
  split <;> simp

@[simp] theorem State.etherIn_core (s : State) (port : Nat) (f : List Byte) : (s.etherIn port f).core = s.core := by
  unfold State.etherIn
  dsimp only
  (repeat' split) <;> simp

@[simp] theorem State.packetIn_core (s : State) (port : Nat) (b : List Byte) : (s.packetIn port b).core = s.core := by
  unfold State.packetIn
  split <;> simp

@[simp] theorem execPacketReceive_keeps (port : Nat) (packet : Wire) (s : State) : (execPacketReceive port packet s).Keeps s := by
  simp [execPacketReceive]

@[simp] theorem execFrameReceive_keeps (port : Nat) (frame : Wire) (s : State) : (execFrameReceive port frame s).Keeps s := by
  simp [execFrameReceive]

@[simp] theorem execRetransmitTimeout_keeps (vc peer own seq : Nat) (s : State) : (execRetransmitTimeout vc peer own seq s).Keeps s := by
  unfold execRetransmitTimeout
  split <;> simp

@[simp] theorem execPeerTimeout_keeps (peer : Nat) (s : State) : (execPeerTimeout peer s).Keeps s := by
  unfold execPeerTimeout
  split <;> simp

/-! ### Anvils -/

@[simp] theorem execPatrolRotation_keeps (hearth spare : Nat) (s : State) : (execPatrolRotation hearth spare s).Keeps s := by
  unfold execPatrolRotation
  dsimp only
  (repeat' split) <;> simp

@[simp] theorem execAnvilTestStart_keeps (hearth anvil : Nat) (s : State) : (execAnvilTestStart hearth anvil s).Keeps s := by
  simp [execAnvilTestStart]

@[simp] theorem State.selftestDone_core (s : State) (h a : Nat) (pass : Bool) (testUs : Nat) :
    (s.selftestDone h a pass testUs).core = s.core := by
  simp [State.selftestDone, foldl_core]

@[simp] theorem execAnvilTestComplete_keeps (hearth anvil : Nat) (pass : Bool) (testUs : Nat) (s : State) :
    (execAnvilTestComplete hearth anvil pass testUs s).Keeps s := by
  simp [execAnvilTestComplete]

@[simp] theorem execEntryCheckComplete_keeps (hearth anvil : Nat) (pass : Bool) (s : State) :
    (execEntryCheckComplete hearth anvil pass s).Keeps s := by
  simp [execEntryCheckComplete]

@[simp] theorem State.selftest_core (s : State) (c : Cmd) : (s.selftest c).core = s.core := by
  unfold State.selftest
  split <;> simp

@[simp] theorem execSelftest_keeps (src : Src) (s : State) : (execSelftest src s).Keeps s := by simp [execSelftest]

/-! ### FaultOps -/

@[simp] theorem execFaultEvent_keeps (events : List Detected) (s : State) : (execFaultEvent events s).Keeps s := by simp [execFaultEvent]
@[simp] theorem execRemapComplete_keeps (unit : Nat) (s : State) : (execRemapComplete unit s).Keeps s := by simp [execRemapComplete]

@[simp] theorem execCorrectedEventLimit_keeps (source : Nat) (s : State) : (execCorrectedEventLimit source s).Keeps s := by
  unfold execCorrectedEventLimit
  split <;> simp

@[simp] theorem execHandshakeWatchdog_keeps (source : Nat) (served : Option Nat) (s : State) :
    (execHandshakeWatchdog source served s).Keeps s := by
  simp [execHandshakeWatchdog]

@[simp] theorem execFaultRead_keeps (id : Nat) (s : State) : (execFaultRead id s).Keeps s := by simp [execFaultRead]

@[simp] theorem State.faultClear_core (s : State) (c : Cmd) : (s.faultClear c).core = s.core := by
  unfold State.faultClear
  split <;> simp

@[simp] theorem execFaultClear_keeps (src : Src) (s : State) : (execFaultClear src s).Keeps s := by
  unfold execFaultClear
  (repeat' split) <;> simp

@[simp] theorem State.faultSeverity_core (s : State) (c : Cmd) : (s.faultSeverity c).core = s.core := by
  unfold State.faultSeverity
  dsimp only
  (repeat' split) <;> simp

@[simp] theorem execFaultSeverity_keeps (src : Src) (s : State) : (execFaultSeverity src s).Keeps s := by simp [execFaultSeverity]
@[simp] theorem State.faultForce_core (s : State) (c : Cmd) : (s.faultForce c).core = s.core := by simp [State.faultForce]
@[simp] theorem execFaultForce_keeps (id : Nat) (s : State) : (execFaultForce id s).Keeps s := by simp [execFaultForce]

/-! ### Boot -/

@[simp] theorem State.setFwctl_core (s : State) (trialB tried confirming : Bool) : (s.setFwctl trialB tried confirming).core = s.core := by
  simp [State.setFwctl]

@[simp] theorem State.firmwareRecord_core (s : State) (ev : Nat) : (s.firmwareRecord ev).core = s.core := by simp [State.firmwareRecord]

theorem Fuses.confirm_keeps (f : Fuses) (im : Image) :
    ((f.confirm im).sealed = f.sealed) ∧ f.svn ≤ (f.confirm im).svn ∧
      ∀ k, f.revoked.testBit k = true → (f.confirm im).revoked.testBit k = true := by
  refine ⟨rfl, Nat.le_max_left _ _, fun k hk => ?_⟩
  simp [Fuses.confirm, hk]

theorem State.finishConfirm_endures (s : State) : s.Endures s.finishConfirm := by
  unfold State.finishConfirm
  dsimp only
  split
  · obtain ⟨hs, hv, hr⟩ := s.fuse.confirm_keeps s.mgt.imageB
    have h (mgt : Mgmt) : s.Endures { s with mgt := mgt, fuse := s.fuse.confirm s.mgt.imageB } :=
      ⟨rfl, rfl, rfl, fun h => hs.trans h, hv, hr⟩
    exact (h _).of_core (by rw [State.setFwctl_core, State.setUnit_core])
  · exact State.endures_of_core (by simp)

@[simp] theorem State.tryOne_core (s : State) (t : Trial) (u alts : Nat) (optional graded : Bool) :
    (s.tryOne t u alts optional graded).1.core = s.core := by
  simp [State.tryOne]

@[simp] theorem Gathered.one_core (g : Gathered) (t : Trial) (alts : Nat) (optional graded : Bool) (u : Nat) :
    (g.one t alts optional graded u).st.core = g.st.core := by
  simp [Gathered.one]

/-- A fold that tries units keeps the core. -/

theorem Gathered.tries_core (t : Trial) (alts : Nat) (optional graded : Bool) {α : Type} (f : α → Nat) (us : List α)
    (g : Gathered) : (us.foldl (fun (x : Gathered) u => x.one t alts optional graded (f u)) g).st.core = g.st.core :=
  foldl_core_of Gathered.st (fun x u => x.one_core t alts optional graded (f u)) us g

@[simp] theorem State.bootRails_core (s : State) (t : Trial) : (s.bootRails t).st.core = s.core := by
  unfold State.bootRails
  dsimp only
  (repeat' split) <;> simp

@[simp] theorem State.bootManagement_core (s : State) (t : Trial) : (s.bootManagement t).st.core = s.core := by
  unfold State.bootManagement
  dsimp only
  (repeat' split) <;> simp

@[simp] theorem State.runImage_core (s : State) (b : Bool) : (s.runImage b).core = s.core := by simp [State.runImage]

theorem State.bootImage_endures (s : State) (other : Bool) : s.Endures (s.bootImage other).st := by
  unfold State.bootImage
  split
  · exact State.endures_of_core (by simp)
  · extract_lets s1 f s2 s2' r s3
    have h1 : s.Endures s1 := by
      unfold s1
      split
      · exact s.finishConfirm_endures
      · exact .refl s
    refine h1.of_core ?_
    have h2 : s2'.core = s1.core := by simp [s2']
    have h3 : s3.core = s1.core := by simp [s3, h2]
    split
    · (repeat' split) <;> simp [s2]
    · split <;> simp [h3]

@[simp] theorem State.leaveOut_core (s : State) (h : Nat) : (s.leaveOut h).core = s.core := by simp [State.leaveOut]

@[simp] theorem State.bootLinks_core (s : State) (t : Trial) : (s.bootLinks t).st.core = s.core := by
  unfold State.bootLinks
  dsimp only
  (repeat' split) <;> simp

@[simp] theorem State.bootHbm_core (s : State) (t : Trial) : (s.bootHbm t).st.core = s.core := by
  have h (us : List Nat) : (us.foldl (fun (x : Gathered) u => x.one t 2 true true u) { st := s }).st.core = s.core :=
    Gathered.tries_core t 2 true true id us _
  unfold State.bootHbm
  simp [apply_ite StepOut.st, h]

@[simp] theorem State.loseRegions_core (s : State) : s.loseRegions.core = s.core := by simp [State.loseRegions]

@[simp] theorem State.bootLpddr_core (s : State) (t : Trial) : (s.bootLpddr t).st.core = s.core := by
  have h (us : List Nat) : (us.foldl (fun (x : Gathered) u => x.one t 1 true true u) { st := s }).st.core = s.core :=
    Gathered.tries_core t 1 true true id us _
  unfold State.bootLpddr
  simp [h]

@[simp] theorem Gathered.anvils_core (g : Gathered) (t : Trial) (h : Nat) : (g.anvils t h).st.core = g.st.core := by
  unfold Gathered.anvils
  dsimp only
  split
  · rfl
  · rw [State.modHe_core]
    exact Gathered.tries_core t 0 true false (anvilUnit h) _ _

@[simp] theorem State.bootAnvils_core (s : State) (t : Trial) : (s.bootAnvils t).st.core = s.core := by
  simp [State.bootAnvils]

@[simp] theorem State.bootPort_core (s : State) (p : Nat) : (s.bootPort p).core = s.core := by simp [State.bootPort]

@[simp] theorem State.bootLanes_core (s : State) (t : Trial) : (s.bootLanes t).st.core = s.core := by
  have h (us : List Nat) := Gathered.tries_core t 0 true false laneUnit us { st := s }
  unfold State.bootLanes
  simp [foldl_core, h]

@[simp] theorem State.bootAllot_core (s : State) (full : Bool) : (s.bootAllot full).core = s.core := by simp [State.bootAllot]

@[simp] theorem State.bootHeadgate_core (s : State) (t : Trial) (full other : Bool) : (s.bootHeadgate t full other).1.st.core = s.core := by
  unfold State.bootHeadgate
  simp [apply_ite Prod.fst, apply_ite StepOut.st]

@[simp] theorem State.bootHostLink_core (s : State) (t : Trial) : (s.bootHostLink t).st.core = s.core := by
  unfold State.bootHostLink
  dsimp only
  (repeat' split) <;> simp

@[simp] theorem State.program_core (s : State) (seq : Nat) (started finished : List Nat) :
    (s.program seq started finished).core = s.core := by
  simp [State.program]

@[simp] theorem State.countCrash_core (s : State) : s.countCrash.core = s.core := by
  unfold State.countCrash
  split <;> simp [foldl_core]

@[simp] theorem State.cutOff_core (s : State) (c : CutShort) (seq : Nat) : (s.cutOff c seq).core = s.core := by simp [State.cutOff]

theorem State.bootStepOf_endures (s : State) (n : Nat) (t : Trial) (full other : Bool) : s.Endures (s.bootStepOf n t full other).1.st := by
  unfold State.bootStepOf
  split
  case h_3 => exact s.bootImage_endures other
  all_goals exact State.endures_of_core (by simp)

@[simp] theorem State.bootHalt_core (s : State) (n : Nat) : (s.bootHalt n).core = s.core := by simp [State.bootHalt]

@[simp] theorem State.bootDone_core (s : State) : s.bootDone.core = s.core := by
  unfold State.bootDone
  split <;> simp

theorem State.oneStep_endures (s : State) (n : Nat) (b : BootRun) : s.Endures (s.oneStep n b).1 := by
  have hr : s.Endures ((s.journal (beginRecord n)).bootStepOf n b.trial b.full b.other).1.st :=
    ((s.journal (beginRecord n)).bootStepOf_endures n b.trial b.full b.other).core_left (by simp)
  unfold State.oneStep
  dsimp only
  split
  · exact State.endures_of_core (by simp)
  · refine hr.of_core ?_
    (repeat' split) <;> simp

theorem State.runSteps_endures (fuel : Nat) (s : State) (n last : Nat) (b : BootRun) : s.Endures (State.runSteps fuel s n last b) := by
  induction fuel generalizing s n b with
  | zero => exact .refl s
  | succ fuel ih =>
    unfold State.runSteps
    have h := s.oneStep_endures n b
    split
    · exact State.endures_of_core (by simp)
    · split
      · exact State.endures_of_core (by simp)
      · split
        · exact State.endures_of_core (by simp)
        · dsimp only
          split
          · exact h.trans (ih ..)
          · exact h
          · exact (h.of_core (by simp)).trans (ih ..)

theorem State.boot_endures (s : State) (n last : Nat) (t : Trial) : s.Endures (s.boot n last t) :=
  State.runSteps_endures ..

@[simp] theorem State.beginStart_core (s : State) (first : Nat) : (s.beginStart first).core = s.core := by
  simp [State.beginStart]

/-! ### Resets -/

@[simp] theorem State.endCommand_core (s : State) (c : Cmd) (cause : Nat) (sup : Superseded) :
    (s.endCommand c cause sup).core = s.core := by
  unfold State.endCommand
  split <;> simp

@[simp] theorem State.replyOf_core (s : State) (id : Nat) : (s.replyOf id).core = s.core := by
  unfold State.replyOf
  split <;> simp

@[simp] theorem State.endCommands_core (s : State) (cs : List Cmd) (cause : Nat) (sup : Superseded) :
    (s.endCommands cs cause sup).core = s.core := by
  simp [State.endCommands, foldl_core]

@[simp] theorem State.closeStreams_core (s : State) (a : Nat) : (s.closeStreams a).core = s.core := by simp [State.closeStreams, foldl_core]

@[simp] theorem State.resetAllot_core (s : State) (a cause : Nat) (issuer : Option Nat) (sup : Superseded) :
    (s.resetAllot a cause issuer sup).core = s.core := by
  simp [State.resetAllot]

@[simp] theorem State.dropQueues_core (s : State) (a : Nat) : (s.dropQueues a).core = s.core := by simp [State.dropQueues]
@[simp] theorem State.endReset_core (s : State) (a : Nat) (c : Cmd) : (s.endReset a c).core = s.core := by simp [State.endReset]

@[simp] theorem State.allotReset_core (sup : Superseded) (s : State) (c : Cmd) : (s.allotReset sup c).core = s.core := by
  simp [State.allotReset]

@[simp] theorem execAllotReset_keeps (src : Src) (s : State) : (execAllotReset src s).Keeps s := by simp [execAllotReset]

@[simp] theorem State.allotDestroy_core (sup : Superseded) (s : State) (c : Cmd) : (s.allotDestroy sup c).core = s.core := by
  simp [State.allotDestroy]

@[simp] theorem execAllotDestroy_keeps (id : Nat) (s : State) : (execAllotDestroy id s).Keeps s := by simp [execAllotDestroy]
@[simp] theorem State.allotCreate_core (s : State) (c : Cmd) : (s.allotCreate c).core = s.core := by simp [State.allotCreate]
@[simp] theorem execAllotCreate_keeps (id : Nat) (s : State) : (execAllotCreate id s).Keeps s := by simp [execAllotCreate]
@[simp] theorem State.wipeRecords_core (s : State) : s.wipeRecords.core = s.core := by simp [State.wipeRecords]

@[simp] theorem State.wipe_core (s : State) : s.wipe.core = s.core := by
  unfold State.wipe
  dsimp only
  split <;> simp

@[simp] theorem State.answerMasters_core (s : State) (but : Option Nat) (sup : Superseded) : (s.answerMasters but sup).core = s.core := by
  simp [State.answerMasters]

@[simp] theorem State.resetAll_core (s : State) (issuer : Option Nat) (sup : Superseded) : (s.resetAll issuer sup).core = s.core := by
  simp [State.resetAll, foldl_core]

@[simp] theorem State.dropAllCommands_core (s : State) : s.dropAllCommands.core = s.core := by simp [State.dropAllCommands, foldl_core]

theorem State.restart_endures (s : State) (kind : Nat) (t : Trial) : s.Endures (s.restart kind t) := by
  unfold State.restart
  dsimp only
  split
  · exact (State.boot_endures ..).core_left (by simp)
  · exact (State.boot_endures ..).core_left (by simp)

theorem State.devReset_endures (t : Trial) (sup : Superseded) (s : State) (c : Cmd) : s.Endures (s.devReset t sup c) := by
  unfold State.devReset
  exact ((State.restart_endures ..).core_left (by simp)).of_core (State.settle_core _)

theorem execDevReset_endure (src : Src) (trial : Trial) (s : State) : (execDevReset src trial s).Endure s :=
  State.order_endure _ (fun t c h => (t.devReset_endures trial [] c).core_left h)

theorem State.silentReset_endures (s : State) (t : Trial) : s.Endures (s.silentReset t) :=
  (((State.restart_endures ..).core_left (foldl_core (fun u a => by simp) _ _)).of_core (State.settle_core _)).core_left (by simp)

@[simp] theorem State.flrOrder_core (sup : Superseded) (s : State) (c : Cmd) : (s.flrOrder sup c).core = s.core := by simp [State.flrOrder]

@[simp] theorem execFunctionLevelResetVf_keeps (vf : Nat) (s : State) : (execFunctionLevelResetVf vf s).Keeps s := by
  simp [execFunctionLevelResetVf, State.lone_core]

theorem execFunctionLevelResetPf_endure (trial : Trial) (s : State) : (execFunctionLevelResetPf trial s).Endure s := by
  unfold execFunctionLevelResetPf
  split
  · exact Out.endure_next (State.lone_endures _ _ _ (fun t c h => (t.devReset_endures trial [] c).core_left h))
  · exact Out.endure_next (.refl s)

@[simp] theorem State.vfOrder_core (sup : Superseded) (s : State) (c : Cmd) : (s.vfOrder sup c).core = s.core := by simp [State.vfOrder]

@[simp] theorem execVfRemoval_keeps (on : Bool) (n : Nat) (s : State) : (execVfRemoval on n s).Keeps s := by
  simp [execVfRemoval, State.lone_core, foldl_core]

@[simp] theorem execVfEnable_keeps (numVfs : Nat) (s : State) : (execVfEnable numVfs s).Keeps s := by simp [execVfEnable]

theorem execPerstNAssert_endure (trial : Trial) (s : State) : (execPerstNAssert trial s).Endure s := by
  unfold execPerstNAssert
  split
  · exact Out.endure_next (.refl s)
  · refine Out.endure_next ?_
    dsimp only
    split
    · exact (State.silentReset_endures _ trial).core_left (by simp)
    · exact State.endures_of_core (by simp)

theorem execPerstNDeassert_endure (trial : Trial) (s : State) : (execPerstNDeassert trial s).Endure s := by
  unfold execPerstNDeassert
  split
  · refine Out.endure_next ?_
    dsimp only
    split
    · exact (State.boot_endures ..).core_left (by simp)
    · exact State.endures_of_core (by simp)
  · exact Out.endure_next (.refl s)

theorem execHostLinkLoss_endure (trial : Trial) (s : State) : (execHostLinkLoss trial s).Endure s := by
  unfold execHostLinkLoss
  split
  · exact Out.endure_next (s.silentReset_endures trial)
  · exact Out.endure_next (.refl s)

theorem execRefclkPcieLoss_endure (trial : Trial) (s : State) : (execRefclkPcieLoss trial s).Endure s := by
  unfold execRefclkPcieLoss
  split
  · exact Out.endure_next (s.silentReset_endures trial)
  · exact Out.endure_next (.refl s)

/-! ### Power -/

@[simp] theorem State.powerCond_core (s : State) : s.powerCond.core = s.core := by simp [State.powerCond]
@[simp] theorem State.tracePace_core (s : State) (h : Nat) : (s.tracePace h).core = s.core := by simp [State.tracePace]
@[simp] theorem execPaceWindow_keeps (mhs0 mhs1 : Nat) (s : State) : (execPaceWindow mhs0 mhs1 s).Keeps s := by simp [execPaceWindow]

@[simp] theorem execBellowsTick_keeps (avg1 avg10 tj0 tj1 : Nat) (cooled : List Nat) (s : State) :
    (execBellowsTick avg1 avg10 tj0 tj1 cooled s).Keeps s := by
  simp [execBellowsTick]

@[simp] theorem State.openBrown_core (s : State) (kind : Nat) : (s.openBrown kind).core = s.core := by simp [State.openBrown]
@[simp] theorem execBrownOut_keeps (vext : Nat) (s : State) : (execBrownOut vext s).Keeps s := by simp [execBrownOut]

@[simp] theorem execSagEnd_keeps (kind durUs vext : Nat) (s : State) : (execSagEnd kind durUs vext s).Keeps s := by
  unfold execSagEnd
  split <;> simp

@[simp] theorem execPowerAttentionExpiry_keeps (s : State) : (execPowerAttentionExpiry s).Keeps s := by simp [execPowerAttentionExpiry]
@[simp] theorem State.railsOff_core (s : State) : s.railsOff.core = s.core := by simp [State.railsOff]
@[simp] theorem execMainRailsOff_keeps (rail : Nat) (s : State) : (execMainRailsOff rail s).Keeps s := by simp [execMainRailsOff]
@[simp] theorem execStandbyRailOff_keeps (s : State) : (execStandbyRailOff s).Keeps s := by simp [execStandbyRailOff]
@[simp] theorem execInputOvervoltage_keeps (vext : Nat) (s : State) : (execInputOvervoltage vext s).Keeps s := by simp [execInputOvervoltage]
@[simp] theorem State.cold_core (s : State) (keep : Bool) : (s.cold keep).core = s.core := by simp [State.cold]

theorem State.startUp_endures (s : State) (keep : Bool) (t : Trial) : s.Endures (s.startUp keep t) := by
  unfold State.startUp
  dsimp only
  refine ((State.boot_endures ..).core_left ?_).of_core (State.settle_core _)
  simp

theorem execPowerOn_endure (trial : Trial) (s : State) : (execPowerOn trial s).Endure s := by
  unfold execPowerOn
  split
  · exact Out.endure_next (.refl s)
  · exact Out.endure_next (s.startUp_endures false trial)

theorem execPowerRestart_endure (trial : Trial) (s : State) : (execPowerRestart trial s).Endure s := by
  unfold execPowerRestart
  split
  · exact Out.endure_next (s.startUp_endures s.dev.standby trial)
  · exact Out.endure_next (.refl s)

@[simp] theorem execPwrFailNAssert_keeps (s : State) : (execPwrFailNAssert s).Keeps s := by simp [execPwrFailNAssert]

theorem execPwrFailNDeassert_endure (trial : Trial) (s : State) : (execPwrFailNDeassert trial s).Endure s := by
  unfold execPwrFailNDeassert
  dsimp only
  split
  · refine Out.endure_next ?_
    split
    · exact ((State.boot_endures ..).core_left (by simp)).of_core (State.settle_core _)
    · exact State.endures_of_core (by simp)
  · exact Out.endure_next (.refl s)

@[simp] theorem execSiteAlarmN_keeps (s : State) : (execSiteAlarmN s).Keeps s := by
  simp [execSiteAlarmN, State.lone_core]

@[simp] theorem State.feedChanges_core (s : State) : s.feedChanges.core = s.core := by simp [State.feedChanges]
@[simp] theorem execFeedIdSample_keeps (straps : Nat) (s : State) : (execFeedIdSample straps s).Keeps s := by simp [execFeedIdSample]
@[simp] theorem State.feedOrder_core (s : State) (c : Cmd) : (s.feedOrder c).core = s.core := by simp [State.feedOrder]

@[simp] theorem execFeedIdOverride_keeps (enable : Bool) (value : Nat) (s : State) : (execFeedIdOverride enable value s).Keeps s := by
  simp [execFeedIdOverride, State.lone_core]

@[simp] theorem State.vTargetOrder_core (s : State) (c : Cmd) : (s.vTargetOrder c).core = s.core := by simp [State.vTargetOrder]

@[simp] theorem execVTarget_keeps (mv : Nat) (s : State) : (execVTarget mv s).Keeps s := by
  simp [execVTarget, State.lone_core]

@[simp] theorem State.tjLimitOrder_core (s : State) (c : Cmd) : (s.tjLimitOrder c).core = s.core := by simp [State.tjLimitOrder]

@[simp] theorem execTjLimit_keeps (celsius : Nat) (s : State) : (execTjLimit celsius s).Keeps s := by
  simp [execTjLimit, State.lone_core]

@[simp] theorem State.powerCap_core (s : State) (c : Cmd) : (s.powerCap c).core = s.core := by simp [State.powerCap]
@[simp] theorem execPowerCap_keeps (src : Src) (s : State) : (execPowerCap src s).Keeps s := by simp [execPowerCap]
@[simp] theorem execTimebaseLoss_keeps (s : State) : (execTimebaseLoss s).Keeps s := by simp [execTimebaseLoss]
@[simp] theorem execTimebaseReturn_keeps (s : State) : (execTimebaseReturn s).Keeps s := by simp [execTimebaseReturn]
@[simp] theorem execRefclkSerdesLoss_keeps (s : State) : (execRefclkSerdesLoss s).Keeps s := by simp [execRefclkSerdesLoss, foldl_core]
@[simp] theorem execMgmtRestart_keeps (s : State) : (execMgmtRestart s).Keeps s := by simp [execMgmtRestart]

@[simp] theorem execManagementControllerResumes_keeps (s : State) : (execManagementControllerResumes s).Keeps s := by
  simp [execManagementControllerResumes]

@[simp] theorem execGpioEffecter_keeps (pin : Nat) (drive : Option Bool) (level : Nat) (s : State) :
    (execGpioEffecter pin drive level s).Keeps s := by
  simp [execGpioEffecter]

/-! ### DeviceOps -/

@[simp] theorem execDevInfo_keeps (id : Nat) (s : State) : (execDevInfo id s).Keeps s := by simp [execDevInfo]
@[simp] theorem State.journalCopy_core (s : State) (c : Cmd) : (s.journalCopy c).core = s.core := by simp [State.journalCopy]

@[simp] theorem State.journalClear_core (s : State) (c : Cmd) : (s.journalClear c).core = s.core := by
  unfold State.journalClear
  dsimp only
  (repeat' split) <;> simp [foldl_core]

@[simp] theorem execJournalRead_keeps (id : Nat) (s : State) : (execJournalRead id s).Keeps s := by simp [execJournalRead]
@[simp] theorem State.setOther_core (s : State) (im : Image) : (s.setOther im).core = s.core := by simp [State.setOther]

@[simp] theorem State.stageImage_core (s : State) (bs : List Byte) : (s.stageImage bs).1.core = s.core := by
  unfold State.stageImage
  dsimp only
  split <;> simp

@[simp] theorem State.activate_core (s : State) : s.activate.core = s.core := by simp [State.activate]

@[simp] theorem State.fwStageImage_core (s : State) (c : Cmd) : (s.fwStageImage c).core = s.core := by
  unfold State.fwStageImage
  dsimp only
  (repeat' split) <;> simp

theorem State.fwAction_endures (s : State) (c : Cmd) : s.Endures (s.fwAction c) := by
  unfold State.fwAction
  dsimp only
  split
  · exact State.endures_of_core (by simp)
  · split
    case h_3 =>
      split
      · exact (((s.setFwctl true true true).finishConfirm_endures).core_left (by simp)).of_core (by simp)
      · exact State.endures_of_core (by simp)
    all_goals exact State.endures_of_core (by simp)

theorem State.fwStage_endures (s : State) (c : Cmd) : s.Endures (s.fwStage c) := by
  unfold State.fwStage
  split
  · exact State.endures_of_core (by simp)
  · exact s.fwAction_endures c

theorem execFwStage_endure (id : Nat) (s : State) : (execFwStage id s).Endure s := by
  unfold execFwStage
  split
  · split
    · exact Out.endure_next (.refl s)
    · exact Out.endure_next (s.fwAction_endures _)
  · exact State.orderReady_endure _ (fun t c h => (t.fwStage_endures c).core_left h)

@[simp] theorem State.modPldm_core (s : State) (f : Pldm → Pldm) : (s.modPldm f).core = s.core := by simp [State.modPldm]
@[simp] theorem State.pldmRefuse_core (s : State) : s.pldmRefuse.core = s.core := by simp [State.pldmRefuse]

@[simp] theorem State.pldmStep_core (s : State) (p : PldmPhase) (ok : Bool) (f : Pldm → Pldm) : (s.pldmStep p ok f).core = s.core := by
  simp [State.pldmStep]

@[simp] theorem execRequestUpdate_keeps (components : Nat) (s : State) : (execRequestUpdate components s).Keeps s := by
  simp [execRequestUpdate]

@[simp] theorem execPassComponentTable_keeps (components : Nat) (s : State) : (execPassComponentTable components s).Keeps s := by
  simp [execPassComponentTable]

@[simp] theorem execUpdateComponent_keeps (length : Nat) (s : State) : (execUpdateComponent length s).Keeps s := by
  simp [execUpdateComponent]

@[simp] theorem execRequestFirmwareData_keeps (offset : Nat) (data : Wire) (s : State) :
    (execRequestFirmwareData offset data s).Keeps s := by
  simp [execRequestFirmwareData]

@[simp] theorem execTransferComplete_keeps (s : State) : (execTransferComplete s).Keeps s := by simp [execTransferComplete]
@[simp] theorem State.pldmEnd_core (s : State) : s.pldmEnd.core = s.core := by simp [State.pldmEnd]
@[simp] theorem State.pldmStage_core (s : State) (c : Cmd) : (s.pldmStage c).core = s.core := by simp [State.pldmStage]

@[simp] theorem execVerifyComplete_keeps (s : State) : (execVerifyComplete s).Keeps s := by
  simp [execVerifyComplete, State.lone_core]

@[simp] theorem execApplyComplete_keeps (s : State) : (execApplyComplete s).Keeps s := by simp [execApplyComplete]
@[simp] theorem State.pldmActivate_core (s : State) (c : Cmd) : (s.pldmActivate c).core = s.core := by simp [State.pldmActivate]

@[simp] theorem execActivateFirmware_keeps (b : Bool) (s : State) : (execActivateFirmware b s).Keeps s := by
  simp [execActivateFirmware, State.lone_core]

/-! ### Security -/

@[simp] theorem State.modSpdm_core (s : State) (f : Spdm → Spdm) : (s.modSpdm f).core = s.core := by simp [State.modSpdm]
@[simp] theorem State.spdmError_core (s : State) : s.spdmError.core = s.core := by simp [State.spdmError]

@[simp] theorem State.spdm_core {s : State} (ok : Bool) (f : Spdm → Spdm) : (s.spdm ok f).Keeps s := by
  unfold State.spdm
  (repeat' split) <;> simp

theorem State.spdm_keeps {s t : State} (h : t.core = s.core) (ok : Bool) (f : Spdm → Spdm) : (t.spdm ok f).Keeps s :=
  (t.spdm_core ok f).of_core h

@[simp] theorem State.drawn_core (s : State) (used : Bool) : (s.drawn used).core = s.core := by simp [State.drawn]
@[simp] theorem execGetVersion_keeps (s : State) : (execGetVersion s).Keeps s := by simp [execGetVersion]
@[simp] theorem execGetCapabilities_keeps (s : State) : (execGetCapabilities s).Keeps s := by simp [execGetCapabilities]

@[simp] theorem execNegotiateAlgorithms_keeps (algorithms : List Nat) (s : State) : (execNegotiateAlgorithms algorithms s).Keeps s := by
  simp [execNegotiateAlgorithms]

@[simp] theorem execGetDigests_keeps (s : State) : (execGetDigests s).Keeps s := by simp [execGetDigests]

@[simp] theorem execGetCertificate_keeps (slot offset length : Nat) (s : State) : (execGetCertificate slot offset length s).Keeps s := by
  simp [execGetCertificate]

@[simp] theorem execChallenge_keeps (nonce : Nat) (s : State) : (execChallenge nonce s).Keeps s :=
  State.spdm_keeps (by simp) _ _

@[simp] theorem execGetMeasurements_keeps (index nonce : Nat) (s : State) : (execGetMeasurements index nonce s).Keeps s :=
  State.spdm_keeps (by simp) _ _

@[simp] theorem execKeyExchange_keeps (share : Nat) (s : State) : (execKeyExchange share s).Keeps s := by simp [execKeyExchange]
@[simp] theorem execFinish_keeps (authentic : Bool) (s : State) : (execFinish authentic s).Keeps s := by simp [execFinish]
@[simp] theorem execHeartbeat_keeps (s : State) : (execHeartbeat s).Keeps s := by simp [execHeartbeat]
@[simp] theorem execKeyUpdate_keeps (s : State) : (execKeyUpdate s).Keeps s := by simp [execKeyUpdate]
@[simp] theorem execEndSession_keeps (s : State) : (execEndSession s).Keeps s := by simp [execEndSession]
@[simp] theorem State.zeroise_core (s : State) : s.zeroise.core = s.core := by simp [State.zeroise]
@[simp] theorem execDebugUnlock_keeps (token : DebugToken) (s : State) : (execDebugUnlock token s).Keeps s := by simp [execDebugUnlock]

theorem State.endures_sealed (s : State) : s.Endures { s with fuse := { s.fuse with sealed := true } } :=
  ⟨rfl, rfl, rfl, fun _ => rfl, le_rfl, fun _ => id⟩

theorem execSealFuse_endure (b : Bool) (n : Nat) (s : State) : (execSealFuse b n s).Endure s := by
  unfold execSealFuse
  dsimp only
  split
  · exact Out.endure_next ((State.endures_sealed _).core_left (State.passTo_core ..))
  · exact Out.endure_next (.refl s)

@[simp] theorem State.jtag_core (s : State) (ir : JtagIr) (dr : Nat) (driven floated : Bool) :
    (s.jtag ir dr driven floated).core = s.core := by
  simp [State.jtag]

@[simp] theorem execBypass_keeps (s : State) : (execBypass s).Keeps s := by simp [execBypass]
@[simp] theorem execIdcode_keeps (s : State) : (execIdcode s).Keeps s := by simp [execIdcode]
@[simp] theorem execSamplePreload_keeps (pins : Nat) (s : State) : (execSamplePreload pins s).Keeps s := by simp [execSamplePreload]
@[simp] theorem execExtest_keeps (s : State) : (execExtest s).Keeps s := by simp [execExtest]
@[simp] theorem execClamp_keeps (s : State) : (execClamp s).Keeps s := by simp [execClamp]
@[simp] theorem execHighz_keeps (s : State) : (execHighz s).Keeps s := by simp [execHighz]
@[simp] theorem execInternalDebugAccess_keeps (s : State) : (execInternalDebugAccess s).Keeps s := by simp [execInternalDebugAccess]

/-! ### FenceOps -/

@[simp] theorem State.retrainLane_core (s : State) (port : Option Nat) : (s.retrainLane port).core = s.core := by
  unfold State.retrainLane
  split <;> simp

@[simp] theorem State.leave_core (s : State) (u : Nat) : (s.leave u).core = s.core := by
  unfold State.leave
  split <;> simp

@[simp] theorem State.fenceGo_core (s : State) (c : Cmd) (u : Nat) : (s.fenceGo c u).core = s.core := by simp [State.fenceGo]

@[simp] theorem State.fenceBegin_core (s : State) (u : Nat) : (s.fenceBegin u).core = s.core := by
  unfold State.fenceBegin
  dsimp only
  (repeat' split) <;> simp

@[simp] theorem State.fence_core (s : State) (c : Cmd) : (s.fence c).core = s.core := by simp [State.fence]

@[simp] theorem execFence_keeps (src : Src) (s : State) : (execFence src s).Keeps s := by
  unfold execFence
  (repeat' split) <;> simp

@[simp] theorem State.unitBack_core (s : State) (u : Nat) : (s.unitBack u).core = s.core := by
  unfold State.unitBack
  dsimp only
  (repeat' split) <;> simp

@[simp] theorem State.unfence_core (pass : Bool) (s : State) (c : Cmd) : (s.unfence pass c).core = s.core := by
  unfold State.unfence
  dsimp only
  (repeat' split) <;> simp

@[simp] theorem execUnfence_keeps (src : Src) (pass : Bool) (s : State) : (execUnfence src pass s).Keeps s := by simp [execUnfence]

/-! ### Fills -/

@[simp] theorem State.writeChunk_core (s : State) (f : Fill) (t : FillTensor) (j : Nat) (bs : List Byte) :
    (s.writeChunk f t j bs).core = s.core := by
  simp [State.writeChunk]

@[simp] theorem State.setFill_core (s : State) (f : Fill) : (s.setFill f).core = s.core := by simp [State.setFill]

@[simp] theorem State.fillOne_core (s : State) (f : Fill) (src : ChunkSrc) (k : Nat) : (s.fillOne f src k).1.core = s.core := by
  unfold State.fillOne
  (repeat' split) <;> simp

@[simp] theorem State.fillRange_core (s : State) (f : Fill) (src : ChunkSrc) (ks : List Nat) : (s.fillRange f src ks).1.core = s.core := by
  induction ks generalizing s f with
  | nil => rfl
  | cons k r ih =>
    unfold State.fillRange
    dsimp only
    split <;> simp [ih]

theorem State.fillDone_core {s : State} (c : Cmd) {x : State × Fill × FillEnd} (res : Fill → Nat) (h : x.1.core = s.core) :
    (s.fillDone c x res).core = s.core := by
  unfold State.fillDone
  dsimp only
  split <;> simp [h]

@[simp] theorem State.fillGrant_core (s : State) (c : Cmd) : (s.fillGrant c).core = s.core := by
  unfold State.fillGrant
  split <;> simp

@[simp] theorem State.fillOpen_core (s : State) (c : Cmd) (w : Wire) (chunks : List (Nat × Wire × Wire)) : (s.fillOpen c w chunks).core = s.core := by
  unfold State.fillOpen
  dsimp only
  (repeat' split) <;> simp [State.fillDone_core]

@[simp] theorem State.fillBegin_core (s : State) (c : Cmd) (w : Wire) (chunks : List (Nat × Wire × Wire)) :
    (s.fillBegin c w chunks).core = s.core := by
  unfold State.fillBegin
  (repeat' split) <;> simp

@[simp] theorem execFillBegin_keeps (id : Nat) (manifest : Wire) (chunks : List (Nat × Wire × Wire)) (s : State) :
    (execFillBegin id manifest chunks s).Keeps s := by
  unfold execFillBegin
  split <;> simp

@[simp] theorem execFillGrantExpiry_keeps (fillId : Nat) (s : State) : (execFillGrantExpiry fillId s).Keeps s := by
  unfold execFillGrantExpiry
  split <;> simp

@[simp] theorem execFillRead_keeps (fillId chunk : Nat) (s : State) : (execFillRead fillId chunk s).Keeps s := by
  unfold execFillRead
  dsimp only
  (repeat' split) <;> simp

@[simp] theorem State.fillChunk_core (s : State) (c : Cmd) (chunks : List (Nat × Wire × Wire)) : (s.fillChunk c chunks).core = s.core := by
  unfold State.fillChunk
  (repeat' split) <;> simp [State.fillDone_core]

theorem execFillChunk_endure (id : Nat) (chunks : List (Nat × Wire × Wire)) (s : State) : (execFillChunk id chunks s).Endure s := by
  refine State.deant_endure (fun t c ht => ?_)
  dsimp only
  split
  · exact State.endures_of_core (by simp [ht])
  · exact .refl s

@[simp] theorem State.refreshMasters_core (s : State) (c : Cmd) (hs : List Nat) : (s.refreshMasters c hs).core = s.core := by
  simp [State.refreshMasters, foldl_core]

@[simp] theorem State.fillEffect_core (s : State) (c : Cmd) (f : Fill) : (s.fillEffect c f).core = s.core := by
  simp [State.fillEffect, foldl_core]

@[simp] theorem State.fillCommit_core (s : State) (c : Cmd) : (s.fillCommit c).core = s.core := by
  unfold State.fillCommit
  dsimp only
  (repeat' split) <;> simp

@[simp] theorem execFillCommit_keeps (id : Nat) (s : State) : (execFillCommit id s).Keeps s := by simp [execFillCommit]

@[simp] theorem State.restoreVerify_core (s : State) (c : Cmd) : (s.restoreVerify c).core = s.core := by
  unfold State.restoreVerify
  dsimp only
  (repeat' split) <;> simp

@[simp] theorem execRestoreVerify_keeps (id : Nat) (s : State) : (execRestoreVerify id s).Keeps s := by
  unfold execRestoreVerify
  split
  · simp
  · split
    · exact (Out.keeps_next _ _).mpr (State.judged_core _ _ (by simp))
    · simp

/-! ### Arbiter -/

theorem State.orderBody_endures (s : State) (out : Sys2Proof.Outside) (sup : Superseded) (c : Cmd) : s.Endures (s.orderBody out sup c) := by
  unfold State.orderBody
  split
  case h_22 => exact s.fwStage_endures c
  case h_24 => exact s.devReset_endures out.trial sup c
  all_goals exact State.endures_of_core (by simp)

theorem State.roundGo_endures (out : Sys2Proof.Outside) (ids : List Nat) (s : State) (m : RoundMem) : s.Endures (State.roundGo out ids s m) := by
  induction ids generalizing s m with
  | nil => exact .refl s
  | cons id rest ih =>
    unfold State.roundGo
    split
    · exact ih s m
    · dsimp only
      split
      · split
        · exact (ih _ m).core_left (by simp)
        · refine State.Endures.trans ?_ (ih _ _)
          exact State.judged_endures _ _ ((State.orderBody_endures ..).core_left (by simp)) (by simp)
      · exact ih s m

@[simp] theorem State.takeAlarm_core (s : State) : s.takeAlarm.core = s.core := by simp [State.takeAlarm]

theorem execArbiterRound_endure (out : Sys2Proof.Outside) (s : State) : (execArbiterRound out s).Endure s := by
  unfold execArbiterRound
  exact Out.endure_next (((State.roundGo_endures ..).core_left (by simp)).of_core (State.settle_core _))

/-! ### Headgate -/

@[simp] theorem State.enter_core (s : State) (c : Cmd) (bs : List Byte) : (s.enter c bs).core = s.core := by
  unfold State.enter
  dsimp only
  split <;> simp

@[simp] theorem State.accept_core (s : State) (a q : Nat) (d : QDesc) (bs : List Byte) : (s.accept a q d bs).core = s.core := by
  simp [State.accept]

@[simp] theorem State.fetchPart_core (s : State) (a q : Nat) (d : QDesc) : (s.fetchPart a q d).core = s.core := by
  unfold State.fetchPart
  split <;> simp

@[simp] theorem execCommandAccept_keeps (allot queue : Nat) (s : State) : (execCommandAccept allot queue s).Keeps s := by
  unfold execCommandAccept
  (repeat' split) <;> simp

@[simp] theorem State.openSet_core (s : State) (c : Cmd) : (s.openSet c).core = s.core := by simp [State.openSet]
@[simp] theorem State.presentCmd_core (s : State) (c : Cmd) : (s.presentCmd c).core = s.core := by simp [State.presentCmd]
@[simp] theorem State.latch_core (s : State) (c : Cmd) : (s.latch c).core = s.core := by simp [State.latch]
@[simp] theorem State.closeRing_core (s : State) (c : Cmd) : (s.closeRing c).core = s.core := by simp [State.closeRing]
@[simp] theorem State.startCmd_core (s : State) (c : Cmd) : (s.startCmd c).core = s.core := by simp [State.startCmd]

@[simp] theorem execCommandStart_keeps (id : Nat) (s : State) : (execCommandStart id s).Keeps s := by
  unfold execCommandStart
  split <;> simp

@[simp] theorem State.afterDestroy_core (s : State) (c : Cmd) : (s.afterDestroy c).core = s.core := by simp [State.afterDestroy]

@[simp] theorem execCommandComplete_keeps (id : Nat) (s : State) : (execCommandComplete id s).Keeps s := by
  unfold execCommandComplete
  split <;> simp

/-! ### Rows and steps -/

/-- The rows that may blow fuses or start the module again are those named; every other row keeps the core. -/
theorem exec_endure (i : Instr) (s : State) : Out.Endure s (exec i s) := by
  cases i
  case fwStage id => exact execFwStage_endure id s
  case fillChunk id chunks => exact execFillChunk_endure id chunks s
  case devReset src trial => exact execDevReset_endure src trial s
  case functionLevelResetPf trial => exact execFunctionLevelResetPf_endure trial s
  case perstNAssert trial => exact execPerstNAssert_endure trial s
  case perstNDeassert trial => exact execPerstNDeassert_endure trial s
  case hostLinkLoss trial => exact execHostLinkLoss_endure trial s
  case refclkPcieLoss trial => exact execRefclkPcieLoss_endure trial s
  case powerOn trial => exact execPowerOn_endure trial s
  case powerRestart trial => exact execPowerRestart_endure trial s
  case pwrFailNDeassert trial => exact execPwrFailNDeassert_endure trial s
  case arbiterRound out => exact execArbiterRound_endure out s
  case sealFuse inSession serial => exact execSealFuse_endure inSession serial s
  all_goals exact Out.Keeps.endure (by simp [exec])

@[simp] theorem State.idle_core (s : State) : s.idle.core = s.core := by simp [State.idle]

/-- A step is the idle step or a row on the rest of the queue. -/
theorem step_endures {s t : State} (h : step s = .next t) : ∃ rest, State.Endures { s with pending := rest } t := by
  unfold step at h
  split at h
  · rename_i hp
    cases h
    refine ⟨[], ?_⟩
    rw [← hp]
    exact State.endures_of_core (by simp)
  · exact ⟨_, exec_endure _ _ t h⟩

/-- Settles O59: a row keeps the core, or fuses alone are blown; the queue stays in both. -/
theorem rowsKeepQueue : Obligations.RowsKeepQueue := fun c s t h => (exec_endure c s t h).pending

/-- Settles O60: the fuses, the variant and the serial number endure every row, and a step that runs a row starts from the same ones. -/
theorem fusesStay : Obligations.FusesStay := by
  intro s t h
  obtain ⟨rest, k⟩ := step_endures h
  exact ⟨k.sealed, k.svn, k.revoked, k.variant, k.serial⟩

/-- Settles O10: the definition of a step, with the command at the front given. -/
theorem stepRunsFront : Obligations.StepRunsFront := by
  intro s c rest h
  unfold step
  rw [h]

end Sys2Proof.Machine
end

section
/-! Events that touch no unit and no command (R411, R413, R419): the collector counts and latches them, and the attention follows; nothing
else changes. -/

namespace Sys2Proof.Machine

/-! ## What a quiet event leaves as it is -/

/-- The states differ in the fault state, the module's counters, the attention and its conditions, and the hearths' rings alone. -/
def State.EventOnly (s t : State) : Prop :=
  { t with flt := s.flt, glob := s.glob, attn := s.attn, conds := s.conds, hearths := s.hearths } = s

theorem State.EventOnly.refl (s : State) : s.EventOnly s := rfl

theorem State.EventOnly.trans {s t u : State} (h : s.EventOnly t) (k : t.EventOnly u) : s.EventOnly u := by
  unfold State.EventOnly at *
  rw [← h, ← k]

theorem SameButAttention.eventOnly {s t : State} (h : SameButAttention s t) : s.EventOnly t := by
  unfold SameButAttention at h
  unfold State.EventOnly
  rw [← h]

section
variable {s t : State} (h : s.EventOnly t)
include h

theorem State.EventOnly.dev : t.dev = s.dev := by rw [← h]
theorem State.EventOnly.clk : t.clk = s.clk := by rw [← h]
theorem State.EventOnly.hg : t.hg = s.hg := by rw [← h]
theorem State.EventOnly.allots : t.allots = s.allots := by rw [← h]
theorem State.EventOnly.host : t.host = s.host := by rw [← h]
theorem State.EventOnly.fab : t.fab = s.fab := by rw [← h]
theorem State.EventOnly.pair : t.pair = s.pair := by rw [← h]
theorem State.EventOnly.mgt : t.mgt = s.mgt := by rw [← h]
theorem State.EventOnly.fuse : t.fuse = s.fuse := by rw [← h]

end

theorem State.count_eventOnly (s : State) (ev n : Nat) : s.EventOnly (s.count ev none none none none n) := by
  unfold State.count
  split <;> rfl

@[simp] theorem State.count_flt (s : State) (ev : Nat) (h a layer cmd : Option Nat) (n : Nat) : (s.count ev h a layer cmd n).flt = s.flt := by
  unfold State.count
  dsimp only
  (repeat' split) <;> rfl

theorem SameButAttention.flt {s t : State} (h : SameButAttention s t) : t.flt = s.flt := by rw [← h]

/-! ## Latching -/

/-- The event fences nothing, has no address, and no command lies in its discard scope at the class. -/
structure SrcInfo.Quiet (i : SrcInfo) (src cls : Nat) : Prop where
  fence : i.fence = .never
  kind : i.kind = none
  cls : cls < 2 ∨ cls = 2 ∧ i.scope = .none
  source : src ≠ 0xF010 ∧ src ≠ 0xF011

/-- The trace, the counter and the attention after an event. -/
def State.announce (s : State) (cls causes src : Nat) : State :=
  ((s.count 0x42 none none none none 1).traceAt 0 7 none 0 (src + cls * 65536)).settleWith causes src

theorem State.announce_eventOnly (s : State) (cls causes src : Nat) : s.EventOnly (s.announce cls causes src) :=
  ((s.count_eventOnly _ _).trans (State.traceAt_same ..).eventOnly).trans (State.settleWith_same ..).eventOnly

theorem State.announce_hearthsStand (s : State) (cls causes src : Nat) : s.HearthsStand (s.announce cls causes src) := by
  refine State.HearthsStand.trans (t := s.count 0x42 none none none none 1) (.of_hearths ?_)
    (State.HearthsStand.trans (State.traceAt_hearthsStand _ _ _ _ _ _) (State.settleWith_hearthsStand _ _ _))
  obtain ⟨h, -⟩ := s.count_frame 0x42 none none none none 1
  have hh := congrArg State.hearths h
  exact hh

theorem State.HearthsStand.newlyShort {s t : State} (h : s.HearthsStand t) (k : Nat) : (t.he k).newlyShort = (s.he k).newlyShort := by
  rw [← h k]
  rfl

@[simp] theorem State.announce_flt (s : State) (cls causes src : Nat) : (s.announce cls causes src).flt = s.flt := by
  unfold State.announce
  rw [(State.settleWith_same ..).flt, (State.traceAt_same ..).flt, State.count_flt]

/-- An event without an address, in whose discard scope no command lies: beside its fence it changes the fault state, whose device record
latches it, and is announced. -/
theorem State.latchEvent_scopeless {s s1 : State} {r : Raise} {i : SrcInfo} {cls facts unit : Nat}
    (he : s.eventFence r.ev i cls r.once = (s1, facts, unit)) (hk : i.kind = none) (hc : cls < 2 ∨ cls = 2 ∧ i.scope = .none)
    (h1 : r.ev.source ≠ 0xF011) :
    ∃ flt causes acts, s.latchEvent r i cls = State.announce { s1 with flt := flt } cls causes r.ev.source ∧
      flt.counts = s1.flt.counts ∧ flt.severity = s1.flt.severity ∧
      flt.device = s1.flt.device.latch (ferOf r cls acts unit s.now [] false) := by
  have hhit : (if cls = 3 then s.inFlight else if cls = 2 then s.inFlight.filter (s.inScope i.scope r.ev.served) else []) = [] := by
    rcases hc with hc | ⟨rfl, hs⟩
    · rw [if_neg (by omega), if_neg (by omega)]
    · simp [hs, State.inScope]
  have h3 : cls ≠ 3 := by omega
  have hpoison : s1.eventPoison r i = (s1, 0) := by
    unfold State.eventPoison
    rw [hk]
    cases r.ev.owner <;> rfl
  unfold State.latchEvent
  extract_lets d scope hit mem spared t causes
  split
  rename_i s1' facts' unit' he'
  obtain ⟨rfl, hfacts⟩ : s1 = s1' ∧ (facts, unit) = (facts', unit') := Prod.mk.inj (he.symm.trans he')
  obtain ⟨-, rfl⟩ : facts = facts' ∧ unit = unit' := Prod.mk.inj hfacts
  split
  rename_i s2 pacts hq
  obtain ⟨rfl, -⟩ : s1 = s2 ∧ _ := Prod.mk.inj (hpoison.symm.trans hq)
  extract_lets base wide acts f s3 s4 s5 flt s6 s7 s8
  have hhits : hit = [] := by
    unfold hit scope
    rw [if_neg h1]
    exact hhit
  have hmem : mem = false := by simp [mem, hk]
  have h4 : s4 = s3 := by
    refine if_neg ?_
    rcases hc with hc | ⟨-, hs⟩
    · omega
    · simp [hs]
  have h5 : s5 = s4 := by
    unfold s5
    split
    · rename_i hs
      rcases hc with hc | ⟨-, hn⟩
      · exact if_neg (by omega)
      · rw [hn] at hs
        cases hs
    · rfl
  have h8 : s8 = s6.announce cls causes r.ev.source := rfl
  obtain ⟨losses, h6⟩ : ∃ losses, s6 = { s3 with flt := { s3.flt with losses := losses } } := by
    unfold s6 flt
    rw [h5, h4]
    split <;> exact ⟨_, rfl⟩
  have hf : f = ferOf r cls acts unit s.now [] false := by
    unfold f
    rw [hhits, hmem]
  rw [if_neg h3, hhits, List.foldl_nil, h8, h6]
  refine ⟨_, causes, acts, rfl, rfl, rfl, ?_⟩
  rw [← hf]
  rfl

/-- A quiet event changes the fault state, whose device record latches it, and is announced. -/
theorem State.latchEvent_quiet {s : State} {r : Raise} {i : SrcInfo} {cls : Nat} (h : i.Quiet r.ev.source cls) :
    ∃ flt causes acts unit, s.latchEvent r i cls = State.announce { s with flt := flt } cls causes r.ev.source ∧
      flt.counts = s.flt.counts ∧ flt.severity = s.flt.severity ∧
      flt.device = s.flt.device.latch (ferOf r cls acts unit s.now [] false) := by
  obtain ⟨hf, hk, hc, h0, h1⟩ := h
  have hfence : s.eventFence r.ev i cls r.once = (s, 0, i.unit.getD 0) := by
    simp [State.eventFence, h0, h1, hf]
  obtain ⟨flt, causes, acts, heq⟩ := State.latchEvent_scopeless hfence hk hc h1
  exact ⟨flt, causes, acts, _, heq⟩

/-! ## One event and a round -/

/-- A quiet event of a source that the module carries is counted. -/
theorem State.raiseOne_quiet {s : State} {r : Raise} {i : SrcInfo} (hi : srcInfo r.ev.source = some i) (hd : s.carries i.die = true)
    (h : i.Quiet r.ev.source (s.srcClass r.ev.source)) :
    s.EventOnly (s.raiseOne r) ∧ s.HearthsStand (s.raiseOne r) ∧
      (s.raiseOne r).flt.counts = putN r.ev.source (satTo 65535 (lookN r.ev.source s.flt.counts + 1)) s.flt.counts ∧
      (s.raiseOne r).flt.severity = s.flt.severity ∧
      (s.srcClass r.ev.source ≠ 0 → ∃ acts unit, (s.raiseOne r).flt.device =
        s.flt.device.latch (ferOf r (s.srcClass r.ev.source) acts unit s.now [] false)) := by
  have hk : i.kind ≠ some 0 := by simp [h.kind]
  unfold State.raiseOne
  rw [hi]
  simp only [hd, Bool.or_true, Bool.not_true, Bool.false_eq_true, if_false, if_neg hk]
  split
  · rename_i h0
    have hfence (t : State) : t.eventFence r.ev i 0 r.once = (t, 0, i.unit.getD 0) := by
      simp [State.eventFence, h.source, h.fence]
    rw [h0, hfence]
    exact ⟨rfl, .of_hearths rfl, rfl, rfl, fun k => absurd rfl k⟩
  · obtain ⟨flt, causes, acts, unit, heq, hcounts, hseverity, hdevice⟩ :=
      State.latchEvent_quiet (s := { s with flt := { s.flt with
        counts := putN r.ev.source (satTo 65535 (lookN r.ev.source s.flt.counts + 1)) s.flt.counts } }) h
    rw [heq, State.announce_flt]
    exact ⟨State.EventOnly.trans (t := { s with flt := flt }) rfl (State.announce_eventOnly ..),
      State.HearthsStand.trans (t := { s with flt := flt }) (.of_hearths rfl) (State.announce_hearthsStand _ _ _ _), hcounts, hseverity,
      fun _ => ⟨acts, unit, hdevice⟩⟩

/-- The sources of R74 are quiet in every class but the fatal one. -/
theorem srcInfo_short {h cls : Nat} (hh : h = 0 ∨ h = 1) (hc : cls < 3) : ∃ i, srcInfo (0x0924 + h) = some i ∧ i.Quiet (0x0924 + h) cls := by
  have hcls : cls < 2 ∨ cls = 2 := by omega
  rcases hh with rfl | rfl <;> exact ⟨_, rfl, rfl, rfl, hcls.imp_right (⟨·, rfl⟩), by decide⟩

/-- The source of a hearth that is left short stays a quiet event, and leaves other counts. -/
theorem State.raiseShortOf_quiet {s : State} {h : Nat} (hh : h = 0 ∨ h = 1) (hc : s.srcClass (0x0924 + h) < 3) :
    s.EventOnly (s.raiseShortOf h) ∧ (s.raiseShortOf h).flt.severity = s.flt.severity ∧
      ∀ src, src ≠ 0x0924 + h → lookN src (s.raiseShortOf h).flt.counts = lookN src s.flt.counts := by
  obtain ⟨i, hi, hq⟩ := srcInfo_short hh hc
  unfold State.raiseShortOf
  split
  · by_cases hd : s.carries i.die = true
    · obtain ⟨honly, -, hcounts, hseverity, -⟩ := State.raiseOne_quiet
        (s := s.modHe h (fun x => { x with raised924 := true })) (r := { ev := event (0x0924 + h) }) hi hd hq
      refine ⟨State.EventOnly.trans (t := s.modHe h (fun x => { x with raised924 := true })) rfl honly, hseverity, fun src hsrc => ?_⟩
      rw [hcounts]
      exact lookN_putN_ne hsrc _ _
    · have hnone : (s.modHe h (fun x => { x with raised924 := true })).raiseOne { ev := event (0x0924 + h) } =
          s.modHe h (fun x => { x with raised924 := true }) := by
        unfold State.raiseOne
        rw [show srcInfo (event (0x0924 + h)).source = some i from hi]
        exact if_pos (show (!(false || s.carries i.die)) = true by simpa using hd)
      rw [hnone]
      exact ⟨rfl, rfl, fun _ _ => rfl⟩
  · exact ⟨rfl, rfl, fun _ _ => rfl⟩

theorem State.srcClass_of_severity {s t : State} (h : t.flt.severity = s.flt.severity) (src : Nat) : t.srcClass src = s.srcClass src := by
  unfold State.srcClass
  rw [h]

/-- A round of one quiet event: it is counted, and nothing but the fault state and what announces it changes. -/
theorem State.Mild.raise_quiet {s : State} {src : Nat} {i : SrcInfo} (h : s.Mild src) (hi : srcInfo src = some i) (hd : s.carries i.die = true)
    (hq : i.Quiet src (s.srcClass src)) (h0 : src ≠ 0x0924) (h1 : src ≠ 0x0925) :
    s.EventOnly (s.raise src) ∧ lookN src (s.raise src).flt.counts = min 65535 (lookN src s.flt.counts + 1) := by
  obtain ⟨hforce, -, hc0, hc1⟩ := h
  have hnoforce : ({ s with flt := { s.flt with force := [] } } : State) = s := by rw [← hforce]
  have hraise : s.raise src = ((s.raiseOne { ev := event src }).raiseShortOf 0).raiseShortOf 1 := by
    rw [← State.raiseShort_eq_two, State.raise, State.collect, State.forcedEvents, hforce, hnoforce]
    rfl
  obtain ⟨honly, -, hcounts, hsev, -⟩ := State.raiseOne_quiet (s := s) (r := { ev := event src }) hi hd hq
  obtain ⟨honly0, hsev0, hcounts0⟩ := State.raiseShortOf_quiet (s := s.raiseOne { ev := event src }) (.inl rfl)
    (by rw [State.srcClass_of_severity hsev]; exact hc0)
  obtain ⟨honly1, -, hcounts1⟩ := State.raiseShortOf_quiet (s := (s.raiseOne { ev := event src }).raiseShortOf 0) (.inr rfl)
    (by rw [State.srcClass_of_severity hsev0, State.srcClass_of_severity hsev]; exact hc1)
  rw [hraise]
  refine ⟨(honly.trans honly0).trans honly1, ?_⟩
  rw [hcounts1 src h1, hcounts0 src h0, hcounts]
  exact (lookN_putN_same _ _ _).trans (satTo_eq_min _ _)

/-- A source of the management controller's own part, by its place in the table. -/
theorem State.Mild.raise_plain {s : State} {src : Nat} (h : s.Mild src) (hi : srcInfo src = some { cls := 1, floor := 0 })
    (h0 : src ≠ 0x0924) (h1 : src ≠ 0x0925) (hf : src ≠ 0xF010 ∧ src ≠ 0xF011) :
    s.EventOnly (s.raise src) ∧ lookN src (s.raise src).flt.counts = min 65535 (lookN src s.flt.counts + 1) := by
  refine h.raise_quiet hi rfl ⟨rfl, rfl, ?_, hf⟩ h0 h1
  have hc := h.2.1
  have : s.srcClass src < 2 ∨ s.srcClass src = 2 := by omega
  exact this.imp_right (⟨·, rfl⟩)

end Sys2Proof.Machine
end

section
/-! Rules for debug access, the seal and the test port (R448, R449). -/

namespace Sys2Proof.Machine

/-! ## Tokens and the seal (R449) -/

theorem State.journal_spdm (s : State) (r : JRec) :
    (s.journal r).mgt.spdm = s.mgt.spdm ∧ (s.journal r).mgt.debugUnlocked = s.mgt.debugUnlocked := by
  unfold State.journal
  dsimp only
  split <;> exact ⟨rfl, rfl⟩

theorem State.zeroise_port (s : State) (p : Nat) :
    (s.zeroise.port p).keyed = false ∧ (s.zeroise.port p).keyTx = 0 ∧ (s.zeroise.port p).keyRx = 0 := by
  unfold State.port State.zeroise
  rw [List.getD_eq_getElem?_getD, List.getElem?_map]
  cases s.fab.ports[p]? <;> exact ⟨rfl, rfl, rfl⟩

/-- A token that holds unlocks the module, and its keys are gone. -/
theorem execDebugUnlock_unlocks {s : State} {tok : DebugToken} (hs : s.dev.standby = true) (hb : s.pair.bound = false)
    (ht : s.tokenOk tok = true) : ∃ t, execDebugUnlock tok s = .next t ∧ t.mgt.debugUnlocked = true ∧ t.mgt.spdm.phase = .none ∧
      (∀ p, (t.port p).keyed = false ∧ (t.port p).keyTx = 0 ∧ (t.port p).keyRx = 0) ∧ t.fuse = s.fuse ∧ t.allots = s.allots := by
  unfold execDebugUnlock
  simp only [hs, ht, hb, Bool.true_eq_false, Bool.false_eq_true, if_false, if_true]
  generalize hu : State.zeroise _ = u
  generalize hw : ({ u with mgt := { u.mgt with debugUnlocked := true } } : State) = w
  have hj := w.journal_mgtAlone (emptyRec 6)
  obtain ⟨hspdm, hunlocked⟩ := w.journal_spdm (emptyRec 6)
  have hfab := congrArg State.fab hj
  have hfuse := congrArg State.fuse hj
  have hallots := congrArg State.allots hj
  refine ⟨_, rfl, ?_, ?_, fun p => ?_, ?_, ?_⟩
  · rw [State.settle_mgt, hunlocked, ← hw]
  · rw [State.settle_mgt, hspdm, ← hw, ← hu]
    rfl
  · have hport : (w.journal (emptyRec 6)).settle.port p = u.port p := by
      rw [State.port, State.settle_fab, State.port, show (w.journal (emptyRec 6)).fab = w.fab from hfab, ← hw]
    rw [hport, ← hu]
    exact State.zeroise_port _ p
  · rw [State.settle_fuse, show (w.journal (emptyRec 6)).fuse = w.fuse from hfuse, ← hw, ← hu]
    rfl
  · rw [State.settle_allots, show (w.journal (emptyRec 6)).allots = w.allots from hallots, ← hw, ← hu]
    rfl

theorem State.tokenOk_of_sealed {s : State} (h : s.fuse.sealed = true) (tok : DebugToken) : s.tokenOk tok = false := by
  simp [State.tokenOk, h]

theorem State.passTo_clkAlone (s : State) (t : Nat) : { s.passTo t with clk := s.clk } = s := by
  unfold State.passTo
  split <;> rfl

theorem State.passTo_fuse (s : State) (n : Nat) : (s.passTo n).fuse = s.fuse := by
  have hf := congrArg State.fuse (s.passTo_clkAlone n)
  exact hf

/-- The state with the seal blown at time n. -/
def State.sealedAt (s : State) (n : Nat) : State := { s.passTo n with fuse := { (s.passTo n).fuse with sealed := true } }

theorem State.sealedAt_fuse (s : State) (n : Nat) : (s.sealedAt n).fuse = { s.fuse with sealed := true } := by
  rw [State.sealedAt, State.passTo_fuse]

theorem State.sealedAt_alone (s : State) (n : Nat) : { s.sealedAt n with fuse := s.fuse, clk := s.clk } = s := by
  have h := s.passTo_clkAlone n
  rw [← s.passTo_fuse n]
  exact h

/-- The seal blows its fuse and takes its time. -/
theorem execSealFuse_seals {s : State} (hm : s.mgmtUp = true) (hp : s.mgt.spdm.phase = .session) :
    execSealFuse true s.dev.serial s = .next (s.sealedAt (s.now + 200000000)) := by
  unfold execSealFuse
  rw [if_pos ⟨hm, rfl, hp, rfl⟩]
  unfold State.sealedAt
  dsimp only

/-! ## The test port (R448) -/

/-- Internal debug on a sealed module: the port bypasses, and its source is counted. -/
theorem execInternalDebugAccess_sealed {s : State} (hs : s.fuse.sealed = true) (hm : s.Mild 0xD004) :
    ∃ t, execInternalDebugAccess s = .next t ∧ t.mgt.jtag.ir = .bypass ∧
      lookN 0xD004 t.flt.counts = min 65535 (lookN 0xD004 s.flt.counts + 1) ∧ t.allots = s.allots := by
  have hj : (s.jtag .bypass 0 false false).Mild 0xD004 := hm
  obtain ⟨honly, hcount⟩ := hj.raise_plain rfl (by decide) (by decide) (by decide)
  refine ⟨_, if_pos hs, ?_, ?_, ?_⟩
  · rw [State.settle_mgt, honly.mgt]
    rfl
  · rw [State.settle_flt, hcount]
    rfl
  · rw [State.settle_allots, honly.allots]
    rfl

/-- Settles O57: each row by its definition; a round of the collector with 0xD004 alone touches nothing that the statement names. -/
theorem debugAccess : Obligations.DebugAccess := by
  unfold Obligations.DebugAccess
  refine ⟨fun s tok hs => ⟨fun ht => ?_, fun ht hb => execDebugUnlock_unlocks hs hb ht, fun h => State.tokenOk_of_sealed h tok⟩,
    fun s hs hr => ⟨fun hp => ?_, fun inS n hn => ?_⟩, fun s => ?_⟩
  · simp [exec, execDebugUnlock, hs, ht]
  · exact ⟨_, execSealFuse_seals (by simp [State.mgmtUp, hs, hr]) hp, s.sealedAt_fuse _, s.sealedAt_alone _⟩
  · refine if_neg ?_
    rintro ⟨-, h1, h2, h3⟩
    rcases hn with hn | hn | hn
    · rw [hn] at h1
      cases h1
    · exact hn h2
    · exact hn h3
  · refine ⟨⟨_, rfl, rfl, rfl, rfl, rfl, rfl⟩, ⟨_, rfl, rfl, rfl, rfl, rfl, rfl⟩,
      fun v => ⟨⟨_, rfl, rfl, rfl, rfl, rfl, rfl⟩, _, rfl, rfl⟩, fun hp => ?_, fun hp => ?_,
      fun h hm => execInternalDebugAccess_sealed h hm, fun h hu => ?_, fun h hu => ?_⟩
    · simp only [exec, execExtest, execClamp, execHighz, hp, if_true]
      exact ⟨⟨_, rfl, rfl, rfl, rfl, rfl, rfl⟩, ⟨_, rfl, rfl, rfl, rfl, rfl, rfl⟩, ⟨_, rfl, rfl, rfl, rfl, rfl, rfl⟩⟩
    · simp [exec, execExtest, execClamp, execHighz, hp]
    · simp [exec, execInternalDebugAccess, h, hu]
    · simp [exec, execInternalDebugAccess, h, hu]

end Sys2Proof.Machine
end

section
/-! Rules for the requests of an SPDM connection (R447). -/

namespace Sys2Proof.Machine

theorem State.mgmtUp_of {s : State} (h : s.dev.standby = true) (hr : s.mgt.restarting = false) : s.mgmtUp = true := by
  simp [State.mgmtUp, h, hr]

/-- The outcome answers an SPDM request: f tells the connection, and nothing else changes but the count of the values that are drawn. -/
def State.Answers (s : State) (o : Out) (f : Spdm → Spdm) : Prop :=
  ∃ t, o = .next t ∧ t.mgt.spdm = { f s.mgt.spdm with error := false } ∧
    { t with mgt := { t.mgt with spdm := s.mgt.spdm, draws := s.mgt.draws } } = s

theorem State.spdm_answers {s : State} (hm : s.mgmtUp = true) {ok : Bool} (hok : ok = true) (f : Spdm → Spdm) : s.Answers (s.spdm ok f) f := by
  refine ⟨s.modSpdm (fun x => { f x with error := false }), ?_, rfl, rfl⟩
  simp [State.spdm, hm, hok]

theorem State.spdm_errs {s : State} (hm : s.mgmtUp = true) {ok : Bool} (hok : ok = false) (f : Spdm → Spdm) :
    s.spdm ok f = .next { s with mgt := { s.mgt with spdm := { s.mgt.spdm with response := [], error := true } } } := by
  simp only [State.spdm, hm, hok, Bool.not_true, Bool.false_eq_true, if_false]
  rfl

/-- A signed response draws a value before it is answered. -/
theorem State.drawn_spdm {s : State} (hm : s.mgmtUp = true) {ok : Bool} (hok : ok = true) (f : Spdm → Spdm) :
    (s.drawn (ok && s.mgmtUp)).spdm ok f =
      .next { s with mgt := { s.mgt with spdm := { f s.mgt.spdm with error := false }, draws := s.mgt.draws + 1 } } := by
  have hup : (s.drawn true).mgmtUp = true := hm
  rw [hok, hm, Bool.and_self, State.spdm, hup]
  rfl

theorem State.drawn_answers {s : State} (hm : s.mgmtUp = true) {ok : Bool} (hok : ok = true) (f : Spdm → Spdm) :
    s.Answers ((s.drawn (ok && s.mgmtUp)).spdm ok f) f :=
  ⟨_, State.drawn_spdm hm hok f, rfl, rfl⟩

theorem spdmAlgorithms_all {l : List Nat} : spdmAlgorithms.all l.contains = true ↔ ∀ n, n < 4 → n ∈ l := by
  simp only [spdmAlgorithms, List.all_cons, List.all_nil, List.contains_iff_mem, Bool.and_true, Bool.and_eq_true]
  constructor
  · rintro ⟨h0, h1, h2, h3⟩ n hn
    interval_cases n <;> assumption
  · exact fun h => ⟨h 0 (by omega), h 1 (by omega), h 2 (by omega), h 3 (by omega)⟩

theorem Spdm.ready_iff (x : Spdm) : x.ready = true ↔ x.phase = .algorithms ∨ x.phase = .exchanging ∨ x.phase = .session := by
  simp [Spdm.ready, or_assoc]

/-- A session whose check fails is over, and its source is counted. -/
theorem execFinish_fails {s : State} (hm : s.mgmtUp = true) (hp : s.mgt.spdm.phase = .exchanging) (hmild : s.Mild 0xD003) :
    ∃ t, execFinish false s = .next t ∧ t.mgt.spdm.phase = .algorithms ∧ t.mgt.spdm.error = true ∧
      lookN 0xD003 t.flt.counts = min 65535 (lookN 0xD003 s.flt.counts + 1) := by
  have hu : (s.spdmError.modSpdm (fun x => { x with phase := .algorithms })).Mild 0xD003 := hmild
  obtain ⟨honly, hcount⟩ := hu.raise_plain rfl (by decide) (by decide) (by decide)
  refine ⟨_, if_pos (by simp [hm, hp]), ?_, ?_, ?_⟩
  · rw [State.settle_mgt, honly.mgt]
    rfl
  · rw [State.settle_mgt, honly.mgt]
    rfl
  · rw [State.settle_flt, hcount]
    rfl

theorem execFinish_answers {s : State} (hm : s.mgmtUp = true) (hp : s.mgt.spdm.phase = .exchanging) :
    s.Answers (execFinish true s) (fun y => { y with phase := .session, response := [] }) := by
  unfold execFinish
  rw [if_neg (by simp)]
  exact State.spdm_answers hm (by simpa using hp) _

/-- The requests that every connection with agreed algorithms answers. -/
theorem spdm_ready_answers {s : State} (hm : s.mgmtUp = true) (hr : s.mgt.spdm.ready = true) :
    s.Answers (execGetDigests s) (fun y => { y with response := [sha384N s.chain] }) ∧
    (∀ o n, o < s.chain.length → s.Answers (execGetCertificate 0 o n s) (fun y =>
      { y with response := ((s.chain.drop o).take n).map (·.toNat) })) ∧
    (∀ n, s.Answers (execChallenge n s) (fun y => { y with response := s.signedParts [sha384N s.chain, n, s.nonceNow] })) ∧
    ∀ i n, 1 ≤ i → i ≤ 6 → s.Answers (execGetMeasurements i n s) (fun y => { y with response := s.signedParts [s.measure5 i, n, s.nonceNow] }) := by
  refine ⟨State.spdm_answers hm hr _, fun o n ho => State.spdm_answers hm (by simp [hr, ho]) _, fun n => State.drawn_answers hm hr _,
    fun i n h1 h6 => ?_⟩
  have hblocks : (if i = 0 then [6] else if i = 0xFF then [1, 2, 3, 4, 5, 6].map s.measure5 else [s.measure5 i]) = [s.measure5 i] := by
    rw [if_neg (by omega), if_neg (by omega)]
  unfold execGetMeasurements
  rw [hblocks]
  exact State.drawn_answers hm (by simp [hr, h6]) _

theorem execChallenge_draws {s : State} (hm : s.mgmtUp = true) (hr : s.mgt.spdm.ready = true) (n : Nat) :
    ∃ t, execChallenge n s = .next t ∧ t.mgt.draws = s.mgt.draws + 1 :=
  ⟨_, State.drawn_spdm hm hr _, rfl⟩

theorem execGetCertificate_errs {s : State} (hm : s.mgmtUp = true) {k : Nat} (hk : k ≠ 0) (o n : Nat) :
    execGetCertificate k o n s = .next { s with mgt := { s.mgt with spdm := { s.mgt.spdm with response := [], error := true } } } :=
  State.spdm_errs hm (by simp [hk]) _

theorem execGetMeasurements_errs {s : State} (hm : s.mgmtUp = true) {i : Nat} (h6 : 6 < i) (hi : i ≠ 0xFF) (n : Nat) :
    execGetMeasurements i n s = .next { s with mgt := { s.mgt with spdm := { s.mgt.spdm with response := [], error := true } } } := by
  have hok : (s.mgt.spdm.ready && (decide (i ≤ 6) || i == 0xFF)) = false := by
    have : ¬ i ≤ 6 := by omega
    simp [this, hi]
  unfold execGetMeasurements
  rw [hok]
  exact State.spdm_errs hm rfl _

/-- Settles O55: each request is State.spdm on its phase; the signed ones draw a value first. -/
theorem spdmRequests : Obligations.SpdmRequests := by
  unfold Obligations.SpdmRequests
  intro s hs hrest x answers errs
  have hm := State.mgmtUp_of hs hrest
  refine ⟨State.spdm_answers hm rfl _, fun h => State.spdm_answers hm (by simpa using h) _, fun h => State.spdm_errs hm (by simpa using h) _,
    fun l h hl => State.spdm_answers hm ?_ _, fun l h => State.spdm_errs hm ?_ _, fun h => ?_,
    fun k h => State.spdm_answers hm (by simpa using h) _, fun h => ?_, fun h hmild => execFinish_fails hm h hmild, fun h => ?_, fun h => ?_⟩
  · rw [spdmAlgorithms_all.mpr hl]
    simpa using h
  · rw [Bool.and_eq_false_iff]
    rcases h with h | ⟨n, hn, hl⟩
    · exact .inl (by simpa using h)
    · refine .inr (Bool.eq_false_iff.mpr (fun k => hl (spdmAlgorithms_all.mp k n hn)))
  · have hr := (Spdm.ready_iff s.mgt.spdm).mpr h
    obtain ⟨hdigests, hcert, hchallenge, hmeasure⟩ := spdm_ready_answers hm hr
    exact ⟨hdigests, hcert, fun k o n hk => execGetCertificate_errs hm hk o n, fun n => ⟨hchallenge n, execChallenge_draws hm hr n⟩,
      hmeasure, fun i n h6 hi => execGetMeasurements_errs hm h6 hi n⟩
  · exact execFinish_answers hm h
  · have hok : (s.mgt.spdm.phase == .session) = true := by simpa using h
    exact ⟨State.spdm_answers hm hok _, State.spdm_answers hm hok _, State.spdm_answers hm hok _⟩
  · have hok : (s.mgt.spdm.phase == .session) = false := by simpa using h
    exact ⟨State.spdm_errs hm hok _, State.spdm_errs hm hok _, State.spdm_errs hm hok _⟩

end Sys2Proof.Machine
end

section
/-! Rules for the requests of a PLDM firmware update (R445). -/

namespace Sys2Proof.Machine

/-! ## Requests that only move the update on -/

theorem State.pldmStep_goes {s : State} (hm : s.mgmtUp = true) {p : PldmPhase} (hp : s.mgt.pldm.phase = p) {ok : Bool} (hok : ok = true)
    (f : Pldm → Pldm) : s.pldmStep p ok f = { s with mgt := { s.mgt with pldm := { f s.mgt.pldm with refused := false } } } := by
  simp only [State.pldmStep, hm, hp, hok, BEq.rfl, Bool.and_self, Bool.not_true, Bool.false_eq_true, if_false, if_true]
  rfl

theorem State.pldmStep_refuses {s : State} (hm : s.mgmtUp = true) {p : PldmPhase} {ok : Bool} (h : s.mgt.pldm.phase ≠ p ∨ ok = false)
    (f : Pldm → Pldm) : s.pldmStep p ok f = s.pldmRefuse := by
  have hno : (s.mgt.pldm.phase == p && ok) = false := by
    rcases h with h | h <;> simp [h]
  simp only [State.pldmStep, hm, hno, Bool.not_true, Bool.false_eq_true, if_false]

/-! ## The requests that stage and activate -/

theorem execRequestUpdate_begins {s : State} (hm : s.mgmtUp = true) (hp : s.mgt.pldm.phase = .idle) (hs : s.mgt.staging = false)
    (ht : s.trialRuns = false) :
    execRequestUpdate 1 s = .next { s with mgt := { s.mgt with pldm := { phase := .learn }, staging := true } } := by
  simp [execRequestUpdate, State.pldmStep, State.pldmAt, State.modPldm, hm, hp, hs, ht]

theorem execRequestUpdate_refuses {s : State} (hm : s.mgmtUp = true) {n : Nat}
    (h : s.mgt.pldm.phase ≠ .idle ∨ s.mgt.staging = true ∨ s.trialRuns = true ∨ n ≠ 1) : execRequestUpdate n s = .next s.pldmRefuse := by
  have hno : s.mgt.pldm.phase ≠ .idle ∨ (n == 1 && !s.mgt.staging && !s.trialRuns) = false := by
    refine h.imp_right (fun h => ?_)
    rcases h with h | h | h <;> simp [h]
  have hat : (s.pldmAt .idle && (n == 1 && !s.mgt.staging && !s.trialRuns)) = false := by
    rcases hno with h | h
    · simp [State.pldmAt, h]
    · rw [h, Bool.and_false]
  unfold execRequestUpdate
  simp only [State.pldmStep_refuses hm hno, hat, Bool.false_eq_true, if_false]

/-- The image that was received passes at VerifyComplete. -/
theorem execVerifyComplete_stages {s : State} (hs : s.dev.standby = true) (hr : s.mgt.restarting = false) (hp : s.mgt.pldm.phase = .verify)
    (hf : s.dev.pwrFail = false) (ho : s.AtOnce opPldmStage) (ha : (fwImageOf s.mgt.pldm.received).authentic s.fuse = true)
    (hb : s.mgt.pldm.received ≠ []) : ∃ t, execVerifyComplete s = .next t ∧ t.mgt.pldm.phase = .apply ∧ t.mgt.stagedOk = true ∧
      t.otherImage = { fwImageOf s.mgt.pldm.received with valid := true } ∧ t.fuse = s.fuse := by
  have hat : s.pldmAt .verify = true := by simp [State.pldmAt, State.mgmtUp_of hs hr, hp]
  have hlone := State.lone_mgmt 0 State.pldmStage hs hr ho
    (s.resetWaits_of_opcode (by decide : opPldmStage ≠ 0x0A41) (by decide : [0x0A40, 0x0111, 0xF006, 0xF007].contains opPldmStage = false))
  generalize hu : s.withOrder (s.mgmtCmd opPldmStage 0) = u at hlone
  have hstage : u.stageImage u.mgt.pldm.received = (u.passed (fwImageOf u.mgt.pldm.received), true) := by
    subst hu
    exact State.stageImage_passes ha hb
  obtain ⟨halone, himage, hstaged⟩ := u.passed_spec (fwImageOf u.mgt.pldm.received)
  have hfuse := congrArg State.fuse halone
  refine ⟨_, by rw [execVerifyComplete, if_pos hat, hf, if_neg Bool.false_ne_true, hlone], ?_⟩
  unfold State.pldmStage
  rw [hstage]
  subst hu
  refine ⟨?_, ?_, ?_, ?_⟩
  · rw [State.settle_mgt]
    rfl
  · rw [State.settle_mgt]
    exact hstaged
  · rw [State.otherImage, State.settle_mgt, State.settle_dev]
    exact himage
  · rw [State.settle_fuse]
    exact hfuse

theorem State.activate_alone (s : State) : s.MgtAlone s.activate ∧ s.activate.otherImage = s.otherImage := by
  have hrecord (u : State) : u.MgtAlone (u.firmwareRecord 2) ∧ (u.firmwareRecord 2).otherImage = u.otherImage :=
    ⟨u.firmwareRecord_mgtAlone 2, (u.firmwareRecord_spares 2).image⟩
  unfold State.activate
  split
  · exact hrecord s
  · obtain ⟨halone, himage⟩ := hrecord (s.setFwctl true false (fwConfirming s.config.fwctl))
    exact ⟨State.MgtAlone.trans (t := s.setFwctl true false (fwConfirming s.config.fwctl)) rfl halone, himage⟩

/-- The staged image is activated, and the update is over. -/
theorem execActivateFirmware_ends {s : State} (hs : s.dev.standby = true) (hr : s.mgt.restarting = false) (hp : s.mgt.pldm.phase = .activate)
    (ho : s.AtOnce opPldmActivate) (hst : s.staged = true) : ∃ t, execActivateFirmware false s = .next t ∧ t.mgt.pldm.phase = .idle ∧
      t.mgt.staging = false ∧ t.fuse = s.fuse ∧ t.otherImage = s.otherImage := by
  have hat : (s.pldmAt .activate && !false) = true := by simp [State.pldmAt, State.mgmtUp_of hs hr, hp]
  have hlone := State.lone_mgmt 0 State.pldmActivate hs hr ho
    (s.resetWaits_of_opcode (by decide : opPldmActivate ≠ 0x0A41) (by decide : [0x0A40, 0x0111, 0xF006, 0xF007].contains opPldmActivate = false))
  obtain ⟨halone, himage⟩ := (s.withOrder (s.mgmtCmd opPldmActivate 0)).activate_alone
  have hfuse := congrArg State.fuse halone
  refine ⟨_, by rw [execActivateFirmware, if_pos hat, hlone, State.pldmActivate, if_pos (show (s.withOrder _).staged = true from hst)], ?_⟩
  exact ⟨rfl, rfl, hfuse, himage⟩

/-- Settles O56: the requests that only move the update on are State.pldmStep; staging and activation have their rules above. -/
theorem pldmUpdate : Obligations.PldmUpdate := by
  unfold Obligations.PldmUpdate
  intro s hs hr p goes refuses
  have hm := State.mgmtUp_of hs hr
  have hstep {ph : PldmPhase} (h : p.phase = ph) {ok : Bool} (hok : ok = true) (f : Pldm → Pldm) := State.pldmStep_goes hm h hok f
  have hstay {ph : PldmPhase} {ok : Bool} (h : p.phase ≠ ph ∨ ok = false) (f : Pldm → Pldm) := State.pldmStep_refuses hm h f
  refine ⟨fun hp hst ht => execRequestUpdate_begins hm hp hst ht, fun n h => execRequestUpdate_refuses hm h,
    fun hp => congrArg _ (hstep hp rfl _), fun n h => congrArg _ (hstay (h.imp_right (fun h => by simpa using h)) _),
    fun n hp h1 h2 => congrArg _ (hstep hp (by simp [inRange, h1, h2]) _), fun n h => congrArg _ (hstay (h.imp_right (fun h => ?_)) _),
    fun d hp hd => congrArg _ (hstep hp (by simpa [p] using hd) _),
    fun o d h => congrArg _ (hstay (h.imp_right (fun h => by simp [show o ≠ s.mgt.pldm.received.length from h])) _),
    fun hp hl => congrArg _ (hstep hp (by simpa using hl) _), fun h => congrArg _ (hstay (h.imp_right (fun h => by simpa using h)) _),
    fun hp hf ho ha hb => execVerifyComplete_stages hs hr hp hf ho ha hb, fun hp => ?_,
    fun hp => congrArg _ (hstep hp rfl _), fun hp => congrArg _ (hstay (.inl hp) _),
    fun hp ho hst => execActivateFirmware_ends hs hr hp ho hst, fun b h => ?_⟩
  · simp only [inRange, Bool.and_eq_false_iff, decide_eq_false_iff_not]
    omega
  · have hat : s.pldmAt .verify = false := by simp [State.pldmAt, show s.mgt.pldm.phase ≠ .verify from hp]
    show execVerifyComplete s = _
    rw [execVerifyComplete, hat, hm]
    rfl
  · have hat : (s.pldmAt .activate && !b) = false := by
      rcases h with h | h
      · simp [State.pldmAt, show s.mgt.pldm.phase ≠ .activate from h]
      · simp [h]
    show execActivateFirmware b s = _
    rw [execActivateFirmware, hat, hm]
    rfl

end Sys2Proof.Machine
end

section
/-! What naming its objects, and taking it from the arbiter's queue, leave as they are for a command. -/

namespace Sys2Proof.Machine

@[simp] theorem State.named_fab (s : State) (c : Cmd) : (s.named c).fab = s.fab := by
  have h := congrArg State.fab (s.named_same c).1
  exact h

@[simp] theorem State.named_pair (s : State) (c : Cmd) : (s.named c).pair = s.pair := by
  have h := congrArg State.pair (s.named_same c).1
  exact h

@[simp] theorem State.named_clk (s : State) (c : Cmd) : (s.named c).clk = s.clk := by
  have h := congrArg State.clk (s.named_same c).1
  exact h

@[simp] theorem State.named_dev (s : State) (c : Cmd) : (s.named c).dev = s.dev := by
  have h := congrArg State.dev (s.named_same c).1
  exact h

@[simp] theorem State.taken_fab (s : State) (id : Nat) (c : Cmd) : (s.taken id c).fab = s.fab := (s.takeOrder id).named_fab c

@[simp] theorem State.taken_pair (s : State) (id : Nat) (c : Cmd) : (s.taken id c).pair = s.pair := (s.takeOrder id).named_pair c

@[simp] theorem State.taken_clk (s : State) (id : Nat) (c : Cmd) : (s.taken id c).clk = s.clk := (s.takeOrder id).named_clk c

end Sys2Proof.Machine
end

section
/-! Rules for TIME_MEASURE, the offset table and the time base (R464 to R467, R481). -/

namespace Sys2Proof.Machine

/-! ## A measurement (R467) -/

/-- The state with another offset table. -/
def State.withOffsets (s : State) (o : List (Nat × OffsetEntry)) : State := { s with fab := { s.fab with offsets := o } }

theorem bestOf_isSome (l : List Exchange) : (bestOf (l.take 8)).isSome = (l != []) := by
  cases l <;> rfl

/-- A measurement changes the entry of its peer at most. -/
theorem State.measure_withOffsets (s : State) (p : PeerTiming) :
    ∃ o, (s.measure p).1 = s.withOffsets o ∧ ∀ q, q ≠ p.peer → look q o = look q s.fab.offsets := by
  unfold State.measure
  dsimp only
  split
  · exact ⟨_, rfl, fun q hq => look_put_ne hq _ _⟩
  · split
    · exact ⟨_, rfl, fun q hq => look_put_ne hq _ _⟩
    · exact ⟨s.fab.offsets, rfl, fun _ _ => rfl⟩

theorem State.measure_reached (s : State) (p : PeerTiming) : (s.measure p).2 = (p.exchanges != []) := by
  rw [← bestOf_isSome]
  unfold State.measure
  dsimp only
  split <;> rename_i h <;> rw [h] <;> rfl

theorem State.measure_one (s : State) (p : Nat) (e : Exchange) (hold : Bool) :
    let rtt := (((e.t4 : Int) - e.t1) - ((e.t3 : Int) - e.t2)).toNat
    look p (s.measure { peer := p, exchanges := [e], holdover := hold }).1.fab.offsets = some
      { offset := (((e.t2 : Int) - e.t1) + ((e.t3 : Int) - e.t4)) / 2, rtt := rtt, err := (rtt + 1) / 2, measured := e.t4,
        valid := true, stale := false, holdover := s.clk.holdover || hold } :=
  look_put_same _ _ _

theorem State.measure_none {s : State} {p : Nat} {o : OffsetEntry} (hl : look p s.fab.offsets = some o) (hv : o.valid = true) (hold : Bool) :
    look p (s.measure { peer := p, exchanges := [], holdover := hold }).1.fab.offsets = some { o with stale := true } := by
  have hm : (s.measure { peer := p, exchanges := [], holdover := hold }).1 =
      s.withOffsets (put p { o with stale := true } s.fab.offsets) := by
    simp [State.measure, bestOf, hl, hv, State.withOffsets]
  rw [hm]
  exact look_put_same _ _ _

theorem State.withOffsets_onlyFab (s : State) (o : List (Nat × OffsetEntry)) : s.OnlyFab (s.withOffsets o) := rfl

theorem exec_offsetMeasurement {s : State} {m : PeerTiming} {r : Route} (hr : look m.peer s.fab.routes = some r) (hv : r.valid = true) :
    exec (.offsetMeasurement m) s = .next (s.measure m).1 := by
  simp [exec, execOffsetMeasurement, hr, hv]

/-! ## TIME_MEASURE over a range -/

/-- The exchanges of a round with peer p. -/
def timingOf (timing : List PeerTiming) (p : Nat) : PeerTiming := (timing.find? (fun t => t.peer == p)).getD { peer := p }

theorem timingOf_peer (timing : List PeerTiming) (p : Nat) : (timingOf timing p).peer = p := by
  unfold timingOf
  cases h : timing.find? (fun t => t.peer == p) with
  | none => rfl
  | some t => simpa using List.find?_some h

/-- The peer answered in the round. -/
def reached (timing : List PeerTiming) (p : Nat) : Bool :=
  match timing.find? (fun (t : PeerTiming) => t.peer == p) with
  | some t => t.exchanges != []
  | none => false

theorem timingOf_exchanges (timing : List PeerTiming) (p : Nat) : ((timingOf timing p).exchanges != []) = reached timing p := by
  unfold timingOf reached
  cases timing.find? (fun t => t.peer == p) <;> rfl

/-- One peer of the range, with the counts of those measured and those that could not be reached. -/
def State.measureNext (timing : List PeerTiming) (acc : State × Nat × Nat) (p : Nat) : State × Nat × Nat :=
  let m := acc.1.measure (timingOf timing p)
  (m.1, acc.2.1 + b2n m.2, acc.2.2 + b2n (!m.2))

theorem State.measureAll_spec (timing : List PeerTiming) (ps : List Nat) (z : State × Nat × Nat) :
    ∃ o, ps.foldl (State.measureNext timing) z = (z.1.withOffsets o, z.2.1 + (ps.filter (reached timing)).length,
      z.2.2 + (ps.length - (ps.filter (reached timing)).length)) ∧ ∀ p, p ∉ ps → look p o = look p z.1.fab.offsets := by
  induction ps generalizing z with
  | nil => exact ⟨z.1.fab.offsets, rfl, fun _ _ => rfl⟩
  | cons p r ih =>
    obtain ⟨o1, hm, ho1⟩ := z.1.measure_withOffsets (timingOf timing p)
    obtain ⟨o, hfold, ho⟩ := ih (State.measureNext timing z p)
    have hle := List.length_filter_le (reached timing) r
    refine ⟨o, ?_, fun q hq => ?_⟩
    · rw [List.foldl_cons, hfold]
      simp only [State.measureNext, hm, State.measure_reached, timingOf_exchanges, List.filter_cons, List.length_cons]
      cases reached timing p <;> simp [State.withOffsets, b2n] <;> omega
    · obtain ⟨hqp, hqr⟩ : q ≠ p ∧ q ∉ r := by simpa using hq
      rw [ho q hqr]
      simp only [State.measureNext, hm]
      exact ho1 q (by rwa [timingOf_peer])

theorem exec_timeMeasure_range {s : State} {id : Nat} {c : Cmd} (h : s.OrderRuns id 0x0820 timeMeasureFields c) (h0 : c.par 0 1 = 0)
    (timing : List PeerTiming) : exec (.timeMeasure id timing) s = .next ((s.taken id c).measureRange c timing) := by
  simp only [exec, execTimeMeasure, State.fresh?_cmd h.1, h0, if_true]
  exact State.order_runs h _

theorem exec_timeMeasure_read {s : State} {id : Nat} {c : Cmd} (h : s.Runs id 0x0820 timeMeasureFields c) (h0 : c.par 0 1 ≠ 0)
    (timing : List PeerTiming) : exec (.timeMeasure id timing) s = .next ((s.named c).timeRead c) := by
  simp only [exec, execTimeMeasure, State.fresh?_cmd h.1, h0, if_false]
  exact State.deant_runs h _

theorem State.measureRange_spec {s : State} {c : Cmd} (hc : (s.cmd? c.id).isSome = true) (timing : List PeerTiming) :
    let ps := s.validPeers (c.par 2 2) (c.par 4 2)
    let ok := ps.filter (reached timing)
    (s.measureRange c timing).Ended c.id .ok 0 (BitVec.ofNat 128 (ok.length + (ps.length - ok.length) * 2 ^ 32)) ∧
      s.OnlyFab (s.measureRange c timing) ∧ { (s.measureRange c timing).fab with offsets := s.fab.offsets } = s.fab ∧
      ∀ p, p ∉ ps → look p (s.measureRange c timing).fab.offsets = look p s.fab.offsets := by
  intro ps ok
  obtain ⟨o, hfold, ho⟩ := State.measureAll_spec timing ps (s, 0, 0)
  have hrange : s.measureRange c timing = (s.withOffsets o).finishOk c.id (ok.length + (ps.length - ok.length) * 2 ^ 32) := by
    have heq : s.measureRange c timing = (fun r : State × Nat × Nat => r.1.finishOk c.id (r.2.1 + r.2.2 * 2 ^ 32))
      (ps.foldl (State.measureNext timing) (s, 0, 0)) := rfl
    rw [heq, hfold]
    simp [ok]
  rw [hrange]
  exact ⟨State.finish_ended hc _ _ _, rfl, rfl, ho⟩

/-! ## The time base (R464, R465) -/

theorem State.dropCondAll_hasCond (s : State) (n : CondName) (a : Nat) : (s.dropCondAll n).hasCond a n = false := by
  have hn : ∀ x ∈ s.conds, ¬x.name = n → x.allot = a → ¬x.name = n := fun _ _ hx _ => hx
  simpa [State.dropCondAll, State.hasCond] using hn

theorem execTimebaseLoss_holdover {s : State} (hp : s.clk.present = true) : ∃ t, execTimebaseLoss s = .next t ∧
    t.clk = { s.clk with present := false, holdover := true } ∧ (∀ a, a < 16 → t.hasCond a .holdover = true) ∧ t.hg.cmds = s.hg.cmds := by
  refine ⟨_, if_pos hp, by rw [State.settle_clk, State.setCondAll_clk], fun a ha => ?_, by rw [State.settle_hg, State.setCondAll_hg]⟩
  rw [State.settle_hasCond _ _ (by decide)]
  exact State.setCondAll_hasCond _ _ _ ha

theorem execTimebaseReturn_ends {s : State} (hp : s.clk.present = false) : ∃ t, execTimebaseReturn s = .next t ∧ t.clk.present = true ∧
    t.clk.holdover = false ∧ (∀ a, t.hasCond a .holdover = false) ∧ t.hg.cmds = s.hg.cmds := by
  have hreturns : ∃ ending, execTimebaseReturn s =
      .next (({ s.passTo ending with clk := { (s.passTo ending).clk with present := true, holdover := false } } : State).dropCondAll .holdover).settle := by
    unfold execTimebaseReturn
    exact ⟨_, if_neg (by simp [hp])⟩
  obtain ⟨ending, he⟩ := hreturns
  have hhg := s.passTo_hg ending
  rw [he]
  refine ⟨_, rfl, by rw [State.settle_clk]; rfl, by rw [State.settle_clk]; rfl, fun a => ?_, ?_⟩
  · rw [State.settle_hasCond _ _ (by decide)]
    exact State.dropCondAll_hasCond _ _ _
  · rw [State.settle_hg, ← hhg]
    rfl

/-- Settles O46: the fold over the peers of a range counts them by what each measurement says; the other rows follow their definitions. -/
theorem time : Obligations.Time := by
  unfold Obligations.Time
  refine ⟨fun s id timing c h h0 => ?_, fun s id timing c h hclean => ⟨fun h1 => ?_, fun h2 => ?_⟩, fun s p r e hold hr hv => ⟨?_, fun o ho hov => ?_⟩,
    fun s m hm => ?_, fun s hp => ?_, fun s hp => ?_, fun s hp => ?_⟩
  · have hspec := State.measureRange_spec h.taken_isSome timing
    have hps : (s.taken id c).validPeers (c.par 2 2) (c.par 4 2) = s.validPeers (c.par 2 2) (c.par 4 2) := by
      simp [State.validPeers]
    rw [hps, State.taken_fab, State.fresh?_id h.1] at hspec
    exact ⟨_, exec_timeMeasure_range h h0 timing, hspec⟩
  · obtain rfl := State.fresh?_id h.1
    have hfld : (c.par 0 1 != 1 || s.rawRefOk c.allot (c.par 8 8) (32 * c.par 4 2)) = true :=
      h.ok ⟨8, 8, c.par 0 1 != 1 || s.rawRefOk c.allot (c.par 8 8) (32 * c.par 4 2)⟩ (by simp [timeMeasureFields])
    have hobj : ((s.named c).obj? c.allot (refHandle (c.par 8 8))).isSome = true := by
      rw [(s.named_notes c).handles]
      exact State.obj?_of_rawRefOk (by simpa [h1] using hfld)
    refine ⟨_, exec_timeMeasure_read h (by omega) timing, ?_⟩
    rw [State.timeRead, if_pos h1, State.named_fab]
    exact State.withDest_readInto (hclean.named c) h.named_isSome hobj _ _
  · obtain rfl := State.fresh?_id h.1
    refine ⟨_, exec_timeMeasure_read h (by omega) timing, ?_⟩
    rw [State.timeRead, if_neg (by omega), State.named_clk]
    have hres : (if s.clk.holdover = true then 1 else 0) = w128 (b2n s.clk.holdover) := by cases s.clk.holdover <;> rfl
    rw [hres]
    exact ⟨State.finish_ended h.named_isSome _ _ _, State.finish_onlyCmds ..⟩
  · obtain ⟨o, hm, ho⟩ := s.measure_withOffsets { peer := p, exchanges := [e], holdover := hold }
    refine ⟨_, exec_offsetMeasurement hr hv, by rw [hm]; exact s.withOffsets_onlyFab o, fun q hq => ?_, s.measure_one p e hold⟩
    rw [hm]
    exact ho q hq
  · obtain ⟨n, hm, -⟩ := s.measure_withOffsets { peer := p, exchanges := [], holdover := hold }
    exact ⟨_, exec_offsetMeasurement hr hv, by rw [hm]; exact s.withOffsets_onlyFab n, State.measure_none ho hov hold⟩
  · simp [exec, execOffsetMeasurement, hm]
  · exact execTimebaseLoss_holdover hp
  · exact execTimebaseReturn_ends hp
  · exact ⟨s.idle, by simp [step, hp], rfl, rfl⟩

end Sys2Proof.Machine
end

section
/-! Rules for FAULT_READ, FAULT_CLEAR, FAULT_SEVERITY and FAULT_FORCE (R426 to R429). -/

namespace Sys2Proof.Machine

/-! ## FAULT_READ (R426) -/

theorem State.srcPresent_of_dev {s t : State} (h : t.dev = s.dev) (src : Nat) : t.srcPresent src = s.srcPresent src := by
  unfold State.srcPresent State.carries State.isX
  rw [h]

@[simp] theorem State.named_srcPresent (s : State) (c : Cmd) (src : Nat) : (s.named c).srcPresent src = s.srcPresent src :=
  State.srcPresent_of_dev (s.named_dev c) src

@[simp] theorem State.named_srcClass (s : State) (c : Cmd) (src : Nat) : (s.named c).srcClass src = s.srcClass src :=
  State.srcClass_of_severity (by rw [s.named_flt]) src

@[simp] theorem State.taken_srcPresent (s : State) (id : Nat) (c : Cmd) (src : Nat) : (s.taken id c).srcPresent src = s.srcPresent src :=
  (s.takeOrder id).named_srcPresent c src

@[simp] theorem State.taken_srcClass (s : State) (id : Nat) (c : Cmd) (src : Nat) : (s.taken id c).srcClass src = s.srcClass src :=
  (s.takeOrder id).named_srcClass c src

theorem State.named_faultBytes (s : State) (c : Cmd) : (s.named c).faultBytes c = s.faultBytes c := by
  have hfenced (a : Nat) : ((s.named c).al a).fenced = (s.al a).fenced := State.named_keeps Allot.fenced (fun _ _ _ => rfl) s c a
  unfold State.faultBytes State.settingByte State.fenceMap
  simp only [State.named_flt, State.named_srcPresent, State.named_srcClass, State.named_he, hfenced]

theorem exec_faultRead {s : State} {id : Nat} {c : Cmd} (h : s.Runs id 0x0901 faultReadFields c) :
    exec (.faultRead id) s = .next ((s.named c).withDest c 8 (s.faultBytes c) (fun u => u.finishOk id (faultReadSize c))) := by
  rw [← s.named_faultBytes c]
  exact State.deant_runs h (fun t c => t.withDest c 8 (t.faultBytes c) (fun u => u.finishOk id (faultReadSize c)))

/-! ## FAULT_CLEAR (R427) -/

theorem exec_faultClear {s : State} {id : Nat} {c : Cmd} (h : s.Runs id 0x0902 faultClearFields c) (h1 : c.par 0 1 ≠ 1) :
    exec (.faultClear (.cmd id)) s = .next ((s.named c).faultClear c) := by
  simp only [exec, execFaultClear, State.fresh?_cmd h.1, if_neg h1]
  exact State.deant_runs h _

theorem exec_faultClear_device {s : State} {id : Nat} {c : Cmd} (h : s.OrderRuns id 0x0902 faultClearFields c) (h1 : c.par 0 1 = 1) :
    exec (.faultClear (.cmd id)) s = .next ((s.taken id c).faultClear c) := by
  simp only [exec, execFaultClear, State.fresh?_cmd h.1, if_pos h1]
  exact State.order_runs h _

/-- The fault state with what a clear leaves, and the attention that follows it. -/
theorem State.cleared_ends {s : State} {c : Cmd} (hc : (s.cmd? c.id).isSome = true) (f : Faults) :
    ((({ s with flt := f } : State).settle).finishOk c.id 0).Ended c.id .ok 0 0 ∧
      ((({ s with flt := f } : State).settle).finishOk c.id 0).flt = f := by
  refine ⟨State.finish_ended ?_ _ _ _, ?_⟩
  · rw [State.settle_cmd?]
    exact hc
  · rw [State.finishOk, State.finish_flt, State.settle_flt]

section
variable {s : State} {c : Cmd}

theorem State.faultClear_own (h0 : c.par 0 1 = 0) : s.faultClear c =
    if (s.flt.own.getD c.allot {}).matched c then
      (({ s with flt := { s.flt with own := s.flt.own.set c.allot {} } } : State).settle).finishOk c.id 0
    else s.reject c.id (.wrongState, 0) := by
  unfold State.faultClear
  rw [h0]
  rfl

theorem State.faultClear_device (h1 : c.par 0 1 = 1) : s.faultClear c =
    if s.flt.device.matched c then (({ s with flt := { s.flt with device := {} } } : State).settle).finishOk c.id 0
    else s.reject c.id (.wrongState, 0) := by
  unfold State.faultClear
  rw [h1]
  rfl

theorem State.faultClear_counts (h2 : c.par 0 1 = 2) :
    s.faultClear c = ({ s with flt := { s.flt with counts := [] } } : State).finishOk c.id 0 := by
  unfold State.faultClear
  rw [h2]
  rfl

end

/-! ## FAULT_SEVERITY (R428) -/

/-- The settings with the sources of l at class cls. -/
def setClasses (cls : Nat) (l : List (Nat × Nat)) (m : List (Nat × Nat)) : List (Nat × Nat) := l.foldl (fun m e => put e.1 cls m) m

theorem look_setClasses (cls : Nat) (l m : List (Nat × Nat)) (src : Nat) :
    look src (setClasses cls l m) = if src ∈ l.map (·.1) then some cls else look src m := by
  induction l generalizing m with
  | nil => rfl
  | cons e r ih =>
    rw [setClasses, List.foldl_cons]
    refine (ih _).trans ?_
    by_cases he : src = e.1
    · simp [he]
    · simp only [List.map_cons, List.mem_cons, he, false_or, look_put_ne he]

theorem State.mem_severityRange {s : State} {c : Cmd} {e : Nat × Nat} :
    e ∈ s.severityRange c ↔ e.2 < c.par 4 2 ∧ e.1 = c.par 2 2 + e.2 ∧ s.srcPresent e.1 = true := by
  obtain ⟨src, i⟩ := e
  simp only [State.severityRange, List.mem_filter, List.mem_map, List.mem_range, Prod.mk.injEq]
  constructor
  · rintro ⟨⟨j, hj, rfl, rfl⟩, hp⟩
    exact ⟨hj, rfl, hp⟩
  · rintro ⟨hi, rfl, hp⟩
    exact ⟨⟨i, hi, rfl, rfl⟩, hp⟩

theorem State.mem_severitySources {s : State} {c : Cmd} {src : Nat} :
    src ∈ (s.severityRange c).map (·.1) ↔ c.par 2 2 ≤ src ∧ src < c.par 2 2 + c.par 4 2 ∧ s.srcPresent src = true := by
  simp only [List.mem_map, State.mem_severityRange]
  constructor
  · rintro ⟨e, ⟨hi, he, hp⟩, rfl⟩
    exact ⟨by omega, by omega, hp⟩
  · rintro ⟨h1, h2, hp⟩
    exact ⟨(src, src - c.par 2 2), ⟨by omega, by omega, hp⟩, rfl⟩

/-- A source of the range has its floor above the class that is asked for. -/
def belowFloor (cls : Nat) (e : Nat × Nat) : Bool := decide (cls < ((srcInfo e.1).map (·.floor)).getD 0)

/-- The state with the present sources of the range at the class. -/
def State.severed (s : State) (c : Cmd) : State :=
  { s with flt := { s.flt with severity := setClasses (c.par 1 1) (s.severityRange c) s.flt.severity } }

theorem State.severed_srcClass (s : State) (c : Cmd) (src : Nat) :
    (s.severed c).srcClass src = if src ∈ (s.severityRange c).map (·.1) then c.par 1 1 else s.srcClass src := by
  have hsev : (s.severed c).flt.severity = setClasses (c.par 1 1) (s.severityRange c) s.flt.severity := rfl
  unfold State.srcClass
  rw [hsev, look_setClasses]
  by_cases hm : src ∈ (s.severityRange c).map (·.1)
  · rw [if_pos hm, if_pos hm]
  · rw [if_neg hm, if_neg hm]

theorem exec_faultSeverity {s : State} {id : Nat} {c : Cmd} (h : s.OrderRuns id 0x0903 faultSeverityFields c) :
    exec (.faultSeverity (.cmd id)) s = .next ((s.taken id c).faultSeverity c) :=
  State.order_runs h State.faultSeverity

theorem State.faultSeverity_sets {s : State} {c : Cmd} (h0 : c.par 0 1 = 0) :
    s.faultSeverity c = match (s.severityRange c).find? (belowFloor (c.par 1 1)) with
      | some e => s.reject c.id (badParam 17 e.2)
      | none => (s.severed c).finishOk c.id 0 := by
  unfold State.faultSeverity
  rw [if_neg (by omega)]
  rfl

theorem State.faultSeverity_allowed {s : State} {c : Cmd} (h0 : c.par 0 1 = 0)
    (hf : ∀ i x, i < c.par 4 2 → s.srcPresent (c.par 2 2 + i) = true → srcInfo (c.par 2 2 + i) = some x → x.floor ≤ c.par 1 1) :
    s.faultSeverity c = (s.severed c).finishOk c.id 0 := by
  have hnone : (s.severityRange c).find? (belowFloor (c.par 1 1)) = none := by
    rw [List.find?_eq_none]
    rintro ⟨src, i⟩ he
    obtain ⟨hi, hsrc, hp⟩ := State.mem_severityRange.mp he
    dsimp only at hi hsrc hp
    subst hsrc
    obtain ⟨x, hx⟩ : ∃ x, srcInfo (c.par 2 2 + i) = some x := by
      unfold State.srcPresent at hp
      split at hp
      · exact ⟨_, ‹_›⟩
      · cases hp
    have := hf i x hi hp hx
    simp [belowFloor, hx, this]
  rw [State.faultSeverity_sets h0, hnone]

theorem State.faultSeverity_below {s : State} {c : Cmd} (h0 : c.par 0 1 = 0)
    (hf : ∃ i x, i < c.par 4 2 ∧ s.srcPresent (c.par 2 2 + i) = true ∧ srcInfo (c.par 2 2 + i) = some x ∧ c.par 1 1 < x.floor) :
    ∃ i, i < c.par 4 2 ∧ s.faultSeverity c = s.reject c.id (.badParam, BitVec.ofNat 32 (17 + 65536 * i)) := by
  obtain ⟨i, x, hi, hp, hx, hlt⟩ := hf
  cases hfind : (s.severityRange c).find? (belowFloor (c.par 1 1)) with
  | none =>
    have hno := List.find?_eq_none.mp hfind (c.par 2 2 + i, i) (State.mem_severityRange.mpr ⟨hi, rfl, hp⟩)
    simp [belowFloor, hx, hlt] at hno
  | some e =>
    obtain ⟨he, -, -⟩ := State.mem_severityRange.mp (List.mem_of_find?_eq_some hfind)
    have hlen := c.par_lt 4 2
    have hsat : satTo 65535 e.2 = e.2 := by
      rw [satTo_eq_min]
      omega
    refine ⟨e.2, he, ?_⟩
    rw [State.faultSeverity_sets h0, hfind]
    dsimp only
    rw [badParam, hsat]

/-! ## FAULT_FORCE (R429) -/

theorem exec_faultForce {s : State} {id : Nat} {c : Cmd} (h : s.OrderRuns id 0x0904 faultForceFields c) :
    exec (.faultForce id) s = .next ((s.taken id c).faultForce c) :=
  State.order_runs h State.faultForce

/-- Settles O47: each row by its equation above; the settings after FAULT_SEVERITY are read back source by source. -/
theorem faultCommands : Obligations.FaultCommands := by
  unfold Obligations.FaultCommands
  refine ⟨fun s id c h hclean => ?_, fun s id c h h1 => ⟨fun h0 hm => ?_, fun h0 hm => ?_, fun h2 => ?_⟩,
    fun s id c h h1 => ⟨fun hm => ?_, fun hm => ?_⟩, fun s id c h => ⟨fun h1 => ?_, fun h0 hf => ?_, fun h0 hf => ?_⟩,
    fun s id c h => ⟨fun hf => ?_, fun hf => ?_⟩⟩
  · obtain rfl := State.fresh?_id h.1
    have hobj : ((s.named c).obj? c.allot (refHandle (c.par 8 8))).isSome = true := by
      rw [(s.named_notes c).handles]
      exact State.obj?_of_rawRefOk (h.ok (s.destOk c 8 (faultReadSize c)) (by simp [faultReadFields]))
    exact ⟨_, exec_faultRead h, State.withDest_readInto (hclean.named c) h.named_isSome hobj _ _⟩
  · obtain rfl := State.fresh?_id h.1
    rw [exec_faultClear h h1, State.faultClear_own h0, State.named_flt, if_pos hm]
    exact ⟨_, rfl, State.cleared_ends h.named_isSome _⟩
  · obtain rfl := State.fresh?_id h.1
    refine State.rejects_alone h.named_isSome ?_
    rw [exec_faultClear h h1, State.faultClear_own h0, State.named_flt, hm]
    rfl
  · obtain rfl := State.fresh?_id h.1
    rw [exec_faultClear h h1, State.faultClear_counts h2]
    refine ⟨_, rfl, State.finish_ended h.named_isSome _ _ _, rfl, ?_⟩
    rw [State.finishOk, State.finish_flt, State.named_flt]
  · have hc := h.taken_isSome
    obtain rfl := State.fresh?_id h.1
    rw [exec_faultClear_device h h1, State.faultClear_device h1, State.taken_flt, if_pos hm]
    exact ⟨_, rfl, State.cleared_ends hc _⟩
  · have hc := h.taken_isSome
    obtain rfl := State.fresh?_id h.1
    refine State.rejects_alone hc ?_
    rw [exec_faultClear_device h h1, State.faultClear_device h1, State.taken_flt, hm]
    rfl
  · have hc := h.taken_isSome
    obtain rfl := State.fresh?_id h.1
    rw [exec_faultSeverity h, State.faultSeverity, if_pos h1, State.taken_srcClass]
    exact ⟨_, rfl, State.finish_ended hc _ _ _, State.finish_onlyCmds ..⟩
  · have hc := h.taken_isSome
    obtain rfl := State.fresh?_id h.1
    have hclass (src : Nat) := (s.taken c.id c).severed_srcClass c src
    simp only [State.mem_severitySources, State.taken_srcPresent, State.taken_srcClass] at hclass
    rw [exec_faultSeverity h, State.faultSeverity_allowed h0 (by simpa using hf)]
    refine ⟨_, rfl, State.finish_ended hc _ _ _, rfl, fun i hi hp => ?_, fun src hsrc => ?_⟩
    · exact (hclass _).trans (if_pos ⟨by omega, by omega, hp⟩)
    · refine (hclass _).trans (if_neg ?_)
      rintro ⟨h1, h2, hp⟩
      rcases hsrc with k | k | k
      · omega
      · omega
      · rw [k] at hp
        cases hp
  · have hc := h.taken_isSome
    obtain rfl := State.fresh?_id h.1
    obtain ⟨i, hi, heq⟩ := State.faultSeverity_below (s := s.taken c.id c) h0 (by simpa using hf)
    rw [exec_faultSeverity h, heq]
    exact ⟨_, i, rfl, hi, State.finish_ended hc _ _ _, State.finish_onlyCmds ..⟩
  · have hc := h.taken_isSome
    obtain rfl := State.fresh?_id h.1
    have hno : ((s.taken c.id c).flt.force.any (fun e => e.1 == c.par 0 2)) = false := by simpa using hf
    rw [exec_faultForce h, State.faultForce, hno]
    refine ⟨_, rfl, State.finish_ended hc _ _ _, rfl, ?_, look_put_same _ _ _⟩
    rw [← s.taken_flt c.id c]
    rfl
  · have hc := h.taken_isSome
    obtain rfl := State.fresh?_id h.1
    have hyes : ((s.taken c.id c).flt.force.any (fun e => e.1 == c.par 0 2)) = true := by simpa using hf
    rw [exec_faultForce h, State.faultForce, hyes]
    exact ⟨_, rfl, State.finish_ended hc _ _ _, State.finish_onlyCmds ..⟩

end Sys2Proof.Machine
end

section
/-! What sending leaves as it is: packets go out, counters count, and of the fabric only the ports' buffers, the marks of what was sent and
the wire differ (R353, R354). -/

namespace Sys2Proof.Machine

/-! ## What is not a buffer -/

/-- A packet without the marks that sending sets. -/
def Sent.bare (x : Sent) : Sent := { x with sends := 0, port := 0, since := 0 }

theorem Sent.of_bare {x y : Sent} (h : x.bare = y.bare) : x.vc = y.vc ∧ x.peer = y.peer ∧ x.own = y.own ∧ x.kind = y.kind :=
  ⟨by have k := congrArg Sent.vc h; exact k, by have k := congrArg Sent.peer h; exact k, by have k := congrArg Sent.own h; exact k,
    by have k := congrArg Sent.kind h; exact k⟩

/-- A port without its buffers, numbers and counts of what it sends. -/
def Port.bare (x : Port) : Port := { x with replay := [], waiting := [], out := [], txSeq := 0, invocTx := 0, aliveTx := [0, 0] }

/-- A fabric without what sending changes. -/
def Fabric.bare (f : Fabric) : Fabric := { f with ports := f.ports.map Port.bare, unacked := f.unacked.map Sent.bare, wire := [] }

/-- Packets leave: of the fabric nothing else differs, and of the allotments the counters alone. -/
structure State.Emits (s t : State) : Prop where
  frame : { t with fab := s.fab, allots := s.allots, glob := s.glob } = s
  fabric : t.fab.bare = s.fab.bare
  als : ∀ a, { t.al a with ctr := (s.al a).ctr } = s.al a

theorem State.Emits.refl (s : State) : s.Emits s := ⟨rfl, rfl, fun _ => rfl⟩

theorem State.Emits.trans {s t u : State} (h : s.Emits t) (k : t.Emits u) : s.Emits u := by
  refine ⟨?_, k.fabric.trans h.fabric, fun a => ?_⟩
  · conv => rhs; rw [← h.frame]
    rw [← k.frame]
  · conv => rhs; rw [← h.als a]
    rw [← k.als a]

theorem State.Emits.foldl {α : Type} {f : State → α → State} (h : ∀ (s : State) x, s.Emits (f s x)) (l : List α) (s : State) :
    s.Emits (l.foldl f s) :=
  List.foldlRecOn (motive := fun t => s.Emits t) l f (.refl s) (fun t ht x _ => ht.trans (h t x))

theorem State.Emits.of_fab (s : State) {f : Fabric} (h : f.bare = s.fab.bare) : s.Emits { s with fab := f } := ⟨rfl, h, fun _ => rfl⟩

theorem Fabric.bare_port (f : Fabric) (p : Nat) : f.bare.ports.getD p {} = (f.ports.getD p {}).bare := by
  simp only [Fabric.bare, List.getD_eq_getElem?_getD, List.getElem?_map]
  cases f.ports[p]? <;> rfl

section
variable {s t : State} (h : s.Emits t)
include h

theorem State.Emits.hg : t.hg = s.hg := by
  have k := congrArg State.hg h.frame
  exact k

theorem State.Emits.dev : t.dev = s.dev := by
  have k := congrArg State.dev h.frame
  exact k

theorem State.Emits.flt : t.flt = s.flt := by
  have k := congrArg State.flt h.frame
  exact k

theorem State.Emits.pair : t.pair = s.pair := by
  have k := congrArg State.pair h.frame
  exact k

theorem State.Emits.clk : t.clk = s.clk := by
  have k := congrArg State.clk h.frame
  exact k

theorem State.Emits.host : t.host = s.host := by
  have k := congrArg State.host h.frame
  exact k

theorem State.Emits.conds : t.conds = s.conds := by
  have k := congrArg State.conds h.frame
  exact k

theorem State.Emits.objs (a : Nat) : (t.al a).objs = (s.al a).objs := by
  have k := congrArg Allot.objs (h.als a)
  exact k

theorem State.Emits.mir (a : Nat) : (t.al a).mir = (s.al a).mir := by
  have k := congrArg Allot.mir (h.als a)
  exact k

theorem State.Emits.cmd? (id : Nat) : t.cmd? id = s.cmd? id := by rw [State.cmd?, h.hg, State.cmd?]

theorem State.Emits.streams : t.fab.streams = s.fab.streams := by
  have k := congrArg Fabric.streams h.fabric
  exact k

theorem State.Emits.routes : t.fab.routes = s.fab.routes := by
  have k := congrArg Fabric.routes h.fabric
  exact k

theorem State.Emits.groups : t.fab.groups = s.fab.groups := by
  have k := congrArg Fabric.groups h.fabric
  exact k

theorem State.Emits.colls : t.fab.colls = s.fab.colls := by
  have k := congrArg Fabric.colls h.fabric
  exact k

theorem State.Emits.inbound : t.fab.inbound = s.fab.inbound := by
  have k := congrArg Fabric.inbound h.fabric
  exact k

theorem State.Emits.self : t.fab.self = s.fab.self := by
  have k := congrArg Fabric.self h.fabric
  exact k

theorem State.Emits.peersDown : t.fab.peersDown = s.fab.peersDown := by
  have k := congrArg Fabric.peersDown h.fabric
  exact k

theorem State.Emits.unacked : t.fab.unacked.map Sent.bare = s.fab.unacked.map Sent.bare := by
  have k := congrArg Fabric.unacked h.fabric
  exact k

theorem State.Emits.port (p : Nat) : (t.port p).bare = (s.port p).bare := by
  rw [State.port, State.port, ← Fabric.bare_port, ← Fabric.bare_port, h.fabric]

/-- A packet that is not acknowledged was so before, but for its marks. -/
theorem State.Emits.mem_unacked {y : Sent} (hy : y ∈ t.fab.unacked) : ∃ x ∈ s.fab.unacked, x.bare = y.bare :=
  List.mem_map.mp (h.unacked ▸ List.mem_map_of_mem hy)

/-- A packet that is not acknowledged stays so, but for its marks. -/
theorem State.Emits.unacked_mem {x : Sent} (hx : x ∈ s.fab.unacked) : ∃ y ∈ t.fab.unacked, y.bare = x.bare :=
  List.mem_map.mp (h.unacked ▸ List.mem_map_of_mem (f := Sent.bare) hx)

end

/-! ## Frames and packets (R341, R342, R353) -/

theorem map_modAt_of_eq {α β : Type} {g : α → β} {f : α → α} (h : ∀ x, g (f x) = g x) (i : Nat) (l : List α) : (modAt i f l).map g = l.map g := by
  refine List.ext_getElem? (fun j => ?_)
  simp only [modAt, List.getElem?_map, List.getElem?_modify]
  cases l[j]? with
  | none => rfl
  | some x =>
    by_cases k : i = j
    · simp [k, h]
    · simp [k]

theorem State.modPort_emits (s : State) (p : Nat) {f : Port → Port} (h : ∀ x, (f x).bare = x.bare) : s.Emits (s.modPort p f) := by
  refine .of_fab s ?_
  simp only [Fabric.bare, map_modAt_of_eq h]

theorem Port.frameOut_foldl_bare (fs : List LinkFrame) (x : Port) : (fs.foldl Port.frameOut x).bare = x.bare :=
  List.foldlRecOn (motive := fun y : Port => y.bare = x.bare) fs Port.frameOut rfl (fun _ h _ _ => h)

theorem Port.sendFrames_bare (x : Port) (vc : Nat) (bs : List Byte) : (x.sendFrames vc bs).bare = x.bare :=
  (Port.frameOut_foldl_bare _ _).trans rfl

theorem Port.flush_bare (l : List (Nat × List Byte)) (x : Port) : (Port.flush l x).bare = x.bare := by
  induction l generalizing x with
  | nil => rfl
  | cons e r ih =>
    unfold Port.flush
    split
    · exact (ih _).trans (x.sendFrames_bare _ _)
    · rfl

theorem Port.countAlive_bare (x : Port) (vc : Nat) : (x.countAlive vc).bare = x.bare := by
  unfold Port.countAlive
  split <;> rfl

theorem State.emit_emits (s : State) (p peer vc : Nat) (bs : List Byte) : s.Emits (s.emit p peer vc bs) := by
  refine s.modPort_emits p (fun x => ?_)
  dsimp only
  split
  · exact Port.flush_bare _ x
  · exact (Port.sendFrames_bare _ _ _).trans rfl
  · rfl
  · rfl

theorem State.putPacket_emits (s : State) (p : Nat) (x : Packet) : s.Emits (s.putPacket p x) := by
  have hc : s.Emits (s.modPort p (fun y => y.countAlive x.vc)) := s.modPort_emits p (fun y => y.countAlive_bare x.vc)
  unfold State.putPacket
  exact (hc.trans (State.emit_emits _ _ _ _ _)).trans (.of_fab _ rfl)

theorem State.modSent_emits (s : State) (x : Sent) {f : Sent → Sent} (h : ∀ y, (f y).bare = y.bare) : s.Emits (s.modSent x f) := by
  refine .of_fab s ?_
  simp only [Fabric.bare, List.map_map]
  congr 1
  refine List.map_congr_left (fun y _ => ?_)
  dsimp only [Function.comp]
  split
  · exact h y
  · rfl

/-- An event changes the counters of an allotment alone. -/
theorem State.count_als (s : State) (ev : Nat) (h a layer cmd : Option Nat) (n b : Nat) :
    { (s.count ev h a layer cmd n).al b with ctr := (s.al b).ctr } = s.al b := by
  unfold State.count
  split
  · rfl
  · dsimp only
    split
    · rfl
    · rw [State.modAl_al]
      split
      · rename_i k
        obtain ⟨rfl, -⟩ := k
        rfl
      · rfl

theorem State.count_emits (s : State) (ev : Nat) (h a layer cmd : Option Nat) (n : Nat) : s.Emits (s.count ev h a layer cmd n) := by
  have hc := (s.count_frame ev h a layer cmd n).1
  have hf := congrArg State.fab hc
  refine ⟨?_, congrArg Fabric.bare hf, s.count_als ev h a layer cmd n⟩
  rw [← hf]
  exact hc

theorem State.countBytes_emits (s : State) (c : Cmd) (tier : Nat) (h : Option Nat) (n : Nat) : s.Emits (s.countBytes c tier h n) :=
  s.count_emits (0x0E + tier) h (some c.allot) none (some c.id) (ceilDiv n 64)

theorem State.sendNow_emits (s : State) (x : Sent) (again : Bool) : s.Emits (s.sendNow x again) := by
  unfold State.sendNow
  split
  · split
    · exact .refl s
    · have hp (q : Nat) (y : Packet) (n : Nat) : s.Emits ((s.putPacket q y).modSent x (fun z => { z with sends := z.sends + 1, port := q, since := n })) :=
        (s.putPacket_emits q y).trans (State.modSent_emits _ x (fun _ => rfl))
      dsimp only
      split
      · exact (hp _ _ _).trans (State.count_emits _ _ _ _ _ _ _)
      · refine State.Emits.trans ?_ (State.count_emits _ _ _ _ _ _ _)
        split
        · exact (hp _ _ _).trans (State.count_emits _ _ _ _ _ _ _)
        · exact hp _ _ _
  · exact .refl s

theorem State.trySend_emits (s : State) (x : Sent) : s.Emits (s.trySend x) := by
  unfold State.trySend
  split
  · split
    · exact s.sendNow_emits x false
    · exact .refl s
  · exact .refl s

theorem State.pump_emits (s : State) : s.Emits s.pump := .foldl State.trySend_emits s.fab.unacked s

/-- What packets that enter the streams leave: they stand behind the others, and what can go out goes out. -/
theorem State.enqueue_emits (s : State) (xs : List Sent) :
    State.Emits { s with fab := { s.fab with unacked := s.fab.unacked ++ xs.map (fun x => { x with since := s.now }) } } (s.enqueue xs) :=
  State.pump_emits _

/-- A packet that enters the streams is not acknowledged. -/
theorem State.mem_enqueue (s : State) {xs : List Sent} {x : Sent} (h : x ∈ xs) : ∃ y ∈ (s.enqueue xs).fab.unacked, y.bare = x.bare :=
  (s.enqueue_emits xs).unacked_mem (x := { x with since := s.now }) (List.mem_append_right _ (List.mem_map.mpr ⟨x, h, rfl⟩))

end Sys2Proof.Machine
end

section
/-! Rules for PEER_MAP and ROUTE_REWRITE: routes, groups, ports and the reset of the streams to a peer (R345, R347, R350 to R352). -/

namespace Sys2Proof.Machine

/-! ## PEER_MAP as the arbiter executes it (R352) -/

theorem State.OrderRuns.ok {s : State} {id op : Nat} {fs : State → Cmd → List Fld} {c : Cmd} (h : s.OrderRuns id op fs c) :
    ∀ f ∈ fs (s.takeOrder id) c, f.ok = true := by
  obtain ⟨-, -, -, -, hj⟩ := h
  refine ok_of_firstFail_none (p := c.params) (plen := c.plen) ?_
  cases hff : firstFail (fs (s.takeOrder id) c) c.params c.plen with
  | none => rfl
  | some o => simp [State.judgeInline, firstBad, Cmd.checkFields, hff] at hj

theorem exec_peerMap {s : State} {id : Nat} {c : Cmd} {kind : Nat} (h : s.MapRuns id c kind) :
    exec (.peerMap id) s = .next ((s.taken id c).peerMap c) := by
  obtain ⟨hrun, hready, hclean, -, -⟩ := h
  have hrow : exec (.peerMap id) s = .next ((s.taken id c).peerMapRead c) := by
    show execPeerMap id s = _
    simp only [execPeerMap, State.orderReady, hrun.1, hready, if_true]
    exact State.order_runs hrun State.peerMapRead
  rw [hrow, State.peerMapRead]
  rw [(hclean.taken id c).poisonOf (.ite (.nil _) (.cons (.nil _)))]

/-- The state of a command that the arbiter executes, by its own number. -/
theorem State.MapRuns.taken_isSome {s : State} {id : Nat} {c : Cmd} {kind : Nat} (h : s.MapRuns id c kind) :
    ((s.taken c.id c).cmd? c.id).isSome = true := by
  have hc := h.1.taken_isSome
  rwa [← State.fresh?_id h.1.1] at hc

/-! ## Routes (KIND 1) -/

theorem State.routeOk_of_same {s t : State} (hf : t.fab = s.fab) (hd : t.dev = s.dev) (e : Nat) : t.routeOk e = s.routeOk e := by
  unfold State.routeOk State.pathOk portCount State.isX State.port
  rw [hf, hd]

/-- The routes with the entries es of the peers from first on. -/
def putRoutes (first : Nat) (f : Nat → Nat → Route) (es : List (Nat × Nat)) (m : List (Nat × Route)) : List (Nat × Route) :=
  es.foldl (fun m e => put (first + e.2) (f e.2 e.1) m) m

theorem look_putRoutes_other {first q : Nat} {f : Nat → Nat → Route} {es : List (Nat × Nat)} (h : ∀ e ∈ es, q ≠ first + e.2) (m : List (Nat × Route)) :
    look q (putRoutes first f es m) = look q m := by
  induction es generalizing m with
  | nil => rfl
  | cons e r ih =>
    obtain ⟨he, hr⟩ := List.forall_mem_cons.mp h
    exact (ih hr _).trans (look_put_ne he _ m)

theorem look_putRoutes (first : Nat) (f : Nat → Nat → Route) (es : List Nat) (n : Nat) (m : List (Nat × Route)) {i e : Nat} (h : es[i]? = some e) :
    look (first + (n + i)) (putRoutes first f (es.zipIdx n) m) = some (f (n + i) e) := by
  induction es generalizing n m i with
  | nil => cases h
  | cons x r ih =>
    rw [List.zipIdx_cons, putRoutes, List.foldl_cons]
    cases i with
    | zero =>
      cases h
      refine (look_putRoutes_other (fun e he => ?_) _).trans (look_put_same _ _ _)
      have hle := List.le_snd_of_mem_zipIdx he
      omega
    | succ i =>
      have hi := ih (n + 1) (put (first + n) (f n x) m) h
      rwa [show n + 1 + i = n + (i + 1) by omega] at hi

section
variable {s : State} {c : Cmd}

/-- The entries of the list of a KIND 1. -/
def State.mapEntries (s : State) (c : Cmd) : List Nat := (recordsOf 32 (s.readRef c.allot (c.par 8 8) 1 (32 * c.par 0x12 2))).map leNat

/-- The state with the entries of the list among its routes, and what waited for a path sent. -/
def State.routed (s : State) (c : Cmd) : State :=
  State.pump { s with fab := { s.fab with
    routes := putRoutes (c.par 0x10 2) (fun i e => routeOf e (s.route (c.par 0x10 2 + i)).epoch) (s.mapEntries c).zipIdx s.fab.routes } }

theorem State.routed_cmd? (id : Nat) : (s.routed c).cmd? id = s.cmd? id := (State.pump_emits _).cmd? id

theorem State.routed_routes : (s.routed c).fab.routes =
    putRoutes (c.par 0x10 2) (fun i e => routeOf e (s.route (c.par 0x10 2 + i)).epoch) (s.mapEntries c).zipIdx s.fab.routes :=
  (State.pump_emits _).routes

theorem State.mapRoutes_takes (hok : ∀ e ∈ s.mapEntries c, s.routeOk e = true)
    (hno : ∀ i, i < (s.mapEntries c).length → s.streamTo (c.par 0x10 2 + i) = false) : s.mapRoutes c = (s.routed c).finishOk c.id 0 := by
  have hfind : ((s.mapEntries c).zipIdx).find? (fun e => !s.routeOk e.1) = none := by
    refine List.find?_eq_none.mpr (fun e he => ?_)
    simp [hok e.1 (List.fst_mem_of_mem_zipIdx he)]
  have hany : ((s.mapEntries c).zipIdx).any (fun e => s.routeValid (c.par 0x10 2 + e.2) && s.streamTo (c.par 0x10 2 + e.2) &&
      routeOf e.1 (s.route (c.par 0x10 2 + e.2)).epoch != s.route (c.par 0x10 2 + e.2)) = false := by
    refine List.any_eq_false.mpr (fun e he => ?_)
    have hlt := List.snd_lt_of_mem_zipIdx he
    rw [hno e.2 (by omega), Bool.and_false, Bool.false_and]
    exact Bool.false_ne_true
  unfold State.mapRoutes
  rw [State.mapEntries] at hfind hany
  simp only [hfind, hany]
  rfl

theorem State.mapRoutes_bad {i : Nat} (h : (s.mapEntries c).findIdx? (fun e => !s.routeOk e) = some i) : s.mapRoutes c = s.reject c.id (badIn i) := by
  have hfind : ∃ e, ((s.mapEntries c).zipIdx).find? (fun e => !s.routeOk e.1) = some (e, i) := by
    obtain ⟨hi, hbad, hfirst⟩ := List.findIdx?_eq_some_iff_getElem.mp h
    refine ⟨(s.mapEntries c)[i], List.find?_eq_some_iff_getElem.mpr ⟨hbad, i, by simpa using hi, by simp, fun j hj => ?_⟩⟩
    simpa using hfirst j hj
  obtain ⟨e, he⟩ := hfind
  unfold State.mapRoutes
  rw [State.mapEntries] at he
  simp only [he]

end

/-! ## Held contributions that are dropped (R366) -/

/-- Held contributions are dropped and counted: nothing but them, their counts and their charges differs. -/
structure State.Drops (s t : State) : Prop where
  frame : { t with fab := { t.fab with held := s.fab.held, tails := s.fab.tails }, allots := s.allots } = s
  objs : ∀ a, (t.al a).objs = (s.al a).objs
  held : ∀ h ∈ t.fab.held, h ∈ s.fab.held

theorem State.Drops.refl (s : State) : s.Drops s := ⟨rfl, fun _ => rfl, fun _ h => h⟩

theorem State.Drops.trans {s t u : State} (h : s.Drops t) (k : t.Drops u) : s.Drops u := by
  refine ⟨?_, fun a => (k.objs a).trans (h.objs a), fun x hx => h.held x (k.held x hx)⟩
  conv => rhs; rw [← h.frame]
  rw [← k.frame]

theorem State.uncharge_objs (s : State) (a : Nat) (k : ChargeKind) (b : Nat) : ((s.uncharge a k).al b).objs = (s.al b).objs :=
  s.modAl_keeps Allot.objs a (by intro x; rfl) b

theorem State.modTail_fab (s : State) (group rank : Nat) (f : TailCount → TailCount) :
    ∃ ts, s.modTail group rank f = { s with fab := { s.fab with tails := ts } } := by
  unfold State.modTail
  extract_lets ts
  split
  · exact ⟨_, rfl⟩
  · exact ⟨_, rfl⟩

theorem State.dropHeld_held (s : State) (h : Held) :
    (s.dropHeld h).fab.held = s.fab.held.filter (fun x => !(x.group == h.group && x.peer == h.peer && x.index == h.index)) := by
  unfold State.dropHeld
  obtain ⟨ts, hts⟩ := State.modTail_fab (s.unhold (s.group h.group).allot h) h.group ((s.group h.group).rankOf h.peer) TailCount.drop
  rw [hts]
  rfl

theorem State.dropHeld_drops (s : State) (h : Held) : s.Drops (s.dropHeld h) := by
  refine ⟨?_, fun b => ?_, fun x hx => ?_⟩
  · unfold State.dropHeld
    obtain ⟨ts, hts⟩ := State.modTail_fab (s.unhold (s.group h.group).allot h) h.group ((s.group h.group).rankOf h.peer) TailCount.drop
    rw [hts]
    rfl
  · unfold State.dropHeld
    obtain ⟨ts, hts⟩ := State.modTail_fab (s.unhold (s.group h.group).allot h) h.group ((s.group h.group).rankOf h.peer) TailCount.drop
    rw [hts]
    exact State.uncharge_objs _ _ _ b
  · rw [State.dropHeld_held] at hx
    exact (List.mem_filter.mp hx).1

theorem State.dropHeld_foldl_drops (l : List Held) (s : State) : s.Drops (l.foldl (fun t h => t.dropHeld h) s) :=
  List.foldlRecOn (motive := fun t => s.Drops t) l _ (.refl s) (fun t ht h _ => ht.trans (t.dropHeld_drops h))

/-- What was dropped is held no longer. -/
theorem State.dropHeld_foldl_gone (l : List Held) (s : State) : ∀ x ∈ (l.foldl (fun t h => t.dropHeld h) s).fab.held, x ∉ l := by
  induction l generalizing s with
  | nil => exact fun _ _ => List.not_mem_nil
  | cons h r ih =>
    intro x hx hm
    rcases List.mem_cons.mp hm with rfl | hr
    · have hx' := (State.dropHeld_foldl_drops r (s.dropHeld x)).held x hx
      rw [State.dropHeld_held] at hx'
      simp at hx'
    · exact ih _ x hx hr

section
variable {s t : State} (h : s.Drops t)
include h

theorem State.Drops.hg : t.hg = s.hg := by
  have k := congrArg State.hg h.frame
  exact k

theorem State.Drops.cmd? (id : Nat) : t.cmd? id = s.cmd? id := by rw [State.cmd?, h.hg, State.cmd?]

theorem State.Drops.groups : t.fab.groups = s.fab.groups := by
  have k := congrArg (fun u => u.fab.groups) h.frame
  exact k

theorem State.Drops.self : t.fab.self = s.fab.self := by
  have k := congrArg (fun u => u.fab.self) h.frame
  exact k

theorem State.Drops.streams : t.fab.streams = s.fab.streams := by
  have k := congrArg (fun u => u.fab.streams) h.frame
  exact k

theorem State.Drops.routes : t.fab.routes = s.fab.routes := by
  have k := congrArg (fun u => u.fab.routes) h.frame
  exact k

theorem State.Drops.unacked : t.fab.unacked = s.fab.unacked := by
  have k := congrArg (fun u => u.fab.unacked) h.frame
  exact k

theorem State.Drops.peersDown : t.fab.peersDown = s.fab.peersDown := by
  have k := congrArg (fun u => u.fab.peersDown) h.frame
  exact k

end

/-! ## Groups (KIND 2) -/

theorem State.dropGroup_cmd? (s : State) (g id : Nat) : (s.dropGroup g).cmd? id = s.cmd? id :=
  (State.dropHeld_foldl_drops (s.fab.held.filter (fun h => h.group == g)) s).cmd? id

theorem State.dropGroup_groups (s : State) (g : Nat) : (s.dropGroup g).fab.groups = del g s.fab.groups := by
  have h := State.dropHeld_foldl_drops (s.fab.held.filter (fun h => h.group == g)) s
  exact congrArg (del g) h.groups

theorem State.groupBusy_of_fab {s t : State} (h : t.fab = s.fab) (g : Nat) : t.groupBusy g = s.groupBusy g := by
  unfold State.groupBusy
  rw [h]

theorem State.badMember_of_fab {s t : State} (h : t.fab = s.fab) (bs : List Byte) : t.badMember bs = s.badMember bs := by
  unfold State.badMember State.routeValid State.route
  rw [h]

/-- The group that a KIND 2 defines. -/
def Cmd.newGroup (c : Cmd) (bs : List Byte) : Group :=
  { allot := c.par 0x12 1, members := (recordsOf 4 bs).map memberOf, tail := c.par 0x16 1, deadline := c.par 0x18 4
    digest := BitVec.ofNat 32 ((polyOf 2).check bs) }

section
variable {s : State} {c : Cmd}

theorem State.mapGroup_removes (h0 : c.par 0x14 2 = 0) (hb : s.groupBusy (c.par 0x10 2) = false) :
    s.mapGroup c = (s.dropGroup (c.par 0x10 2)).finishOk c.id 0 := by
  unfold State.mapGroup
  simp [h0, hb]

theorem State.mapGroup_busy (h0 : c.par 0x14 2 = 0) (hb : s.groupBusy (c.par 0x10 2) = true) : s.mapGroup c = s.reject c.id (.wrongState, 0) := by
  unfold State.mapGroup
  simp [h0, hb]

theorem State.mapGroup_defines (h0 : c.par 0x14 2 ≠ 0) (hb : s.groupBusy (c.par 0x10 2) = false) {bs : List Byte}
    (hbs : bs = s.readRef c.allot (c.par 8 8) 1 (4 * c.par 0x14 2)) (hm : s.badMember bs = none)
    (hsum : sumN ((s.fab.groups.filter (fun e => e.1 != c.par 0x10 2)).map (fun e => e.2.members.length)) + c.par 0x14 2 ≤ 1048576) :
    s.mapGroup c = State.finishOk { s.dropGroup (c.par 0x10 2) with fab := { (s.dropGroup (c.par 0x10 2)).fab with
      groups := put (c.par 0x10 2) (c.newGroup bs) (s.dropGroup (c.par 0x10 2)).fab.groups } } c.id 0 := by
  subst hbs
  unfold State.mapGroup
  simp only [h0, hm, hb, if_false, if_neg (Nat.not_lt.mpr hsum), Bool.false_eq_true]
  rfl

end

/-! ## Ports (KIND 4) -/

/-- The mode that a KIND 4 asks for. -/
def Cmd.portMode (c : Cmd) : PortMode :=
  match c.par 0x11 1 with
  | 0 => .native
  | 1 => .longReach
  | 2 => .ethernet
  | _ => .off

/-- The ports in long reach beside port p. -/
def State.longsBeside (s : State) (p : Nat) : Nat := ((List.range 24).filter (fun q => q != p && (s.port q).isLong)).length

/-- The state with the mode of port p set, and the count of long-reach windows. -/
def State.moded (s : State) (c : Cmd) : State :=
  let t := s.modPort (c.par 0x10 1) (fun y => { y with mode := c.portMode, phy := c.par 0x12 1, medium := c.par 0x13 1 })
  { t with dev := { t.dev with lrWindows := s.longsBeside (c.par 0x10 1) + b2n (c.portMode == .longReach) } }

/-- The port then retrains, or is off. -/
def State.remoded (s : State) (c : Cmd) : State :=
  if c.portMode = .off then
    (s.moded c).modPort (c.par 0x10 1) (fun y => { y with up := false, training := false, replay := [], waiting := [], assembling := [] })
  else (s.moded c).retrain (c.par 0x10 1)

theorem Cmd.portMode_longReach {c : Cmd} (h : c.portMode = .longReach) : c.par 0x11 1 = 1 := by
  unfold Cmd.portMode at h
  split at h
  · cases h
  · assumption
  · cases h
  · cases h

theorem Cmd.portMode_off {c : Cmd} (h : c.par 0x11 1 ≤ 3) : c.portMode = .off ↔ c.par 0x11 1 = 3 := by
  unfold Cmd.portMode
  split <;> simp_all
  omega

section
variable {s : State} {c : Cmd}

theorem State.mapPort_bound (h : (s.port (c.par 0x10 1)).bound = true) : s.mapPort c = s.reject c.id (.wrongState, 0) := by
  unfold State.mapPort
  simp [h]

theorem State.mapPort_full (hb : (s.port (c.par 0x10 1)).bound = false) (h1 : c.par 0x11 1 = 1) (hn : 4 ≤ s.longsBeside (c.par 0x10 1))
    (hl : (s.port (c.par 0x10 1)).isLong = false) : s.mapPort c = s.reject c.id (.noResource, 0) := by
  have hn' : (decide (4 ≤ ((List.range 24).filter (fun q => q != c.par 0x10 1 && (s.port q).isLong)).length)) = true := decide_eq_true hn
  unfold State.mapPort
  simp only [hb, h1, hl, hn', Bool.false_eq_true, if_false, Bool.true_or, Bool.and_true, Bool.not_false]
  rfl

theorem State.mapPort_sets (hb : (s.port (c.par 0x10 1)).bound = false)
    (h : c.par 0x11 1 ≠ 1 ∨ (s.longsBeside (c.par 0x10 1) < 4 ∧ s.reservesMetWithout 2 (256 * mib) = true)) :
    s.mapPort c = (s.remoded c).finishOk c.id 0 := by
  have hno : (c.portMode == .longReach && !(s.port (c.par 0x10 1)).isLong &&
      (decide (4 ≤ s.longsBeside (c.par 0x10 1)) || !s.reservesMetWithout 2 (256 * mib))) = false := by
    rcases h with h | ⟨h, hr⟩
    · have hm : (c.portMode == .longReach) = false := beq_eq_false_iff_ne.mpr (fun k => h (Cmd.portMode_longReach k))
      rw [hm, Bool.false_and, Bool.false_and]
    · rw [decide_eq_false (Nat.not_le.mpr h), hr, Bool.not_true, Bool.or_false, Bool.and_false]
  unfold State.mapPort
  simp only [hb, Bool.false_eq_true, if_false]
  rw [if_neg]
  · rfl
  · exact Bool.eq_false_iff.mp hno

theorem State.remoded_cmd? (id : Nat) : (s.remoded c).cmd? id = s.cmd? id := by
  unfold State.remoded
  split <;> rfl

theorem State.remoded_portsStand : s.PortsStand (s.remoded c) (c.par 0x10 1) := by
  intro q hq
  have hm : (s.moded c).port q = s.port q := s.modPort_portsStand _ _ q hq
  unfold State.remoded
  split
  · exact (State.modPort_portsStand _ _ _ q hq).trans hm
  · exact (State.modPort_portsStand _ _ _ q hq).trans hm

/-- The port that a KIND 4 sets. -/
theorem State.remoded_port (hp : c.par 0x10 1 < s.fab.ports.length) :
    let x := (s.remoded c).port (c.par 0x10 1)
    x.up = false ∧ (x.training = decide (c.portMode ≠ .off)) ∧ x.phy = c.par 0x12 1 ∧ x.medium = c.par 0x13 1 ∧ x.mode = c.portMode := by
  have hlen : c.par 0x10 1 < (s.moded c).fab.ports.length := by
    show _ < (modAt _ _ _).length
    rw [modAt, List.length_modify]
    exact hp
  have hm : (s.moded c).port (c.par 0x10 1) =
      { s.port (c.par 0x10 1) with mode := c.portMode, phy := c.par 0x12 1, medium := c.par 0x13 1 } := s.modPort_port_same _ hp
  unfold State.remoded
  split
  · rename_i hoff
    rw [State.modPort_port_same _ _ hlen, hm]
    exact ⟨rfl, by simp [hoff], rfl, rfl, rfl⟩
  · rename_i hon
    rw [State.retrain, State.modPort_port_same _ _ hlen, hm]
    exact ⟨rfl, by simp [hon], rfl, rfl, rfl⟩

end

/-! ## ROUTE_REWRITE (R350) -/

/-- No stream of key i goes to another peer than those of keys in l leave. -/
theorem freeStream_foldl_streams (l : List Nat) (s : State) :
    (l.foldl (fun u i => u.freeStream i) s).fab.streams = s.fab.streams.filter (fun e => !l.contains e.1) := by
  induction l generalizing s with
  | nil => simp
  | cons i r ih =>
    rw [List.foldl_cons, ih]
    show (del i s.fab.streams).filter _ = _
    rw [del, List.filter_filter]
    refine List.filter_congr (fun e _ => ?_)
    rw [List.contains_cons, Bool.not_or, Bool.and_comm]
    rfl

theorem look_filter_key {α : Type} {p : Nat → Bool} (k : Nat) (m : List (Nat × α)) :
    look k (m.filter (fun e => p e.1)) = if p k then look k m else none := by
  induction m with
  | nil => simp [look]
  | cons e r ih =>
    obtain ⟨j, v⟩ := e
    rw [List.filter_cons]
    by_cases hj : j = k
    · subst hj
      by_cases hp : p j <;> simp [hp, look, ih]
    · by_cases hp : p j <;> simp [hp, look, hj, ih]

/-- The streams to peer p leave the table. -/
structure State.FreesPeer (s t : State) (p : Nat) : Prop where
  hg : t.hg = s.hg
  groups : t.fab.groups = s.fab.groups
  self : t.fab.self = s.fab.self
  routes : t.fab.routes = s.fab.routes
  gone : ∀ e ∈ t.fab.streams, e.2.peer ≠ p
  others : ∀ i x, look i s.fab.streams = some x → (∀ e ∈ s.fab.streams, e.1 = i → e.2.peer ≠ p) → look i t.fab.streams = some x

theorem State.failStreams_quiet {s : State} (h : s.NoTraffic) (p : Nat) : s.failStreams p = s := by
  unfold State.failStreams
  rw [List.filter_eq_nil_iff.mpr]
  · rfl
  · intro d hd hx
    simp only [Bool.and_eq_true, beq_iff_eq] at hx
    exact h d hd ⟨hx.1.1.1, hx.1.1.2⟩

theorem State.fabricGo_quiet {s : State} (h : s.NoTraffic) : s.fabricGo = s := by
  unfold State.fabricGo
  rw [List.filter_eq_nil_iff.mpr]
  · rfl
  · intro d hd hx
    simp only [Bool.and_eq_true, beq_iff_eq] at hx
    exact h d hd hx

theorem State.freeStream_foldl_same (l : List Nat) (s : State) :
    { l.foldl (fun u i => u.freeStream i) s with fab := s.fab } = s ∧
    (l.foldl (fun u i => u.freeStream i) s).fab.groups = s.fab.groups ∧ (l.foldl (fun u i => u.freeStream i) s).fab.self = s.fab.self ∧
    (l.foldl (fun u i => u.freeStream i) s).fab.routes = s.fab.routes :=
  List.foldlRecOn (motive := fun t : State => { t with fab := s.fab } = s ∧ t.fab.groups = s.fab.groups ∧ t.fab.self = s.fab.self ∧
    t.fab.routes = s.fab.routes) l _ ⟨rfl, rfl, rfl, rfl⟩ (fun _ ht _ _ => ht)

/-- The keys of the streams to a peer. -/
def State.streamsOf (s : State) (p : Nat) : List Nat := (s.fab.streams.filter (fun e => e.2.peer == p)).map (·.1)

theorem State.mem_streamsOf {s : State} {p i : Nat} : i ∈ s.streamsOf p ↔ ∃ e ∈ s.fab.streams, e.2.peer = p ∧ e.1 = i := by
  simp [State.streamsOf, and_assoc]

theorem State.resetPeer_frees {s : State} (h : s.NoTraffic) (p : Nat) :
    s.FreesPeer (s.resetPeer p) p ∧ (∀ x ∈ (s.resetPeer p).fab.unacked, x.vc < 2 → x.peer ≠ p) ∧ p ∉ (s.resetPeer p).fab.peersDown := by
  obtain ⟨hsame, hgroups, hself, hroutes⟩ := State.freeStream_foldl_same (s.streamsOf p) s
  have hstreams := freeStream_foldl_streams (s.streamsOf p) s
  unfold State.resetPeer
  rw [State.failStreams_quiet h]
  have hhg := congrArg State.hg hsame
  refine ⟨⟨hhg, hgroups, hself, hroutes, fun e he hp => ?_, fun i x hx hno => ?_⟩, fun x hx hvc hp => ?_, fun hm => ?_⟩
  · obtain ⟨he, hk⟩ := List.mem_filter.mp (hstreams ▸ he)
    have hm : e.1 ∈ s.streamsOf p := State.mem_streamsOf.mpr ⟨e, he, hp, rfl⟩
    simp [hm] at hk
  · have hni : i ∉ s.streamsOf p := fun hm => by
      obtain ⟨e, he, hp, hi⟩ := State.mem_streamsOf.mp hm
      exact hno e he hi hp
    refine (congrArg (look i) hstreams).trans ?_
    rw [look_filter_key (p := fun k => !(s.streamsOf p).contains k), if_pos (by simpa using hni), hx]
  · obtain ⟨-, hk⟩ := List.mem_filter.mp hx
    simp [hp] at hk
    omega
  · simp [without] at hm

theorem State.taken_cmds (s : State) (id : Nat) (c : Cmd) : (s.taken id c).hg.cmds = s.hg.cmds := by
  rw [State.taken, State.named_hg]
  rfl

theorem State.NoTraffic.of_cmds {s t : State} (h : s.NoTraffic) (he : t.hg.cmds = s.hg.cmds) : t.NoTraffic := by
  unfold State.NoTraffic
  rwa [he]

theorem State.normsWith_of {s t : State} (hg : t.hg.cmds = s.hg.cmds) (hgroups : t.fab.groups = s.fab.groups) (hself : t.fab.self = s.fab.self) (p : Nat) :
    t.normsWith p = s.normsWith p := by
  unfold State.normsWith State.otherMembers
  rw [hg, hgroups, hself]

theorem State.collsWith_of_fab {s t : State} (h : t.fab = s.fab) (p : Nat) : t.collsWith p = s.collsWith p := by
  unfold State.collsWith State.group
  rw [h]

/-- Without a command that waits for the peer, its loss marks the collectives alone. -/
theorem State.loseMember_quiet {s : State} (h : s.NoTraffic) {p : Nat} (hn : s.normsWith p = []) (src : Nat) :
    ∃ d cs, s.Drops d ∧ s.loseMember p src = { d with fab := { d.fab with colls := cs } } := by
  have hd : s.Drops (s.dropComing (fun x => x.peer == p)) := State.dropHeld_foldl_drops _ s
  have hnorms : (s.dropComing (fun x => x.peer == p)).loseNorms p src = s.dropComing (fun x => x.peer == p) := by
    rw [State.loseNorms, State.normsWith_of (by rw [hd.hg]) hd.groups hd.self, hn]
    rfl
  refine ⟨_, (s.dropComing (fun x => x.peer == p)).fab.colls.map (fun x =>
    if ((s.dropComing (fun x => x.peer == p)).group x.group).members.any (fun m => m.1 == p) then { x with lost := x.lost ++ [(p, src)] } else x), hd, ?_⟩
  unfold State.loseMember
  rw [hnorms]
  exact State.fabricGo_quiet (h.of_cmds (by rw [hd.hg]))

/-- The state with the peer's entry replaced, its streams reset and its loss told. -/
def State.rerouted (s : State) (p : Nat) (r : Route) : State :=
  ((({ s with fab := { s.fab with routes := put p r s.fab.routes } } : State).resetPeer p).loseMember p 0x5300).pump

theorem State.rerouted_spec {s : State} {p : Nat} (h : s.NoTraffic) (hn : s.normsWith p = []) (r : Route) :
    let t := s.rerouted p r
    t.hg = s.hg ∧ t.fab.routes = put p r s.fab.routes ∧ (∀ e ∈ t.fab.streams, e.2.peer ≠ p) ∧ (∀ x ∈ t.fab.unacked, x.vc < 2 → x.peer ≠ p) ∧
      p ∉ t.fab.peersDown ∧
      ∀ i x, look i s.fab.streams = some x → (∀ e ∈ s.fab.streams, e.1 = i → e.2.peer ≠ p) → look i t.fab.streams = some x := by
  obtain ⟨hf, hun, hdown⟩ := State.resetPeer_frees (s := { s with fab := { s.fab with routes := put p r s.fab.routes } }) h p
  obtain ⟨d, cs, hd, hlose⟩ := State.loseMember_quiet (h.of_cmds (by rw [hf.hg])) ((State.normsWith_of (by rw [hf.hg]) hf.groups hf.self p).trans hn) 0x5300
  have he := State.pump_emits { d with fab := { d.fab with colls := cs } }
  rw [State.rerouted, hlose]
  refine ⟨he.hg.trans (hd.hg.trans hf.hg), he.routes.trans (hd.routes.trans hf.routes), fun e hm => ?_, fun y hy hvc => ?_, ?_, fun i x hx hno => ?_⟩
  · rw [he.streams] at hm
    exact hf.gone e (hd.streams ▸ hm)
  · obtain ⟨x, hx, hbare⟩ := he.mem_unacked hy
    obtain ⟨hxvc, hpeer, -, -⟩ := Sent.of_bare hbare
    rw [← hpeer]
    exact hun x (hd.unacked ▸ hx) (by omega)
  · rw [he.peersDown]
    exact hd.peersDown ▸ hdown
  · rw [he.streams]
    exact hd.streams ▸ hf.others i x hx hno

theorem exec_routeRewrite {s : State} {id : Nat} {c : Cmd} (h : s.OrderRuns id 0x0602 routeRewriteFields c) :
    exec (.routeRewrite id) s = .next (((s.taken id c).rerouted (c.par 0 2) (routeOf (c.par 8 32) ((s.route (c.par 0 2)).epoch + 1))).finishOk c.id
      ((s.fab.streams.filter (fun e => e.2.peer == c.par 0 2 && !e.2.gone)).length +
        ((s.collsWith (c.par 0 2)).length + (s.normsWith (c.par 0 2)).length) * 2 ^ 32)) := by
  have hrow : exec (.routeRewrite id) s = .next ((s.taken id c).routeRewrite c) := State.order_runs h State.routeRewrite
  have hfab := s.taken_fab id c
  have hn : (s.taken id c).normsWith (c.par 0 2) = s.normsWith (c.par 0 2) :=
    State.normsWith_of (s.taken_cmds id c) (by rw [hfab]) (by rw [hfab]) _
  have hr : (s.taken id c).route (c.par 0 2) = s.route (c.par 0 2) := by rw [State.route, hfab, State.route]
  rw [hrow, State.routeRewrite, State.rerouted, hn, hr, State.collsWith_of_fab hfab, hfab]

/-! ## The obligation -/

theorem State.streamTo_of_fab {s t : State} (h : t.fab = s.fab) (p : Nat) : t.streamTo p = s.streamTo p := by
  unfold State.streamTo
  rw [h]

theorem State.route_of_fab {s t : State} (h : t.fab = s.fab) (p : Nat) : t.route p = s.route p := by
  unfold State.route
  rw [h]

theorem State.port_of_fab {s t : State} (h : t.fab = s.fab) (p : Nat) : t.port p = s.port p := by
  unfold State.port
  rw [h]

theorem State.longsBeside_of_fab {s t : State} (h : t.fab = s.fab) (p : Nat) : t.longsBeside p = s.longsBeside p := by
  unfold State.longsBeside
  simp only [State.port_of_fab h]

theorem State.portRecord_of {s t : State} (hf : t.fab = s.fab) (hd : t.dev = s.dev) (hl : t.flt = s.flt) (p : Nat) : t.portRecord p = s.portRecord p := by
  unfold State.portRecord portCount State.isX State.lanesUp State.laneServed State.laneOut
  rw [hf, hd, hl, State.port_of_fab hf]

section
variable {s : State} {c : Cmd}

theorem State.peerMap_classes (h3 : c.par 0 1 = 3) : s.peerMap c = State.finishOk { s with fab := { s.fab with
    classes := (List.range 5).map (fun k => { poly := bitsOf (c.par (0x10 + 2 * k) 2) 0 2, window := bitsOf (c.par (0x10 + 2 * k) 2) 2 7 }) } } c.id 0 := by
  unfold State.peerMap
  rw [h3]
  rfl

theorem State.peerMap_reads (h5 : c.par 0 1 = 5) : s.peerMap c = s.withDest c 8
    (if c.par 0x10 1 = 0 then (List.range (c.par 0x14 2)).flatMap (fun i => (s.route (c.par 0x12 2 + i)).bytes)
      else (List.range 24).flatMap s.portRecord) (fun t => t.finishOk c.id 0) := by
  unfold State.peerMap
  rw [h5]
  rfl

/-- A PEER_MAP that sets a port names no object. -/
theorem State.taken_of_port (ho : c.opcode = 0x0601) (h4 : c.par 0 1 = 4) : s.taken c.id c = s.takeOrder c.id :=
  State.named_of_noNames (by simp [State.namesNow, Cmd.inlineNames, Cmd.listRefs, ho, h4])

theorem peerMap_fields_port (h4 : c.par 0 1 = 4) : peerMapFields s c = [c.ranged 0 1 0 5, ⟨8, 8, c.par 8 8 == 0⟩,
    ⟨0x10, 1, decide (c.par 0x10 1 < portCount s)⟩, c.ranged 0x11 1 0 3, c.ranged 0x12 1 0 2, c.ranged 0x13 1 0 2] := by
  unfold peerMapFields
  rw [h4]
  rfl

theorem portCount_le (s : State) : portCount s ≤ 24 := by
  unfold portCount
  split <;> omega

/-- The port and the mode that a KIND 4 names are in their ranges. -/
theorem State.MapRuns.port_ranges (h : s.MapRuns c.id c 4) : c.par 0x10 1 < 24 ∧ c.par 0x11 1 ≤ 3 := by
  obtain ⟨hrun, -, -, -, h4⟩ := h
  have hok := hrun.ok
  rw [peerMap_fields_port h4] at hok
  have hp := hok ⟨0x10, 1, decide (c.par 0x10 1 < portCount (s.takeOrder c.id))⟩ (by simp)
  have hm := hok (c.ranged 0x11 1 0 3) (by simp)
  have hle := portCount_le (s.takeOrder c.id)
  simp only [decide_eq_true_eq, Cmd.ranged, inRange, Bool.and_eq_true] at hp hm
  omega

theorem State.fresh?_started {s : State} {id op : Nat} {c : Cmd} (h : s.fresh? id op = some c) : c.phase = .started := by
  unfold State.fresh? at h
  split at h
  · split at h
    · cases h
      assumption
    · cases h
  · cases h

/-- The destination of a KIND 5 is a raw object. -/
theorem State.MapRuns.dest_isSome (h : s.MapRuns c.id c 5) : ((s.taken c.id c).obj? c.allot (refHandle (c.par 8 8))).isSome = true := by
  obtain ⟨hrun, -, -, -, h5⟩ := h
  have hstarted : c.phase = .started := State.fresh?_started hrun.1
  have hok := hrun.ok ⟨8, 8, c.late ((s.takeOrder c.id).rawRefOk c.allot (c.par 8 8)
    (if c.par 0x10 1 = 0 then 32 * c.par 0x14 2 else 16 * 24))⟩ (by simp [peerMapFields, h5])
  have hraw : (s.takeOrder c.id).rawRefOk c.allot (c.par 8 8) (if c.par 0x10 1 = 0 then 32 * c.par 0x14 2 else 16 * 24) = true := by
    simpa [Cmd.late, hstarted] using hok
  rw [State.taken, ((s.takeOrder c.id).named_notes c).handles]
  exact State.obj?_of_rawRefOk hraw

end

/-- Settles O36: each KIND by the equation of its case, ROUTE_REWRITE by what its three steps leave of streams, packets and peers. -/
theorem peerMapping : Obligations.PeerMapping := by
  unfold Obligations.PeerMapping
  refine ⟨fun s id c h hs hg => ?_, fun s id c h hsg => ?_, fun s id c h es hes hok hno => ?_, fun s id c i h hi => ?_, fun s id c h hb h0 => ?_,
    fun s id c h hb h0 bs hbs hm hsum => ?_, fun s id c h hb h0 => ?_, fun s id c h => ?_, fun s id c h hlen hb hl => ?_,
    fun s id c h hb h1 hn hl => ?_, fun s id c h hb => ?_, fun s id c h h0 => ?_, fun s id c h h1 => ?_, fun s id c h ht hcolls hn => ?_,
    fun s id c h ht hn => ?_⟩
  · obtain rfl := State.fresh?_id h.1.1
    have hc := h.taken_isSome
    rw [exec_peerMap h, State.peerMap, h.2.2.2.2, s.taken_fab, hs, hg]
    exact ⟨_, rfl, State.finish_ended hc _ _ _, rfl, rfl⟩
  · obtain rfl := State.fresh?_id h.1.1
    have hbusy : (s.fab.streams != [] || s.fab.groups != []) = true := by simpa using hsg
    refine State.rejects_alone h.taken_isSome ?_
    rw [exec_peerMap h, State.peerMap, h.2.2.2.2, s.taken_fab]
    exact congrArg _ (if_pos hbusy)
  · obtain rfl := State.fresh?_id h.1.1
    have hf := s.taken_fab c.id c
    have hroutes := State.routed_routes (s := s.taken c.id c) (c := c)
    simp only [State.route_of_fab hf] at hroutes
    rw [hf, State.mapEntries, ← hes] at hroutes
    have hmap : (s.taken c.id c).mapRoutes c = ((s.taken c.id c).routed c).finishOk c.id 0 := by
      refine State.mapRoutes_takes (fun e hm => ?_) (fun i hi => ?_)
      · rw [State.routeOk_of_same hf (s.taken_dev c.id c)]
        exact hok e (hes ▸ hm)
      · rw [State.streamTo_of_fab hf]
        exact hno i (hes ▸ hi)
    rw [exec_peerMap h, State.peerMap, h.2.2.2.2]
    refine ⟨_, congrArg _ hmap, State.finish_ended ?_ _ _ _, fun i e hi => ?_, fun q hq => ?_⟩
    · rw [State.routed_cmd?]
      exact h.taken_isSome
    · have hlook := look_putRoutes (c.par 0x10 2) (fun i e => routeOf e (s.route (c.par 0x10 2 + i)).epoch) es 0 s.fab.routes hi
      rw [Nat.zero_add] at hlook
      exact (congrArg (look _) hroutes).trans hlook
    · refine (congrArg (look q) hroutes).trans (look_putRoutes_other (fun e hm => ?_) _)
      have hlt := List.snd_lt_of_mem_zipIdx hm
      omega
  · obtain rfl := State.fresh?_id h.1.1
    have hmap : (s.taken c.id c).mapRoutes c = (s.taken c.id c).reject c.id (badIn i) := by
      refine State.mapRoutes_bad ?_
      simp only [State.routeOk_of_same (s.taken_fab c.id c) (s.taken_dev c.id c)]
      exact hi
    rw [exec_peerMap h, State.peerMap, h.2.2.2.2]
    exact ⟨_, congrArg _ hmap, State.finish_ended h.taken_isSome _ _ _, State.finish_onlyCmds ..⟩
  · obtain rfl := State.fresh?_id h.1.1
    have hf := s.taken_fab c.id c
    have hmap := State.mapGroup_removes (s := s.taken c.id c) h0 ((State.groupBusy_of_fab hf _).trans hb)
    have hgroups := (s.taken c.id c).dropGroup_groups (c.par 0x10 2)
    rw [hf] at hgroups
    rw [exec_peerMap h, State.peerMap, h.2.2.2.2]
    refine ⟨_, congrArg _ hmap, State.finish_ended ?_ _ _ _, ?_, fun g hg => ?_⟩
    · rw [State.dropGroup_cmd?]
      exact h.taken_isSome
    · exact (congrArg (look _) hgroups).trans ((look_del _ _ _).trans (if_pos rfl))
    · exact (congrArg (look _) hgroups).trans ((look_del _ _ _).trans (if_neg hg))
  · obtain rfl := State.fresh?_id h.1.1
    have hf := s.taken_fab c.id c
    have hmap := State.mapGroup_defines (s := s.taken c.id c) h0 ((State.groupBusy_of_fab hf _).trans hb) hbs
      ((State.badMember_of_fab hf bs).trans hm) (by rw [hf]; exact hsum)
    have hgroups := (s.taken c.id c).dropGroup_groups (c.par 0x10 2)
    rw [hf] at hgroups
    rw [exec_peerMap h, State.peerMap, h.2.2.2.2]
    refine ⟨_, congrArg _ hmap, State.finish_ended ?_ _ _ _, fun g hg => ?_, look_put_same _ _ _⟩
    · refine (congrArg Option.isSome ((s.taken c.id c).dropGroup_cmd? _ _)).trans ?_
      exact h.taken_isSome
    · refine (look_put_ne hg _ _).trans ?_
      rw [hgroups, look_del, if_neg hg]
  · obtain rfl := State.fresh?_id h.1.1
    refine State.rejects_alone h.taken_isSome ?_
    rw [exec_peerMap h, State.peerMap, h.2.2.2.2]
    exact congrArg _ (State.mapGroup_busy h0 ((State.groupBusy_of_fab (s.taken_fab c.id c) _).trans hb))
  · obtain rfl := State.fresh?_id h.1.1
    rw [exec_peerMap h, State.peerMap_classes h.2.2.2.2]
    refine ⟨_, rfl, State.finish_ended h.taken_isSome _ _ _, rfl, ?_, fun k hk => ?_⟩
    · rw [← s.taken_fab c.id c]
      rfl
    · rw [State.finishOk, State.finish_fab, List.getElem?_map, List.getElem?_range hk]
      rfl
  · obtain rfl := State.fresh?_id h.1.1
    obtain ⟨hp, hm⟩ := h.port_ranges
    have htaken := State.taken_of_port (s := s) (State.fresh?_opcode h.1.1) h.2.2.2.2
    have hset : (s.takeOrder c.id).mapPort c = ((s.takeOrder c.id).remoded c).finishOk c.id 0 := State.mapPort_sets hb hl
    obtain ⟨hup, htrain, hphy, hmed, hmode⟩ := State.remoded_port (s := s.takeOrder c.id) (c := c) (hlen ▸ hp)
    rw [exec_peerMap h, State.peerMap, h.2.2.2.2, htaken]
    refine ⟨_, congrArg _ hset, State.finish_ended ?_ _ _ _, State.remoded_portsStand, hup, htrain.trans ?_, hphy, hmed, hmode⟩
    · rw [State.remoded_cmd?, ← htaken]
      exact h.taken_isSome
    · exact decide_eq_decide.mpr (not_congr (Cmd.portMode_off hm))
  · obtain rfl := State.fresh?_id h.1.1
    have hf := s.taken_fab c.id c
    rw [exec_peerMap h, State.peerMap, h.2.2.2.2]
    refine ⟨_, congrArg _ (State.mapPort_full (s := s.taken c.id c) ?_ h1 ?_ ?_), State.finish_ended h.taken_isSome _ _ _, State.finish_onlyCmds ..⟩
    · rw [State.port_of_fab hf]
      exact hb
    · rw [State.longsBeside_of_fab hf]
      exact hn
    · rw [State.port_of_fab hf]
      exact hl
  · obtain rfl := State.fresh?_id h.1.1
    refine State.rejects_alone h.taken_isSome ?_
    rw [exec_peerMap h, State.peerMap, h.2.2.2.2]
    exact congrArg _ (State.mapPort_bound (by rw [State.port_of_fab (s.taken_fab c.id c)]; exact hb))
  · obtain rfl := State.fresh?_id h.1.1
    rw [exec_peerMap h, State.peerMap_reads h.2.2.2.2, if_pos h0]
    simp only [State.route_of_fab (s.taken_fab c.id c)]
    exact ⟨_, rfl, State.withDest_readInto (h.2.2.1.taken c.id c) h.taken_isSome h.dest_isSome _ 0⟩
  · obtain rfl := State.fresh?_id h.1.1
    have hrec : (s.taken c.id c).portRecord = s.portRecord :=
      funext (State.portRecord_of (s.taken_fab c.id c) (s.taken_dev c.id c) (s.taken_flt c.id c))
    have h0 : c.par 0x10 1 ≠ 0 := by omega
    rw [exec_peerMap h, State.peerMap_reads h.2.2.2.2, if_neg h0, hrec]
    exact ⟨_, rfl, State.withDest_readInto (h.2.2.1.taken c.id c) h.taken_isSome h.dest_isSome _ 0⟩
  · have hc := h.taken_isSome
    obtain rfl := State.fresh?_id h.1
    have hf := s.taken_fab c.id c
    have hcmds := s.taken_cmds c.id c
    obtain ⟨hhg, hroutes, hstreams, hun, hdown, hothers⟩ := State.rerouted_spec (s := s.taken c.id c) (p := c.par 0 2) (ht.of_cmds hcmds)
      ((State.normsWith_of hcmds (by rw [hf]) (by rw [hf]) _).trans hn) (routeOf (c.par 8 32) ((s.route (c.par 0 2)).epoch + 1))
    have hnone : s.collsWith (c.par 0 2) = [] := by rw [State.collsWith, hcolls]; rfl
    rw [hf] at hroutes hothers
    rw [exec_routeRewrite h, hn, hnone, List.length_nil, List.length_nil, Nat.add_zero, Nat.zero_mul, Nat.add_zero]
    generalize (s.taken c.id c).rerouted (c.par 0 2) (routeOf (c.par 8 32) ((s.route (c.par 0 2)).epoch + 1)) = t at hhg hroutes hstreams hun hdown hothers ⊢
    refine ⟨_, rfl, State.finish_ended ?_ _ _ _, ?_, fun q hq => ?_, hstreams, hun, hdown, hothers⟩
    · rw [State.cmd?, hhg]
      exact hc
    · exact (congrArg (look _) hroutes).trans (look_put_same _ _ _)
    · exact (congrArg (look _) hroutes).trans (look_put_ne hq _ _)
  · have hc := h.taken_isSome
    obtain rfl := State.fresh?_id h.1
    have hf := s.taken_fab c.id c
    have hcmds := s.taken_cmds c.id c
    obtain ⟨hhg, -⟩ := State.rerouted_spec (s := s.taken c.id c) (p := c.par 0 2) (ht.of_cmds hcmds)
      ((State.normsWith_of hcmds (by rw [hf]) (by rw [hf]) _).trans hn) (routeOf (c.par 8 32) ((s.route (c.par 0 2)).epoch + 1))
    rw [exec_routeRewrite h, hn, List.length_nil, Nat.add_zero]
    generalize (s.taken c.id c).rerouted (c.par 0 2) (routeOf (c.par 8 32) ((s.route (c.par 0 2)).epoch + 1)) = t at hhg ⊢
    refine ⟨_, rfl, State.finish_ended ?_ _ _ _⟩
    rw [State.cmd?, hhg]
    exact hc

end Sys2Proof.Machine
end

section
/-! Rules for STREAM_OPEN, STREAM_CLOSE and TAIL_POLICY (R355, R368). -/

namespace Sys2Proof.Machine

/-! ## STREAM_OPEN (R355) -/

theorem State.streamsTaken_of {s t : State} (hf : t.fab = s.fab) (hp : t.pair = s.pair) : t.streamsTaken = s.streamsTaken := by
  unfold State.streamsTaken State.group
  rw [hf, hp]

theorem State.group_of_fab {s t : State} (h : t.fab = s.fab) (g : Nat) : t.group g = s.group g := by
  unfold State.group
  rw [h]

theorem exec_streamOpen {s : State} {id : Nat} {c : Cmd} (h : s.Runs id 0x0620 streamOpenFields c) (k : Nat) : exec (.streamOpen id k) s = .next
    (if s.streamsTaken < 131072 then (s.named c).streamOpen c s.fab.newStream else (s.named c).reject id (.noResource, 0)) := by
  have hrow : exec (.streamOpen id k) s = .next
      (if (s.named c).streamsTaken < 131072 then (s.named c).streamOpen c (s.named c).fab.newStream else (s.named c).reject id (.noResource, 0)) :=
    State.deant_runs h (fun t c => if t.streamsTaken < 131072 then t.streamOpen c t.fab.newStream else t.reject id (.noResource, 0))
  rw [hrow, State.streamsTaken_of (s.named_fab c) (s.named_pair c), s.named_fab]

theorem Fabric.newStream_spec {f : Fabric} (h : f.streamsUsed.length < 131072) : f.newStream < 131072 ∧ f.newStream ∉ f.streamsUsed := by
  obtain ⟨-, hle, hnot⟩ := pickFree_spec 2 0 131071 (used := f.streamsUsed) (by omega)
  exact ⟨Nat.lt_succ_of_le hle, hnot⟩

/-- The stream that a STREAM_OPEN opens under index i. -/
def State.opened (s : State) (c : Cmd) (i : Nat) : Stream :=
  { reuse := lookN i s.fab.streamReuse, allot := c.allot, group := c.par 0 2, rank := c.par 2 2, peer := (s.group (c.par 0 2)).peerAt (c.par 2 2)
    channel := c.par 4 4
    far := (s.fab.opens.find? (fun o => o.1 == c.par 0 2 && o.2.1 == c.par 2 2 && o.2.2.1 == c.par 4 4)).map (fun o => o.2.2.2) }

/-- What a STREAM_OPEN leaves: the stream at its index, and an open among the packets that are not acknowledged. -/
theorem State.streamOpen_spec (s : State) (c : Cmd) (i : Nat) : ∃ u : State, s.streamOpen c i = u.finishOk c.id (i + lookN i s.fab.streamReuse * 2 ^ 17) ∧
    u.hg = s.hg ∧ u.fab.streams = put i (s.opened c i) s.fab.streams ∧
    ∃ y ∈ u.fab.unacked, y.vc = 1 ∧ y.kind = 3 ∧ y.peer = (s.opened c i).peer ∧ y.own = i := by
  refine ⟨_, rfl, (State.enqueue_emits _ _).hg, (State.enqueue_emits _ _).streams, ?_⟩
  obtain ⟨y, hy, hbare⟩ := State.mem_enqueue _ List.mem_cons_self
  obtain ⟨hvc, hpeer, hown, hkind⟩ := Sent.of_bare hbare
  exact ⟨y, hy, hvc, hkind, hpeer, hown⟩

/-! ## STREAM_CLOSE (R355) -/

theorem exec_streamClose {s : State} {id : Nat} {c : Cmd} (h : s.Runs id 0x0621 streamCloseFields c) : exec (.streamClose id) s = .next
    (if s.streamBusy c then s else ((s.named c).closeStream (some id) (bitsOf (c.par 0 4) 0 17)).finishOk id 0) := by
  show execStreamClose id s = _
  rw [execStreamClose, h.1]
  dsimp only
  split
  · rfl
  · exact State.deant_runs h (fun t d => (t.closeStream (some id) (bitsOf (d.par 0 4) 0 17)).finishOk id 0)

theorem State.modStream_look (s : State) (i j : Nat) (f : Stream → Stream) :
    look j (s.modStream i f).fab.streams = if j = i then (look j s.fab.streams).map f else look j s.fab.streams := look_upd i j f s.fab.streams

/-- Packets on a stream are numbered on from its last. -/
theorem State.sendStream_look (s : State) (served : Option Nat) (i j : Nat) (x : Stream) (ps : List (Nat × List Byte)) :
    look j (s.sendStream served i x ps).fab.streams = if j = i then (look j s.fab.streams).map (fun y => { y with txSeq := (y.txSeq + ps.length) % 2 ^ 32 })
      else look j s.fab.streams := by
  rw [← s.modStream_look]
  exact congrArg (look j) (State.enqueue_emits _ _).streams

/-- What the close of a stream leaves: the stream is gone, and the close is numbered. -/
theorem State.closeStream_spec {s : State} {i : Nat} {x : Stream} (h : look i s.fab.streams = some x) (served : Option Nat) :
    (s.closeStream served i).hg = s.hg ∧
    look i (s.closeStream served i).fab.streams = some { x with gone := true, txSeq := (x.txSeq + 1) % 2 ^ 32 } ∧
    ∀ j, j ≠ i → look j (s.closeStream served i).fab.streams = look j s.fab.streams := by
  unfold State.closeStream
  rw [h]
  refine ⟨(State.enqueue_emits _ _).hg, ?_, fun j hj => ?_⟩
  · rw [State.sendStream_look, if_pos rfl, State.modStream_look, if_pos rfl, h]
    rfl
  · rw [State.sendStream_look, if_neg hj, State.modStream_look, if_neg hj]

/-! ## TAIL_POLICY (R368) -/

theorem exec_tailPolicy {s : State} {id : Nat} {c : Cmd} (h : s.Runs id 0x0611 tailPolicyFields c) :
    exec (.tailPolicy id) s = .next ((s.named c).tailPolicy c) := State.deant_runs h State.tailPolicy

theorem State.tailOf_of_fab {s t : State} (h : t.fab = s.fab) (g r : Nat) : t.tailOf g r = s.tailOf g r := by
  unfold State.tailOf
  rw [h]

section
variable {s : State} {c : Cmd}

theorem State.tailPolicy_sets (h0 : c.par 0 1 = 0) : s.tailPolicy c = State.finishOk { s with fab := { s.fab with
    groups := upd (c.par 2 2) (fun g => { g with tail := c.par 1 1, deadline := c.par 4 4 }) s.fab.groups } } c.id 0 := by
  unfold State.tailPolicy
  rw [h0]
  rfl

theorem State.tailPolicy_reads (h1 : c.par 0 1 = 1) : s.tailPolicy c = s.withDest c 8
    ((List.range (s.group (c.par 2 2)).members.length).flatMap (fun r => (s.tailOf (c.par 2 2) r).bytes)) (fun t => t.finishOk c.id 0) := by
  unfold State.tailPolicy
  rw [h1]
  rfl

theorem State.tailPolicy_clears (h2 : c.par 0 1 = 2) : s.tailPolicy c = State.finishOk { s with fab := { s.fab with
    tails := s.fab.tails.filter (fun t => t.group != c.par 2 2) } } c.id 0 := by
  unfold State.tailPolicy
  rw [h2]
  rfl

theorem State.tailPolicy_drops (h3 : c.par 0 1 = 3) : s.tailPolicy c =
    ((s.fab.held.filter (fun h => h.group == c.par 2 2 && h.slot == c.par 0x10 1)).foldl (fun t h => t.dropHeld h) s).finishOk c.id 0 := by
  unfold State.tailPolicy
  rw [h3]
  rfl

end

/-- Settles O37: each command by its equation; the packets that tell the member are among those not acknowledged. -/
theorem streams : Obligations.Streams := by
  unfold Obligations.Streams
  refine ⟨fun s id c h hn hu => ?_, fun s id c h hn => ?_, fun s id c h hb => ?_, fun s id c x h hb hx => ?_, fun s id c g h hg h0 => ?_,
    fun s id c g h hclean hlen hg h1 => ?_, fun s id c h h2 => ?_, fun s id c h h3 => ?_⟩
  · obtain rfl := State.fresh?_id h.1
    obtain ⟨hi, hfree⟩ := Fabric.newStream_spec hu
    obtain ⟨u, heq, hhg, hstreams, hopen⟩ := (s.named c).streamOpen_spec c s.fab.newStream
    have hgroup := State.group_of_fab (s.named_fab c) (c.par 0 2)
    rw [s.named_fab] at heq hstreams
    refine ⟨u.finishOk c.id _, s.fab.newStream, (s.named c).opened c s.fab.newStream, fun k => ?_, hi, hfree, State.finish_ended ?_ _ _ _, ?_, rfl, rfl, rfl, rfl,
      ?_, ?_, rfl, rfl, rfl, rfl, hopen, fun j hj => ?_⟩
    · rw [exec_streamOpen h, if_pos hn, heq]
    · rw [State.cmd?, hhg]
      exact h.named_isSome
    · exact (congrArg (look _) hstreams).trans (look_put_same _ _ _)
    · rw [← hgroup]
      rfl
    · rw [← s.named_fab c]
      rfl
    · exact (congrArg (look _) hstreams).trans (look_put_ne hj _ _)
  · obtain rfl := State.fresh?_id h.1
    refine ⟨_, fun k => ?_, State.finish_ended h.named_isSome _ _ _, State.finish_onlyCmds ..⟩
    rw [exec_streamOpen h, if_neg (by omega)]
    rfl
  · rw [exec_streamClose h, if_pos hb]
  · obtain rfl := State.fresh?_id h.1
    obtain ⟨hhg, hgone, hothers⟩ := State.closeStream_spec (s := s.named c) (by rw [s.named_fab]; exact hx) (some c.id)
    rw [s.named_fab] at hothers
    rw [exec_streamClose h, if_neg (by rw [hb]; exact Bool.false_ne_true)]
    refine ⟨_, _, rfl, State.finish_ended ?_ _ _ _, hgone, rfl, rfl, rfl, hothers⟩
    rw [State.cmd?, hhg]
    exact h.named_isSome
  · obtain rfl := State.fresh?_id h.1
    rw [exec_tailPolicy h, State.tailPolicy_sets h0, s.named_fab]
    refine ⟨_, rfl, State.finish_ended h.named_isSome _ _ _, ?_, ?_, fun k hk => ?_, rfl⟩
    · rw [State.OnlyFab, s.named_fab]
      exact (congrArg (fun f => { s.named c with fab := f }) (s.named_fab c)).symm
    · rw [State.finishOk, State.finish_fab]
      dsimp only
      rw [look_upd, if_pos rfl, hg]
      rfl
    · rw [State.finishOk, State.finish_fab]
      dsimp only
      rw [look_upd, if_neg hk]
  · obtain rfl := State.fresh?_id h.1
    have hobj : ((s.named c).obj? c.allot (refHandle (c.par 8 8))).isSome = true := by
      rw [(s.named_notes c).handles]
      exact State.obj?_of_rawRefOk (h.ok ⟨8, 8, s.rawRefOk c.allot (c.par 8 8) (32 * (s.group (c.par 2 2)).members.length)⟩ (by simp [tailPolicyFields, h1]))
    have hgroup : s.group (c.par 2 2) = g := by rw [State.group, hg]; rfl
    rw [exec_tailPolicy h, State.tailPolicy_reads h1, State.group_of_fab (s.named_fab c), hgroup]
    simp only [State.tailOf_of_fab (s.named_fab c)]
    exact ⟨_, rfl, State.withDest_readInto (hclean.named c) h.named_isSome hobj _ 0⟩
  · obtain rfl := State.fresh?_id h.1
    rw [exec_tailPolicy h, State.tailPolicy_clears h2, s.named_fab]
    refine ⟨_, rfl, State.finish_ended h.named_isSome _ _ _, ?_, rfl, fun e => ?_⟩
    · rw [State.OnlyFab, s.named_fab]
      exact (congrArg (fun f => { s.named c with fab := f }) (s.named_fab c)).symm
    · refine List.mem_filter.trans ?_
      simp
  · obtain rfl := State.fresh?_id h.1
    have hd := State.dropHeld_foldl_drops ((s.named c).fab.held.filter (fun x => x.group == c.par 2 2 && x.slot == c.par 0x10 1)) (s.named c)
    rw [exec_tailPolicy h, State.tailPolicy_drops h3]
    refine ⟨_, rfl, State.finish_ended ?_ _ _ _, fun x hx hm => ?_, hd.objs⟩
    · rw [hd.cmd?]
      exact h.named_isSome
    · refine State.dropHeld_foldl_gone _ _ x hx (List.mem_filter.mpr ⟨hd.held x hx, ?_⟩)
      simpa using hm

end Sys2Proof.Machine
end

section
/-! Rules for SNAP_TAKE, SNAP_COMMIT and RESTORE_VERIFY (R388, R389, R396, R397). -/

namespace Sys2Proof.Machine

/-! ## Pages that enter the mirror log, and the methods of mirrored tensors (R380, R383) -/

/-- Of the mirror states the tensors alone differ; commands, host memory, objects and conditions stand, and the module is bound as it was. -/
structure State.Chooses (s t : State) : Prop where
  hg : t.hg = s.hg
  host : t.host = s.host
  conds : t.conds = s.conds
  bound : t.pair.bound = s.pair.bound
  mir : ∀ a, { (t.al a).mir with tensors := (s.al a).mir.tensors } = (s.al a).mir
  objs : ∀ a, (t.al a).objs = (s.al a).objs

theorem State.Chooses.refl (s : State) : s.Chooses s := ⟨rfl, rfl, rfl, rfl, fun _ => rfl, fun _ => rfl⟩

theorem State.Chooses.trans {s t u : State} (h : s.Chooses t) (k : t.Chooses u) : s.Chooses u := by
  refine ⟨k.hg.trans h.hg, k.host.trans h.host, k.conds.trans h.conds, k.bound.trans h.bound, fun a => ?_, fun a => (k.objs a).trans (h.objs a)⟩
  conv => rhs; rw [← h.mir a]
  rw [← k.mir a]

theorem State.Chooses.foldl {α : Type} {f : State → α → State} (h : ∀ (s : State) x, s.Chooses (f s x)) (l : List α) (s : State) :
    s.Chooses (l.foldl f s) :=
  List.foldlRecOn (motive := fun t => s.Chooses t) l f (.refl s) (fun t ht x _ => ht.trans (h t x))

theorem State.Emits.chooses {s t : State} (h : s.Emits t) : s.Chooses t :=
  ⟨h.hg, h.host, h.conds, by rw [h.pair], fun a => by rw [h.mir a], h.objs⟩

theorem State.modMir_chooses (s : State) (a h : Nat) (f : MirTensor → MirTensor) : s.Chooses (s.modAl a (fun x => x.modMir h f)) := by
  refine ⟨rfl, rfl, rfl, rfl, fun b => ?_, fun b => s.modAl_keeps Allot.objs a (by intro x; rfl) b⟩
  rw [State.modAl_al]
  split
  · rename_i k
    obtain ⟨rfl, -⟩ := k
    rfl
  · rfl

theorem State.sendPair_chooses (s : State) (vc own allot : Nat) (first : Bool) (ps : List (Nat × W32 × List Byte)) :
    s.Chooses (s.sendPair vc own allot first ps) := by
  unfold State.sendPair
  dsimp only
  split
  · refine State.Chooses.trans ?_ (State.pump_emits _).chooses
    exact ⟨rfl, rfl, rfl, rfl, fun _ => rfl, fun _ => rfl⟩
  · exact .refl s

theorem State.logGroup_chooses (s : State) (a : Nat) (t : MirTensor) (ps : List Nat) : s.Chooses (s.logGroup a t ps) := by
  unfold State.logGroup
  refine State.Chooses.trans ?_ (State.sendPair_chooses _ _ _ _ _ _)
  exact ⟨rfl, rfl, rfl, rfl, fun _ => rfl, fun _ => rfl⟩

theorem State.fillTodo_chooses (s : State) (a : Nat) : s.Chooses (s.fillTodo a) := by
  have hlog (u : State) (t : MirTensor) (ps : List Nat) : u.Chooses (u.logPages a t ps) := .foldl (fun v g => v.logGroup_chooses a t g) _ u
  exact .foldl (fun u m => (hlog u m _).trans (State.modMir_chooses _ a m.handle _)) _ s

theorem State.chooseMethods_chooses (s : State) (a : Nat) (handles : List Nat) : s.Chooses (s.chooseMethods a handles) := by
  refine .foldl (fun u t => ?_) _ s
  have hmod := u.modMir_chooses a t.handle (fun m => { m with inForce := u.methodOf a t })
  dsimp only
  split
  · refine hmod.trans ?_
    generalize u.modAl a (fun x => x.modMir t.handle (fun m => { m with inForce := u.methodOf a t })) = v
    have hall : v.Chooses (v.sendAll a { t with inForce := 1 }) := (v.modMir_chooses a t.handle _).trans (State.fillTodo_chooses _ a)
    generalize v.sendAll a { t with inForce := 1 } = w at hall ⊢
    split
    · rename_i hstate
      have hb : w.pair.bound = true := by rw [Pair.bound, hstate]
      exact ⟨hall.hg, hall.host, hall.conds, hb.symm.trans hall.bound, hall.mir, hall.objs⟩
    all_goals exact hall
  · exact hmod

/-! ## SNAP_COMMIT (R389) -/

theorem State.allot_lt_of_snapOpen {s : State} {a : Nat} {x : Store} (h : (s.al a).mir.snapOpen = some x) : a < s.allots.length := by
  refine Decidable.byContradiction fun k => ?_
  rw [State.al_of_length_le (Nat.le_of_not_lt k)] at h
  cases h

theorem State.seal_data (s : State) (x : Store) : (s.seal x).tensors.map (·.data) = x.tensors.map (·.data) := by
  show (x.tensors.map _).map _ = _
  rw [List.map_map]
  rfl

/-- What committing the open snapshot leaves. -/
structure State.Commits (s t : State) (a : Nat) (x : Store) : Prop where
  hg : t.hg = s.hg
  host : t.host = s.host
  bound : t.pair.bound = s.pair.bound
  snapOpen : (t.al a).mir.snapOpen = none
  snapDone : (t.al a).mir.snapDone = some (s.seal x)
  exported : (t.al a).mir.exported = (s.al a).mir.exported
  remote : (t.al a).mir.remoteSnap = (s.al a).mir.remoteSnap
  cond : t.hasCond a .staleTensor = false
  objs : ∀ b, (t.al b).objs = (s.al b).objs

/-- The mirror state of an allotment whose open snapshot x is committed as y. -/
def AllotMirror.commits (m : AllotMirror) (f : MirTensor → MirTensor) (y : Store) : AllotMirror :=
  { m with snapOpen := none, snapDone := some y, snapBegan := m.snapOpenAt, tensors := m.tensors.map f }

/-- The state whose open snapshot x of allotment a is committed; f: what becomes of each mirrored tensor. -/
def State.snapSealed (s : State) (a : Nat) (x : Store) (f : MirTensor → MirTensor) : State :=
  s.modAl a (fun z => { z with mir := z.mir.commits f (s.seal x) })

theorem State.snapFinish_eq {s : State} {a : Nat} {x : Store} (h : (s.al a).mir.snapOpen = some x) : ∃ f k bs hs,
    s.snapFinish a = ((((s.snapSealed a x f).sendPairMsg a k false bs).dropCond a .staleTensor).chooseMethods a hs).settle := by
  unfold State.snapFinish
  rw [h]
  exact ⟨fun m => { m with
    stale := false, copyStep := if m.inForce = 1 ∧ m.stale = false then m.copyStep else (s.seal x).step, frac := (s.objD a m.handle).changeFrac }, _, _, _, rfl⟩

theorem State.snapFinish_commits {s : State} {a : Nat} {x : Store} (h : (s.al a).mir.snapOpen = some x) : s.Commits (s.snapFinish a) a x := by
  obtain ⟨f, k, bs, hs, heq⟩ := State.snapFinish_eq h
  have hal : ((s.snapSealed a x f).al a).mir = (s.al a).mir.commits f (s.seal x) := by
    rw [State.snapSealed, State.modAl_al_same s _ (State.allot_lt_of_snapOpen h)]
  have hobjs (b : Nat) : ((s.snapSealed a x f).al b).objs = (s.al b).objs := s.modAl_keeps Allot.objs a (by intro x; rfl) b
  have hsend : (s.snapSealed a x f).Chooses ((s.snapSealed a x f).sendPairMsg a k false bs) := State.sendPair_chooses _ _ _ _ _ _
  have hchoose := State.chooseMethods_chooses (((s.snapSealed a x f).sendPairMsg a k false bs).dropCond a .staleTensor) a hs
  have hcond : (((s.snapSealed a x f).sendPairMsg a k false bs).dropCond a .staleTensor).hasCond a .staleTensor = false := State.dropCond_hasCond _ _ _
  rw [heq]
  generalize (((s.snapSealed a x f).sendPairMsg a k false bs).dropCond a .staleTensor).chooseMethods a hs = v at hchoose ⊢
  have hmir : { (v.al a).mir with tensors := (s.al a).mir.tensors.map f } = (s.al a).mir.commits f (s.seal x) := by
    have h1 := hsend.mir a
    have h2 := hchoose.mir a
    rw [hal] at h1
    rw [← h1]
    exact (congrArg (fun m : AllotMirror => { m with tensors := (s.al a).mir.tensors.map f }) h2)
  refine ⟨?_, ?_, ?_, ?_, ?_, ?_, ?_, ?_, fun b => ?_⟩
  · rw [State.settle_hg]
    exact hchoose.hg.trans hsend.hg
  · rw [State.settle_host]
    exact hchoose.host.trans hsend.host
  · rw [State.settle_pair]
    exact hchoose.bound.trans hsend.bound
  · rw [State.settle_al]
    exact congrArg AllotMirror.snapOpen hmir
  · rw [State.settle_al]
    exact congrArg AllotMirror.snapDone hmir
  · rw [State.settle_al]
    have k := congrArg AllotMirror.exported hmir
    exact k
  · rw [State.settle_al]
    have k := congrArg AllotMirror.remoteSnap hmir
    exact k
  · rw [State.settle_hasCond _ _ (by decide), State.hasCond, hchoose.conds]
    exact hcond
  · rw [State.settle_al]
    exact (hchoose.objs b).trans ((hsend.objs b).trans (hobjs b))

section
variable {s : State} {id : Nat} {c : Cmd}

theorem State.started?_id {op : Nat} (h : s.started? id op = some c) : c.id = id := State.cmd?_id (State.started?_cmd h)

theorem State.started?_isSome {op : Nat} (h : s.started? id op = some c) : (s.cmd? c.id).isSome = true := by
  rw [State.started?_id h, State.started?_cmd h]
  rfl

theorem exec_snapCommit (h : s.CommitRuns id c) : exec (.snapCommit id) s = .next (s.snapCommit c) := by
  obtain ⟨h1, h2, h3⟩ := h
  show execSnapCommit id s = _
  rw [execSnapCommit, h1]
  simp [h2, State.judged, h3]

theorem State.exportMore_none (h : c.par 4 1 = 0 ∨ (s.al c.allot).mir.snapOpen ≠ none) : s.exportMore c = none := by
  unfold State.exportMore
  dsimp only
  rw [if_neg]
  rintro ⟨h1, h2⟩
  rcases h with h | h
  · rw [h] at h1
    exact absurd h1 (by decide)
  · exact h h2

theorem State.snapCommit_none (ho : (s.al c.allot).mir.snapOpen = none) (h0 : c.par 4 1 = 0) : s.snapCommit c = s.reject c.id (.wrongState, 0) := by
  rw [State.snapCommit, State.exportMore_none (.inl h0), ho]

section
variable {x : Store} (ho : (s.al c.allot).mir.snapOpen = some x)
include ho

theorem State.snapCommit_other (hn : x.id % 2 ^ 32 ≠ c.par 0 4) : s.snapCommit c = s.reject c.id (.wrongState, 0) := by
  rw [State.snapCommit, State.exportMore_none (.inr (by rw [ho]; exact Option.some_ne_none x)), ho]
  exact if_pos hn

theorem State.snapCommit_waits (hn : x.id % 2 ^ 32 = c.par 0 4) (hw : s.transferWaits = true) : s.snapCommit c = s.goOn c.id [] := by
  rw [State.snapCommit, State.exportMore_none (.inr (by rw [ho]; exact Option.some_ne_none x)), ho]
  dsimp only
  rw [if_neg (not_not_intro hn), if_pos hw]

theorem State.snapCommit_ends (hn : x.id % 2 ^ 32 = c.par 0 4) (hw : s.transferWaits = false) (h0 : c.par 4 1 = 0) :
    s.snapCommit c = (s.snapFinish c.allot).snapEnds c x.id 0 := by
  rw [State.snapCommit, State.exportMore_none (.inl h0), ho]
  dsimp only
  rw [if_neg (not_not_intro hn), hw, h0]
  rfl

theorem State.snapCommit_exports (hn : x.id % 2 ^ 32 = c.par 0 4) (hw : s.transferWaits = false) (h1 : c.par 4 1 = 1) :
    s.snapCommit c = (s.snapFinish c.allot).snapExport c (s.seal x) := by
  rw [State.snapCommit, State.exportMore_none (.inr (by rw [ho]; exact Option.some_ne_none x)), ho]
  dsimp only
  rw [if_neg (not_not_intro hn), hw, h1, (State.snapFinish_commits ho).snapDone]
  rfl

end

/-- A module that is not bound waits for no partner. -/
theorem State.snapEnds_alone (hb : s.pair.bound = false) (n r : Nat) : s.snapEnds c n r = s.finishOk c.id r := by
  rw [State.snapEnds, hb]
  rfl

theorem State.transferWaits_alone (hb : s.pair.bound = false) : s.transferWaits = false := by
  rw [State.transferWaits, hb]
  rfl

/-- The part of an export that a SNAP_COMMIT asks for. -/
def State.partOf (s : State) (c : Cmd) (y : Store) : List Byte :=
  ((exportBytes y (s.al c.allot).mir.exported).drop (c.par 0x18 4 * c.par 0x10 8)).take (c.par 0x10 8)

theorem State.hostGood_all (hb : s.host.bad = []) (ha n : Nat) : s.hostGood ha n = n := by
  have hfind : (List.range (n / 64)).find? (fun i => s.hostBad (ha + 64 * i) 64) = none := by
    refine List.find?_eq_none.mpr (fun i _ => ?_)
    rw [State.hostBad, hb]
    exact Bool.false_ne_true
  rw [State.hostGood, hfind]

theorem le_roundUp_64 (n : Nat) : n ≤ roundUp n 64 := by
  unfold roundUp ceilDiv
  omega

/-- Where no block of host memory fails, the part of an export stands there whole. -/
theorem State.snapExport_alone (hb : s.pair.bound = false) (hbad : s.host.bad = []) (hc : (s.cmd? c.id).isSome = true) (y : Store) :
    (s.snapExport c y).Ended c.id .ok 0 (BitVec.ofNat 128 ((s.partOf c y).length % 2 ^ 32 +
      ((ceilDiv (exportBytes y (s.al c.allot).mir.exported).length (c.par 0x10 8) - (c.par 0x18 4 + 1)) % 2 ^ 32) * 2 ^ 32)) ∧
    cellRead (s.snapExport c y).host.bytes (c.par 8 8) (s.partOf c y).length = s.partOf c y ∧
    ((s.snapExport c y).al c.allot).mir.snapDone = (s.al c.allot).mir.snapDone := by
  have hm : min (s.partOf c y).length (s.hostGood (c.par 8 8) (roundUp (s.partOf c y).length 64)) = (s.partOf c y).length := by
    rw [State.hostGood_all hbad, Nat.min_eq_left (le_roundUp_64 _)]
  unfold State.snapExport
  extract_lets len k all part parts left ha n m h0 t u
  have hpart : part = s.partOf c y := rfl
  have hmn : m = n := hm
  have hcount : State.Emits { s with host := { s.host with bytes := cellWrite s.host.bytes ha (part.take m) } } t :=
    State.countBytes_emits _ c 2 none m
  have hhost : t.host.bytes = cellWrite s.host.bytes ha (s.partOf c y) := by
    rw [hcount.host, hmn]
    exact congrArg (cellWrite s.host.bytes ha) (List.take_length)
  rw [if_neg (by omega)]
  have hpair : u.pair.bound = false := by
    show t.pair.bound = false
    rw [hcount.pair]
    exact hb
  rw [State.snapEnds_alone hpair]
  refine ⟨State.finish_ended ?_ _ _ _, ?_, ?_⟩
  · show (t.cmd? c.id).isSome = true
    rw [hcount.cmd?]
    exact hc
  · refine (congrArg (fun b => cellRead b _ _) hhost).trans ?_
    exact cellRead_of_cellWrite _ _ _
  · have hu : (u.al c.allot).mir.snapDone = (t.al c.allot).mir.snapDone := by
      refine t.modAl_keeps (fun z : Allot => z.mir.snapDone) c.allot (fun z => ?_) c.allot
      dsimp only
      split <;> rfl
    exact hu.trans (congrArg AllotMirror.snapDone (hcount.mir c.allot))

/-! ## SNAP_TAKE (R388) -/

/-- The state with the snapshot taken, at a cost of n microseconds. -/
def State.snapTaken (s : State) (c : Cmd) (n : Nat) : State :=
  ((s.snapBegin c.allot).1.snapCount c (s.snapBegin c.allot).2).modAl c.allot (fun z => { z with mir := { z.mir with snapCostUs := some n } })

/-- SNAP_ID, step, number of chunks copied, cost. -/
def State.snapResult (s : State) (c : Cmd) (n : Nat) : Nat :=
  (s.snapStore c.allot).id % 2 ^ 32 + ((s.snapStore c.allot).step % 2 ^ 32) * 2 ^ 32 + ((s.snapBegin c.allot).2.length % 2 ^ 32) * 2 ^ 64 + n * 2 ^ 96

/-- A SNAP_TAKE names no object. -/
theorem State.Runs.snapTake_named (h : s.Runs id 0x0710 (fun _ _ => []) c) : s.named c = s :=
  State.named_of_noNames (by simp [State.namesNow, Cmd.inlineNames, Cmd.listRefs, State.fresh?_opcode h.1])

theorem exec_snapTake {us : Nat} (h : s.Runs id 0x0710 (fun _ _ => []) c) (he : s.earlier c = []) (hclean : s.Clean c.allot) :
    exec (.snapTake id us) s = .next ((s.snapTaken c (satTo (2 ^ 32 - 1) us)).finishOk id (s.snapResult c (satTo (2 ^ 32 - 1) us))) := by
  have hpoison : s.poisonOf (s.mirRanges c.allot) = none := hclean.poisonOf (fun r hr => by
    obtain ⟨t, -, rfl⟩ := List.mem_map.mp hr
    rfl)
  show execSnapTake id us s = _
  refine (State.deant_runs h _).trans ?_
  rw [h.snapTake_named]
  dsimp only
  rw [if_neg (not_not_intro he), hpoison]
  rfl

theorem State.snapCount_emits (c : Cmd) (l : List Nat) : s.Emits (s.snapCount c l) :=
  (State.Emits.foldl (fun u _ => u.countBytes_emits c _ _ _) _ s).trans (State.countBytes_emits _ c 2 none _)

theorem mem_sortBy {α : Type} {key : α → Nat × Nat} {x : α} {l : List α} : x ∈ sortBy key l ↔ x ∈ l := by
  have hinsert (y : α) (m : List α) : x ∈ insertBy key y m ↔ x = y ∨ x ∈ m := by
    induction m with
    | nil => simp [insertBy]
    | cons z r ih =>
      unfold insertBy
      split
      · exact List.mem_cons
      · rw [List.mem_cons, ih, List.mem_cons]
        exact or_left_comm
  have hfold (m : List α) : x ∈ l.foldl (fun a x => insertBy key x a) m ↔ x ∈ l ∨ x ∈ m := by
    induction l generalizing m with
    | nil => simp
    | cons y r ih =>
      rw [List.foldl_cons, ih, hinsert, List.mem_cons]
      exact or_left_comm.trans or_assoc.symm
  exact (hfold []).trans (or_iff_left List.not_mem_nil)

/-- Every mirrored tensor whose object lives is in the snapshot, with its bytes. -/
theorem State.snapStore_holds {a : Nat} {m : MirTensor} {o : Obj} (hm : m ∈ (s.al a).mir.tensors) (ho : s.obj? a m.handle = some o) :
    ∃ d, d ∈ (s.snapStore a).tensors ∧ d.mirrorId = m.mirrorId ∧ d.data = o.t.data.filter (fun e => decide (e.1 < o.mirrorBytes)) := by
  have hmem : m ∈ s.mirTensors a := mem_sortBy.mpr (List.mem_filter.mpr ⟨hm, by rw [ho]; rfl⟩)
  have hobj : s.objD a m.handle = o := by rw [State.objD, ho]; rfl
  refine ⟨_, List.mem_map_of_mem hmem, rfl, ?_⟩
  rw [State.copyNow, hobj]

/-- The fields of a RESULT of four words. -/
theorem result_words {a b d e : Nat} (ha : a < 2 ^ 32) (hb : b < 2 ^ 32) (hd : d < 2 ^ 32) (he : e < 2 ^ 32) :
    (w128 (a + b * 2 ^ 32 + d * 2 ^ 64 + e * 2 ^ 96)).toNat % 2 ^ 32 = a ∧ (w128 (a + b * 2 ^ 32 + d * 2 ^ 64 + e * 2 ^ 96)).toNat / 2 ^ 32 % 2 ^ 32 = b ∧
      (w128 (a + b * 2 ^ 32 + d * 2 ^ 64 + e * 2 ^ 96)).toNat / 2 ^ 96 = e := by
  rw [w128, BitVec.toNat_ofNat]
  omega

/-- What a SNAP_TAKE leaves. -/
theorem State.snapTaken_spec (ha : c.allot < s.allots.length) (us : Nat) :
    let t := s.snapTaken c us
    (t.al c.allot).mir.snapOpen = some (s.snapStore c.allot) ∧ (t.al c.allot).mir.snapNext = (s.al c.allot).mir.snapNext + 1 ∧
      (t.al c.allot).mir.snapCostUs = some us ∧ t.hg = s.hg ∧ ∀ b, (t.al b).objs = (s.al b).objs := by
  have hcount := State.snapCount_emits (s := (s.snapBegin c.allot).1) c (s.snapBegin c.allot).2
  have hbegin : ((s.snapBegin c.allot).1.al c.allot).mir = { (s.al c.allot).mir with
      snapOpen := some (s.snapStore c.allot), snapNext := (s.al c.allot).mir.snapNext + 1, snapOpenAt := s.now } := by
    rw [State.snapBegin, State.modAl_al_same s _ ha]
  have hlen : c.allot < ((s.snapBegin c.allot).1.snapCount c (s.snapBegin c.allot).2).allots.length := by
    refine Decidable.byContradiction fun k => ?_
    have hmir := hcount.mir c.allot
    rw [State.al_of_length_le (Nat.le_of_not_lt k), hbegin] at hmir
    have hopen := congrArg AllotMirror.snapOpen hmir
    cases hopen
  dsimp only
  rw [State.snapTaken, State.modAl_al_same _ _ hlen, hcount.mir, hbegin]
  refine ⟨rfl, rfl, rfl, hcount.hg, fun b => ?_⟩
  refine (State.modAl_keeps Allot.objs _ c.allot (by intro x; rfl) b).trans ((hcount.objs b).trans ?_)
  exact s.modAl_keeps Allot.objs c.allot (by intro x; rfl) b

/-! ## RESTORE_VERIFY (R397) -/

theorem exec_restoreVerify (h1 : s.started? id 0x0740 = some c) (h2 : s.ready c = true) (h3 : s.judgeInline c (restoreVerifyFields s c) = none) :
    exec (.restoreVerify id) s = .next (s.restoreVerify c) := by
  show execRestoreVerify id s = _
  rw [execRestoreVerify, h1]
  dsimp only
  rw [if_pos h2, State.judged, h3]

theorem firstWrong_eq_none {l : List Checked} (h : ∀ x ∈ l, digestOf x.now = x.digest) (i base : Nat) : firstWrong l i base = none := by
  induction l generalizing i base with
  | nil => rfl
  | cons x r ih =>
    obtain ⟨hx, hr⟩ := List.forall_mem_cons.mp h
    rw [firstWrong, Checked.badChunk, if_pos hx]
    exact ih hr _ _

theorem firstWrong_isSome {l : List Checked} (h : ∃ x ∈ l, digestOf x.now ≠ x.digest) (i base : Nat) : ∃ e, firstWrong l i base = some e := by
  induction l generalizing i base with
  | nil =>
    obtain ⟨x, hx, -⟩ := h
    cases hx
  | cons x r ih =>
    rw [firstWrong, Checked.badChunk]
    by_cases hx : digestOf x.now = x.digest
    · rw [if_pos hx]
      obtain ⟨y, hy, hbad⟩ := h
      rcases List.mem_cons.mp hy with rfl | hy
      · exact absurd hx hbad
      · exact ih ⟨y, hy, hbad⟩ _ _
    · rw [if_neg hx]
      exact ⟨_, rfl⟩

section
variable (hsrc : c.par 0 1 < 2)
include hsrc

theorem State.restoreVerify_missing (hv : s.verifyStore c = none) : s.restoreVerify c = s.reject c.id (.wrongState, 0) := by
  rw [State.restoreVerify, if_neg (fun k => by omega), hv]

/-- A store of the module is checked against its own bytes. -/
theorem State.restoreVerify_own {x : Store} (hv : s.verifyStore c = some x) : s.restoreVerify c = match firstWrong x.checks 0 0 with
    | some (i, k) => s.finish c.id .authFailed (badIn i).2 (w128 k)
    | none => if x.digestNow = x.digest ∧ s.signedOk x = true then s.finishOk c.id 0 else s.finish c.id .authFailed (badIn x.tensors.length).2 0 := by
  have hobjs : decide (2 ≤ c.par 0 1) = false := decide_eq_false (by omega)
  rw [State.restoreVerify, if_neg (fun k => by omega), hv]
  simp only [hobjs, Bool.false_eq_true, if_false] <;> rfl

theorem State.restoreVerify_sound {x : Store} (hv : s.verifyStore c = some x) (hd : ∀ d ∈ x.tensors, digestOf (chunkDigests d.data d.bytes) = d.digest)
    (hx : x.digestNow = x.digest) (hs : x.isSigned = false) : s.restoreVerify c = s.finishOk c.id 0 := by
  have hnone : firstWrong x.checks 0 0 = none := firstWrong_eq_none (fun y hy => by
    obtain ⟨d, hm, rfl⟩ := List.mem_map.mp hy
    exact hd d hm) 0 0
  have hsigned : s.signedOk x = true := by rw [State.signedOk, hs]; rfl
  rw [State.restoreVerify_own hsrc hv, hnone]
  exact if_pos ⟨hx, hsigned⟩

theorem State.restoreVerify_wrong {x : Store} (hv : s.verifyStore c = some x) (hd : ∃ d ∈ x.tensors, digestOf (chunkDigests d.data d.bytes) ≠ d.digest) :
    ∃ e k, s.restoreVerify c = s.finish c.id .authFailed e k := by
  obtain ⟨d, hm, hbad⟩ := hd
  obtain ⟨⟨i, k⟩, he⟩ := firstWrong_isSome (l := x.checks) ⟨_, List.mem_map_of_mem hm, hbad⟩ 0 0
  rw [State.restoreVerify_own hsrc hv, he]
  exact ⟨_, _, rfl⟩

end

end

/-- Settles O43: SNAP_TAKE by what its local phase leaves, SNAP_COMMIT by what the commit of the open snapshot leaves, RESTORE_VERIFY by the
first entry that does not match. -/
theorem snapshots : Obligations.Snapshots := by
  unfold Obligations.Snapshots
  refine ⟨fun s id us c h he hclean ha => ?_, fun s id c h ho h0 => ?_, fun s id c x h ho hn => ?_, fun s id c x h ho hn hw => ?_,
    fun s id c x h ho hn h0 hb => ?_, fun s id c x h ho hn h1 hb hbad => ?_, fun s id c x h ho hn h0 hb hw hr => ?_, fun s id c h1 h2 h3 h4 hv => ?_,
    fun s id c x h1 h2 h3 h4 hv hd hx hs => ?_, fun s id c x h1 h2 h3 h4 hv hd => ?_⟩
  · rw [h.snapTake_named] at he ⊢
    obtain ⟨hopen, hnext, hcost, hhg, hobjs⟩ := State.snapTaken_spec ha (satTo (2 ^ 32 - 1) us)
    have hsat : satTo (2 ^ 32 - 1) us = min (2 ^ 32 - 1) us := satTo_eq_min _ _
    obtain ⟨hr1, hr2, hr3⟩ := result_words (Nat.mod_lt (s.snapStore c.allot).id (Nat.two_pow_pos 32)) (Nat.mod_lt (s.snapStore c.allot).step (Nat.two_pow_pos 32))
      (Nat.mod_lt (s.snapBegin c.allot).2.length (Nat.two_pow_pos 32)) (e := satTo (2 ^ 32 - 1) us) (by omega)
    rw [exec_snapTake h he hclean]
    obtain rfl := State.fresh?_id h.1
    generalize satTo (2 ^ 32 - 1) us = n at *
    refine ⟨_, s.snapStore c.allot, w128 (s.snapResult c n), rfl, hopen, rfl, rfl, hnext, hcost.trans (congrArg some hsat),
      fun m o hm ho => State.snapStore_holds hm ho, State.finish_ended ?_ _ _ _, hr1, hr2, hr3.trans hsat, hobjs⟩
    rw [State.cmd?, hhg]
    exact h.cmd_isSome
  · obtain rfl := State.started?_id h.1
    exact State.rejects_alone (State.started?_isSome h.1) ((exec_snapCommit h).trans (congrArg _ (State.snapCommit_none ho h0)))
  · obtain rfl := State.started?_id h.1
    exact State.rejects_alone (State.started?_isSome h.1) ((exec_snapCommit h).trans (congrArg _ (State.snapCommit_other ho hn)))
  · obtain rfl := State.started?_id h.1
    exact ⟨_, (exec_snapCommit h).trans (congrArg _ (State.snapCommit_waits ho hn hw)), State.goOn_atWork (State.started?_isSome h.1) _, State.goOn_onlyCmds _ _ _⟩
  · obtain rfl := State.started?_id h.1
    have hc := State.snapFinish_commits ho
    have hend := State.snapCommit_ends ho hn (State.transferWaits_alone hb) h0
    rw [State.snapEnds_alone (hc.bound.trans hb)] at hend
    refine ⟨_, s.seal x, (exec_snapCommit h).trans (congrArg _ hend), State.finish_ended ?_ _ _ _, hc.snapOpen, hc.snapDone, rfl, rfl, rfl, s.seal_data x,
      hc.cond, hc.objs⟩
    rw [State.cmd?, hc.hg]
    exact State.started?_isSome h.1
  · obtain rfl := State.started?_id h.1
    have hc := State.snapFinish_commits ho
    have hend := State.snapCommit_exports ho hn (State.transferWaits_alone hb) h1
    obtain ⟨hended, hread, hdone⟩ := State.snapExport_alone (s := s.snapFinish c.allot) (c := c) (hc.bound.trans hb) (by rw [hc.host]; exact hbad)
      (by rw [State.cmd?, hc.hg]; exact State.started?_isSome h.1) (s.seal x)
    rw [State.partOf, hc.exported] at hended hread
    exact ⟨_, s.seal x, (exec_snapCommit h).trans (congrArg _ hend), hdone.trans hc.snapDone, rfl, rfl, _, rfl, hended, hread⟩
  · obtain rfl := State.started?_id h.1
    have hc := State.snapFinish_commits ho
    have hend := State.snapCommit_ends ho hn hw h0
    have hno : ((s.al c.allot).mir.remoteSnap.any (fun y => y.id == x.id)) = false := by
      cases hrem : (s.al c.allot).mir.remoteSnap with
      | none => rfl
      | some y => exact beq_eq_false_iff_ne.mpr (hr y hrem)
    rw [State.snapEnds, hc.bound, hb, hc.remote, hno] at hend
    refine ⟨_, s.seal x, (exec_snapCommit h).trans (congrArg _ hend), State.goOn_atWork ?_ _, hc.snapOpen, hc.snapDone, rfl, rfl, rfl⟩
    rw [State.cmd?, hc.hg]
    exact State.started?_isSome h.1
  · obtain rfl := State.started?_id h1
    exact State.rejects_alone (State.started?_isSome h1) ((exec_restoreVerify h1 h2 h3).trans (congrArg _ (State.restoreVerify_missing h4 hv)))
  · obtain rfl := State.started?_id h1
    exact ⟨_, (exec_restoreVerify h1 h2 h3).trans (congrArg _ (State.restoreVerify_sound h4 hv hd hx hs)),
      State.finish_ended (State.started?_isSome h1) _ _ _, State.finish_onlyCmds ..⟩
  · obtain rfl := State.started?_id h1
    obtain ⟨e, k, hwrong⟩ := State.restoreVerify_wrong h4 hv hd
    exact ⟨_, e, k, (exec_restoreVerify h1 h2 h3).trans (congrArg _ hwrong), State.finish_ended (State.started?_isSome h1) _ _ _, State.finish_onlyCmds ..⟩

end Sys2Proof.Machine
end

section
/-! Rules for FILL_BEGIN of the source, FILL_CHUNK and FILL_COMMIT (R401 to R405). -/

namespace Sys2Proof.Machine

/-! ## Grants (R401) -/

/-- The state without the grants of a FILL_ID. -/
def State.endGrants (s : State) (i : Nat) : State := { s with pair := { s.pair with grants := s.pair.grants.filter (fun x => x.fillId != i) } }

section
variable {s : State} {id : Nat} {c : Cmd}

theorem exec_fillBegin_source (h : s.OrderRuns id 0x0720 fillBeginFields c) (hr : s.ready c = true) (h1 : c.par 4 1 = 1) (m : Wire)
    (ch : List (Nat × Wire × Wire)) : exec (.fillBegin id m ch) s = .next ((s.taken id c).fillGrant c) := by
  have hneeds : s.fillNeeds c m = false := by rw [State.fillNeeds, h1]; rfl
  show execFillBegin id m ch s = _
  rw [execFillBegin, h.1]
  dsimp only
  rw [hneeds]
  simp only [State.orderReady, h.1, hr, if_true, Bool.false_eq_true, if_false]
  refine (State.order_runs h (fun t d => t.fillBegin d m ch)).trans ?_
  rw [State.fillBegin, if_pos h1]
  rfl

theorem State.taken_mir (a : Nat) : ((s.taken id c).al a).mir = (s.al a).mir :=
  State.named_keeps Allot.mir (fun _ _ _ => rfl) (s.takeOrder id) c a

theorem State.taken_sourceStore (source a n : Nat) : (s.taken id c).sourceStore source a n = s.sourceStore source a n := by
  unfold State.sourceStore State.regionStore State.ckptStore
  rw [State.taken_mir, s.taken_pair]

theorem State.fillGrant_none (hx : s.sourceStore (c.par 5 1) c.allot (c.par 8 8) = none) : s.fillGrant c = s.reject c.id (.wrongState, 0) := by
  unfold State.fillGrant
  rw [hx]

/-- The grant of a FILL_BEGIN for the store x. -/
def State.grantOf (s : State) (c : Cmd) (x : Store) : Grant :=
  { fillId := c.par 0 4, target := c.par 6 2, source := c.par 5 1, kind := x.kind, storeId := x.id, made := s.now }

theorem State.fillGrant_some {x : Store} (hx : s.sourceStore (c.par 5 1) c.allot (c.par 8 8) = some x) (hnew : ∀ g ∈ s.pair.grants, g.fillId ≠ c.par 0 4)
    (hroom : s.pair.grants.length < 8) :
    s.fillGrant c = State.finishOk { s with pair := { s.pair with grants := s.pair.grants ++ [s.grantOf c x] } } c.id 0 := by
  have hrest : s.pair.grants.filter (fun g => g.fillId != c.par 0 4) = s.pair.grants :=
    List.filter_eq_self.mpr (fun g hg => bne_iff_ne.mpr (hnew g hg))
  have hold : s.pair.grants.find? (fun (g : Grant) => g.fillId == c.par 0 4) = none :=
    List.find?_eq_none.mpr (fun g hg => by simpa using hnew g hg)
  unfold State.fillGrant
  dsimp only
  rw [hx, hrest, hold]
  dsimp only
  rw [if_neg (Nat.not_le.mpr hroom)]
  rfl

end

theorem exec_fillGrantExpiry {s : State} {i : Nat} {g : Grant} (h : s.pair.grants.find? (fun (y : Grant) => y.fillId == i) = some g) :
    exec (.fillGrantExpiry i) s = .next (State.endGrants (s.passTo (g.made + 24 * 3600 * 1000000000)) i) := by
  show execFillGrantExpiry i s = _
  rw [execFillGrantExpiry, h]
  rfl

theorem exec_fillRead {s : State} {i k : Nat} {g : Grant} {x : Store} (h : s.pair.grants.find? (fun (y : Grant) => y.fillId == i) = some g)
    (hx : (if g.source = 0 then s.pair.peerStores else s.allots.filterMap (fun y => y.mir.snapDone)).find?
      (fun y => y.allot == 0 && y.kind == g.kind && y.id == g.storeId) = some x) :
    exec (.fillRead i k) s = .next { s with pair := { s.pair with
      served := [(i, k, x.chunk k)]
      grants := s.pair.grants.map (fun y => if y.fillId = i ∧ y.cursor = k then { y with cursor := k + 1 } else y) } } := by
  show execFillRead i k s = _
  rw [execFillRead, h]
  dsimp only
  rw [hx]

/-! ## Chunks (R402) -/

theorem State.ObjsStand.trans {s t u : State} {a i : Nat} (h : s.ObjsStand t a i) (k : t.ObjsStand u a i) : s.ObjsStand u a i :=
  fun b j hbj => (k b j hbj).trans (h b j hbj)

theorem State.dropShadow_objsStand (s : State) (a h : Nat) : s.ObjsStand (s.dropShadow a h) a (handleIndex h) := by
  unfold State.dropShadow
  split
  · split
    · have hcharge : s.ObjsStand (s.uncharge a (.shadow (handleIndex h))) a (handleIndex h) := fun b j _ => congrArg (look j) (s.uncharge_objs _ _ b)
      exact hcharge.trans (State.modObj_objsStand _ a h _)
    · exact fun _ _ _ => rfl
  · exact fun _ _ _ => rfl

section
variable {s : State} {f : Fill} {d : FillTensor} {j : Nat}

/-- A chunk that is written stands in its object, and no other object differs. -/
theorem State.writeChunk_spec (ho : (s.obj? f.allot d.handle).isSome = true) (bs : List Byte) :
    let t := s.writeChunk f d j bs
    t.hg = s.hg ∧ t.Holds f.allot d.handle (j * 2 ^ 20) bs ∧ s.ObjsStand t f.allot (handleIndex d.handle) := by
  have hdrop := s.dropShadow_same f.allot d.handle
  have hobj : ((s.dropShadow f.allot d.handle).obj? f.allot d.handle).isSome = true := by
    rw [(s.dropShadow_notes f.allot d.handle).handles]
    exact ho
  have hstale := State.staleWrite_objsAside ((s.dropShadow f.allot d.handle).writeObj f.allot d.handle (j * mib) bs) f.allot d.handle
  have hholds := State.writeObj_holds (State.lt_of_obj? hobj) hobj (j * mib) bs
  refine ⟨?_, hholds.of_objs (hstale.objs _), ?_⟩
  · refine (State.staleWrite_works _ _ _).hg.trans ?_
    have k := congrArg State.hg hdrop.1
    exact k
  · exact ((s.dropShadow_objsStand _ _).trans (State.modObj_objsStand _ _ _ _)).of_objs hstale.objs

/-- A FILL_CHUNK of one chunk names no object. -/
theorem State.ChunkRuns.named {id : Nat} {c : Cmd} (h : s.ChunkRuns id c f d j) : s.named c = s :=
  State.named_of_noNames (by simp [State.namesNow, Cmd.inlineNames, Cmd.listRefs, State.fresh?_opcode h.1.1])

/-- A FILL_CHUNK of one chunk takes its chunk. -/
theorem State.ChunkRuns.fillChunk {id : Nat} {c : Cmd} (h : s.ChunkRuns id c f d j) (ch : List (Nat × Wire × Wire)) :
    s.fillChunk c ch = s.fillDone c (s.fillRange f { wire := ch, host := c.par 0x10 8, first := c.par 4 4 } [c.par 4 4]) Fill.cursor := by
  obtain ⟨-, hfill, hopen, hid, h1, hlt, -, -⟩ := h
  have hmin : min 1 (f.total - c.par 4 4) = 1 := by omega
  unfold State.fillChunk
  rw [hfill]
  dsimp only
  rw [if_neg (by simp [hopen, hid]), h1, hmin]
  rfl

theorem State.fillRange_one (src : ChunkSrc) (k : Nat) : s.fillRange f src [k] = s.fillOne f src k := by
  unfold State.fillRange
  dsimp only
  split
  · rename_i hok
    unfold State.fillRange
    rw [← hok]
  all_goals rfl

theorem State.fillOne_reads {src : ChunkSrc} {k : Nat} (hl : locateChunk f.tensors k = some (d, j)) (hn : f.has k = false)
    (hp : s.chunkPresent f d j = false) {x y : List Byte} (hr : s.chunkReads f src k (chunkLen d.bytes j) = .ok (x, y)) : s.fillOne f src k =
    if chunkGood d j x then (s.writeChunk f d j x, f.mark k, .ok)
    else if chunkGood d j y then (s.writeChunk f d j y, f.mark k, .ok)
    else (s, f, .bad k) := by
  unfold State.fillOne
  rw [hl]
  dsimp only
  rw [hn, hp, hr]
  rfl

theorem exec_fillChunk {id : Nat} {c : Cmd} (h : s.Runs id 0x0721 fillChunkFields c) (ch : List (Nat × Wire × Wire))
    {code : Code} {detail : W32} {result : W128} (he : ((s.named c).fillChunk c ch).Ended id code detail result) :
    exec (.fillChunk id ch) s = .next ((s.named c).fillChunk c ch) := by
  obtain ⟨d, hd, hdone, -⟩ := he
  show execFillChunk id ch s = _
  refine (State.deant_runs h _).trans ?_
  dsimp only
  rw [hd]
  simp [hdone]

end

/-! ## FILL_COMMIT (R403) -/

section
variable {s : State} {id : Nat} {c : Cmd}

/-- A FILL_COMMIT names no object. -/
theorem State.OrderRuns.fillCommit_taken (h : s.OrderRuns id 0x0722 fillCommitFields c) : s.taken id c = s.takeOrder id :=
  State.named_of_noNames (by simp [State.namesNow, Cmd.inlineNames, Cmd.listRefs, State.fresh?_opcode h.1])

theorem exec_fillCommit (h : s.OrderRuns id 0x0722 fillCommitFields c) : exec (.fillCommit id) s = .next ((s.taken id c).fillCommit c) :=
  State.order_runs h State.fillCommit

section
variable {f : Fill} (hf : s.pair.fill = some f)
include hf

theorem State.fillCommit_other (h : f.committed = true ∨ f.fillId ≠ c.par 0 4) : s.fillCommit c = s.reject c.id (.wrongState, 0) := by
  rw [State.fillCommit, hf]
  exact if_pos h

variable (ho : f.committed = false) (hi : f.fillId = c.par 0 4)
include ho hi

theorem State.fillCommit_incomplete (hlt : f.cursor < f.total) : s.fillCommit c = s.finish c.id .wrongState 0 (w128 f.cursor) := by
  rw [State.fillCommit, hf]
  dsimp only
  rw [if_neg (by simp [ho, hi]), if_pos hlt]

theorem State.fillCommit_complete (hle : f.total ≤ f.cursor) (hclean : s.Clean f.allot) : s.fillCommit c =
    if s.fillSound f then { s.fillEffect c f with pair := { (s.fillEffect c f).pair with
      grants := (s.fillEffect c f).pair.grants.filter (fun g => g.fillId != f.fillId) } }
    else s.finish c.id .authFailed 0 0 := by
  have hpoison : s.poisonOf ((f.tensors.filter (fun t => t.handle != 0)).map (fun t => (f.allot, t.handle, 0, t.bytes))) = none :=
    hclean.poisonOf (fun r hr => by
      obtain ⟨t, -, rfl⟩ := List.mem_map.mp hr
      rfl)
  rw [State.fillCommit, hf]
  dsimp only
  rw [if_neg (by simp [ho, hi]), if_neg (Nat.not_lt.mpr hle), hpoison]

end

/-- Without layers there is no master whose residuals or copy would follow. -/
theorem State.refreshMasters_noLayers (hl : (s.al c.allot).temper.layers = []) (hs : List Nat) : (s.refreshMasters c hs).hg = s.hg ∧
    ∀ b, ((s.refreshMasters c hs).al b).objs = (s.al b).objs := by
  have hnone : ((s.modLayers c.allot (fun _ l =>
      if hs.contains l.wMaster && l.wMaster != 0 then { l with residual := l.residual.map (fun _ => []) } else l)).temper c.allot).layers = [] := by
    rw [State.temper, State.modLayers, State.modTemper, State.modAl_al]
    split
    · exact congrArg (List.map _) hl
    · exact hl
  unfold State.refreshMasters
  dsimp only
  rw [hnone]
  refine ⟨rfl, fun b => ?_⟩
  rw [List.foldl_nil]
  exact s.modAl_keeps Allot.objs c.allot (by intro x; rfl) b

/-- What the end of a sound fill leaves of commands and objects, where it restores no temper state. -/
theorem State.fillEffect_spec (hl : (s.al c.allot).temper.layers = []) {f : Fill} (ht : f.temper = false) : ∃ u : State,
    s.fillEffect c f = (u.setFill { f with committed := true }).finishOk c.id (f.step % 2 ^ 64 + (f.storeId % 2 ^ 64) * 2 ^ 64) ∧ u.hg = s.hg ∧
      ∀ b, (u.al b).objs = (s.al b).objs := by
  obtain ⟨hhg, hobjs⟩ := State.refreshMasters_noLayers hl ((f.tensors.map (·.handle)).filter (· != 0))
  have hfold (l : List Nat) (v : State) : (l.foldl (fun u h => u.staleWrite f.allot h) v).hg = v.hg ∧
      ∀ b, ((l.foldl (fun u h => u.staleWrite f.allot h) v).al b).objs = (v.al b).objs :=
    List.foldlRecOn (motive := fun u : State => u.hg = v.hg ∧ ∀ b, (u.al b).objs = (v.al b).objs) l _ ⟨rfl, fun _ => rfl⟩ (fun u hu h _ =>
      ⟨(u.staleWrite_works f.allot h).hg.trans hu.1, fun b => ((u.staleWrite_objsAside f.allot h).objs b).trans (hu.2 b)⟩)
  obtain ⟨hg2, ho2⟩ := hfold ((f.tensors.map (·.handle)).filter (· != 0)) (s.refreshMasters c ((f.tensors.map (·.handle)).filter (· != 0)))
  refine ⟨_, ?_, hg2.trans hhg, fun b => (ho2 b).trans (hobjs b)⟩
  rw [State.fillEffect, ht]
  rfl

end

/-- Settles O44: grants by their filters, FILL_CHUNK by its one chunk, FILL_COMMIT by the cases of its order. -/
theorem fills : Obligations.Fills := by
  unfold Obligations.Fills
  refine ⟨fun s id m ch c h hr h1 hx => ?_, fun s id m ch c x h hr h1 hx hnew hroom => ?_, fun s i g hg => ?_, fun s i g k x hg hx => ?_,
    fun s id ch c f d j o x y h ho hp hr hgood => ?_, fun s id ch c f d j o x y h ho hp hr hx hy => ?_, fun s id c f h hf hno => ?_,
    fun s id c f h hf ho hi hlt => ?_, fun s id c f h hf ho hi hle hclean hl ht hs => ?_, fun s id c f h hf ho hi hle hclean hs => ?_⟩
  · have hc := h.taken_isSome
    obtain rfl := State.fresh?_id h.1
    refine State.rejects_alone hc ((exec_fillBegin_source h hr h1 m ch).trans (congrArg _ (State.fillGrant_none ?_)))
    rw [State.taken_sourceStore]
    exact hx
  · have hc := h.taken_isSome
    obtain rfl := State.fresh?_id h.1
    have hnow : (s.taken c.id c).now = s.now := by rw [State.now, s.taken_clk, State.now]
    have hgrant := State.fillGrant_some (s := s.taken c.id c) (c := c) (x := x) (by rw [State.taken_sourceStore]; exact hx)
      (by rw [s.taken_pair]; exact hnew) (by rw [s.taken_pair]; exact hroom)
    rw [s.taken_pair, State.grantOf, hnow] at hgrant
    refine ⟨_, (exec_fillBegin_source h hr h1 m ch).trans (congrArg _ hgrant), State.finish_ended hc _ _ _, ?_, rfl⟩
    rw [State.OnlyPair, s.taken_pair]
    exact congrArg (fun p => ({ s.taken c.id c with pair := p } : State)) (s.taken_pair c.id c).symm
  · refine ⟨_, exec_fillGrantExpiry hg, fun y hy => ?_, ?_⟩
    · have hkeep := (List.mem_filter.mp hy).2
      simpa using hkeep
    · obtain ⟨ts, hts⟩ := s.passTo_clock (g.made + 24 * 3600 * 1000000000)
      rw [hts]
      rfl
  · exact ⟨_, exec_fillRead hg hx, rfl, rfl⟩
  · obtain rfl := State.fresh?_id h.1.1
    have hnamed := h.named
    rw [hnamed] at ho hp hr ⊢
    obtain ⟨hhg, hholds, hobjs⟩ := State.writeChunk_spec (s := s) (f := f) (d := d) (j := j) (by rw [ho]; rfl) x
    have hchunk : s.fillChunk c ch = ((s.writeChunk f d j x).setFill (f.mark (c.par 4 4))).finishOk c.id (f.mark (c.par 4 4)).cursor := by
      rw [h.fillChunk, State.fillRange_one, State.fillOne_reads h.2.2.2.2.2.2.1 h.2.2.2.2.2.2.2 hp hr, if_pos hgood]
      rfl
    have hend : (s.fillChunk c ch).Ended c.id .ok 0 (w128 (f.mark (c.par 4 4)).cursor) := by
      rw [hchunk]
      refine State.finish_ended ?_ _ _ _
      show ((s.writeChunk f d j x).cmd? c.id).isSome = true
      rw [State.cmd?, hhg]
      exact h.1.cmd_isSome
    have hexec := exec_fillChunk h.1 ch (by rw [hnamed]; exact hend)
    rw [hnamed] at hexec
    rw [hchunk] at hexec hend
    generalize s.writeChunk f d j x = t at *
    exact ⟨_, hexec, hend, hholds, rfl, hobjs⟩
  · obtain rfl := State.fresh?_id h.1.1
    have hnamed := h.named
    rw [hnamed] at ho hp hr ⊢
    have hchunk : s.fillChunk c ch = (s.setFill f).finish c.id .authFailed 0 (w128 (c.par 4 4)) := by
      rw [h.fillChunk, State.fillRange_one, State.fillOne_reads h.2.2.2.2.2.2.1 h.2.2.2.2.2.2.2 hp hr, hx, hy]
      rfl
    have hend : (s.fillChunk c ch).Ended c.id .authFailed 0 (w128 (c.par 4 4)) := by
      rw [hchunk]
      exact State.finish_ended h.1.cmd_isSome _ _ _
    have hexec := exec_fillChunk h.1 ch (by rw [hnamed]; exact hend)
    rw [hnamed] at hexec
    rw [hchunk] at hexec hend
    exact ⟨_, hexec, hend, rfl⟩
  · have hc := h.taken_isSome
    obtain rfl := State.fresh?_id h.1
    exact State.rejects_alone hc ((exec_fillCommit h).trans (congrArg _ (State.fillCommit_other (by rw [s.taken_pair]; exact hf) hno)))
  · have hc := h.taken_isSome
    obtain rfl := State.fresh?_id h.1
    exact ⟨_, (exec_fillCommit h).trans (congrArg _ (State.fillCommit_incomplete (by rw [s.taken_pair]; exact hf) ho hi hlt)),
      State.finish_ended hc _ _ _, State.finish_onlyCmds ..⟩
  · have hc := h.taken_isSome
    obtain rfl := State.fresh?_id h.1
    have htaken := h.fillCommit_taken
    rw [htaken] at hc ⊢
    obtain ⟨u, heq, hhg, hobjs⟩ := State.fillEffect_spec (s := s.takeOrder c.id) hl ht
    have hcommit := State.fillCommit_complete (s := s.takeOrder c.id) (c := c) hf ho hi hle hclean
    have hexec := exec_fillCommit h
    rw [htaken, hcommit, if_pos (show (s.takeOrder c.id).fillSound f = true from hs), heq] at hexec
    refine ⟨_, hexec, State.finish_ended (s := u.setFill { f with committed := true }) ?_ _ _ _, rfl, hobjs⟩
    show (u.cmd? c.id).isSome = true
    rw [State.cmd?, hhg]
    exact hc
  · have hc := h.taken_isSome
    obtain rfl := State.fresh?_id h.1
    have htaken := h.fillCommit_taken
    rw [htaken] at hc ⊢
    have hcommit := State.fillCommit_complete (s := s.takeOrder c.id) (c := c) hf ho hi hle hclean
    have hexec := exec_fillCommit h
    rw [htaken, hcommit, if_neg (show ¬ (s.takeOrder c.id).fillSound f = true by rw [show (s.takeOrder c.id).fillSound f = false from hs]; exact Bool.false_ne_true)] at hexec
    exact ⟨_, hexec, State.finish_ended hc _ _ _, State.finish_onlyCmds ..⟩

end Sys2Proof.Machine
end

section
/-! Frames, packets, ports and peers (R339 to R342, R347, R349, R353, R354). -/

namespace Sys2Proof.Machine

/-! ## Rounds of one event of the fabric (R409, R413) -/

/-- A round of one detected event, where no forced one waits. -/
theorem State.collect_one {s : State} (h : s.flt.force = []) (d : Detected) :
    s.collect [d] = ((s.raiseOne { ev := d }).raiseShortOf 0).raiseShortOf 1 := by
  have hnoforce : ({ s with flt := { s.flt with force := [] } } : State) = s := by rw [← h]
  rw [← State.raiseShort_eq_two, State.collect, State.forcedEvents, h, hnoforce]
  rfl

/-- A source that the module does not carry raises nothing. -/
theorem State.raiseOne_absent {s : State} {d : Detected} {i : SrcInfo} (hi : srcInfo d.source = some i) (h : s.carries i.die = false) :
    s.raiseOne { ev := d } = s := by
  unfold State.raiseOne
  rw [hi]
  exact if_pos (by simp [h])

/-- The rest of a round: the sources of short hearths change nothing but what tells of them. -/
theorem State.raiseShorts_only {s t : State} {src : Nat} (h : s.Mild src) (ht : t.flt.severity = s.flt.severity) :
    t.EventOnly ((t.raiseShortOf 0).raiseShortOf 1) := by
  obtain ⟨-, -, h0, h1⟩ := h
  obtain ⟨honly0, hsev0, -⟩ := State.raiseShortOf_quiet (s := t) (.inl rfl) (by rw [State.srcClass_of_severity ht]; exact h0)
  obtain ⟨honly1, -, -⟩ := State.raiseShortOf_quiet (s := t.raiseShortOf 0) (.inr rfl)
    (by rw [State.srcClass_of_severity hsev0, State.srcClass_of_severity ht]; exact h1)
  exact honly0.trans honly1

/-- A round of one quiet event changes nothing but what tells of it. -/
theorem State.Mild.collect_only {s : State} {d : Detected} {i : SrcInfo} (h : s.Mild d.source) (hi : srcInfo d.source = some i)
    (hq : i.Quiet d.source (s.srcClass d.source)) : s.EventOnly (s.collect [d]) := by
  rw [State.collect_one h.1]
  by_cases hd : s.carries i.die = true
  · obtain ⟨honly, -, -, hseverity, -⟩ := State.raiseOne_quiet (r := { ev := d }) hi hd hq
    exact honly.trans (State.raiseShorts_only h hseverity)
  · rw [State.raiseOne_absent hi (by simpa using hd)]
    exact State.raiseShorts_only h rfl

theorem State.Mild.cls {s : State} {src : Nat} (h : s.Mild src) : s.srcClass src < 2 ∨ s.srcClass src = 2 := by
  have hc := h.2.1
  omega

/-- The sources of a peer that is lost. -/
theorem State.Mild.peer_only {s : State} (h : s.Mild 0x5300) (peer : Nat) : s.EventOnly (s.collect [{ source := 0x5300, peer := peer }]) :=
  State.Mild.collect_only (d := { source := 0x5300, peer := peer }) (i := { cls := 1, floor := 0 }) h (show srcInfo 0x5300 = _ from rfl)
    ⟨rfl, rfl, h.cls.imp_right (⟨·, rfl⟩), by dsimp only; omega⟩

/-- The source of a port that retrains fences nothing, and the source of a port that is down fences it. -/
theorem srcInfo_port {p : Nat} (hp : p < 24) :
    ∃ die, srcInfo (0x5202 + 8 * p) = some { cls := 1, floor := 0, unit := some (unitWord 5 0 p), die := die } ∧
      srcInfo (0x5200 + 8 * p) = some { cls := 1, floor := 0, fence := .always, unit := some (unitWord 5 0 p), die := die } := by
  interval_cases p <;> exact ⟨_, rfl, rfl⟩

theorem State.Mild.retrain_only {s : State} {p : Nat} (hp : p < 24) (h : s.Mild (0x5202 + 8 * p)) : s.EventOnly (s.raise (0x5202 + 8 * p)) := by
  obtain ⟨die, hi, -⟩ := srcInfo_port hp
  exact State.Mild.collect_only (d := event (0x5202 + 8 * p)) h hi ⟨rfl, rfl, h.cls.imp_right (⟨·, rfl⟩), by simp only [event]; omega⟩

/-! ## A port that is down (R342) -/

/-- Without a pair nothing follows the ports. -/
theorem State.pairPorts_unbound {s : State} (h : s.pair.state = .unbound) : s.pairPorts = s := by
  unfold State.pairPorts
  rw [h]

/-- Port p may be taken down, no other port differs, and the pair stands. -/
structure State.Fells (s t : State) (p : Nat) : Prop where
  others : s.PortsStand t p
  falls : s.PortsFall t
  pair : t.pair = s.pair
  severity : t.flt.severity = s.flt.severity

theorem State.Fells.refl (s : State) (p : Nat) : s.Fells s p := ⟨fun _ _ => rfl, .refl s, rfl, rfl⟩

theorem State.Fells.trans {s t u : State} {p : Nat} (h : s.Fells t p) (k : t.Fells u p) : s.Fells u p :=
  ⟨fun q hq => (k.others q hq).trans (h.others q hq), h.falls.trans k.falls, k.pair.trans h.pair, k.severity.trans h.severity⟩

theorem State.Fells.of_fab {s t : State} (p : Nat) (hf : t.fab = s.fab) (hp : t.pair = s.pair) (hs : t.flt.severity = s.flt.severity) : s.Fells t p :=
  ⟨fun q _ => State.port_of_fab hf q, .of_fab hf, hp, hs⟩

theorem State.Fells.announced {s t : State} {p : Nat} (h : s.Fells t p) {flt : Faults} (hs : flt.severity = t.flt.severity) {cls causes src : Nat} :
    s.Fells (State.announce { t with flt := flt } cls causes src) p := by
  have honly := State.announce_eventOnly { t with flt := flt } cls causes src
  refine h.trans (.of_fab p honly.fab honly.pair ?_)
  rw [State.announce_flt]
  exact hs

theorem State.portDown_unbound {s : State} (h : s.pair.state = .unbound) (p : Nat) :
    s.portDown p = s.modPort p (fun x => { x with up := false, training := false, replay := [], waiting := [], assembling := [] }) :=
  State.pairPorts_unbound h

theorem State.portDown_fells {s : State} (h : s.pair.state = .unbound) (p : Nat) : s.Fells (s.portDown p) p := by
  have hfalls := s.portDown_portsFall p
  rw [State.portDown_unbound h] at hfalls ⊢
  exact ⟨s.modPort_portsStand p _, hfalls, rfl, rfl⟩

/-- What the table of R409 says of the source of a port that is down. -/
def portDownInfo (p die : Nat) : SrcInfo := { cls := 1, floor := 0, fence := .always, unit := some (unitWord 5 0 p), die := die }

/-- The source of a port that is down fences the port. -/
theorem State.eventFence_port {s : State} (hu : s.pair.state = .unbound) {p : Nat} (hp : p < 24) (die cls : Nat) :
    ∃ t acts u, s.eventFence (event (0x5200 + 8 * p)) (portDownInfo p die) cls false = (t, acts, u) ∧ s.Fells t p := by
  have htype : unitType (unitWord 5 0 p) = 5 := by simp only [unitType, unitWord, bitsOf]; omega
  have hindex : unitIndex (unitWord 5 0 p) = p := by simp only [unitIndex, unitWord, bitsOf]; omega
  have hdomain : bitsOf (0x5200 + 8 * p) 12 4 = 5 := by simp only [bitsOf]; omega
  have h0 : 0x5200 + 8 * p ≠ 0xF010 ∧ 0x5200 + 8 * p ≠ 0xF011 := by omega
  let fenced : State := { s with flt := { s.flt with portsFenced := insertN p s.flt.portsFenced, portsLeaving := without p s.flt.portsLeaving } }
  have hfells : s.Fells (fenced.portDown p) p := (State.Fells.of_fab (s := s) (t := fenced) p rfl rfl rfl).trans (State.portDown_fells (s := fenced) hu p)
  refine ⟨fenced.portDown p, 1, unitWord 5 0 p, ?_, hfells⟩
  simp [State.eventFence, event, portDownInfo, h0, htype, hindex, hdomain, State.fenceUnit, fenced]

theorem State.latchEvent_port {s : State} (hu : s.pair.state = .unbound) {p : Nat} (hp : p < 24) (die : Nat) {cls : Nat} (hc : cls < 2 ∨ cls = 2) :
    s.Fells (s.latchEvent { ev := event (0x5200 + 8 * p) } (portDownInfo p die) cls) p := by
  obtain ⟨t, acts, u, he, hfells⟩ := State.eventFence_port hu hp die cls
  obtain ⟨flt, causes, acts', heq, -, hsev, -⟩ := State.latchEvent_scopeless (r := { ev := event (0x5200 + 8 * p) }) he rfl
    (hc.imp_right (⟨·, rfl⟩)) (by simp only [event]; omega)
  rw [heq]
  exact hfells.announced hsev

theorem State.raiseOne_port {s : State} {p : Nat} (hp : p < 24) (hu : s.pair.state = .unbound) (h : s.Mild (0x5200 + 8 * p)) :
    s.Fells (s.raiseOne { ev := event (0x5200 + 8 * p) }) p := by
  obtain ⟨die, -, hi⟩ := srcInfo_port hp
  by_cases hd : s.carries die = true
  · unfold State.raiseOne
    rw [show srcInfo ({ ev := event (0x5200 + 8 * p) } : Raise).ev.source = some (portDownInfo p die) from hi]
    extract_lets src cls flt counted
    have hcounted : s.Fells counted p := .of_fab p rfl rfl rfl
    clear_value counted
    dsimp only
    rw [if_neg (by simp [portDownInfo, hd]), if_neg (show (portDownInfo p die).kind ≠ some 0 by simp [portDownInfo])]
    have huc : counted.pair.state = .unbound := hcounted.pair ▸ hu
    split
    · obtain ⟨t, acts, u, he, hfells⟩ := State.eventFence_port huc hp die 0
      rw [he]
      exact hcounted.trans hfells
    · exact hcounted.trans (State.latchEvent_port huc hp die h.cls)
  · rw [State.raiseOne_absent hi (by simpa using hd)]
    exact .refl s p

/-- A round for a port that is down touches no other port. -/
theorem State.Mild.port_fells {s : State} {p : Nat} (hp : p < 24) (hu : s.pair.state = .unbound) (h : s.Mild (0x5200 + 8 * p)) :
    s.PortsStand (s.raise (0x5200 + 8 * p)) p ∧ s.PortsFall (s.raise (0x5200 + 8 * p)) := by
  have hone := State.raiseOne_port hp hu h
  have hrest := State.raiseShorts_only h hone.severity
  rw [State.raise, State.collect_one h.1]
  exact ⟨fun q hq => (State.port_of_fab hrest.fab q).trans (hone.others q hq), hone.falls.trans (.of_fab hrest.fab)⟩

/-! ## Frames (R341, R342) -/

theorem State.port_present {s : State} {p : Nat} (h : (s.port p).up = true ∨ (s.port p).training = true) : p < s.fab.ports.length := by
  by_contra hp
  rw [s.port_absent (Nat.le_of_not_lt hp)] at h
  rcases h with h | h <;> cases h

theorem State.portUsable_present {s : State} {p : Nat} (h : s.portUsable p = true) : p < s.fab.ports.length :=
  State.port_present (.inl (by simp only [State.portUsable, Bool.and_eq_true] at h; exact h.1))

/-- The frames of a port are read in native and in long-reach mode. -/
def PortMode.framed (m : PortMode) : Bool :=
  match m with
  | .native | .longReach => true
  | .ethernet | .off => false

theorem PortMode.framed_of {m : PortMode} (h : m = .native ∨ m = .longReach) : m.framed = true := by
  rcases h with rfl | rfl <;> rfl

/-- A frame that fails its check is lost. -/
theorem execFrameReceive_fails {s : State} {p : Nat} {f : Wire} (hu : s.portUsable p = true) (hm : (s.port p).mode = .native ∨ (s.port p).mode = .longReach)
    (hf : frameOk f = false) : execFrameReceive p f s = .next (s.modPort p Port.loseFrame) := by
  have hframed := PortMode.framed_of hm
  unfold execFrameReceive
  extract_lets x native
  have hn : native = true := hframed
  simp [hu, hn, hf]

theorem Port.loseFrame_native {x : Port} (h : x.mode = .native) :
    x.loseFrame = { x with
      framesLost := (x.framesLost + 1) % 2 ^ 32, nak := true, out := x.out ++ [frameBytes 1 0 x.txSeq (x.rxSeq + 4096) 0 []] } := by
  simp [Port.loseFrame, Port.controlOut, Port.isLong, Port.ackWord, h, b2n]

theorem Port.loseFrame_longReach {x : Port} (h : x.mode = .longReach) :
    x.loseFrame = { x with framesLost := (x.framesLost + 1) % 2 ^ 32, nak := false } := by
  simp [Port.loseFrame, Port.controlOut, Port.isLong, h]

theorem Port.controlOut_bare (x : Port) : x.controlOut.bare = x.bare := by
  unfold Port.controlOut
  split <;> rfl

theorem Port.resend_bare (x : Port) : x.resend.bare = x.bare := (Port.frameOut_foldl_bare _ _).trans rfl

theorem Port.takeLinkAck_bare (x : Port) (ack : Nat) (nak : Bool) : (x.takeLinkAck ack nak).bare = x.bare := by
  unfold Port.takeLinkAck
  extract_lets y z
  have hz : z.bare = x.bare := by
    unfold z
    split
    · exact y.resend_bare
    · rfl
  exact (Port.flush_bare _ _).trans hz

theorem State.Emits.ports_length {s t : State} (h : s.Emits t) : t.fab.ports.length = s.fab.ports.length := by
  have k := congrArg (fun f : Fabric => f.ports.length) h.fabric
  simpa [Fabric.bare] using k

theorem State.Emits.heard {s t : State} (h : s.Emits t) : t.fab.heard = s.fab.heard := by
  have k := congrArg Fabric.heard h.fabric
  exact k

/-- The next frame in sequence, the first of its packet but not its last. -/
theorem execFrameReceive_first {s : State} {p : Nat} {f : Wire} (hu : s.portUsable p = true) (hm : (s.port p).mode = .native ∨ (s.port p).mode = .longReach)
    (hf : frameOk f = true) (htype : bytesField f 0 1 = 0) (hseq : bitsOf (bytesField f 2 2) 0 12 = ((s.port p).rxSeq + 1) % 4096)
    (hflags : bitsOf (bytesField f 7 1) 0 2 = 1) (hrx : (s.port p).rxSeq < 4096) :
    ∃ t, s.Emits t ∧ execFrameReceive p f s = .next (t.modPort p (fun y => Port.controlOut { y with
      rxSeq := ((s.port p).rxSeq + 1) % 4096, nak := false, broken := false
      assembling := (f.drop 16).take (min 240 (bytesField f 6 1)) })) := by
  have hframed := PortMode.framed_of hm
  have hfirst : bitOf (bytesField f 7 1) 0 = true := by
    have h0 : Nat.testBit (bitsOf (bytesField f 7 1) 0 2) 0 = true := by rw [hflags]; rfl
    simpa [bitsOf, bitOf] using h0
  have hlast : bitOf (bytesField f 7 1) 1 = false := by
    have h0 : Nat.testBit (bitsOf (bytesField f 7 1) 0 2) 1 = false := by rw [hflags]; rfl
    rw [bitsOf, Nat.testBit_mod_two_pow] at h0
    simpa [bitOf] using h0
  have hnew : seqUpTo (((s.port p).rxSeq + 1) % 4096) (s.port p).rxSeq = false := by simp only [seqUpTo, decide_eq_false_iff_not]; omega
  unfold execFrameReceive
  extract_lets x native typ seq ackw s1 gap first last body broken asm s2
  have hn : native = true := hframed
  have h1 : s.Emits s1 := by
    refine State.Emits.trans ?_ (State.pump_emits _)
    split
    · exact .refl s
    · exact s.modPort_emits p (fun y => y.takeLinkAck_bare _ _)
  have hgap : gap = false := by simp [gap, seq, x, hseq]
  have hbroken : broken = false := by simp [broken, first, hfirst]
  refine ⟨s1, h1, ?_⟩
  rw [if_neg (by simp [hu, hn]), if_neg (by simp [hf]), if_neg (by simp [typ, htype]), if_neg (by simp [seq, x, hseq, hnew]),
    if_pos (.inl hseq), if_neg (by simp [last, hlast])]
  simp [s2, hgap, hbroken, last, hlast, asm, first, hfirst, body, seq, hseq]

/-! ## Packets (R347, R354) -/

/-- A packet for another module is dropped and counted, without an event while fewer than 1,000 came within a second. -/
theorem State.transport_misdirected {s : State} {p : Nat} {b : List Byte} (hlen : 32 ≤ b.length)
    (hdst : (headerOf b).dst ≠ s.fab.self ∨ (headerOf b).domain ≠ s.fab.domain) (hfew : (s.port p).misTimes.length < 999) :
    ∃ ts, s.transport p b = s.modPort p (fun x => { x with misdirected := (x.misdirected + 1) % 2 ^ 32, misTimes := ts }) := by
  have hcount : ((s.now :: (s.port p).misTimes).filter (fun t => decide (s.now ≤ t + 1000000000))).length < 1000 := by
    refine Nat.lt_of_le_of_lt (List.length_filter_le _ _) ?_
    rw [List.length_cons]
    omega
  refine ⟨(s.now :: (s.port p).misTimes).filter (fun t => decide (s.now ≤ t + 1000000000)), ?_⟩
  unfold State.transport
  extract_lets h
  rw [if_neg (by omega), if_pos hdst]
  unfold State.misdirect
  extract_lets ts full t
  have hfull : full = false := by
    simp only [full, decide_eq_false_iff_not]
    exact Nat.not_le_of_lt hcount
  rw [hfull, if_neg (by decide)]
  simp only [t, hfull, Bool.false_eq_true, if_false, ts]

theorem execPacketReceive_native {s t : State} {p : Nat} {b : Wire} (hu : s.portUsable p = true) (hm : (s.port p).mode = .native)
    (ht : s.transport p b = t) : execPacketReceive p b s = .next t.settle := by
  rw [execPacketReceive, if_pos hu, State.packetIn, hm, ← ht]

theorem State.sampleRtt_fab (s : State) (x : Sent) : ∃ r : List (Nat × Nat), s.sampleRtt x = { s with fab := { s.fab with rtts := r } } := by
  unfold State.sampleRtt
  split
  · exact ⟨_, rfl⟩
  · exact ⟨s.fab.rtts, rfl⟩

theorem State.reapStreams_none {s : State} (h : ∀ e ∈ s.fab.streams, e.2.gone = false) : s.reapStreams = s := by
  unfold State.reapStreams
  rw [List.filter_eq_nil_iff.mpr (fun e he => by simp [h e he])]
  rfl

/-- An acknowledgement changes the round trips and what is acknowledged, where no stream waits for its last one. -/
theorem State.takeAck_quiet {s : State} (h : ∀ e ∈ s.fab.streams, e.2.gone = false) (peer vc own ack : Nat) (sel : Option Nat) :
    ∃ r u, s.takeAck peer vc own ack sel = { s with fab := { s.fab with rtts := r, unacked := u } } := by
  have hfold (l : List Sent) : ∃ r : List (Nat × Nat), l.foldl State.sampleRtt s = { s with fab := { s.fab with rtts := r } } := by
    refine List.foldlRecOn (motive := fun t => ∃ r : List (Nat × Nat), t = { s with fab := { s.fab with rtts := r } }) l _ ⟨s.fab.rtts, rfl⟩ (fun t ht x _ => ?_)
    obtain ⟨r, rfl⟩ := ht
    obtain ⟨r', h'⟩ := State.sampleRtt_fab { s with fab := { s.fab with rtts := r } } x
    exact ⟨r', h'⟩
  obtain ⟨r, hr⟩ := hfold (s.fab.unacked.filter (fun x => x.ackedBy peer vc own ack sel))
  have hstreams (u : List Sent) : ∀ e ∈ ({ s with fab := { s.fab with rtts := r, unacked := u } } : State).fab.streams, e.2.gone = false := h
  refine ⟨r, s.fab.unacked.filter (fun x => !x.ackedBy peer vc own ack sel), ?_⟩
  unfold State.takeAck
  rw [hr]
  exact State.reapStreams_none (hstreams _)

theorem State.sendAck_emits (s : State) (peer vc own far allot seq : Nat) (sig : W32) (selective : Bool) :
    s.Emits (s.sendAck peer vc own far allot seq sig selective) := by
  unfold State.sendAck
  extract_lets n
  split
  · exact s.putPacket_emits _ _
  · exact .refl s

/-- A packet in order enters its stream and is acknowledged. -/
theorem State.streamPacket_next (s : State) (i : Nat) (x : Stream) {seq : Nat} (hseq : seq = seqNext x.rxSeq) (hrx : x.rxSeq < 2 ^ 32) (kind : Nat)
    (data : List Byte) :
    State.Emits (s.modStream i (fun y => Stream.drainEarly y.early.length (y.deliver kind data))) (s.streamPacket i x seq kind data) := by
  have hnew : seqLe seq x.rxSeq = false := by
    simp only [hseq, seqLe, seqNext, decide_eq_false_iff_not]
    omega
  unfold State.streamPacket
  extract_lets g ack t
  rw [if_neg (by simp [hnew]), if_pos hseq]
  exact (State.count_emits _ _ _ _ _ _ _).trans (State.sendAck_emits _ _ _ _ _ _ _ _ _)

theorem Stream.drainEarly_data {y : Stream} (h : y.early = []) (data : List Byte) :
    Stream.drainEarly y.early.length (y.deliver 0 data) = { y with rxSeq := seqNext y.rxSeq, inbox := y.inbox ++ data } := by
  simp [h, Stream.drainEarly, Stream.deliver]

/-- A data packet of a stream of the peer, with the group's digest, is taken in its order. -/
theorem State.streamChannel_kind {s : State} {h : Header} {x : Stream} (data : List Byte) (hk : h.kind = 0) (hx : look h.stream s.fab.streams = some x)
    (hpeer : x.peer = h.src) (hallot : x.allot = h.allot) (hsig : (s.group x.group).digest = h.sig) :
    s.streamChannel h data = (s.takeAck h.src 1 h.stream h.ack none).streamPacket h.stream x h.seq 0 data := by
  generalize hu : (s.takeAck h.src 1 h.stream h.ack none).streamPacket h.stream x h.seq 0 data = u
  unfold State.streamChannel
  have hdata : ¬ ((h.kind = 3 ∨ h.kind = 4) ∧ h.stream = 0x1FFFF ∧ 12 ≤ data.length) := fun k => by
    rcases k.1 with k | k <;> rw [hk] at k <;> cases k
  rw [if_neg hdata, hx]
  simp only
  rw [if_neg (by simp [hpeer, hallot, hsig]), hk]
  simp only
  exact hu

/-- Data in order on a stream of the peer enters it. -/
theorem State.streamChannel_data {s : State} {h : Header} {x : Stream} (data : List Byte) (hk : h.kind = 0) (hx : look h.stream s.fab.streams = some x)
    (hpeer : x.peer = h.src) (hallot : x.allot = h.allot) (hsig : (s.group x.group).digest = h.sig) (hseq : h.seq = seqNext x.rxSeq)
    (hrx : x.rxSeq < 2 ^ 32) (hgone : ∀ e ∈ s.fab.streams, e.2.gone = false) :
    ∃ r u, State.Emits (({ s with fab := { s.fab with rtts := r, unacked := u } } : State).modStream h.stream
        (fun y => Stream.drainEarly y.early.length (y.deliver 0 data))) (s.streamChannel h data) := by
  obtain ⟨r, u, hack⟩ := State.takeAck_quiet hgone h.src 1 h.stream h.ack none
  refine ⟨r, u, ?_⟩
  rw [State.streamChannel_kind data hk hx hpeer hallot hsig, hack]
  exact State.streamPacket_next _ h.stream x hseq hrx 0 data

/-- A sound packet of a stream on an unbound port goes to its channel, and what can go on goes on. -/
theorem State.transport_stream {s : State} {p : Nat} {b : List Byte} (hbound : (s.port p).bound = false) (hlen : 32 ≤ b.length)
    (hdst : (headerOf b).dst = s.fab.self) (hdomain : (headerOf b).domain = s.fab.domain) (hvc : (headerOf b).vc = 1)
    (hcheck : s.checkOk (headerOf b) b = true) :
    s.transport p b = (((s.hear (headerOf b).src).streamChannel (headerOf b) ((b.drop 32).take (headerOf b).len)).pump).fabricGo := by
  unfold State.transport
  extract_lets h data t
  have halive : s.aliveOk p h = true := by simp [State.aliveOk, h, hvc]
  rw [if_neg (by omega), if_neg (by simp [h, hdst, hdomain]), if_neg (by simp [h, hcheck, halive]), if_neg (by simp [hbound])]
  have ht : t = s.hear (headerOf b).src := congrArg (fun u : State => u.hear _) (if_pos (by rw [show h.vc = 1 from hvc]; decide))
  rw [show h.vc = 1 from hvc]
  simp only [ht]
  rfl

/-! ## What discards and the pair leave to the ports and routes (R307, R363, R376) -/

/-- Of the fabric, the ports but for their buffers, the routes and the peers that are down stand, and no collective goes to work. -/
structure State.Lulls (s t : State) : Prop where
  ports : t.fab.ports.map Port.bare = s.fab.ports.map Port.bare
  routes : t.fab.routes = s.fab.routes
  peersDown : t.fab.peersDown = s.fab.peersDown
  quiet : s.NoTraffic → t.NoTraffic

theorem State.Lulls.refl (s : State) : s.Lulls s := ⟨rfl, rfl, rfl, id⟩

theorem State.Lulls.trans {s t u : State} (h : s.Lulls t) (k : t.Lulls u) : s.Lulls u :=
  ⟨k.ports.trans h.ports, k.routes.trans h.routes, k.peersDown.trans h.peersDown, k.quiet ∘ h.quiet⟩

theorem State.Lulls.foldl {α : Type} {f : State → α → State} (h : ∀ (s : State) x, s.Lulls (f s x)) (l : List α) (s : State) :
    s.Lulls (l.foldl f s) :=
  List.foldlRecOn (motive := fun t => s.Lulls t) l f (.refl s) (fun t ht x _ => ht.trans (h t x))

theorem State.Lulls.of_same {s t : State} (hf : t.fab = s.fab) (hg : t.hg.cmds = s.hg.cmds) : s.Lulls t :=
  ⟨by rw [hf], by rw [hf], by rw [hf], fun h => h.of_cmds hg⟩

theorem State.Emits.lulls {s t : State} (h : s.Emits t) : s.Lulls t :=
  ⟨by have k := congrArg Fabric.ports h.fabric; exact k, h.routes, h.peersDown, fun k => k.of_cmds (by rw [h.hg])⟩

theorem State.Lulls.port {s t : State} (h : s.Lulls t) (p : Nat) : (t.port p).bare = (s.port p).bare := by
  have hport (u : State) : (u.port p).bare = (u.fab.ports.map Port.bare).getD p {} := by
    simp only [State.port, List.getD_eq_getElem?_getD, List.getElem?_map]
    cases u.fab.ports[p]? <;> rfl
  rw [hport, hport, h.ports]

/-- A fabric that differs elsewhere. -/
theorem State.Lulls.of_fab {s : State} {f : Fabric} (hp : f.ports = s.fab.ports) (hr : f.routes = s.fab.routes) (hd : f.peersDown = s.fab.peersDown) :
    s.Lulls { s with fab := f } := ⟨congrArg _ hp, hr, hd, id⟩

/-- What follows a change of the fabric that is elsewhere. -/
theorem State.Lulls.after {s t u : State} (k : t.Lulls u) (hp : t.fab.ports = s.fab.ports) (hr : t.fab.routes = s.fab.routes)
    (hd : t.fab.peersDown = s.fab.peersDown) (hg : t.hg.cmds = s.hg.cmds) : s.Lulls u :=
  State.Lulls.trans ⟨congrArg _ hp, hr, hd, fun h => h.of_cmds hg⟩ k

/-- A command that ends is not at work. -/
theorem State.finish_lulls (s : State) (id : Nat) (code : Code) (detail : W32) (result : W128) : s.Lulls (s.finish id code detail result) := by
  refine ⟨rfl, rfl, rfl, fun h d hd => ?_⟩
  obtain ⟨c, hc, rfl⟩ := List.mem_map.mp hd
  split
  · exact fun k => by cases k.2
  · exact h c hc

theorem State.sendOn_lulls (s : State) (peer stream allot far : Nat) (sig : W32) (ps : List (Nat × List Byte)) (served : Option Nat) :
    s.Lulls (s.sendOn peer stream allot far sig ps served) :=
  (State.Emits.lulls (State.enqueue_emits _ _)).after rfl rfl rfl rfl

theorem State.sendAborts_lulls (s : State) (gid index reason : Nat) : s.Lulls (s.sendAborts gid index reason) := by
  unfold State.sendAborts
  split
  · exact .refl s
  · exact .foldl (fun t m => t.sendOn_lulls _ _ _ _ _ _ _) _ s

theorem State.skipColl_lulls (s : State) (gid : Nat) (g : Group) (norm : Bool) (id : Nat) : s.Lulls (s.skipColl gid g norm id) :=
  (State.sendAborts_lulls _ _ _ _).after rfl rfl rfl rfl

theorem State.dropColl_lulls (s : State) (id : Nat) : s.Lulls (s.dropColl id) := by
  unfold State.dropColl
  split
  · exact (State.sendAborts_lulls _ _ _ _).after rfl rfl rfl rfl
  · split
    · exact .refl s
    · split
      · exact .refl s
      · split
        · exact .refl s
        · split
          · exact .refl s
          · split
            · exact s.skipColl_lulls _ _ _ _
            · exact s.skipColl_lulls _ _ _ _
            · split
              · exact s.sendAborts_lulls _ _ _
              · exact .refl s
            · exact .refl s
            · exact .refl s

theorem State.discard_lulls (s : State) (id : Nat) (code : Code) (source cause : Nat) : s.Lulls (s.discard id code source cause) := by
  have hwork : s.Lulls (s.dropWork id) := (s.dropColl_lulls id).trans (.of_same rfl rfl)
  unfold State.discard
  split
  · split
    · exact .refl s
    · exact hwork.trans ((State.finish_lulls _ _ _ _ _).after rfl rfl rfl rfl)
  · exact .refl s

theorem State.quenchFail_lulls (s : State) : s.Lulls s.quenchFail :=
  State.Lulls.trans (.foldl (fun t c => t.discard_lulls c .discarded 0 5) s.pair.quenchCmds s) (.of_same rfl rfl)

theorem State.pairPorts_lulls (s : State) : s.Lulls s.pairPorts := by
  have hsuspend (t : State) (q : Pair) : t.Lulls (({ t with pair := q } : State).setCondAll .suspended 1) := by
    obtain ⟨cs, h⟩ := ({ t with pair := q } : State).setCondAll_eq .suspended 1
    rw [h]
    exact .of_same rfl rfl
  unfold State.pairPorts
  split
  · split
    · exact .refl s
    · exact hsuspend s _
  · split
    · exact .refl s
    · exact hsuspend s _
  · split
    · exact .of_same rfl rfl
    · exact .refl s
  · split
    · exact .refl s
    · refine s.quenchFail_lulls.trans ?_
      dsimp only
      split
      · exact hsuspend _ _
      · exact hsuspend _ _
      all_goals exact .refl _
  all_goals exact .refl s

/-! ## Peers that are lost (R349, R367) -/

theorem State.loseNorms_lulls (s : State) (peer src : Nat) : s.Lulls (s.loseNorms peer src) := by
  refine .foldl (fun t (c : Cmd) => ?_) (s.normsWith peer) s
  split
  · exact (State.finish_lulls _ _ _ _ _).after rfl rfl rfl rfl
  · exact .refl t

theorem State.fabricGo_lulls {s t : State} (h : s.Lulls t) (hq : s.NoTraffic) : s.Lulls t.fabricGo := by
  rw [State.fabricGo_quiet (h.quiet hq)]
  exact h

/-- The loss of a member ends what waits for it, and no port, route or peer follows. -/
theorem State.loseMember_lulls {s : State} (h : s.NoTraffic) (peer src : Nat) : s.Lulls (s.loseMember peer src) := by
  have hd : s.Drops (s.dropComing (fun x => x.peer == peer)) := State.dropHeld_foldl_drops _ s
  have hports := congrArg (fun u : State => u.fab.ports) hd.frame
  have hdrops : s.Lulls (s.dropComing (fun x => x.peer == peer)) :=
    ⟨congrArg _ hports, hd.routes, hd.peersDown, fun k => k.of_cmds (by rw [hd.hg])⟩
  have hnorms := hdrops.trans (State.loseNorms_lulls _ peer src)
  exact State.fabricGo_lulls (hnorms.trans (.of_fab rfl rfl rfl)) h

/-- A peer that is lost is down, and its routes stay. -/
theorem State.peerLost_down {s : State} {peer : Nat} (h : s.NoTraffic) (hm : s.Mild 0x5300) (hp : peer ∉ s.fab.peersDown) :
    peer ∈ (s.peerLost peer).fab.peersDown ∧ (s.peerLost peer).fab.routes = s.fab.routes := by
  unfold State.peerLost
  rw [if_neg (by simpa using hp)]
  extract_lets f t
  have honly : t.EventOnly (t.collect [{ source := 0x5300, peer := peer }]) := State.Mild.peer_only (State.Mild.of_flt (t := t) hm rfl) peer
  have hquiet : (t.collect [{ source := 0x5300, peer := peer }]).NoTraffic := h.of_cmds (by rw [honly.hg])
  rw [State.failStreams_quiet hquiet]
  have hlulls := State.loseMember_lulls hquiet peer 0x5300
  rw [hlulls.peersDown, hlulls.routes, honly.fab]
  exact ⟨mem_insertN.mpr (.inl rfl), rfl⟩

/-! ## Ports that train (R340, R342) -/

theorem State.spareLanes_lulls (s : State) (p : Nat) : s.Lulls (s.spareLanes p) ∧ (s.spareLanes p).flt = s.flt := by
  have hspare (t : State) (l : Nat) : t.Lulls (t.spareOne p l) ∧ (t.spareOne p l).flt = t.flt := by
    unfold State.spareOne
    split
    · exact ⟨.refl t, rfl⟩
    · split
      · exact ⟨.of_fab rfl rfl rfl, rfl⟩
      · exact ⟨.refl t, rfl⟩
  have hfree : s.Lulls s.freeSpares ∧ s.freeSpares.flt = s.flt := ⟨.of_fab rfl rfl rfl, rfl⟩
  exact List.foldlRecOn (motive := fun t : State => s.Lulls t ∧ t.flt = s.flt) (lanesOf p) _ hfree
    (fun t ht l _ => ⟨ht.1.trans (hspare t l).1, (hspare t l).2.trans ht.2⟩)

/-- The lanes that failed, in another order: the same lanes are out, and the same spares serve. -/
theorem State.lanesUp_spareLanes_sorted (s : State) (p : Nat) :
    (State.spareLanes { s with fab := { s.fab with lanesFailed := sortN s.fab.lanesFailed } } p).lanesUp p = (s.spareLanes p).lanesUp p := by
  let sorted (t : State) : State := { t with fab := { t.fab with lanesFailed := sortN t.fab.lanesFailed } }
  have hout (t : State) (l : Nat) : (sorted t).laneOut l = t.laneOut l := by
    have hmem : (sortN t.fab.lanesFailed).contains l = t.fab.lanesFailed.contains l := by
      rw [Bool.eq_iff_iff]
      simp [mem_sortN]
    unfold State.laneOut
    rw [← hmem]
  have hserved (t : State) (l : Nat) : (sorted t).laneServed l = t.laneServed l := by
    unfold State.laneServed
    simp only [hout]
    rfl
  have hone (t : State) (l : Nat) : (sorted t).spareOne p l = sorted (t.spareOne p l) := by
    unfold State.spareOne
    simp only [hserved, hout]
    split
    · rfl
    · rw [show (sorted t).fab.spareUse = t.fab.spareUse from rfl]
      split <;> rfl
  have hfree : (sorted s).freeSpares = sorted s.freeSpares := by
    unfold State.freeSpares
    simp only [hout]
    rfl
  have hall (l : List Nat) (t : State) : l.foldl (fun u l => u.spareOne p l) (sorted t) = sorted (l.foldl (fun u l => u.spareOne p l) t) := by
    induction l generalizing t with
    | nil => rfl
    | cons x l ih => rw [List.foldl_cons, hone, ih, List.foldl_cons]
  have hspared : (sorted s).spareLanes p = sorted (s.spareLanes p) := by
    unfold State.spareLanes
    rw [hfree, hall]
  rw [show ({ s with fab := { s.fab with lanesFailed := sortN s.fab.lanesFailed } } : State) = sorted s from rfl, hspared]
  unfold State.lanesUp
  congr 2
  funext l
  exact hserved _ l

/-- A port that comes up: what discards and packets leave as it is, is what training sets. -/
theorem State.portUp_port {s : State} {p : Nat} (hp : p < s.fab.ports.length) (hq : s.NoTraffic) :
    (s.portUp p).NoTraffic ∧ ((s.portUp p).port p).up = true ∧ ((s.portUp p).port p).training = false ∧ ((s.portUp p).port p).rxSeq = 0 ∧
      ((s.portUp p).port p).tagRun = 0 ∧ ((s.portUp p).port p).aliveRx = [0, 0] := by
  let trained (x : Port) : Port := { x with
    up := true, training := false, replay := [], waiting := [], txSeq := 0, rxSeq := 0, nak := false, assembling := [], broken := false, tagRun := 0
    aliveTx := [0, 0], aliveRx := [0, 0] }
  have hlulls : (s.modPort p trained).Lulls (s.portUp p) := (State.pairPorts_lulls _).trans (State.pump_emits _).lulls
  have hport := hlulls.port p
  rw [State.modPort_port_same s trained hp] at hport
  have hup := congrArg Port.up hport
  have htraining := congrArg Port.training hport
  have hrx := congrArg Port.rxSeq hport
  have htag := congrArg Port.tagRun hport
  have halive := congrArg Port.aliveRx hport
  exact ⟨hlulls.quiet hq, hup, htraining, hrx, htag, halive⟩

/-- A port that trained with three lanes or four is up. -/
theorem execPortTrained_up {s : State} {p : Nat} (ht : (s.port p).training = true) (hf : s.flt.portsFenced.contains p = false) (hq : s.NoTraffic)
    (h3 : 3 ≤ (s.spareLanes p).lanesUp p) :
    ∃ t, execPortTrained p [] s = .next t ∧ (t.port p).up = true ∧ (t.port p).training = false ∧ (t.port p).rxSeq = 0 ∧ (t.port p).tagRun = 0 ∧
      (t.port p).aliveRx = [0, 0] := by
  let sorted : State := { s with fab := { s.fab with lanesFailed := sortN s.fab.lanesFailed } }
  have hlulls : s.Lulls (sorted.spareLanes p) := (sorted.spareLanes_lulls p).1.after rfl rfl rfl rfl
  have hp : p < (sorted.spareLanes p).fab.ports.length := by
    have hlen := congrArg List.length hlulls.ports
    rw [List.length_map, List.length_map] at hlen
    rw [hlen]
    exact State.port_present (.inr ht)
  obtain ⟨hquiet, hport⟩ := State.portUp_port hp (hlulls.quiet hq)
  refine ⟨((sorted.spareLanes p).portUp p).settle, ?_, ?_⟩
  · have hbad (t : State) (q : Nat → Bool) : (sortN []).filter q = [] := rfl
    unfold execPortTrained
    extract_lets x bad f s1 s2
    have hs1 : s1 = sorted := by
      unfold s1 bad
      rw [hbad s, List.append_nil]
    have hs2 : s2 = sorted.spareLanes p := by
      unfold s2 bad
      rw [hbad s, List.foldl_nil, hs1]
    rw [if_neg (by rw [show x.training = true from ht, hf]; decide), hs2, if_pos (by rw [State.lanesUp_spareLanes_sorted]; exact h3), State.fabricGo_quiet hquiet]
  · rwa [State.port_of_fab (State.settle_fab _)]

/-- A frame that was sent 16 times retrains its port. -/
theorem execReplayLimit_retrains {s : State} {p : Nat} (hu : (s.port p).up = true) (h16 : ∃ f ∈ (s.port p).replay, 16 ≤ f.sends) (hp : p < 24)
    (hm : s.Mild (0x5202 + 8 * p)) :
    ∃ t, execReplayLimit p s = .next t ∧ (t.port p).up = false ∧ (t.port p).training = true ∧ (t.port p).trainAt = s.now ∧ (t.port p).replay = [] ∧
      s.PortsStand t p := by
  have honly := State.Mild.retrain_only (s := s.retrain p) hp (State.Mild.of_flt hm rfl)
  have hfab : ((s.retrain p).raise (0x5202 + 8 * p)).settle.fab = (s.retrain p).fab := (State.settle_fab _).trans honly.fab
  have hany : (s.port p).replay.any (fun f => decide (16 ≤ f.sends)) = true := by simpa using h16
  refine ⟨((s.retrain p).raise (0x5202 + 8 * p)).settle, ?_, ?_⟩
  · rw [execReplayLimit, hu, hany, if_pos (by rfl), show 0x5000 + 0x200 + 8 * p + 2 = 0x5202 + 8 * p by omega]
  · have hport := State.modPort_port_same s (fun x => { x with
      up := false, training := true, trainAt := s.now, replay := [], waiting := [], assembling := [] }) (State.port_present (.inl hu))
    rw [State.port_of_fab hfab, show (s.retrain p).port p = _ from hport]
    exact ⟨rfl, rfl, rfl, rfl, fun q hq => (State.port_of_fab hfab q).trans (s.modPort_portsStand p _ q hq)⟩

/-- A port that has not returned within 100 ms is down. -/
theorem execPortRetrainTimeout_down {s : State} {p : Nat} (ht : (s.port p).training = true) (hp : p < 24) (hu : s.pair.state = .unbound)
    (hm : s.Mild (0x5200 + 8 * p)) :
    ∃ t, execPortRetrainTimeout p s = .next t ∧ (t.port p).up = false ∧ (t.port p).training = false ∧ s.PortsStand t p := by
  have hpassed : (s.passTo ((s.port p).trainAt + 100000000)).pair.state = .unbound := by
    obtain ⟨ts, h⟩ := s.passTo_clock ((s.port p).trainAt + 100000000)
    rw [h]
    exact hu
  have hfells := State.portDown_fells hpassed p
  have hdown := (s.passTo ((s.port p).trainAt + 100000000)).portDown_down p
  have hflt : ((s.passTo ((s.port p).trainAt + 100000000)).portDown p).flt = s.flt := by
    rw [State.portDown_unbound hpassed, State.modPort_flt, State.passTo_flt]
  obtain ⟨hstand, hfalls⟩ := State.Mild.port_fells hp (hfells.pair ▸ hpassed) (hm.of_flt hflt)
  obtain ⟨hup, htraining⟩ := hfalls.down hdown
  refine ⟨_, (by rw [execPortRetrainTimeout]; exact if_pos ht), ?_⟩
  refine ⟨?_, ?_, fun q hq => ?_⟩
  · rw [State.port_of_fab (State.settle_fab _)]
    exact hup
  · rw [State.port_of_fab (State.settle_fab _)]
    exact htraining
  · rw [State.port_of_fab (State.settle_fab _)]
    exact (hstand q hq).trans ((hfells.others q hq).trans (State.port_of_fab (State.passTo_fab _ _) q))

/-! ## Packets that were sent before (R349, R354) -/

theorem State.putPacket_wire (s : State) (p : Nat) (x : Packet) : ∃ k, (s.putPacket p x).fab.wire = s.fab.wire ++ [k] ∧ k.dst = x.dst ∧ k.seq = x.seq ∧
    k.data = x.data ∧ k.kind = x.kind ∧ k.port = p := by
  unfold State.putPacket
  extract_lets t x1 x2 u
  exact ⟨x2, rfl, rfl, rfl, rfl, rfl, rfl⟩

/-- A packet that is sent again goes out on the path that it has now. -/
theorem State.sendNow_again {s : State} {x : Sent} {q n : Nat} (hq : s.portFor x.peer x.vc x.own x.seq = some q) (hn : s.farNumber x = some n)
    (hroom : s.room q x.vc x.data.length = true) :
    ∃ k, (s.sendNow x true).fab.wire = s.fab.wire ++ [k] ∧ k.dst = x.peer ∧ k.seq = x.seq ∧ k.data = x.data ∧ k.kind = x.kind ∧ k.port = q := by
  unfold State.sendNow
  rw [hq, hn]
  simp only [hroom, Bool.not_true, Bool.false_eq_true, if_false, if_true]
  rw [State.count_fab]
  exact State.putPacket_wire s q _

/-- RETRANSMIT_TIMEOUT of a packet that is outstanding, to a peer that is not down. -/
theorem execRetransmitTimeout_of {s : State} {vc peer own seq : Nat} {x : Sent}
    (hx : s.fab.unacked.find? (fun y => y.vc == vc && y.peer == peer && y.own == own && y.seq == seq) = some x) (hp : peer ∉ s.fab.peersDown)
    (hs : 0 < x.sends) : execRetransmitTimeout vc peer own seq s =
      if s.fab.retryLimit < x.sends then .next ((s.passTo (x.since + s.rto x)).peerLost peer).settle
      else .next ((s.passTo (x.since + s.rto x)).sendNow x true) := by
  unfold execRetransmitTimeout
  rw [hx]
  exact if_neg (by simp [Nat.ne_of_gt hs, hp])

theorem execRetransmitTimeout_again {s : State} {vc peer own seq q n : Nat} {x : Sent}
    (hx : s.fab.unacked.find? (fun y => y.vc == vc && y.peer == peer && y.own == own && y.seq == seq) = some x) (hp : peer ∉ s.fab.peersDown)
    (hs : 0 < x.sends) (hretry : x.sends ≤ s.fab.retryLimit) (hq : s.portFor peer vc own seq = some q) (hroom : s.room q vc x.data.length = true)
    (hn : s.farNumber x = some n) :
    ∃ t k, execRetransmitTimeout vc peer own seq s = .next t ∧ t.fab.wire = s.fab.wire ++ [k] ∧ k.dst = peer ∧ k.seq = seq ∧ k.data = x.data ∧
      k.kind = x.kind ∧ k.port = q ∧ t.fab.streams = s.fab.streams := by
  have hkey := List.find?_some hx
  simp only [Bool.and_eq_true, beq_iff_eq] at hkey
  obtain ⟨⟨⟨rfl, rfl⟩, rfl⟩, rfl⟩ := hkey
  rw [execRetransmitTimeout_of hx hp hs, if_neg (by omega)]
  obtain ⟨ts, hpass⟩ := s.passTo_clock (x.since + s.rto x)
  rw [hpass]
  obtain ⟨k, hwire, hk⟩ := State.sendNow_again (s := { s with clk := { s.clk with ts := ts } }) hq hn hroom
  obtain ⟨hdst, hseq, hdata, hkind, hport⟩ := hk
  exact ⟨_, k, rfl, hwire, hdst, hseq, hdata, hkind, hport, (State.sendNow_emits _ x true).streams⟩

theorem State.passTo_peerLost {s : State} {peer : Nat} (h : s.NoTraffic) (hm : s.Mild 0x5300) (hp : peer ∉ s.fab.peersDown) (n : Nat) :
    peer ∈ ((s.passTo n).peerLost peer).settle.fab.peersDown ∧ ((s.passTo n).peerLost peer).settle.fab.routes = s.fab.routes := by
  have hlost := State.peerLost_down (s := s.passTo n) (h.of_cmds (by rw [State.passTo_hg])) (hm.of_flt (State.passTo_flt _ _))
    (by rwa [State.passTo_fab])
  rw [State.passTo_fab] at hlost
  rwa [State.settle_fab]

/-- PEER_TIMEOUT of a peer with packets outstanding takes it down. -/
theorem execPeerTimeout_down {s : State} {peer : Nat} (hx : ∃ x ∈ s.fab.unacked, x.peer = peer) (hp : peer ∉ s.fab.peersDown) (h : s.NoTraffic)
    (hm : s.Mild 0x5300) : ∃ t, execPeerTimeout peer s = .next t ∧ peer ∈ t.fab.peersDown ∧ t.fab.routes = s.fab.routes := by
  unfold execPeerTimeout
  split
  · rename_i hnone
    obtain ⟨x, hmem, hpeer⟩ := hx
    exact absurd (List.filter_eq_nil_iff.mp hnone x hmem) (by simp [hpeer])
  · rw [if_neg (by simpa using hp)]
    exact ⟨_, rfl, State.passTo_peerLost h hm hp _⟩

/-! ## The obligation -/

/-- Settles O39: frames, packets and training by what their handlers do to the port, the rounds of their sources by what a mild event leaves. -/
theorem linkEvents : Obligations.LinkEvents := by
  refine ⟨?_, ?_, ?_, ?_, ?_, ?_, fun s p hu h16 hp hm => execReplayLimit_retrains hu h16 hp hm,
    fun s p ht hp hu hm => execPortRetrainTimeout_down ht hp hu hm, fun s p ht hp hf hq h3 => execPortTrained_up ht hf hq h3, ?_, ?_,
    fun s peer hx hp h hm => execPeerTimeout_down hx hp h hm⟩
  · intro s p f hu hm hf
    refine ⟨_, execFrameReceive_fails hu (.inl hm) hf, s.modPort_portsStand p _, rfl, ?_⟩
    rw [State.modPort_port_same _ _ (State.portUsable_present hu), Port.loseFrame_native hm]
  · intro s p f hu hm hf
    refine ⟨_, execFrameReceive_fails hu (.inr hm) hf, s.modPort_portsStand p _, rfl, ?_⟩
    rw [State.modPort_port_same _ _ (State.portUsable_present hu), Port.loseFrame_longReach hm]
  · intro s p f hu hm hf htype hseq hflags hrx
    obtain ⟨t, hemits, he⟩ := execFrameReceive_first hu hm hf htype hseq hflags hrx
    have hport := State.modPort_port_same t (fun y => Port.controlOut { y with
      rxSeq := ((s.port p).rxSeq + 1) % 4096, nak := false, broken := false
      assembling := (f.drop 16).take (min 240 (bytesField f 6 1)) }) (hemits.ports_length ▸ State.portUsable_present hu)
    have hbare := congrArg Port.bare hport
    rw [Port.controlOut_bare] at hbare
    have hrx' := congrArg Port.rxSeq hbare
    have hnak := congrArg Port.nak hbare
    have hasm := congrArg Port.assembling hbare
    exact ⟨_, he, hrx', hnak, hasm, hemits.streams, hemits.objs⟩
  · intro s p f hu
    exact ⟨by simp [exec, execFrameReceive, hu], by simp [exec, execPacketReceive, hu]⟩
  · intro s p b hu hm hlen hdst hfew
    obtain ⟨ts, ht⟩ := State.transport_misdirected hlen hdst hfew
    refine ⟨_, execPacketReceive_native hu hm ht, ?_, fun q hq => ?_, ?_⟩
    · rw [State.port_of_fab (State.settle_fab _), State.modPort_port_same _ _ (State.portUsable_present hu)]
    · rw [State.port_of_fab (State.settle_fab _)]
      exact s.modPort_portsStand p _ q hq
    · rw [State.settle_fab]
      exact ⟨rfl, rfl, rfl, rfl⟩
  · intro s p b hu hm hbound hlen h hh x hdst hdomain hvc hk hcheck hx hpeer hallot hsig hseq hrx hearly hgone hq
    subst hh
    obtain ⟨r, u, hemits⟩ := State.streamChannel_data (s := s.hear (headerOf b).src) ((b.drop 32).take (headerOf b).len) hk hx hpeer hallot hsig hseq hrx
      hgone
    have hpump := hemits.trans (State.pump_emits _)
    refine ⟨_, { x with rxSeq := seqNext x.rxSeq, inbox := x.inbox ++ (b.drop 32).take (headerOf b).len },
      execPacketReceive_native hu hm (State.transport_stream hbound hlen hdst hdomain hvc hcheck), ?_, rfl, rfl, ?_, ?_⟩
    all_goals rw [State.settle_fab, State.fabricGo_quiet (hq.of_cmds (by rw [hpump.hg]; rfl))]
    · rw [hpump.streams, State.modStream_look, if_pos rfl]
      have hdrain := Stream.drainEarly_data hearly ((b.drop 32).take (headerOf b).len)
      exact (congrArg _ hx).trans (congrArg some hdrain)
    · rw [hpump.heard]
      exact look_put_same _ _ _
    · rw [hpump.peersDown]
      exact fun k => by simpa using (List.mem_filter.mp k).2
  · intro s vc peer own seq x q hx hp hs hretry hq hroom hn
    obtain ⟨n, hn⟩ := hn
    exact execRetransmitTimeout_again hx hp hs hretry hq hroom hn
  · intro s vc peer own seq x hx hp hs hretry hq hm
    exact ⟨_, (execRetransmitTimeout_of hx hp hs).trans (if_pos hretry), (State.passTo_peerLost hq hm hp _).1⟩

end Sys2Proof.Machine
end

section
/-! A collective that begins while the engine's table already holds one of its command (R356, R367). -/

namespace Sys2Proof.Machine

/-- An all-reduce of no elements, of group 10, as command 4 of allotment 0; DST is object 1. -/
def emptyReduce : Cmd :=
  { id := 4, opcode := 0x0610, plen := 112, params := 10 * 2 ^ 16 + 1 * 2 ^ 128 + 0xFFFFFFFF * 2 ^ 256, phase := .started }

/-- Group 10 is the module, peer 0, and peer 7. The table of collectives holds one of command 4 already, which waits for peer 7, and peer 7 is
lost for it. -/
def staleCollective : State := { State.reset with
  allots := State.reset.allots.set 0 { live := true, objs := [(1, { t := { raw := false, fmt := 4 }, size := 0, charged := 0, tier := 2 })] }
  hg := { State.reset.hg with cmds := [emptyReduce] }
  fab := { State.reset.fab with
    groups := [(10, { allot := 0, members := [(0, 0), (7, 0)] })]
    colls := [{ cmd := 4, allot := 0, group := 10, index := 1, op := 0, started := 0, sig := 0, lost := [(7, 0x5300)] }] } }

/-- The collective that begins and the one that stood there end together: no collective of the command is left. -/
theorem exec_collBegin_stale : (match exec (.collBegin 4) staleCollective with
    | .next t => t.fab.colls = []
    | _ => False) := by
  rfl

/-- Refutes O38: its first clause says nothing of a table of collectives that already holds one of the command's own identity. In
staleCollective such a one waits for peer 7, which is lost for it; it ends the command (R367) and takes the new collective along. -/
theorem not_collectives : ¬ Obligations.Collectives := by
  rintro ⟨hbegin, -⟩
  obtain ⟨t, x, -, ht, -, hcolls, -⟩ := hbegin staleCollective 4 emptyReduce { allot := 0, members := [(0, 0), (7, 0)] } (by decide) (by decide)
    (by decide) (by decide) (by decide) (by decide) (by decide) (by decide) (by decide) (by decide)
  have hnone := exec_collBegin_stale
  rw [ht] at hnone
  exact List.append_ne_nil_of_right_ne_nil _ (List.cons_ne_nil _ _) (hcolls.symm.trans hnone)

end Sys2Proof.Machine
end

section
/-! What events leave: the host, the log of the input, and the device but for its halt; commands that are done stay done, and a module that is
empty stays empty (R413 to R420, R431). -/

namespace Sys2Proof.Machine

/-! ## A module that is empty -/

/-- No queue, no object, no token and no program. -/
structure Allot.Blank (x : Allot) : Prop where
  queues : x.queues = []
  objs : x.objs = []
  tokens : x.tokens = []
  progs : x.progs = []

/-- No command, nothing in an allotment, no pair, and no peer that the fabric knows. -/
structure State.Blank (s : State) : Prop where
  cmds : s.hg.cmds = []
  arb : s.hg.arb = []
  als : ∀ a, (s.al a).Blank
  pair : s.pair.state = .unbound
  groups : s.fab.groups = []
  streams : s.fab.streams = []
  routes : s.fab.routes = []

theorem Allot.blank_default : ({} : Allot).Blank := ⟨rfl, rfl, rfl, rfl⟩

/-- Allotments that are changed one by one, each of which stays empty, are empty. -/
theorem State.al_mapIdx (s : State) (f : Nat → Allot → Allot) (a : Nat) :
    ({ s with allots := s.allots.mapIdx f } : State).al a = if a < s.allots.length then f a (s.al a) else {} := by
  simp only [State.al, List.getD_eq_getElem?_getD, List.getElem?_mapIdx]
  split
  · rename_i h
    simp [h]
  · rename_i h
    simp [List.getElem?_eq_none (Nat.le_of_not_lt h)]

theorem State.al_map (s : State) (f : Allot → Allot) (a : Nat) :
    ({ s with allots := s.allots.map f } : State).al a = if a < s.allots.length then f (s.al a) else {} := by
  simp only [State.al, List.getD_eq_getElem?_getD, List.getElem?_map]
  split
  · rename_i h
    simp [h]
  · rename_i h
    simp [List.getElem?_eq_none (Nat.le_of_not_lt h)]

theorem State.Blank.map {s : State} (h : s.Blank) {f : Allot → Allot} (hf : ∀ x : Allot, x.Blank → (f x).Blank) (a : Nat) :
    (({ s with allots := s.allots.map f } : State).al a).Blank := by
  rw [State.al_map]
  split
  · exact hf _ (h.als a)
  · exact Allot.blank_default

theorem State.Blank.mapIdx {s : State} (h : s.Blank) {f : Nat → Allot → Allot} (hf : ∀ i, ∀ x : Allot, x.Blank → (f i x).Blank) (a : Nat) :
    (({ s with allots := s.allots.mapIdx f } : State).al a).Blank := by
  rw [State.al_mapIdx]
  split
  · exact hf _ _ (h.als a)
  · exact Allot.blank_default

theorem State.Blank.modAl {s : State} (h : s.Blank) (b : Nat) {f : Allot → Allot} (hf : ∀ x : Allot, x.Blank → (f x).Blank) : (s.modAl b f).Blank := by
  refine ⟨h.cmds, h.arb, fun a => ?_, h.pair, h.groups, h.streams, h.routes⟩
  rw [State.modAl_al]
  split
  · exact hf _ (h.als _)
  · exact h.als a

/-! ## The relation -/

/-- The host, the open events of the input and the device but for its halt stand; every command was there, and one that was done is; what was
empty is. -/
structure State.Fallout (s t : State) : Prop where
  host : t.host = s.host
  brown : t.mgt.brownOpen = s.mgt.brownOpen
  dev : { t.dev with bootState := s.dev.bootState } = s.dev
  halts : s.dev.bootState = 2 → t.dev.bootState = 2
  cmds : ∀ d ∈ t.hg.cmds, ∃ c ∈ s.hg.cmds, c.id = d.id ∧ c.master = d.master ∧ (c.phase = .done → d.phase = .done)
  blank : s.Blank → t.Blank

/-- The same, and no event is counted. -/
structure State.FallsTo (s t : State) : Prop extends s.Fallout t where
  counts : t.flt.counts = s.flt.counts

theorem State.Fallout.trans {s t u : State} (h : s.Fallout t) (k : t.Fallout u) : s.Fallout u := by
  refine ⟨k.host.trans h.host, k.brown.trans h.brown, ?_, k.halts ∘ h.halts, fun d hd => ?_, k.blank ∘ h.blank⟩
  · rw [← h.dev, ← k.dev]
  · obtain ⟨c, hc, hid, hmaster, hdone⟩ := k.cmds d hd
    obtain ⟨b, hb, hid', hmaster', hdone'⟩ := h.cmds c hc
    exact ⟨b, hb, hid'.trans hid, hmaster'.trans hmaster, hdone ∘ hdone'⟩

theorem State.FallsTo.trans {s t u : State} (h : s.FallsTo t) (k : t.FallsTo u) : s.FallsTo u :=
  ⟨h.toFallout.trans k.toFallout, k.counts.trans h.counts⟩

/-- What follows a step that is plain. -/
theorem State.FallsTo.after {s t u : State} (k : t.FallsTo u) (h : s.FallsTo t) : s.FallsTo u := h.trans k

/-- The commands, the device, the host, the open events of the input and the counts. -/
def State.fallPart (s : State) : List Cmd × Dev × HostMem × List (Nat × Nat) × List (Nat × Nat) :=
  (s.hg.cmds, s.dev, s.host, s.mgt.brownOpen, s.flt.counts)

theorem State.fallPart_iff {s t : State} : t.fallPart = s.fallPart ↔ t.hg.cmds = s.hg.cmds ∧ t.dev = s.dev ∧ t.host = s.host ∧
    t.mgt.brownOpen = s.mgt.brownOpen ∧ t.flt.counts = s.flt.counts := by
  simp [State.fallPart]

/-- Where the commands, the device, the host, the log of the input and the counts stand, an empty module has to stay empty. -/
theorem State.FallsTo.of_same {s t : State} (h : t.fallPart = s.fallPart) (hb : s.Blank → t.Blank) : s.FallsTo t := by
  obtain ⟨hg, hd, hh, hm, hc⟩ := State.fallPart_iff.mp h
  refine ⟨⟨hh, hm, by rw [hd], fun h => by rw [hd]; exact h, fun d hd' => ?_, hb⟩, hc⟩
  rw [hg] at hd'
  exact ⟨d, hd', rfl, rfl, id⟩

theorem State.FallsTo.refl (s : State) : s.FallsTo s := .of_same rfl id

theorem State.FallsTo.foldl {α : Type} {f : State → α → State} (h : ∀ (s : State) x, s.FallsTo (f s x)) (l : List α) (s : State) :
    s.FallsTo (l.foldl f s) :=
  List.foldlRecOn (motive := fun t => s.FallsTo t) l f (.refl s) (fun t ht x _ => ht.trans (h t x))

theorem State.FallsTo.of_fab {s : State} {f : Fabric} (hg : s.fab.groups = [] → f.groups = []) (hs : f.streams = s.fab.streams)
    (hr : f.routes = s.fab.routes) : s.FallsTo { s with fab := f } :=
  .of_same rfl fun h => ⟨h.cmds, h.arb, h.als, h.pair, hg h.groups, hs.trans h.streams, hr.trans h.routes⟩

theorem State.EventOnly.falls {s t : State} (h : s.EventOnly t) (hc : t.flt.counts = s.flt.counts) : s.FallsTo t := by
  refine .of_same (State.fallPart_iff.mpr ⟨by rw [h.hg], h.dev, h.host, by rw [h.mgt], hc⟩) (fun k =>
    ⟨by rw [h.hg]; exact k.cmds, by rw [h.hg]; exact k.arb, fun a => by rw [State.al, h.allots]; exact k.als a,
    by rw [h.pair]; exact k.pair, by rw [h.fab]; exact k.groups, by rw [h.fab]; exact k.streams, by rw [h.fab]; exact k.routes⟩)

theorem State.modAl_falls (s : State) (a : Nat) {f : Allot → Allot} (hf : ∀ x : Allot, x.Blank → (f x).Blank) : s.FallsTo (s.modAl a f) :=
  .of_same rfl fun h => h.modAl a hf

theorem State.setHe_falls (s : State) (h : Nat) (x : Hearth) : s.FallsTo (s.setHe h x) :=
  .of_same rfl fun k => ⟨k.cmds, k.arb, k.als, k.pair, k.groups, k.streams, k.routes⟩

/-! ## Packets that leave (R353) -/

theorem State.Emits.falls {s t : State} (h : s.Emits t) : s.FallsTo t := by
  have hmgt := congrArg State.mgt h.frame
  refine .of_same (State.fallPart_iff.mpr ⟨by rw [h.hg], h.dev, h.host, congrArg Mgmt.brownOpen hmgt, by rw [h.flt]⟩) (fun k =>
    ⟨by rw [h.hg]; exact k.cmds, by rw [h.hg]; exact k.arb, fun a => ?_, by rw [h.pair]; exact k.pair,
    h.groups.trans k.groups, h.streams.trans k.streams, h.routes.trans k.routes⟩)
  obtain ⟨hq, ho, ht, hp⟩ := k.als a
  have hqueues := congrArg Allot.queues (h.als a)
  have hobjs := congrArg Allot.objs (h.als a)
  have htokens := congrArg Allot.tokens (h.als a)
  have hprogs := congrArg Allot.progs (h.als a)
  exact ⟨hqueues.trans hq, hobjs.trans ho, htokens.trans ht, hprogs.trans hp⟩

theorem State.sendOn_falls (s : State) (peer stream allot far : Nat) (sig : W32) (ps : List (Nat × List Byte)) (served : Option Nat) :
    s.FallsTo (s.sendOn peer stream allot far sig ps served) :=
  ((State.Emits.falls (State.enqueue_emits _ _)).after (.of_fab id rfl rfl)).after (.of_fab id rfl rfl)

theorem State.sendAborts_falls (s : State) (gid index reason : Nat) : s.FallsTo (s.sendAborts gid index reason) := by
  unfold State.sendAborts
  split
  · exact .refl s
  · exact .foldl (fun t m => t.sendOn_falls _ _ _ _ _ _ _) _ s

theorem State.skipColl_falls (s : State) (gid : Nat) (g : Group) (norm : Bool) (id : Nat) : s.FallsTo (s.skipColl gid g norm id) :=
  (State.sendAborts_falls _ _ _ _).after (.of_fab (fun h => by rw [h]; rfl) rfl rfl)

theorem State.dropColl_falls (s : State) (id : Nat) : s.FallsTo (s.dropColl id) := by
  unfold State.dropColl
  split
  · exact (State.sendAborts_falls _ _ _ _).after (.of_fab (fun h => h) rfl rfl)
  · split
    · exact .refl s
    · split
      · exact .refl s
      · split
        · exact .refl s
        · split
          · exact .refl s
          · split
            · exact s.skipColl_falls _ _ _ _
            · exact s.skipColl_falls _ _ _ _
            · split
              · exact s.sendAborts_falls _ _ _
              · exact .refl s
            · exact .refl s
            · exact .refl s

/-! ## Discards, the pair and ports that go down (R307, R348, R376) -/

/-- A command that is finished is done; the others stand. -/
theorem State.finish_falls (s : State) (id : Nat) (code : Code) (detail : W32) (result : W128) : s.FallsTo (s.finish id code detail result) := by
  refine ⟨⟨rfl, rfl, rfl, fun h => h, fun d hd => ?_, fun h => ⟨?_, h.arb, h.als, h.pair, h.groups, h.streams, h.routes⟩⟩, rfl⟩
  · obtain ⟨c, hc, rfl⟩ := List.mem_map.mp hd
    refine ⟨c, hc, ?_⟩
    split
    · exact ⟨rfl, rfl, fun _ => rfl⟩
    · exact ⟨rfl, rfl, fun h => h⟩
  · have hcmds : (s.finish id code detail result).hg.cmds = s.hg.cmds.map _ := rfl
    rw [hcmds, h.cmds]
    rfl

theorem State.dropWork_falls (s : State) (id : Nat) : s.FallsTo (s.dropWork id) := by
  refine (s.dropColl_falls id).trans (.of_same rfl fun h => ⟨h.cmds, ?_, fun a => ?_, ?_, h.groups, h.streams, h.routes⟩)
  · show (s.dropColl id).hg.arb.filter _ = []
    rw [h.arb]
    rfl
  · exact h.map (f := fun x => { x with
      charges := x.charges.filter (fun c => c.kind != .buffer id && c.kind != .workspace id &&
        !(c.kind == .mirrorLog && (s.dropColl id).pair.cmd == some id && (s.dropColl id).pair.state == .binding))
      upd := { x.upd with runs := x.upd.runs.filter (fun r => r.cmd != id) } }) (fun x k => ⟨k.queues, k.objs, k.tokens, k.progs⟩) a
  · show (if (s.dropColl id).pair.cmd = some id ∧ (s.dropColl id).pair.state = .binding then PairState.unbound else (s.dropColl id).pair.state) = _
    rw [h.pair]
    exact if_neg (fun k => by cases k.2)

theorem State.markDiscarded_falls (s : State) (c : Cmd) : s.FallsTo (s.markDiscarded c) := by
  refine s.modAl_falls _ ?_
  exact fun x k => ⟨k.queues, k.objs, k.tokens, k.progs⟩

theorem State.modObj_falls (s : State) (a h : Nat) (f : Obj → Obj) : s.FallsTo (s.modObj a h f) := by
  refine s.modAl_falls _ ?_
  exact fun x k => ⟨k.queues, by rw [k.objs]; rfl, k.tokens, k.progs⟩

theorem State.discard_falls (s : State) (id : Nat) (code : Code) (source cause : Nat) : s.FallsTo (s.discard id code source cause) := by
  unfold State.discard
  split
  · split
    · exact .refl s
    · exact ((s.dropWork_falls id).trans (State.markDiscarded_falls _ _)).trans (State.finish_falls _ _ _ _ _)
  · exact .refl s

/-- The pair follows its ports: where there is one, nothing was empty. -/
theorem State.pairPorts_falls (s : State) : s.FallsTo s.pairPorts := by
  by_cases hu : s.pair.state = .unbound
  · rw [State.pairPorts_unbound hu]
    exact .refl s
  · have hp (t : State) (h : s.FallsTo t) (p : Pair) : s.FallsTo { t with pair := p } :=
      ⟨⟨h.host, h.brown, h.dev, h.halts, h.cmds, fun k => absurd k.pair hu⟩, h.counts⟩
    have hsuspend (t : State) (h : s.FallsTo t) (p : Pair) : s.FallsTo (({ t with pair := p } : State).setCondAll .suspended 1) := by
      obtain ⟨cs, hcs⟩ := ({ t with pair := p } : State).setCondAll_eq .suspended 1
      rw [hcs]
      exact ⟨⟨h.host, h.brown, h.dev, h.halts, h.cmds, fun k => absurd k.pair hu⟩, h.counts⟩
    have hquench : s.FallsTo s.quenchFail := hp _ (.foldl (fun t c => t.discard_falls c .discarded 0 5) s.pair.quenchCmds s) _
    unfold State.pairPorts
    split
    · split
      · exact .refl s
      · exact hsuspend s (.refl s) _
    · split
      · exact .refl s
      · exact hsuspend s (.refl s) _
    · split
      · have h := hp s (.refl s) { s.pair with state := .sync }
        exact ⟨⟨h.host, h.brown, h.dev, h.halts, h.cmds, fun k => absurd k.pair hu⟩, h.counts⟩
      · exact .refl s
    · split
      · exact .refl s
      · dsimp only
        split
        · exact hsuspend _ hquench _
        · exact hsuspend _ hquench _
        all_goals exact hquench
    all_goals exact .refl s

theorem State.portDown_falls (s : State) (p : Nat) : s.FallsTo (s.portDown p) := (State.pairPorts_falls _).after (.of_fab id rfl rfl)

/-! ## Fences (R414, R422) -/

theorem State.evacuate_falls (s : State) (h b : Nat) : s.FallsTo (s.evacuate h b) := by
  unfold State.evacuate
  refine .foldl (fun t a => .foldl (fun u i => ?_) _ t) allotNumbers s
  split
  · split
    · split
      · exact u.modAl_falls a (fun x k => ⟨k.queues, k.objs, k.tokens, k.progs⟩)
      · exact .refl u
    all_goals exact .refl u
  · exact .refl u

theorem State.poisonUnit_falls (s : State) (tier h unit src : Nat) : s.FallsTo (s.poisonUnit tier h unit src) := by
  refine .of_same rfl fun k => ⟨k.cmds, k.arb, fun a => ?_, k.pair, k.groups, k.streams, k.routes⟩
  refine k.mapIdx ?_ a
  exact fun i x hx => ⟨hx.queues, by rw [hx.objs]; rfl, hx.tokens, hx.progs⟩

theorem State.fenceBank_falls (s : State) (h b : Nat) : s.FallsTo (s.fenceBank h b).1 := by
  have hmoved (v : Nat) (x : Hearth) : s.FallsTo ((s.evacuate h v).setHe h x) := (s.evacuate_falls h v).trans (State.setHe_falls _ _ _)
  unfold State.fenceBank
  dsimp only
  split
  · exact .refl s
  · split
    · exact s.setHe_falls _ _
    · split
      · exact hmoved _ _
      · split
        · exact hmoved _ _
        · exact (hmoved _ _).trans (State.poisonUnit_falls _ _ _ _ _)

theorem State.fenceChannel_falls (s : State) (u : Nat) : s.FallsTo (s.fenceChannel u).1 := by
  unfold State.fenceChannel
  dsimp only
  split
  · exact .refl s
  · split
    · exact (s.setHe_falls _ _).trans (State.poisonUnit_falls _ _ _ _ _)
    · exact s.setHe_falls _ _

theorem State.withFlt_falls (s : State) (f : Faults) (h : f.counts = s.flt.counts) : s.FallsTo { s with flt := f } :=
  .of_same (State.fallPart_iff.mpr ⟨rfl, rfl, rfl, rfl, h⟩) (fun k => ⟨k.cmds, k.arb, k.als, k.pair, k.groups, k.streams, k.routes⟩)

theorem State.fenceUnit_falls (s : State) (u : Nat) : s.FallsTo (s.fenceUnit u).1 := by
  unfold State.fenceUnit
  dsimp only
  split
  · exact s.setHe_falls _ _
  · exact s.setHe_falls _ _
  · exact s.fenceBank_falls _ _
  · exact s.fenceChannel_falls _
  · exact s.withFlt_falls _ rfl
  · exact (State.portDown_falls _ _).after (s.withFlt_falls _ rfl)
  · exact s.withFlt_falls _ rfl
  · dsimp only
    exact s.modAl_falls _ (fun x k => ⟨k.queues, k.objs, k.tokens, k.progs⟩)
  · exact .refl s

theorem State.fenceStack_falls (s : State) (first : Nat) : s.FallsTo (s.fenceStack first).1 := by
  unfold State.fenceStack
  refine List.foldlRecOn (motive := fun z : State × Nat => s.FallsTo z.1) (List.range 64) _ ?_ (fun z hz c _ => ?_)
  · exact .refl s
  · exact hz.trans (z.1.fenceChannel_falls (first + c))

theorem State.noteCorrected_falls (s : State) (src : Nat) : s.FallsTo (s.noteCorrected src) := by
  unfold State.noteCorrected
  exact s.withFlt_falls _ rfl

theorem State.withMgt_falls (s : State) (m : Mgmt) (h : m.brownOpen = s.mgt.brownOpen) : s.FallsTo { s with mgt := m } :=
  .of_same (State.fallPart_iff.mpr ⟨rfl, rfl, rfl, h, rfl⟩) (fun k => ⟨k.cmds, k.arb, k.als, k.pair, k.groups, k.streams, k.routes⟩)

theorem State.journal_falls (s : State) (r : JRec) : s.FallsTo (s.journal r) := by
  unfold State.journal
  dsimp only
  split <;> exact s.withMgt_falls _ rfl

theorem State.unitFails_falls (s : State) (u reason : Nat) : s.FallsTo (s.unitFails u reason) :=
  (State.journal_falls _ _).after (s.withMgt_falls _ rfl)

theorem State.FallsTo.ite {s : State} {β : Type} {c : Prop} [Decidable c] {x y : State × β} (hx : s.FallsTo x.1) (hy : s.FallsTo y.1) :
    s.FallsTo (if c then x else y).1 := by
  split
  · exact hx
  · exact hy

theorem State.eventFence_falls (s : State) (d : Detected) (i : SrcInfo) (cls : Nat) (once : Bool) : s.FallsTo (s.eventFence d i cls once).1 := by
  unfold State.eventFence
  refine .ite (.refl s) (.ite (.refl s) (.ite (.refl s) (.ite ?_ (.ite ?_ ?_))))
  · dsimp only
    exact s.fenceStack_falls _
  · exact (State.unitFails_falls _ _ _).after (s.setHe_falls _ _)
  · dsimp only
    split
    · exact (s.fenceUnit_falls _).trans (State.unitFails_falls _ _ _)
    · exact s.fenceUnit_falls _

theorem State.eventPoison_falls (s : State) (r : Raise) (i : SrcInfo) : s.FallsTo (s.eventPoison r i).1 := by
  unfold State.eventPoison
  split
  · split
    · exact s.modObj_falls _ _ _
    · exact .refl s
  · exact .refl s

/-! ## The collector (R411 to R420) -/

theorem State.halted_falls (s : State) : s.FallsTo { s with dev := { s.dev with bootState := 2 } } :=
  ⟨⟨rfl, rfl, rfl, fun _ => rfl, fun d hd => ⟨d, hd, rfl, rfl, id⟩, fun h => ⟨h.cmds, h.arb, h.als, h.pair, h.groups, h.streams, h.routes⟩⟩, rfl⟩

/-- The discards of a halt, and what it takes of the commands and rings beside. -/
theorem State.halt_ends (s : State) (src : Nat) : ∃ u r, s.FallsTo u ∧ u.dev.bootState = 2 ∧ s.halt src = u.journal r := by
  have hdiscards : s.FallsTo (s.inFlight.foldl (fun t c => t.discard c.id .faultFatal src 0) s) := .foldl (fun t (c : Cmd) => t.discard_falls c.id .faultFatal src 0) _ s
  unfold State.halt
  extract_lets d s1 hg s2 dev s3 s4 rec0
  have h2 : s1.FallsTo s2 := by
    unfold s2
    split
    · refine ⟨⟨rfl, rfl, rfl, fun h => h, fun d hd => ⟨d, (List.mem_filter.mp hd).1, rfl, rfl, id⟩, fun h => ?_⟩, rfl⟩
      refine ⟨?_, h.arb, fun a => ?_, h.pair, h.groups, h.streams, h.routes⟩
      · show s1.hg.cmds.filter _ = []
        rw [h.cmds]
        rfl
      · refine h.map ?_ a
        exact fun x k => ⟨by rw [k.queues]; rfl, k.objs, k.tokens, k.progs⟩
    · exact .refl s1
  have h3 : s2.FallsTo s3 := s2.halted_falls
  have h4 : s3.FallsTo s4 := by
    unfold s4
    split
    · exact .of_same rfl fun k => ⟨k.cmds, k.arb, k.als, k.pair, k.groups, k.streams, k.routes⟩
    · exact .refl s3
  exact ⟨s4, _, hdiscards.trans ((h2.trans h3).trans h4), h4.halts rfl, rfl⟩

theorem State.halt_falls (s : State) (src : Nat) : s.FallsTo (s.halt src) ∧ (s.halt src).dev.bootState = 2 := by
  obtain ⟨u, r, hu, hboot, he⟩ := s.halt_ends src
  rw [he]
  exact ⟨hu.trans (u.journal_falls r), (u.journal_falls r).halts hboot⟩

/-- An event that is not log-only: a state with its fence, its poison and its records, and then the halt or the discards. -/
theorem State.latchEvent_ends (s : State) (r : Raise) (i : SrcInfo) (cls : Nat) : ∃ u hit, s.FallsTo u ∧ s.FaultSpares u ∧
    s.latchEvent r i cls = if cls = 3 then u.halt r.ev.source else List.foldl (fun t (c : Cmd) => t.discard c.id .discarded r.ev.source 0) u hit := by
  unfold State.latchEvent
  extract_lets d scope hit mem spared t causes
  have hfence := s.eventFence_falls d i cls r.once
  have hfence' := s.eventFence_spares d i cls r.once
  split
  rename_i s1 facts unit he
  rw [he] at hfence hfence'
  have hpoison := s1.eventPoison_falls r i
  have hpoison' := s1.eventPoison_spares r i
  split
  rename_i s2 pacts hq
  rw [hq] at hpoison hpoison'
  extract_lets base wide acts f s3 s4 s5 flt s6 s7 s8
  have h3 : s2.FallsTo s3 ∧ s2.FaultSpares s3 := ⟨s2.withFlt_falls _ rfl, ⟨rfl, rfl, rfl, rfl, rfl⟩, rfl⟩
  have h4 : s3.FallsTo s4 ∧ s3.FaultSpares s4 := by
    unfold s4
    split
    · exact ⟨.of_same rfl fun k => ⟨k.cmds, k.arb, k.map (fun x hx => ⟨hx.queues, hx.objs, hx.tokens, hx.progs⟩), k.pair, k.groups, k.streams, k.routes⟩,
        ⟨map_ringKinds _, rfl, rfl, rfl, rfl⟩, rfl⟩
    · exact ⟨.refl s3, .refl s3⟩
  have h5 : s4.FallsTo s5 ∧ s4.FaultSpares s5 := by
    unfold s5
    split
    · split
      · exact ⟨.of_same rfl fun k => ⟨k.cmds, k.arb, k.map (fun x hx => ⟨hx.queues, hx.objs, hx.tokens, by rw [hx.progs]; rfl⟩), k.pair, k.groups, k.streams,
          k.routes⟩, ⟨map_ringKinds _, rfl, rfl, rfl, rfl⟩, rfl⟩
      · exact ⟨.refl s4, .refl s4⟩
    · exact ⟨.refl s4, .refl s4⟩
  have h6 : s5.FallsTo s6 ∧ s5.FaultSpares s6 := by
    unfold s6
    split
    · exact ⟨s5.withFlt_falls _ rfl, ⟨rfl, rfl, rfl, rfl, rfl⟩, rfl⟩
    · exact ⟨.refl s5, .refl s5⟩
  have h8 : s6.FallsTo s8 ∧ s6.FaultSpares s8 :=
    ⟨(s6.announce_eventOnly cls causes d.source).falls (congrArg Faults.counts (s6.announce_flt cls causes d.source)),
      ((State.count_spares _ _ _ _ _ _ _).trans (State.traceAt_same _ _ _ _ _ _).spares).trans (State.settleWith_same _ _ _).spares⟩
  exact ⟨s8, hit, ((((hfence.trans hpoison).trans h3.1).trans (h4.1.trans h5.1)).trans h6.1).trans h8.1,
    ((((hfence'.trans hpoison').trans h3.2).trans (h4.2.trans h5.2)).trans h6.2).trans h8.2, rfl⟩

theorem State.latchEvent_falls (s : State) (r : Raise) (i : SrcInfo) (cls : Nat) : s.FallsTo (s.latchEvent r i cls) := by
  obtain ⟨u, hit, hu, -, he⟩ := s.latchEvent_ends r i cls
  rw [he]
  split
  · exact hu.trans (u.halt_falls _).1
  · exact hu.trans (.foldl (fun t (c : Cmd) => t.discard_falls c.id .discarded r.ev.source 0) hit u)

/-- An event at the collector: its own source is counted, if it is, and no other. -/
theorem State.raiseOne_falls (s : State) (r : Raise) : s.Fallout (s.raiseOne r) ∧
    ∀ src, src ≠ r.ev.source → lookN src (s.raiseOne r).flt.counts = lookN src s.flt.counts := by
  unfold State.raiseOne
  split
  · exact ⟨(State.FallsTo.refl s).toFallout, fun _ _ => rfl⟩
  · split
    · exact ⟨(State.FallsTo.refl s).toFallout, fun _ _ => rfl⟩
    · extract_lets src cls flt s1 s2
      have h1 : s.Fallout s1 :=
        ⟨rfl, rfl, rfl, fun h => h, fun d hd => ⟨d, hd, rfl, rfl, id⟩, fun k => ⟨k.cmds, k.arb, k.als, k.pair, k.groups, k.streams, k.routes⟩⟩
      have hcounts (n : Nat) (hn : n ≠ src) : lookN n s1.flt.counts = lookN n s.flt.counts := lookN_putN_ne hn _ _
      have h2 : s1.FallsTo s2 := by
        unfold s2
        split
        · exact s1.noteCorrected_falls src
        · exact .refl s1
      rename_i i _ _
      have hend : s1.FallsTo (if cls = 0 then (s2.eventFence r.ev i 0 r.once).1 else s2.latchEvent r i cls) := by
        split
        · exact h2.trans (s2.eventFence_falls _ _ _ _)
        · exact h2.trans (s2.latchEvent_falls _ _ _)
      exact ⟨h1.trans hend.toFallout, fun n hn => by rw [hend.counts]; exact hcounts n hn⟩

theorem State.raiseShortOf_falls (s : State) (h : Nat) : s.Fallout (s.raiseShortOf h) ∧
    ∀ src, src ≠ 0x0924 + h → lookN src (s.raiseShortOf h).flt.counts = lookN src s.flt.counts := by
  unfold State.raiseShortOf
  split
  · obtain ⟨hfall, hcounts⟩ := State.raiseOne_falls (s.modHe h (fun x => { x with raised924 := true })) { ev := event (0x0924 + h) }
    exact ⟨(s.setHe_falls h _).toFallout.trans hfall, hcounts⟩
  · exact ⟨(State.FallsTo.refl s).toFallout, fun _ _ => rfl⟩

/-- A round of the collector, whatever it raises. -/
theorem State.collect_falls (s : State) (evs : List Detected) : s.Fallout (s.collect evs) := by
  have hround (l : List Raise) (t : State) : t.Fallout (l.foldl (fun t r => t.raiseOne r) t) :=
    List.foldlRecOn (motive := fun u => t.Fallout u) l _ (State.FallsTo.refl t).toFallout (fun u hu r _ => hu.trans (u.raiseOne_falls r).1)
  unfold State.collect
  rw [State.raiseShort_eq_two]
  exact (((s.withFlt_falls { s.flt with force := [] } rfl).toFallout.trans (hround _ _)).trans (State.raiseShortOf_falls _ 0).1).trans (State.raiseShortOf_falls _ 1).1

end Sys2Proof.Machine
end

section
/-! Fault events: counted, latched, halting, ending commands (R409, R411 to R419). -/

namespace Sys2Proof.Machine

/-! ## Commands that discards end (R307, R415, R418) -/

theorem State.dropWork_cmds (s : State) (id : Nat) : (s.dropWork id).hg.cmds = s.hg.cmds := by
  have h := congrArg (fun u : State => u.hg.cmds) (s.dropColl_sends id).1
  exact h

/-- The discard of an open command is its finish, behind what ends its work. -/
theorem State.discard_open {s : State} {id : Nat} {c : Cmd} (h : s.cmd? id = some c) (ho : c.phase ≠ .done) (code : Code) (source cause : Nat) :
    ∃ (u : State) (detail : W32), u.hg.cmds = s.hg.cmds ∧ s.discard id code source cause = u.finish id code detail 0#128 := by
  unfold State.discard
  rw [h]
  simp only [if_neg ho]
  exact ⟨(s.dropWork id).markDiscarded c, _, s.dropWork_cmds id, rfl⟩

/-- A discard changes no command but its own. -/
theorem State.discard_cmd?_ne (s : State) {id j : Nat} (hj : j ≠ id) (code : Code) (source cause : Nat) :
    (s.discard id code source cause).cmd? j = s.cmd? j := by
  cases h : s.cmd? id with
  | none => rw [State.discard, h]
  | some c =>
    by_cases ho : c.phase = .done
    · rw [State.discard, h]
      simp only [if_pos ho]
    · obtain ⟨u, detail, hcmds, he⟩ := State.discard_open h ho code source cause
      rw [he, u.finish_othersStand id code detail 0#128 j hj, State.cmd?, hcmds, State.cmd?]

/-- The command stands, open or done with a code. -/
def State.EndsAs (s : State) (id : Nat) (code : Code) : Prop := ∃ d, s.cmd? id = some d ∧ d.phase = .done ∧ d.code = code

theorem State.discard_endsAs {s : State} {id : Nat} {c : Cmd} (h : s.cmd? id = some c) (ho : c.phase ≠ .done) (code : Code) (source cause : Nat) :
    (s.discard id code source cause).EndsAs id code := by
  obtain ⟨u, detail, hcmds, he⟩ := State.discard_open h ho code source cause
  have hu : u.cmd? id = some c := by rw [State.cmd?, hcmds]; exact h
  rw [he]
  exact ⟨_, (u.finish_cmd? id code detail 0#128).trans (congrArg _ hu), rfl, rfl⟩

/-- A command that is done keeps its code in every discard. -/
theorem State.EndsAs.discard {s : State} {id : Nat} {code : Code} (h : s.EndsAs id code) (j : Nat) (code' : Code) (source cause : Nat) :
    (s.discard j code' source cause).EndsAs id code := by
  obtain ⟨d, hd, hdone, hcode⟩ := h
  by_cases hj : id = j
  · subst hj
    rw [State.discard, hd]
    simp only [if_pos hdone]
    exact ⟨d, hd, hdone, hcode⟩
  · exact ⟨d, (s.discard_cmd?_ne hj code' source cause).trans hd, hdone, hcode⟩

/-- Of discards one after the other, one of an open command ends it. -/
theorem State.discards_endsAs (l : List Cmd) {s : State} {id : Nat} {c : Cmd} (h : s.cmd? id = some c) (ho : c.phase ≠ .done) (hl : ∃ d ∈ l, d.id = id)
    (code : Code) (source cause : Nat) : (l.foldl (fun t (d : Cmd) => t.discard d.id code source cause) s).EndsAs id code := by
  induction l generalizing s with
  | nil => simp at hl
  | cons d l ih =>
    rw [List.foldl_cons]
    by_cases hd : d.id = id
    · have hends := State.discard_endsAs h ho code source cause
      rw [← hd] at hends ⊢
      exact List.foldlRecOn (motive := fun t : State => t.EndsAs d.id code) l _ hends (fun t ht e _ => ht.discard e.id code source cause)
    · refine ih ((s.discard_cmd?_ne (fun k => hd k.symm) code source cause).trans h) ?_
      obtain ⟨e, he, hid⟩ := hl
      rcases List.mem_cons.mp he with rfl | he
      · exact absurd hid hd
      · exact ⟨e, he, hid⟩

/-- Where every identity is one command's, a discard leaves its command done. -/
theorem State.discard_done {s : State} (hn : (s.hg.cmds.map (·.id)).Nodup) (id : Nat) (code : Code) (source cause : Nat) :
    ∀ d ∈ (s.discard id code source cause).hg.cmds, d.id = id → d.phase = .done := by
  intro d hd hid
  cases h : s.cmd? id with
  | none =>
    obtain ⟨c, hc, hcid, -⟩ := (s.discard_falls id code source cause).cmds d hd
    exact absurd (by simp [hcid, hid]) (List.find?_eq_none.mp h c hc)
  | some c =>
    by_cases ho : c.phase = .done
    · obtain ⟨b, hb, hbid, -, hbdone⟩ := (s.discard_falls id code source cause).cmds d hd
      have hbc : b = c := List.inj_on_of_nodup_map hn hb (List.mem_of_find?_eq_some h) (by rw [hbid, hid, State.cmd?_id h])
      exact hbdone (hbc ▸ ho)
    · obtain ⟨u, detail, -, he⟩ := State.discard_open h ho code source cause
      rw [he] at hd
      obtain ⟨c', -, rfl⟩ := List.mem_map.mp hd
      split
      · rfl
      · rename_i hne
        rw [if_neg hne] at hid
        exact absurd hid hne

theorem State.discards_done (l : List Cmd) {s : State} (hn : (s.hg.cmds.map (·.id)).Nodup) (code : Code) (source cause : Nat) :
    ∀ d ∈ (l.foldl (fun t (c : Cmd) => t.discard c.id code source cause) s).hg.cmds, d.id ∈ l.map (·.id) → d.phase = .done := by
  induction l generalizing s with
  | nil => exact fun _ _ h => nomatch h
  | cons c l ih =>
    intro d hd hm
    have hids := (s.discard_spares c.id code source cause).ids
    by_cases hl : d.id ∈ l.map (·.id)
    · exact ih (hids ▸ hn) d hd hl
    · have hid : d.id = c.id := by
        rcases List.mem_cons.mp hm with h | h
        · exact h
        · exact absurd h hl
      have hfold : State.FallsTo (s.discard c.id code source cause) (l.foldl (fun t (c : Cmd) => t.discard c.id code source cause)
        (s.discard c.id code source cause)) := .foldl (fun t (c : Cmd) => t.discard_falls c.id code source cause) l _
      obtain ⟨b, hb, hbid, -, hbdone⟩ := hfold.cmds d hd
      exact hbdone (State.discard_done hn c.id code source cause b hb (hbid.trans hid))

theorem State.journal_hg (s : State) (r : JRec) : (s.journal r).hg = s.hg := by
  unfold State.journal
  dsimp only
  split <;> rfl

/-- A halt ends every command in flight. -/
theorem State.halt_done {s : State} (hn : (s.hg.cmds.map (·.id)).Nodup) {src : Nat} (h9 : bitsOf src 12 4 ≠ 9) (h10 : bitsOf src 12 4 ≠ 10) :
    ∀ d ∈ (s.halt src).hg.cmds, d.master = .allot → d.phase = .done := by
  intro d hd hmaster
  let ended := s.inFlight.foldl (fun t c => t.discard c.id .faultFatal src 0) s
  have hcmds : (s.halt src).hg.cmds = ended.hg.cmds := by
    unfold State.halt
    rw [State.journal_hg]
    simp only [h9, h10, or_self, if_false]
    split <;> rfl
  rw [hcmds] at hd
  have hended : s.FallsTo ended := .foldl (fun t (c : Cmd) => t.discard_falls c.id .faultFatal src 0) _ s
  obtain ⟨c, hc, hcid, hcm, hcdone⟩ := hended.cmds d hd
  by_cases ho : c.phase = .done
  · exact hcdone ho
  · refine State.discards_done s.inFlight hn .faultFatal src 0 d hd ?_
    refine List.mem_map.mpr ⟨c, List.mem_filter.mpr ⟨hc, ?_⟩, hcid⟩
    simp [hcm, hmaster, Cmd.open, ho]

/-! ## One event and its round (R411, R413) -/

/-- A fatal event halts the device. -/
theorem State.raiseOne_fatal {s : State} {r : Raise} {i : SrcInfo} (hi : srcInfo r.ev.source = some i) (hd : s.carries i.die = true)
    (hc : s.srcClass r.ev.source = 3) : ∃ u, s.Fallout u ∧ s.FaultSpares u ∧ s.raiseOne r = u.halt r.ev.source := by
  unfold State.raiseOne
  rw [hi]
  extract_lets src cls flt s1
  dsimp only
  rw [if_neg (by simp [hd]), if_neg (show cls ≠ 0 by rw [show cls = 3 from hc]; decide)]
  have h1 : s.Fallout s1 :=
    ⟨rfl, rfl, rfl, fun h => h, fun d hd => ⟨d, hd, rfl, rfl, id⟩, fun k => ⟨k.cmds, k.arb, k.als, k.pair, k.groups, k.streams, k.routes⟩⟩
  have h2 (s2 : State) (h : s2 = if i.kind = some 0 then s1.noteCorrected src else s1) : s.Fallout s2 ∧ s.FaultSpares s2 := by
    rw [h]
    split
    · exact ⟨h1.trans (s1.noteCorrected_falls _).toFallout, ⟨rfl, rfl, rfl, rfl, rfl⟩, rfl⟩
    · exact ⟨h1, ⟨rfl, rfl, rfl, rfl, rfl⟩, rfl⟩
  obtain ⟨hfall, hspare⟩ := h2 _ rfl
  obtain ⟨u, hit, hu, hus, he⟩ := State.latchEvent_ends (if i.kind = some 0 then s1.noteCorrected src else s1) r i cls
  rw [he, if_pos (show cls = 3 from hc)]
  exact ⟨u, hfall.trans hu.toFallout, hspare.trans hus, rfl⟩

/-- An event of a source that the module carries is counted, whatever it does. -/
theorem State.raiseOne_counts {s : State} {r : Raise} {i : SrcInfo} (hi : srcInfo r.ev.source = some i) (hd : s.carries i.die = true) :
    lookN r.ev.source (s.raiseOne r).flt.counts = min 65535 (lookN r.ev.source s.flt.counts + 1) := by
  unfold State.raiseOne
  rw [hi]
  extract_lets src cls flt s1
  dsimp only
  rw [if_neg (by simp [hd])]
  have h1 : lookN src s1.flt.counts = min 65535 (lookN src s.flt.counts + 1) := (lookN_putN_same _ _ _).trans (satTo_eq_min _ _)
  have h2 : s1.FallsTo (if i.kind = some 0 then s1.noteCorrected src else s1) := by
    split
    · exact s1.noteCorrected_falls _
    · exact .refl s1
  split
  · rw [(h2.trans (State.eventFence_falls _ r.ev i 0 r.once)).counts]
    exact h1
  · rw [(h2.trans (State.latchEvent_falls _ r i cls)).counts]
    exact h1

/-- An event that fences nothing and has no address, at class 2: it is announced, and then ends the commands in its discard scope. -/
theorem State.latchEvent_discards {s : State} {r : Raise} {i : SrcInfo} (hf : i.fence = .never) (hk : i.kind = none) (hs : i.scope = .served)
    (h0 : r.ev.source ≠ 0xF010) (h1 : r.ev.source ≠ 0xF011) :
    ∃ u : State, s.EventOnly u ∧ u.flt.severity = s.flt.severity ∧ s.latchEvent r i 2 =
      (s.inFlight.filter (s.inScope .served r.ev.served)).foldl (fun t (c : Cmd) => t.discard c.id .discarded r.ev.source 0) u := by
  have hfence : s.eventFence r.ev i 2 r.once = (s, 0, i.unit.getD 0) := by
    simp [State.eventFence, h0, h1, hf]
  have hpoison : s.eventPoison r i = (s, 0) := by
    unfold State.eventPoison
    rw [hk]
    cases r.ev.owner <;> rfl
  unfold State.latchEvent
  extract_lets d scope hit mem spared t causes
  split
  rename_i s1 facts unit he
  obtain ⟨rfl, -⟩ : s = s1 ∧ _ := Prod.mk.inj (hfence.symm.trans he)
  split
  rename_i s2 pacts hq
  obtain ⟨rfl, -⟩ : s = s2 ∧ _ := Prod.mk.inj (hpoison.symm.trans hq)
  extract_lets base wide acts f s3 s4 s5 flt s6 s7 s8
  have hscope : scope = .served := (if_neg h1).trans hs
  have h4 : s4 = s3 := if_neg (by simp [hs])
  have h5 : s5 = s4 := by
    unfold s5
    rw [hs]
  have h6 : s.EventOnly s6 ∧ s6.flt.severity = s.flt.severity := by
    unfold s6 flt
    rw [h5, h4]
    exact ⟨rfl, rfl⟩
  refine ⟨s8, h6.1.trans (s6.announce_eventOnly 2 causes d.source), ?_, ?_⟩
  · exact (congrArg Faults.severity (s6.announce_flt 2 causes d.source)).trans h6.2
  · rw [if_neg (by decide), show hit = s.inFlight.filter (s.inScope scope d.served) from rfl, hscope]

/-! ## Rows -/

/-- The fault state as a round finds it: items that crossings dropped, and warnings. -/
structure Faults.Noted (f g : Faults) : Prop where
  counts : g.counts = f.counts
  severity : g.severity = f.severity
  force : g.force = f.force
  device : g.device = f.device

/-- A round of one event that is no warning. -/
theorem execFaultEvent_one (s : State) {src : Nat} (h : warnSensor src = none) : ∃ f, s.flt.Noted f ∧
    execFaultEvent [{ source := src }] s = .next (State.collect { s with flt := f } [{ source := src }]).settle := by
  have harmed : s.rearmed { source := src } = true := by
    unfold State.rearmed
    rw [h]
  have hevs : [({ source := src } : Detected)].filter s.rearmed = [{ source := src }] := by simp [harmed]
  refine ⟨{ s.flt.dropItem src with
    warned := sortN ((s.flt.dropItem src).warned ++ [({ source := src } : Detected)].filterMap (fun d => warnSensor d.source)) }, ?_, ?_⟩
  · unfold Faults.dropItem
    split <;> exact ⟨rfl, rfl, rfl, rfl⟩
  · unfold execFaultEvent
    rw [hevs]
    rfl

theorem State.raiseShortOf_none {s : State} {h : Nat} (hn : (s.he h).newlyShort = false) : s.raiseShortOf h = s :=
  if_neg (by rw [hn]; decide)

theorem State.EventOnly.cmd? {s t : State} (h : s.EventOnly t) (id : Nat) : t.cmd? id = s.cmd? id := by rw [State.cmd?, h.hg, State.cmd?]

theorem State.raiseShorts_falls (s : State) {src : Nat} (h0 : src ≠ 0x0924) (h1 : src ≠ 0x0925) : s.Fallout ((s.raiseShortOf 0).raiseShortOf 1) ∧
    lookN src ((s.raiseShortOf 0).raiseShortOf 1).flt.counts = lookN src s.flt.counts := by
  obtain ⟨hfall0, hcounts0⟩ := State.raiseShortOf_falls s 0
  obtain ⟨hfall1, hcounts1⟩ := State.raiseShortOf_falls (s.raiseShortOf 0) 1
  exact ⟨hfall0.trans hfall1, (hcounts1 src h1).trans (hcounts0 src h0)⟩

theorem Fer.latch_valid {r : Fer} (h : r.valid = true) (f : Fer) :
    r.latch f = { r with overflow := true, maxClass := max r.maxClass f.maxClass, maxModule := (r.latch f).maxModule } := by
  simp [Fer.latch, h]

theorem Fer.latch_first {r : Fer} (h : r.valid = false) (f : Fer) : r.latch f = f := by simp [Fer.latch, h]

/-- An event of class 1 that fences nothing is counted and latched, and nothing else follows. -/
theorem execFaultEvent_quiet {s : State} {src : Nat} {i : SrcInfo} (hi : srcInfo src = some i) (hd : s.carries i.die = true) (hf : i.fence = .never)
    (hk : i.kind = none) (hc : s.srcClass src = 1) (hforce : s.flt.force = []) (hshort : ∀ h, h < 2 → (s.he h).newlyShort = false)
    (hwarn : warnSensor src = none) (h0 : src ≠ 0xF010) (h1 : src ≠ 0xF011) :
    ∃ t acts unit, execFaultEvent [{ source := src }] s = .next t ∧ t.hg = s.hg ∧ t.dev = s.dev ∧ t.allots = s.allots ∧
      lookN src t.flt.counts = min 65535 (lookN src s.flt.counts + 1) ∧
      t.flt.device = s.flt.device.latch (ferOf { ev := { source := src } } 1 acts unit s.now [] false) := by
  obtain ⟨f, hnoted, he⟩ := execFaultEvent_one s hwarn
  have hq : i.Quiet src 1 := ⟨hf, hk, .inl (by decide), h0, h1⟩
  have hcls : State.srcClass { s with flt := f } src = 1 := (State.srcClass_of_severity hnoted.severity src).trans hc
  obtain ⟨honly, hstand, hcounts, -, hdevice⟩ := State.raiseOne_quiet (s := { s with flt := f }) (r := { ev := { source := src } }) hi hd
    (by rw [hcls]; exact hq)
  obtain ⟨acts, unit, hdev⟩ := hdevice (by rw [hcls]; decide)
  rw [State.collect_one (s := { s with flt := f }) (hnoted.force.trans hforce)] at he
  generalize ({ s with flt := f } : State).raiseOne { ev := { source := src } } = u at honly hstand hcounts hdev he
  have hnone (h : Nat) (hh : h < 2) : (u.he h).newlyShort = false := (hstand.newlyShort h).trans (hshort h hh)
  rw [State.raiseShortOf_none (hnone 0 (by decide)), State.raiseShortOf_none (hnone 1 (by decide))] at he
  refine ⟨_, acts, unit, he, by rw [State.settle_hg, honly.hg], by rw [State.settle_dev, honly.dev], by rw [State.settle_allots, honly.allots], ?_, ?_⟩
  · rw [State.settle_flt, hcounts, hnoted.counts]
    exact (lookN_putN_same _ _ _).trans (satTo_eq_min _ _)
  · rw [State.settle_flt, hdev, hnoted.device, hcls]
    rfl

/-- A fatal event halts the device and leaves no command of a ring open. -/
theorem execFaultEvent_fatal {s : State} {src : Nat} {i : SrcInfo} (hi : srcInfo src = some i) (hd : s.carries i.die = true) (hc : s.srcClass src = 3)
    (hforce : s.flt.force = []) (hwarn : warnSensor src = none) (hn : (s.hg.cmds.map (·.id)).Nodup) (h9 : bitsOf src 12 4 ≠ 9)
    (h10 : bitsOf src 12 4 ≠ 10) :
    ∃ t, execFaultEvent [{ source := src }] s = .next t ∧ t.dev.bootState = 2 ∧ ∀ c ∈ t.hg.cmds, c.master = .allot → c.phase = .done := by
  obtain ⟨f, hnoted, he⟩ := execFaultEvent_one s hwarn
  obtain ⟨u, -, hspares, hhalt⟩ := State.raiseOne_fatal (s := { s with flt := f }) (r := { ev := { source := src } }) hi hd
    ((State.srcClass_of_severity hnoted.severity src).trans hc)
  have hdone := State.halt_done (s := u) (by rw [hspares.ids]; exact hn) h9 h10
  have hrest : (u.halt src).Fallout (((u.halt src).raiseShortOf 0).raiseShortOf 1) :=
    (State.raiseShortOf_falls _ 0).1.trans (State.raiseShortOf_falls _ 1).1
  rw [State.collect_one (s := { s with flt := f }) (hnoted.force.trans hforce), hhalt] at he
  refine ⟨_, he, ?_, fun c hc hm => ?_⟩
  · rw [State.settle_dev]
    exact hrest.halts (u.halt_falls src).2
  · rw [State.settle_hg] at hc
    obtain ⟨b, hb, -, hbm, hbdone⟩ := hrest.cmds c hc
    exact hbdone (hdone b hb (hbm.trans hm))

/-- The watchdog of the update engine ends the command that it serves. -/
theorem execHandshakeWatchdog_served {s : State} {id : Nat} {c : Cmd} (h : s.cmd? id = some c) (hm : c.master = .allot) (ho : c.phase ≠ .done)
    (hmild : s.Mild 0x8002) (hc : s.srcClass 0x8002 = 2) : ∃ t, execHandshakeWatchdog 0x8002 (some id) s = .next t ∧ t.EndsAs id .discarded := by
  have hid : c.id = id := State.cmd?_id h
  have hsrc : srcInfo 0x8002 = some { cls := 2, floor := 2, scope := .served } := rfl
  let counted : State := { s with flt := { s.flt with counts := putN 0x8002 (satTo 65535 (lookN 0x8002 s.flt.counts + 1)) s.flt.counts } }
  obtain ⟨u, honly, hsev, hends⟩ := State.latchEvent_discards (s := counted) (r := { ev := { source := 0x8002, served := some id } })
    (i := { cls := 2, floor := 2, scope := .served }) rfl rfl rfl (show 0x8002 ≠ 0xF010 by decide)
    (show 0x8002 ≠ 0xF011 by decide)
  have hhit : ∃ d ∈ counted.inFlight.filter (counted.inScope .served (some id)), d.id = id := by
    refine ⟨c, List.mem_filter.mpr ⟨List.mem_filter.mpr ⟨List.mem_of_find?_eq_some h, ?_⟩, ?_⟩, hid⟩
    · simp [hm, Cmd.open, ho]
    · simp [State.inScope, hid]
  have hended := State.discards_endsAs _ ((honly.cmd? id).trans h) ho hhit .discarded 0x8002 0
  have hraise : s.raiseOne { ev := { source := 0x8002, served := some id } } =
      (counted.inFlight.filter (counted.inScope .served (some id))).foldl (fun t (c : Cmd) => t.discard c.id .discarded 0x8002 0) u := by
    rw [← hends, State.raiseOne]
    rw [show srcInfo ({ ev := { source := 0x8002, served := some id } } : Raise).ev.source = _ from hsrc]
    dsimp only
    rw [hc]
    rfl
  have hsevs : (s.raiseOne { ev := { source := 0x8002, served := some id } }).flt.severity = s.flt.severity :=
    (State.raiseOne_keeps s { ev := { source := 0x8002, served := some id } }).1.severity
  have hrest := State.raiseShorts_only hmild hsevs
  refine ⟨_, by rw [execHandshakeWatchdog, if_pos (by decide), State.collect_one hmild.1], ?_⟩
  rw [hraise] at hrest ⊢
  obtain ⟨d, hd, hdone, hcode⟩ := hended
  exact ⟨d, by rw [State.settle_cmd?, hrest.cmd?, hd], hdone, hcode⟩

theorem limitSource_large {src lim : Nat} (h : limitSource src = some lim) : lim ≠ 0x0924 ∧ lim ≠ 0x0925 := by
  unfold limitSource at h
  extract_lets i at h
  have hsmall (n : Nat) (hn : bitsOf src 12 4 = n) (h0 : n ≠ 0) : 4096 ≤ src := by
    by_contra hlt
    rw [bitsOf, Nat.shiftRight_eq_div_pow, Nat.div_eq_of_lt (by omega)] at hn
    exact h0 hn.symm
  split at h
  · rename_i hn
    have := hsmall 1 hn (by decide)
    split at h
    · cases h
      omega
    · cases h
  · rename_i hn
    have := hsmall 3 hn (by decide)
    split at h
    · cases h
      omega
    · cases h
  · cases h

/-- 64 corrected events of a unit raise its limit source. -/
theorem execCorrectedEventLimit_full {s : State} {src lim : Nat} {i : SrcInfo} (hl : limitSource src = some lim) (hi : srcInfo lim = some i)
    (hd : s.carries i.die = true) (hforce : s.flt.force = []) (h64 : 64 ≤ ((look src s.flt.corrected).getD []).length) :
    ∃ t, execCorrectedEventLimit src s = .next t ∧ lookN lim t.flt.counts = min 65535 (lookN lim s.flt.counts + 1) := by
  obtain ⟨h0, h1⟩ := limitSource_large hl
  let cleared : State := { s with flt := { s.flt with corrected := del src s.flt.corrected } }
  have hcounts := State.raiseOne_counts (s := cleared) (r := { ev := event lim }) hi hd
  have hrest := (State.raiseShorts_falls (cleared.raiseOne { ev := event lim }) h0 h1).2
  refine ⟨(cleared.raise lim).settle, ?_, ?_⟩
  · unfold execCorrectedEventLimit
    rw [hl]
    exact if_pos h64
  · rw [State.settle_flt, State.raise, State.collect_one (s := cleared) hforce, hrest]
    exact hcounts

/-- A remap that is complete leaves its hearth's list. -/
theorem execRemapComplete_spec (s : State) (u : Nat) : ∃ t, execRemapComplete u s = .next t ∧ s.OnlyHearth t (unitHearth u) ∧
    (t.he (unitHearth u)).remapping = (s.he (unitHearth u)).remapping.filter (fun r => r.1 != u) := by
  refine ⟨_, rfl, ⟨rfl, fun k hk => ?_⟩, ?_⟩
  · rw [State.modHe_he, if_neg (fun h => hk h.1.symm)]
  · rw [State.modHe_he]
    split
    · rfl
    · rename_i h
      have hnone : s.he (unitHearth u) = {} := by
        simp only [State.he, List.getD_eq_getElem?_getD]
        rw [List.getElem?_eq_none (Nat.le_of_not_lt (fun k => h ⟨rfl, k⟩))]
        rfl
      rw [hnone]
      rfl

/-! ## The obligation -/

/-- Settles O48: each event by what its round latches, discards or halts, the limit and the remap by their rows. -/
theorem faultEvents : Obligations.FaultEvents := by
  refine ⟨?_, fun s src i hi hd hc hforce hwarn hn h9 h10 => execFaultEvent_fatal hi hd hc hforce hwarn hn h9 h10,
    fun s id c h hm ho _ hmild hc => ?_, fun s src served h => if_neg (by rw [h]; decide), fun s src lim i hl hi hd hforce => ⟨?_, fun h64 => ?_⟩,
    fun s u => execRemapComplete_spec s u⟩
  · intro s src i hi hd hf hk hc hforce hshort hwarn h0 h1
    obtain ⟨t, acts, unit, he, hhg, hdev, hallots, hcounts, hdevice⟩ := execFaultEvent_quiet hi hd hf hk hc hforce hshort hwarn h0 h1
    refine ⟨t, he, by rw [hhg], hdev, fun a => by rw [State.al, hallots, State.al], hcounts, fun hv => ?_, fun hv => ?_⟩
    · rw [hdevice]
      exact Fer.latch_valid hv _
    · rw [hdevice, Fer.latch_first hv]
      exact ⟨rfl, rfl, rfl, rfl, rfl, rfl⟩
  · obtain ⟨t, he, d, hd, hdone, hcode⟩ := execHandshakeWatchdog_served h hm ho hmild hc
    exact ⟨t, d, he, hd, hdone, hcode⟩
  · exact execCorrectedEventLimit_full hl hi hd hforce
  · show execCorrectedEventLimit src s = _
    unfold execCorrectedEventLimit
    rw [hl]
    exact if_neg (by omega)

end Sys2Proof.Machine
end

section
/-! A start-up leaves the host and the fuse of the seal, and a module that is empty stays empty (R431 to R444, R449). -/

namespace Sys2Proof.Machine

/-! ## The relation -/

/-- The host and the fuse of the seal stand, and what was empty is. -/
structure State.Boots (s t : State) : Prop where
  host : t.host = s.host
  sealed : t.fuse.sealed = s.fuse.sealed
  blank : s.Blank → t.Blank

theorem State.Boots.trans {s t u : State} (h : s.Boots t) (k : t.Boots u) : s.Boots u :=
  ⟨k.host.trans h.host, k.sealed.trans h.sealed, k.blank ∘ h.blank⟩

/-- What a step does after a state that it boots to. -/
theorem State.Boots.after {s t u : State} (k : t.Boots u) (h : s.Boots t) : s.Boots u := h.trans k

/-- What of a state its emptiness, the host and the fuses are. -/
def State.bootPart (s : State) : Headgate × List Allot × Pair × Fabric × HostMem × Fuses := (s.hg, s.allots, s.pair, s.fab, s.host, s.fuse)

/-- A state that differs in none of the fields in question. -/
theorem State.Boots.of_part {s t : State} (h : t.bootPart = s.bootPart) : s.Boots t := by
  obtain ⟨hg, ha, hp, hf, hh, hu⟩ : t.hg = s.hg ∧ t.allots = s.allots ∧ t.pair = s.pair ∧ t.fab = s.fab ∧ t.host = s.host ∧ t.fuse = s.fuse := by
    simpa [State.bootPart] using h
  exact ⟨hh, by rw [hu], fun h => ⟨by rw [hg]; exact h.cmds, by rw [hg]; exact h.arb, fun a => by rw [State.al, ha]; exact h.als a, by rw [hp]; exact h.pair,
    by rw [hf]; exact h.groups, by rw [hf]; exact h.streams, by rw [hf]; exact h.routes⟩⟩

theorem State.Boots.refl (s : State) : s.Boots s := .of_part rfl

/-- What events leave, where the fuses stand. -/
theorem State.Fallout.boots {s t : State} (h : s.Fallout t) (hc : t.core = s.core := by simp) : s.Boots t :=
  ⟨h.host, congrArg (fun c => c.2.2.1.sealed) hc, h.blank⟩

theorem State.Boots.foldl {α : Type} {f : State → α → State} (h : ∀ (s : State) x, s.Boots (f s x)) (l : List α) (s : State) : s.Boots (l.foldl f s) :=
  List.foldlRecOn (motive := fun t => s.Boots t) l f (.refl s) (fun t ht x _ => ht.trans (h t x))

/-- A fold that carries the state beside other things. -/
theorem State.Boots.foldl_of {α β : Type} (g : β → State) {f : β → α → β} (h : ∀ z x, (g z).Boots (g (f z x))) (l : List α) (z : β) :
    (g z).Boots (g (l.foldl f z)) :=
  List.foldlRecOn (motive := fun y => (g z).Boots (g y)) l f (.refl _) (fun y hy x _ => hy.trans (h y x))

theorem State.settle_boots (s : State) : s.Boots s.settle := .of_part (by simp [State.bootPart])

theorem State.setUnit_boots (s : State) (u b : Nat) : s.Boots (s.setUnit u b) := .of_part rfl
theorem State.setFwctl_boots (s : State) (trialB tried confirming : Bool) : s.Boots (s.setFwctl trialB tried confirming) := .of_part rfl
theorem State.runImage_boots (s : State) (b : Bool) : s.Boots (s.runImage b) := .of_part rfl
theorem State.setHe_boots (s : State) (h : Nat) (x : Hearth) : s.Boots (s.setHe h x) := .of_part rfl
theorem State.leaveOut_boots (s : State) (h : Nat) : s.Boots (s.leaveOut h) := .of_part rfl
theorem State.program_boots (s : State) (seq : Nat) (started finished : List Nat) : s.Boots (s.program seq started finished) := .of_part rfl
theorem State.cutOff_boots (s : State) (c : CutShort) (seq : Nat) : s.Boots (s.cutOff c seq) := .of_part rfl
theorem State.bootHalt_boots (s : State) (n : Nat) : s.Boots (s.bootHalt n) := .of_part rfl
theorem State.journal_boots (s : State) (r : JRec) : s.Boots (s.journal r) := (s.journal_falls r).toFallout.boots

theorem State.setCondAll_boots (s : State) (n : CondName) (level : Nat) : s.Boots (s.setCondAll n level) := by
  obtain ⟨cs, h⟩ := s.setCondAll_eq n level
  rw [h]
  exact .of_part rfl

theorem State.powerAt_boots (s : State) (n : Nat) : s.Boots (s.powerAt n) := by
  unfold State.powerAt
  refine (State.settle_boots _).after ?_
  split
  · exact .of_part rfl
  · exact (State.setCondAll_boots _ _ _).after (.of_part rfl)

theorem State.powerCond_boots (s : State) : s.Boots s.powerCond := by
  obtain h | ⟨n, h⟩ := s.powerCond_eq <;> rw [h]
  · exact .refl s
  · exact s.powerAt_boots n

/-! ## The steps (R431 to R444) -/

theorem State.bootRails_boots (s : State) (t : Trial) : s.Boots (s.bootRails t).st := by
  unfold State.bootRails
  split
  · exact .refl s
  · exact .of_part rfl

theorem State.bootManagement_boots (s : State) (t : Trial) : s.Boots (s.bootManagement t).st := by
  unfold State.bootManagement
  split
  · exact .of_part rfl
  · exact .refl s

/-- A confirmation blows fuses, and not that of the seal. -/
theorem State.finishConfirm_boots (s : State) : s.Boots s.finishConfirm := by
  unfold State.finishConfirm
  dsimp only
  split
  · have hblown (m : Mgmt) (f : Fuses) (hf : f.sealed = s.fuse.sealed) : s.Boots { s with mgt := m, fuse := f } :=
      ⟨rfl, hf, fun h => ⟨h.cmds, h.arb, h.als, h.pair, h.groups, h.streams, h.routes⟩⟩
    exact ((hblown _ _ (s.fuse.confirm_keeps s.mgt.imageB).1).trans (State.setUnit_boots _ _ _)).trans (State.setFwctl_boots _ _ _ _)
  · exact s.setFwctl_boots _ _ _

theorem State.bootImage_boots (s : State) (other : Bool) : s.Boots (s.bootImage other).st := by
  unfold State.bootImage
  split
  · exact s.runImage_boots _
  · extract_lets s1 f s2 s2' r s3
    have h1 : s.Boots s1 := by
      unfold s1
      split
      · exact s.finishConfirm_boots
      · exact .refl s
    have h2 : s1.Boots s2 := s1.setFwctl_boots _ _ _
    have h3 : s1.Boots s3 := by
      refine (State.setUnit_boots _ _ _).after ?_
      unfold s2'
      split
      · exact s1.journal_boots _
      · exact .refl s1
    refine h1.trans ?_
    split
    · split
      · exact h2.trans (s2.runImage_boots _)
      · split
        · exact h2.trans (s2.runImage_boots _)
        · exact h2
    · split
      · exact h3.trans (s3.runImage_boots _)
      · exact h3

theorem State.tryOne_boots (s : State) (t : Trial) (u alts : Nat) (optional graded : Bool) : s.Boots (s.tryOne t u alts optional graded).1 :=
  s.setUnit_boots _ _

theorem State.bootLinks_boots (s : State) (t : Trial) : s.Boots (s.bootLinks t).st := by
  unfold State.bootLinks
  split
  · exact .refl s
  · extract_lets dev s1 r
    have h1 : s.Boots s1 := .of_part rfl
    have hr : s1.Boots r.1 := s1.tryOne_boots _ _ _ _ _
    split
    · exact h1.trans (s1.setHe_boots _ _)
    · split
      · exact h1.trans (s1.leaveOut_boots _)
      · split
        · exact (h1.trans hr).trans (r.1.setHe_boots _ _)
        · exact (h1.trans hr).trans (r.1.leaveOut_boots _)

theorem Gathered.one_boots (g : Gathered) (t : Trial) (alts : Nat) (optional graded : Bool) (u : Nat) :
    g.st.Boots (g.one t alts optional graded u).st :=
  g.st.tryOne_boots t u alts optional graded

/-- The units of a step, tried one after another. -/
theorem Gathered.tries_boots (t : Trial) (alts : Nat) (optional graded : Bool) {α : Type} (f : α → Nat) (us : List α) (g : Gathered) :
    g.st.Boots (us.foldl (fun (x : Gathered) u => x.one t alts optional graded (f u)) g).st :=
  State.Boots.foldl_of Gathered.st (fun x u => x.one_boots t alts optional graded (f u)) us g

theorem State.bootHbm_boots (s : State) (t : Trial) : s.Boots (s.bootHbm t).st := by
  unfold State.bootHbm
  extract_lets n g gr reason g' s1
  have h1 : s.Boots s1 := (Gathered.tries_boots t 2 true true id _ { st := s }).trans (.of_part rfl)
  split
  · exact h1
  · split
    · exact h1.trans (s1.leaveOut_boots 1)
    · exact h1

theorem State.loseRegions_boots (s : State) : s.Boots s.loseRegions :=
  ⟨rfl, rfl, fun h => ⟨h.cmds, h.arb, h.map (fun _ k => ⟨k.queues, k.objs, k.tokens, k.progs⟩), h.pair, h.groups, h.streams, h.routes⟩⟩

theorem State.bootLpddr_boots (s : State) (t : Trial) : s.Boots (s.bootLpddr t).st := by
  unfold State.bootLpddr
  extract_lets n g gr same dev g' s1
  have h1 : s.Boots s1 := (Gathered.tries_boots t 1 true true id _ { st := s }).trans (.of_part rfl)
  refine h1.trans ?_
  show s1.Boots (if same then s1 else s1.loseRegions)
  split
  · exact .refl s1
  · exact s1.loseRegions_boots

theorem Gathered.anvils_boots (g : Gathered) (t : Trial) (h : Nat) : g.st.Boots (g.anvils t h).st := by
  unfold Gathered.anvils
  extract_lets x free r good
  split
  · exact .refl _
  · exact (State.setHe_boots r.st _ _).after (Gathered.tries_boots t 0 true false (anvilUnit h) free { g with grades := [] })

theorem State.bootAnvils_boots (s : State) (t : Trial) : s.Boots (s.bootAnvils t).st :=
  (((Gathered.anvils_boots { st := s } t 0).trans (Gathered.anvils_boots _ t 1))).trans (.of_part rfl)

theorem State.withFab_boots (s : State) (f : Fabric) (hg : f.groups = s.fab.groups) (hs : f.streams = s.fab.streams)
    (hr : f.routes = s.fab.routes) : s.Boots { s with fab := f } :=
  ⟨rfl, rfl, fun h => ⟨h.cmds, h.arb, h.als, h.pair, hg.trans h.groups, hs.trans h.streams, hr.trans h.routes⟩⟩

theorem State.spareLanes_boots (s : State) (p : Nat) : s.Boots (s.spareLanes p) := by
  refine (State.Boots.foldl (fun t l => ?_) (lanesOf p) s.freeSpares).after (s.withFab_boots _ rfl rfl rfl)
  unfold State.spareOne
  split
  · exact .refl t
  · split
    · exact t.withFab_boots _ rfl rfl rfl
    · exact .refl t

theorem State.portUp_boots (s : State) (p : Nat) : s.Boots (s.portUp p) := by
  unfold State.portUp
  exact State.Boots.after ((State.pairPorts_falls _).trans (State.pump_emits _).falls).toFallout.boots (State.withFab_boots _ _ rfl rfl rfl)

theorem State.bootPort_boots (s : State) (p : Nat) : s.Boots (s.bootPort p) := by
  unfold State.bootPort
  dsimp only
  split
  · exact (State.portUp_boots _ p).after (s.spareLanes_boots p)
  · exact State.Boots.after (State.withFab_boots _ _ rfl rfl rfl) (s.spareLanes_boots p)

theorem State.bootLanes_boots (s : State) (t : Trial) : s.Boots (s.bootLanes t).st := by
  unfold State.bootLanes
  extract_lets free g bad fab g' s1 s2
  have hg : s.Boots g.st := Gathered.tries_boots t 0 true false laneUnit free { st := s }
  have h1 : g.st.Boots s1 := g.st.withFab_boots _ rfl rfl rfl
  exact (hg.trans h1).trans (.foldl (fun u p => u.bootPort_boots p) _ s1)

theorem State.bootAllot_boots (s : State) (full : Bool) : s.Boots (s.bootAllot full) := by
  unfold State.bootAllot
  extract_lets s1 s2 mgt s3
  have h1 : s.Boots s1 := by
    refine (State.modAl_falls s 0 ?_).toFallout.boots
    exact fun x k => ⟨k.queues, k.objs, k.tokens, k.progs⟩
  have h2 : s1.Boots s2 := by
    unfold s2
    split
    · exact (State.raiseOne_falls _ _).1.boots
    · exact .refl s1
  have h3 : s2.Boots s3 := by
    unfold s3
    split
    · exact State.Boots.after ((State.collect_falls _ _).boots) (.of_part (s := s2) (t := { s2 with mgt := { s2.mgt with torn := false } }) rfl)
    · exact .refl s2
  exact ((h1.trans h2).trans h3).trans ((s3.collect_falls []).boots.trans (State.settle_boots _))

theorem State.bootHeadgate_boots (s : State) (t : Trial) (full other : Bool) : s.Boots (s.bootHeadgate t full other).1.st := by
  unfold State.bootHeadgate
  extract_lets way s1
  split
  · exact s.bootAllot_boots full
  · have h1 : s.Boots s1 := by
      unfold s1
      split
      · exact .refl s
      · exact s.setUnit_boots _ _
    split <;> exact h1

theorem State.bootHostLink_boots (s : State) (t : Trial) : s.Boots (s.bootHostLink t).st := by
  unfold State.bootHostLink
  extract_lets r
  have hr : s.Boots r.1 := s.tryOne_boots _ _ _ _ _
  split <;> exact hr.trans (.of_part rfl)

/-! ## A run (R432, R436) -/

theorem State.bootStepOf_boots (s : State) (n : Nat) (t : Trial) (full other : Bool) : s.Boots (s.bootStepOf n t full other).1.st := by
  unfold State.bootStepOf
  split
  · exact s.bootRails_boots t
  · exact s.bootManagement_boots t
  · exact s.bootImage_boots other
  · exact s.bootLinks_boots t
  · exact s.bootHbm_boots t
  · exact s.bootLpddr_boots t
  · exact s.bootAnvils_boots t
  · exact s.bootLanes_boots t
  · exact s.bootHeadgate_boots t full other
  · exact s.bootHostLink_boots t

theorem State.bootDone_boots (s : State) : s.Boots s.bootDone := by
  unfold State.bootDone
  split <;> exact .of_part rfl

theorem State.oneStep_boots (s : State) (n : Nat) (b : BootRun) : s.Boots (s.oneStep n b).1 := by
  unfold State.oneStep
  extract_lets seq us s1 r o rec1 s2
  have h1 : s.Boots s1 := s.journal_boots _
  split
  · exact h1.trans (s1.cutOff_boots _ _)
  · have h2 : s.Boots s2 := by
      refine (State.journal_boots _ _).after ?_
      have ho : s.Boots o.st := h1.trans (s1.bootStepOf_boots n b.trial b.full b.other)
      split
      · exact ho.trans (o.st.program_boots _ _ _)
      · exact ho
    split
    · exact h2.trans (s2.bootHalt_boots n)
    · split
      · exact h2.trans (.of_part rfl)
      · split
        · exact h2
        · exact h2.trans (.of_part rfl)

theorem State.runSteps_boots (fuel : Nat) (s : State) (n last : Nat) (b : BootRun) : s.Boots (State.runSteps fuel s n last b) := by
  induction fuel generalizing s n b with
  | zero => exact .refl s
  | succ fuel ih =>
    have hstep := s.oneStep_boots n b
    unfold State.runSteps
    split
    · exact s.bootDone_boots
    · split
      · exact .of_part rfl
      · split
        · exact .of_part rfl
        · dsimp only
          split
          · exact hstep.trans (ih ..)
          · exact hstep
          · exact State.Boots.after (ih ..) (hstep.trans (.of_part rfl))

theorem State.boot_boots (s : State) (n last : Nat) (t : Trial) : s.Boots (s.boot n last t) := State.runSteps_boots ..

theorem State.countCrash_boots (s : State) : s.Boots s.countCrash := by
  unfold State.countCrash
  split
  · split
    · exact .foldl (fun t u => t.setUnit_boots _ _) _ s
    · exact .refl s
  · exact .refl s

theorem State.beginStart_boots (s : State) (first : Nat) : s.Boots (s.beginStart first) := s.countCrash_boots.trans (.of_part rfl)

/-! ## A start from nothing (R431, R471) -/

/-- The module as a power-on finds it is empty. -/
theorem State.cold_blank (s : State) (keep : Bool) : (s.cold keep).Blank := by
  refine ⟨rfl, rfl, fun a => ?_, rfl, rfl, rfl, rfl⟩
  have hal : (s.cold keep).al a = State.reset.al a := rfl
  rw [hal, State.reset_al]
  exact Allot.blank_default

theorem State.startUp_boots (s : State) (keep : Bool) (t : Trial) : (s.cold keep).Boots (s.startUp keep t) := by
  unfold State.startUp
  extract_lets u v
  have hv : u.Boots v := by
    unfold v
    split
    · exact u.setCondAll_boots _ _
    · exact .refl u
  exact (((hv.trans v.powerCond_boots).trans (State.beginStart_boots _ 1)).trans (State.boot_boots _ _ _ _)).trans (State.settle_boots _)

/-- Whatever start-up finds, the module is as after its reset; the host, the seal and the serial number stand. -/
theorem State.startUp_reset (s : State) (keep : Bool) (t : Trial) : s.DeviceReset (s.startUp keep t) ∧ (s.startUp keep t).host = s.host ∧
    (s.startUp keep t).fuse.sealed = s.fuse.sealed ∧ (s.startUp keep t).dev.serial = s.dev.serial := by
  have hboots := s.startUp_boots keep t
  have hstays := s.startUp_endures keep t
  have hblank := hboots.blank (s.cold_blank keep)
  refine ⟨⟨hblank.cmds, hblank.arb, fun a => ?_, hblank.pair, hblank.groups, hblank.streams, hblank.routes, hstays.pending, hstays.variant⟩,
    hboots.host, hboots.sealed, hstays.serial⟩
  obtain ⟨hqueues, hobjs, htokens, hprogs⟩ := hblank.als a
  exact ⟨hqueues, hobjs, htokens, hprogs⟩

end Sys2Proof.Machine
end

section
/-! The input of the module: brown-outs, sags, rails that go off, and PWR_FAIL_N (R431, R471 to R473, R477). -/

namespace Sys2Proof.Machine

/-! ## The power condition and the log of the input -/

@[simp] theorem State.powerAt_dev (s : State) (n : Nat) : (s.powerAt n).dev = s.dev := by
  unfold State.powerAt
  rw [State.settle_dev]
  split
  · rfl
  · obtain ⟨cs, h⟩ := ({ s with mgt := { s.mgt with powerLimit := n } } : State).setCondAll_eq .power n
    rw [h]

@[simp] theorem State.powerCond_dev (s : State) : s.powerCond.dev = s.dev := by
  obtain h | ⟨n, h⟩ := s.powerCond_eq <;> simp [h]

/-- The condition leaves the open events of the input and the hold alone. -/
theorem State.powerCond_brown (s : State) : s.powerCond.mgt.brownOpen = s.mgt.brownOpen ∧ s.powerCond.mgt.brownHold = s.mgt.brownHold := by
  obtain ⟨n, h⟩ := s.powerCond_mgt
  rw [h]
  exact ⟨rfl, rfl⟩

/-- An event that opens keeps the time of one of its kind that is open. -/
theorem State.openBrown_look (s : State) (kind : Nat) : look kind (s.openBrown kind).mgt.brownOpen =
    (match look kind s.mgt.brownOpen with
      | some n => some n
      | none => some s.now) := by
  show look kind (if _ then _ else _) = _
  cases h : look kind s.mgt.brownOpen with
  | none => exact look_put_same _ _ _
  | some n => exact h

theorem State.openBrown_isSome (s : State) (kind : Nat) : (look kind (s.openBrown kind).mgt.brownOpen).isSome = true := by
  rw [State.openBrown_look]
  split <;> rfl

/-! ## Rails that go off -/

/-- Without main rails no command is left; the device else, the host and the fuses stand. -/
theorem State.railsOff_ends (s : State) : s.railsOff.hg.cmds = [] ∧ s.railsOff.hg.arb = [] ∧ s.railsOff.host = s.host ∧
    { s.railsOff.dev with bootState := s.dev.bootState } = { s.dev with mainRails := false, linkUp := false } := by
  have h : s.FallsTo (s.hg.cmds.foldl (fun u c => u.dropWork c.id) s) := .foldl (fun t (c : Cmd) => t.dropWork_falls c.id) _ s
  exact ⟨rfl, rfl, h.host, congrArg (fun d : Dev => { d with mainRails := false, linkUp := false }) h.dev⟩

theorem State.core_fuse {s t : State} (h : t.core = s.core) : t.fuse = s.fuse := congrArg (fun c => c.2.2.1) h

/-! ## The rows -/

variable {s : State}

/-- The input is low: its event opens, the hold stands, and the source is counted. -/
theorem execBrownOut_low {v : Nat} (hs : s.dev.standby = true) (h : 4000 ≤ v) (hv : v < 4800) (hmild : s.Mild 0xB080) :
    ∃ t, execBrownOut v s = .next t ∧ t.mgt.brownHold = true ∧
      look 0 t.mgt.brownOpen = (match look 0 s.mgt.brownOpen with
        | some n => some n
        | none => some s.now) ∧ lookN 0xB080 t.flt.counts = min 65535 (lookN 0xB080 s.flt.counts + 1) := by
  obtain ⟨hopen, hhold⟩ := (s.openBrown 0).powerCond_brown
  have hmild' : (s.openBrown 0).powerCond.Mild 0xB080 := hmild.of_flt (State.powerCond_flt _)
  obtain ⟨honly, hcounts⟩ := hmild'.raise_plain rfl (by decide) (by decide) (by decide)
  refine ⟨_, if_pos ⟨hs, h, hv⟩, ?_, ?_, ?_⟩
  · rw [State.settle_mgt, honly.mgt, hhold]
    exact Bool.or_true _
  · rw [State.settle_mgt, honly.mgt, hopen]
    exact s.openBrown_look 0
  · rw [State.settle_flt, hcounts, State.powerCond_flt]
    rfl

/-- A sag or an assertion that began ends, and its entry is written. -/
theorem execSagEnd_open {k dur v t0 : Nat} (ho : look k s.mgt.brownOpen = some t0) (hs : s.dev.standby = true) (hk : k ≠ 1 ∨ s.dev.pwrFail = false)
    (hlen : s.mgt.brownLog.length < 1024) : ∃ t, execSagEnd k dur v s = .next t ∧ look k t.mgt.brownOpen = none ∧
      t.mgt.brownLog = s.mgt.brownLog ++ [{ time := t0, durUs := min (2 ^ 32 - 1) dur, vext := v, kind := k }] := by
  refine ⟨_, by rw [execSagEnd, ho]; exact if_pos ⟨hs, hk⟩, ?_, ?_⟩
  · dsimp only
    rw [look_del, if_pos rfl]
  · dsimp only
    rw [State.passTo_mgt, pushBrown, satTo_eq_min, show s.mgt.brownLog.length + 1 - 1024 = 0 by omega, List.drop_zero]

/-- A main rail leaves regulation: the main rails are off, and no command is left. -/
theorem execMainRailsOff_on {rail : Nat} (hr : s.dev.mainRails = true) (h : rail < 24) : ∃ t, execMainRailsOff rail s = .next t ∧
    t.dev.mainRails = false ∧ t.dev.linkUp = false ∧ t.hg.cmds = [] ∧ t.hg.arb = [] ∧ t.host = s.host ∧ t.fuse = s.fuse := by
  have hraise := ((s.openBrown 0).dropAllCommands).collect_falls [event (0xB000 + 2 * rail)]
  have hdrop : (s.openBrown 0).FallsTo ((s.openBrown 0).hg.cmds.foldl (fun u c => u.dropWork c.id) (s.openBrown 0)) :=
    .foldl (fun t (c : Cmd) => t.dropWork_falls c.id) _ _
  obtain ⟨hcmds, harb, hhost, -⟩ := State.railsOff_ends (((s.openBrown 0).dropAllCommands).raise (0xB000 + 2 * rail))
  refine ⟨_, if_pos ⟨hr, h⟩, ?_, ?_, ?_, ?_, ?_, State.core_fuse (by simp)⟩
  · rw [State.powerCond_dev]
    rfl
  · rw [State.powerCond_dev]
    rfl
  · rw [State.powerCond_hg, hcmds]
  · rw [State.powerCond_hg, harb]
  · rw [(State.powerCond_boots _).host, hhost]
    exact hraise.host.trans hdrop.host

/-- The standby rail is off: every rail is. -/
theorem execStandbyRailOff_ends (s : State) : ∃ t, execStandbyRailOff s = .next t ∧ t.dev.standby = false ∧ t.dev.inputUp = false ∧
    t.dev.mainRails = false ∧ t.hg.cmds = [] ∧ t.host = s.host ∧ t.fuse = s.fuse :=
  ⟨_, rfl, rfl, rfl, rfl, rfl, s.railsOff_ends.2.2.1, State.core_fuse (by simp)⟩

/-- Above 64 V every rail is disconnected. -/
theorem execInputOvervoltage_disconnects {v : Nat} (hs : s.dev.standby = true) (h : 6400 < v) : ∃ t, execInputOvervoltage v s = .next t ∧
    t.dev.standby = false ∧ t.dev.mainRails = false ∧ t.hg.cmds = [] := by
  have h60 : 6000 < v := by omega
  exact ⟨_, (if_pos ⟨hs, h60⟩).trans (congrArg Host.Outcome.next (if_pos h)), rfl, rfl, rfl⟩

/-- A round that holds a fatal event halts the module, whatever else it holds. -/
theorem State.collect_fatal {s : State} {evs : List Detected} {d : Detected} {i : SrcInfo} (hd : d ∈ evs) (hi : srcInfo d.source = some i)
    (h0 : i.die = 0) (hc : s.srcClass d.source = 3) : (s.collect evs).dev.bootState = 2 := by
  have hforces (u : State) : u.srcClass d.source = 3 → ∀ l : List Raise, (l.foldl (fun t r => t.raiseOne r) u).srcClass d.source = 3 := fun hu l =>
    List.foldlRecOn (motive := fun t : State => t.srcClass d.source = 3) l _ hu
      (fun t ht r _ => (State.srcClass_of_severity (t.raiseOne_keeps r).1.severity _).trans ht)
  have hround (l : List Raise) (u : State) : u.Fallout (l.foldl (fun t r => t.raiseOne r) u) :=
    List.foldlRecOn (motive := fun t => u.Fallout t) l _ (State.FallsTo.refl u).toFallout (fun t ht r _ => ht.trans (t.raiseOne_falls r).1)
  have hmem : ({ ev := d } : Raise) ∈ sortBy (fun r => (r.ev.source, 0)) (evs.map (fun d => ({ ev := d } : Raise)) ++ s.forcedEvents) :=
    mem_sortBy.mpr (List.mem_append_left _ (List.mem_map.mpr ⟨d, hd, rfl⟩))
  obtain ⟨before, after, hsplit⟩ := List.append_of_mem hmem
  unfold State.collect
  dsimp only
  rw [hsplit, List.foldl_append, List.foldl_cons, State.raiseShort_eq_two]
  obtain ⟨u, -, -, hhalt⟩ := State.raiseOne_fatal (r := { ev := d }) hi (by rw [h0]; rfl)
    (hforces ({ s with flt := { s.flt with force := [] } } : State) hc before)
  rw [hhalt]
  exact (((hround after _).trans (State.raiseShortOf_falls _ 0).1).trans (State.raiseShortOf_falls _ 1).1).halts (u.halt_falls _).2

/-- Above 60 V the module halts, and the event opens. -/
theorem execInputOvervoltage_halts {v : Nat} (hs : s.dev.standby = true) (h : 6000 < v) (hv : v ≤ 6400) (hc : s.srcClass 0xB081 = 3) :
    ∃ t, execInputOvervoltage v s = .next t ∧ t.dev.bootState = 2 ∧ (look 2 t.mgt.brownOpen).isSome = true ∧ t.dev.standby = true := by
  have hfall := (s.openBrown 2).collect_falls [event 0xB081]
  have h64 : ¬ 6400 < v := by omega
  have hhalt : ((s.openBrown 2).collect [event 0xB081]).dev.bootState = 2 :=
    State.collect_fatal (d := event 0xB081) (List.mem_singleton.mpr rfl) rfl rfl hc
  refine ⟨_, (if_pos ⟨hs, h⟩).trans (congrArg Host.Outcome.next (if_neg h64)), ?_, ?_, ?_⟩
  · rw [State.settle_dev]
    exact hhalt
  · rw [State.settle_mgt, State.raise, hfall.brown]
    exact s.openBrown_isSome 2
  · rw [State.settle_dev]
    exact (congrArg Dev.standby hfall.dev).trans hs

/-- The hold ends once neither a sag nor an assertion is open. -/
theorem execPowerAttentionExpiry_ends (hh : s.mgt.brownHold = true) (ho : ∀ e ∈ s.mgt.brownOpen, e.1 = 2) (hp : s.dev.pwrFail = false) :
    ∃ t, execPowerAttentionExpiry s = .next t ∧ t.mgt.brownHold = false ∧ t.hg.cmds = s.hg.cmds := by
  have hall : s.mgt.brownOpen.all (fun e => e.1 == 2) = true := by simpa using ho
  have hends : ∃ ending, execPowerAttentionExpiry s =
      .next ({ s.passTo ending with mgt := { (s.passTo ending).mgt with brownHold := false } } : State).powerCond := by
    unfold execPowerAttentionExpiry
    exact ⟨_, if_pos ⟨hh, hall, hp⟩⟩
  obtain ⟨ending, he⟩ := hends
  refine ⟨_, he, ?_, ?_⟩
  · rw [(State.powerCond_brown _).2]
  · rw [State.powerCond_hg]
    exact congrArg Headgate.cmds (s.passTo_hg ending)

/-- PWR_FAIL_N asserts: while the standby rail is up its event opens, and attention stands. -/
theorem execPwrFailNAssert_asserts (hp : s.dev.pwrFail = false) : ∃ t, execPwrFailNAssert s = .next t ∧ t.dev.pwrFail = true ∧
    t.hg.cmds = s.hg.cmds ∧ (s.dev.standby = true → (look 1 t.mgt.brownOpen).isSome = true ∧ t.mgt.brownHold = true) := by
  let asserted : State := { s with dev := { s.dev with pwrFail := true } }
  obtain ⟨hopen, hhold⟩ := (asserted.openBrown 1).powerCond_brown
  have he : execPwrFailNAssert s = .next (if s.dev.standby then (asserted.openBrown 1).powerCond else asserted) := if_neg (by simp [hp])
  rw [he]
  split
  · refine ⟨_, rfl, by rw [State.powerCond_dev]; rfl, by rw [State.powerCond_hg]; rfl, fun _ => ⟨?_, ?_⟩⟩
    · rw [hopen]
      exact asserted.openBrown_isSome 1
    · rw [hhold]
      exact Bool.or_true _
  · rename_i h
    exact ⟨_, rfl, rfl, rfl, fun k => absurd k h⟩

/-- PWR_FAIL_N is released: what it delayed is written. -/
theorem execPwrFailNDeassert_writes (tr : Trial) (hp : s.dev.pwrFail = true) (hpaused : s.dev.paused = none) :
    ∃ t, execPwrFailNDeassert tr s = .next t ∧ t.dev.pwrFail = false ∧ t.mgt.delayed = [] ∧ t.hg.cmds = s.hg.cmds ∧
      (s.mgt.journal.length + s.mgt.delayed.length ≤ 256 → t.mgt.journal = s.mgt.journal ++ s.mgt.delayed) := by
  let released : State := { s with dev := { s.dev with pwrFail := false } }
  have hnone : released.flushDelayed.dev.paused = none := hpaused
  have he : execPwrFailNDeassert tr s = .next released.flushDelayed := by
    rw [execPwrFailNDeassert, if_pos hp]
    show Host.Outcome.next (match released.flushDelayed.dev.paused with
      | some (n, last) => _
      | none => _) = _
    rw [hnone]
  refine ⟨_, he, rfl, rfl, rfl, fun h => ?_⟩
  rw [State.flushDelayed]
  dsimp only [released]
  rw [List.length_append, show s.mgt.journal.length + s.mgt.delayed.length - 256 = 0 by omega, List.drop_zero]

/-! ## The obligation -/

/-- Settles O53: a start by what every step of it keeps, each event of the input by its row. -/
theorem powerEvents : Obligations.PowerEvents := by
  refine ⟨fun s tr h => ⟨_, if_neg (by simp [h]), s.startUp_reset false tr⟩, fun s tr h => if_pos h, fun s tr hn hr => ?_,
    fun s tr h => if_neg (by simp [h]), fun s v hs h hv hmild => execBrownOut_low hs h hv hmild, fun s v h => if_neg ?_,
    fun s k dur v t0 ho hs hk hlen => execSagEnd_open ho hs hk hlen, fun s rail hr h => execMainRailsOff_on hr h, execStandbyRailOff_ends,
    fun s v hs h => execInputOvervoltage_disconnects hs h, fun s v hs h hv hc => execInputOvervoltage_halts hs h hv hc,
    fun s hh ho hp => execPowerAttentionExpiry_ends hh ho hp, fun s hp => execPwrFailNAssert_asserts hp,
    fun s tr hp hpaused => execPwrFailNDeassert_writes tr hp hpaused⟩
  · obtain ⟨hreset, hhost, hsealed, -⟩ := s.startUp_reset s.dev.standby tr
    exact ⟨_, if_pos ⟨hn, hr⟩, hreset, hhost, hsealed⟩
  · rintro ⟨hs, hlow, hhigh⟩
    obtain h | h | h := h
    · rw [h] at hs
      cases hs
    · omega
    · omega

end Sys2Proof.Machine
end
